-- ==== Sys2Proof/Word.lean ====
section
/-!
DEFINITION. The word types of the Stolu (spec/00_scope.md, R4, R9): 16-bit data words, 32-bit pairs held low word
first, and the byte-wide code store and flash.
-/
namespace Sys2Proof

/-- A word of the data space (R4). -/
abbrev Word := BitVec 16
/-- A pair of words (R9). -/
abbrev Pair := BitVec 32
/-- A byte of the code store or of the external flash (R4, R154). -/
abbrev Byte := BitVec 8
/-- A microword of the microstore (R4). -/
abbrev Micro := BitVec 112

end Sys2Proof
end

