-- ==== Sys2Proof/Types.lean ====
section
/-!
DEFINITION. The types of the commands' operands. spec/opcode_table.json gives each row a mnemonic and a rule and no operand
and no bit; the operands are the ones the row's rule needs.
-/
namespace Sys2Proof

/-- Who makes an access of the data space: the five bus masters of R490, with the thread or the channel they act for,
and the Waili command path, which uses the debug master's port. -/
inductive Master where
  | thread (t : Fin 8)
  | tile
  | courier (c : Fin 8)
  | loop
  | debug
  | waili
deriving DecidableEq, Repr

/-- A prefix of a macro instruction with its argument byte (R350-R356). The page prefix, which the mnemonic implies, is not listed: it
is always the last. -/
inductive Prefix where
  | long | pair
  | ift (c : Byte) | iff (c : Byte)
  | far (b : Byte)
  | sat | ac1
  | sealed (n : Byte)
deriving DecidableEq, Repr

/-- The operand forms of memory (R362); without LONG a displacement is its low byte, sign-extended. -/
inductive Ea where
  | ind (n : Fin 8)
  | postInc (n : Fin 8)
  | preDec (n : Fin 8)
  | disp (n : Fin 8) (d : Word)
  | short (a : BitVec 12)
deriving DecidableEq, Repr

/-- A source operand: the register form, or the immediate form (R361); without LONG an 8-bit immediate is the low byte,
sign-extended. -/
inductive Src where
  | reg (r : Fin 16)
  | imm (v : Word)
deriving DecidableEq, Repr

/-- A one-byte operand in its register or immediate form (R378, R380, R365). -/
inductive Src8 where
  | reg (r : Fin 16)
  | imm (v : Byte)
deriving DecidableEq, Repr

/-- The two-operand arithmetic and logic instructions (R372). -/
inductive AluOp where
  | add | adc | sub | sbc | cmp | and | or | xor | tst
deriving DecidableEq, Repr

/-- The shifts (R365). -/
inductive ShOp where
  | shl | shr | sar | rol
deriving DecidableEq, Repr

/-- A macro instruction without its prefixes (R367-R383). -/
inductive Op where
  | nop | brk
  | trap (n : Byte)
  | br (cc : Fin 16) (d : Word)
  | bsr (d : Word)
  | rts
  | callm (mask : Byte) (d : Word)
  | retm
  | loop (count : Src) (e : Word)
  | wait (mask : Src)
  | signal (a : Src8)
  | seal (n : Src8)
  | unseal (n : Src8)
  | movRR (rd rs : Fin 16)
  | movRI (rd : Fin 16) (v : Word)
  | movRC (rd : Fin 16) (c : Fin 32)
  | movCR (c : Fin 32) (rs : Fin 16)
  | push (rs : Fin 16)
  | pop (rd : Fin 16)
  | alu (o : AluOp) (rd : Fin 16) (src : Src)
  | not (rd : Fin 16)
  | neg (rd : Fin 16)
  | shift (o : ShOp) (rd : Fin 16) (k : Src8)
  | mul (rs rt : Fin 16)
  | mac (rs rt : Fin 16)
  | msu (rs rt : Fin 16)
  | acldR (r : Fin 16)
  | acldM (ea : Ea)
  | acstR (round : Bool) (r : Fin 16)
  | acstM (round : Bool) (ea : Ea)
  | ld (rd : Fin 16) (ea : Ea)
  | st (rs : Fin 16) (ea : Ea)
  | ldp (rd : Fin 16) (ea : Ea)
  | stp (rs : Fin 16) (ea : Ea)
  | setm (v : Byte)
  | setbk (b : Src8)
  | stop (n : Src8)
  | eret
  | ldsg (n : Fin 16) (ea : Ea)
  | tcfg (n : Fin 8) (rp : Fin 16)
  | tldr (n : Fin 8)
  | tstr (n : Fin 8)
  | tmap (rd : Fin 16) (n : Fin 8) (rx ry : Fin 16)
  | tmac (n m : Fin 8)
  | trel (n : Fin 8)
  | user (page : Fin 2) (opcode : Byte) (operands : List Byte)
deriving DecidableEq, Repr

/-- A register operand of ACLD, ACST and ACST.R, or its memory form (R373). -/
inductive RegOrEa where
  | reg (r : Fin 16)
  | mem (ea : Ea)
deriving DecidableEq, Repr

end Sys2Proof
end

