-- ==== Sys2Proof/Syntax.lean ====
section
/-!
DEFINITION. The commands of the Stolu block.
-/
namespace Sys2Proof

/-- The commands of the block: one constructor per row of spec/opcode_table.json, in the table's order. Each docstring
is the row's rule and what the command says happened; the operands are those the rule needs. -/
inductive Instr where
  /-- POR, R99. -/
  | por (aonLost : Bool)
  /-- RESETN_LOW, R54. -/
  | resetnLow (lhead testen : Bool)
  /-- LOOPRST, R905. -/
  | looprst
  /-- START_EVENT, R97. -/
  | startEvent (fromStat lhead testen : Bool)
  /-- BOOT_START, R143. -/
  | bootStart
  /-- PLL_LOCK_SWITCH, R32. -/
  | pllLockSwitch (dt : Nat)
  /-- BOOT_LOCK_TIMEOUT, R45. -/
  | bootLockTimeout
  /-- LOCK_LOSS, R34. -/
  | lockLoss (dt : Nat) (xtalStopped : Bool)
  /-- CRYSTAL_EDGES_RETURN, R44. -/
  | crystalEdgesReturn (dt : Nat)
  /-- PLL_RELOCK, R44. -/
  | pllRelock (dt : Nat)
  /-- LIVE_TOGGLE, R60. -/
  | liveToggle
  /-- GPIO_CAPTURE_EDGE, R83. -/
  | gpioCaptureEdge (dt : Nat) (pin : Fin 17) (rising : Bool)
  /-- GPIO_DROP_READ, R83. -/
  | gpioDropRead (m : Master) (side : Bool)
  /-- REGISTER_WRITE, R16. -/
  | registerWrite (m : Master) (addr : Nat) (v : Word)
  /-- BACK_FEED_START, R94. -/
  | backFeedStart (dt : Nat)
  /-- BACK_FEED_END, R94. -/
  | backFeedEnd (dt : Nat)
  /-- LOAD_DUMP_START, R96. -/
  | loadDumpStart (dt : Nat)
  /-- LOAD_DUMP_END, R96. -/
  | loadDumpEnd (dt : Nat)
  /-- VBAT_DIP_START, R103. -/
  | vbatDipStart (dt : Nat)
  /-- VBAT_DIP_END, R103. -/
  | vbatDipEnd (dt : Nat)
  /-- HOLDUP_EXPIRY, R103. -/
  | holdupExpiry
  /-- PREREG_THERMAL_SHUTDOWN, R128. -/
  | preregThermalShutdown (dt : Nat)
  /-- PREREG_THERMAL_RESTART, R92. -/
  | preregThermalRestart (dt : Nat)
  /-- SLEEP_REQUEST, R108. -/
  | sleepRequest (m : Master) (keywake : Bool)
  /-- SLEEP_WITHDRAW, R110. -/
  | sleepWithdraw (m : Master)
  /-- SLEEP_ENTRY, R109. -/
  | sleepEntry
  /-- KEYWAKE_RELEASE, R110. -/
  | keywakeRelease (dt : Nat)
  /-- KEYWAKE_STUCK, R110. -/
  | keywakeStuck
  /-- WAKE, R112. -/
  | wake (src : Fin 4)
  /-- CHG_PWM_PERIOD, R115. -/
  | chgPwmPeriod (g : Fin 2) (openG gateG : BitVec 2)
  /-- SREF_SHORT, R118. -/
  | srefShort
  /-- SREF_ENABLE_WRITE, R119. -/
  | srefEnableWrite (m : Master) (v : Word)
  /-- AVS_STEP, R121. -/
  | avsStep
  /-- MONITOR_SCAN, R123. -/
  | monitorScan (vals : Vector Word 9) (vbLow : Bool)
  /-- ENGINE_SECOND, R129. -/
  | engineSecond
  /-- EHOURS_WRITE, R130. -/
  | ehoursWrite (m : Master) (v : Pair)
  /-- DIPS_READ, R103. -/
  | dipsRead (m : Master) (side : Bool)
  /-- ARMCMD_CHECK, R179. -/
  | armcmdCheck (m : Master)
  /-- ARMCMD_COMMIT, R181. -/
  | armcmdCommit (m : Master)
  /-- COMMIT_FLASH_POLL_DONE, R184. -/
  | commitFlashPollDone (dt : Nat)
  /-- COMMIT_FLASH_TIMEOUT, R184. -/
  | commitFlashTimeout
  /-- COMMIT_END, R185. -/
  | commitEnd
  /-- WORKING_COPY_WRITE, R178. -/
  | workingCopyWrite (m : Master) (addr : Nat) (v : Word)
  /-- MODE_RUN_REQUEST, R200. -/
  | modeRunRequest (m : Master)
  /-- MODE_SETUP_REQUEST, R203. -/
  | modeSetupRequest (m : Master)
  /-- MODE_LIMP_REQUEST, R203. -/
  | modeLimpRequest (m : Master)
  /-- REAPPLICATION_COMPLETE, R206. -/
  | reapplicationComplete
  /-- FENCE_LIFT_A, R222. -/
  | fenceLiftA (m : Master) (v : Pair)
  /-- FENCE_LIFT_B, R222. -/
  | fenceLiftB (m : Master) (v : Word)
  /-- THREAD_START, R234. -/
  | threadStart (m : Master) (t : Fin 8)
  /-- THREAD_STOP_REQUEST, R235. -/
  | threadStopRequest (m : Master) (t : Fin 8)
  /-- THREAD_STOPPED, R235. -/
  | threadStopped (dt : Nat) (t : Fin 8)
  /-- WCMT, R241. -/
  | wcmt (m : Master)
  /-- WHEEL_COMMIT_APPLY, R241. -/
  | wheelCommitApply
  /-- THREAD_TIMER_WRITE, R249. -/
  | threadTimerWrite (m : Master) (t : Fin 8) (v : Word)
  /-- THREAD_TIMER_EXPIRY, R249. -/
  | threadTimerExpiry (t : Fin 8)
  /-- THREAD_WAKE, R245. -/
  | threadWake (t : Fin 8)
  /-- WBITS_READ, R243. -/
  | wbitsRead (m : Master) (t : Fin 8) (side : Bool)
  /-- STALL_DECLARED, R252. -/
  | stallDeclared
  /-- SEALSTAT_READ, R257. -/
  | sealstatRead (m : Master) (side : Bool)
  /-- NOP, R376. -/
  | nop (t : Fin 8) (pre : List Prefix)
  /-- BRK, R376. -/
  | brk (t : Fin 8) (pre : List Prefix)
  /-- RTS, R313. -/
  | rts (t : Fin 8) (pre : List Prefix)
  /-- RETM, R316. -/
  | retm (t : Fin 8) (pre : List Prefix)
  /-- TRAP, R376. -/
  | trap (t : Fin 8) (pre : List Prefix) (n : Byte)
  /-- BSR, R313. -/
  | bsr (t : Fin 8) (pre : List Prefix) (d : Word)
  /-- CALLM, R314. -/
  | callm (t : Fin 8) (pre : List Prefix) (mask : Byte) (d : Word)
  /-- LOOP, R307. -/
  | loopOp (t : Fin 8) (pre : List Prefix) (count : Src) (e : Word)
  /-- WAIT, R244. -/
  | wait (t : Fin 8) (pre : List Prefix) (mask : Src)
  /-- SIGNAL, R247. -/
  | signalOp (t : Fin 8) (pre : List Prefix) (a : Src8)
  /-- SEAL, R256. -/
  | sealOp (t : Fin 8) (pre : List Prefix) (n : Src8)
  /-- UNSEAL, R259. -/
  | unsealOp (t : Fin 8) (pre : List Prefix) (n : Src8)
  /-- BR, R376. -/
  | br (t : Fin 8) (pre : List Prefix) (cc : Fin 16) (d : Word)
  /-- MOV_RR, R369. -/
  | movRr (t : Fin 8) (pre : List Prefix) (rd rs : Fin 16)
  /-- MOV_RI, R369. -/
  | movRi (t : Fin 8) (pre : List Prefix) (rd : Fin 16) (v : Word)
  /-- MOV_R_CR, R276. -/
  | movRCr (t : Fin 8) (pre : List Prefix) (rd : Fin 16) (c : Fin 32)
  /-- MOV_CR_R, R275. -/
  | movCrR (t : Fin 8) (pre : List Prefix) (c : Fin 32) (rs : Fin 16)
  /-- PUSH, R370. -/
  | push (t : Fin 8) (pre : List Prefix) (rs : Fin 16)
  /-- POP, R370. -/
  | pop (t : Fin 8) (pre : List Prefix) (rd : Fin 16)
  /-- ADD, R372. -/
  | addOp (t : Fin 8) (pre : List Prefix) (rd : Fin 16) (src : Src)
  /-- ADC, R372. -/
  | adc (t : Fin 8) (pre : List Prefix) (rd : Fin 16) (src : Src)
  /-- SUB, R372. -/
  | subOp (t : Fin 8) (pre : List Prefix) (rd : Fin 16) (src : Src)
  /-- SBC, R372. -/
  | sbc (t : Fin 8) (pre : List Prefix) (rd : Fin 16) (src : Src)
  /-- CMP, R372. -/
  | cmp (t : Fin 8) (pre : List Prefix) (rd : Fin 16) (src : Src)
  /-- AND, R372. -/
  | andOp (t : Fin 8) (pre : List Prefix) (rd : Fin 16) (src : Src)
  /-- OR, R372. -/
  | orOp (t : Fin 8) (pre : List Prefix) (rd : Fin 16) (src : Src)
  /-- XOR, R372. -/
  | xorOp (t : Fin 8) (pre : List Prefix) (rd : Fin 16) (src : Src)
  /-- TST, R372. -/
  | tst (t : Fin 8) (pre : List Prefix) (rd : Fin 16) (src : Src)
  /-- NOT, R372. -/
  | notOp (t : Fin 8) (pre : List Prefix) (rd : Fin 16)
  /-- NEG, R372. -/
  | negOp (t : Fin 8) (pre : List Prefix) (rd : Fin 16)
  /-- SHL, R365. -/
  | shl (t : Fin 8) (pre : List Prefix) (rd : Fin 16) (k : Src8)
  /-- SHR, R365. -/
  | shr (t : Fin 8) (pre : List Prefix) (rd : Fin 16) (k : Src8)
  /-- SAR, R365. -/
  | sar (t : Fin 8) (pre : List Prefix) (rd : Fin 16) (k : Src8)
  /-- ROL, R365. -/
  | rol (t : Fin 8) (pre : List Prefix) (rd : Fin 16) (k : Src8)
  /-- MUL, R373. -/
  | mulOp (t : Fin 8) (pre : List Prefix) (rs rt : Fin 16)
  /-- MAC, R373. -/
  | mac (t : Fin 8) (pre : List Prefix) (rs rt : Fin 16)
  /-- MSU, R373. -/
  | msu (t : Fin 8) (pre : List Prefix) (rs rt : Fin 16)
  /-- ACLD, R290. -/
  | acld (t : Fin 8) (pre : List Prefix) (x : RegOrEa)
  /-- ACST, R290. -/
  | acst (t : Fin 8) (pre : List Prefix) (x : RegOrEa)
  /-- ACST_R, R290. -/
  | acstR (t : Fin 8) (pre : List Prefix) (x : RegOrEa)
  /-- LD, R369. -/
  | ld (t : Fin 8) (pre : List Prefix) (rd : Fin 16) (ea : Ea)
  /-- ST, R503. -/
  | st (t : Fin 8) (pre : List Prefix) (rs : Fin 16) (ea : Ea)
  /-- LDP, R369. -/
  | ldp (t : Fin 8) (pre : List Prefix) (rd : Fin 16) (ea : Ea)
  /-- STP, R369. -/
  | stp (t : Fin 8) (pre : List Prefix) (rs : Fin 16) (ea : Ea)
  /-- SETM, R318. -/
  | setm (t : Fin 8) (pre : List Prefix) (v : Byte)
  /-- SETBK, R297. -/
  | setbk (t : Fin 8) (pre : List Prefix) (b : Src8)
  /-- STOP, R380. -/
  | stopOp (t : Fin 8) (pre : List Prefix) (n : Src8)
  /-- ERET, R333. -/
  | eret (t : Fin 8) (pre : List Prefix)
  /-- LDSG, R297. -/
  | ldsg (t : Fin 8) (pre : List Prefix) (n : Fin 16) (ea : Ea)
  /-- TCFG, R451. -/
  | tcfg (t : Fin 8) (pre : List Prefix) (n : Fin 8) (rp : Fin 16)
  /-- TLDR, R457. -/
  | tldr (t : Fin 8) (pre : List Prefix) (n : Fin 8)
  /-- TSTR, R457. -/
  | tstr (t : Fin 8) (pre : List Prefix) (n : Fin 8)
  /-- TMAP, R468. -/
  | tmap (t : Fin 8) (pre : List Prefix) (rd : Fin 16) (n : Fin 8) (rx ry : Fin 16)
  /-- TMAC, R470. -/
  | tmac (t : Fin 8) (pre : List Prefix) (n m : Fin 8)
  /-- TREL, R457. -/
  | trel (t : Fin 8) (pre : List Prefix) (n : Fin 8)
  /-- USER_INSTRUCTION, R421. -/
  | userInstruction (t : Fin 8) (bytes : List Byte)
  /-- INTERRUPT_TAKEN, R331. -/
  | interruptTaken (t : Fin 8)
  /-- ABORT_EXCEPTION, R332. -/
  | abortException (t : Fin 8)
  /-- STORE_DRAIN, R504. -/
  | storeDrain (dt : Nat)
  /-- STORE_HOLD_RELEASE, R505. -/
  | storeHoldRelease (t : Fin 8)
  /-- MCCMD_WRITE, R433. -/
  | mccmdWrite (m : Master)
  /-- MCCMD_READ, R443. -/
  | mccmdRead (m : Master)
  /-- TILE_FREE, R454. -/
  | tileFree (m : Master) (v : Word)
  /-- TILE_OP_COMPLETE, R466. -/
  | tileOpComplete (dt : Nat)
  /-- TILE_ROW_STOP, R464. -/
  | tileRowStop (dt row : Nat)
  /-- SPILLS_READ, R460. -/
  | spillsRead (m : Master) (side : Bool)
  /-- COUR_START, R519. -/
  | courStart (m : Master) (c : Fin 8)
  /-- DESCRIPTOR_FETCH, R513. -/
  | descriptorFetch (c : Fin 8)
  /-- COURIER_UNIT_MOVE, R521. -/
  | courierUnitMove (dt : Nat) (delivered : Bool)
  /-- COURIER_FLASH_GRANT, R522. -/
  | courierFlashGrant (c : Fin 8)
  /-- COURIER_FLASH_POLL_DONE, R523. -/
  | courierFlashPollDone (dt : Nat) (c : Fin 8)
  /-- COURIER_FLASH_TIMEOUT, R523. -/
  | courierFlashTimeout (c : Fin 8)
  /-- DESCRIPTOR_END, R517. -/
  | descriptorEnd (c : Fin 8)
  /-- MEMC_COUNTER_READ, R538. -/
  | memcCounterRead (m : Master) (idx : Fin 12) (side : Bool)
  /-- INTC_EVENT, R541. -/
  | intcEvent (dt : Nat) (src : Fin 96)
  /-- CLAIM, R544. -/
  | claim (m : Master) (t : Fin 8) (side : Bool)
  /-- COMPL, R547. -/
  | compl (m : Master) (t : Fin 8) (v : Word)
  /-- PENDSET, R564. -/
  | pendset (m : Master) (w : Fin 6) (v : Word)
  /-- PENDCLR, R564. -/
  | pendclr (m : Master) (w : Fin 6) (v : Word)
  /-- MASKSET, R562. -/
  | maskset (m : Master) (w : Fin 6) (v : Word)
  /-- MASKCLR, R569. -/
  | maskclr (m : Master) (w : Fin 6) (v : Word)
  /-- MODERATION_EXPIRY, R555. -/
  | moderationExpiry (g : Fin 12)
  /-- MODERATION_BYPASS, R555. -/
  | moderationBypass (g : Fin 12)
  /-- RUNAWAY_WINDOW, R558. -/
  | runawayWindow
  /-- SPUR_READ, R544. -/
  | spurRead (m : Master) (side : Bool)
  /-- CRANK_EDGE, R587. -/
  | crankEdge (dt : Nat) (peak : Byte)
  /-- TOOTH, R606. -/
  | tooth
  /-- CAM_EDGE, R600. -/
  | camEdge (dt : Nat) (peak : Byte)
  /-- STALL_TIMEOUT, R613. -/
  | stallTimeout
  /-- CYCLE_BOUNDARY, R612. -/
  | cycleBoundary
  /-- PHCMD_CONFIRM, R598. -/
  | phcmdConfirm (m : Master)
  /-- PHCMD_FLIP, R598. -/
  | phcmdFlip (m : Master)
  /-- WHEEL_WRITE, R583. -/
  | wheelWrite (m : Master) (v : Word)
  /-- ANG_COUNTER_READ, R587. -/
  | angCounterRead (m : Master) (idx : Fin 2) (side : Bool)
  /-- EVT_ALLOC, R635. -/
  | evtAlloc (m : Master)
  /-- EVT_ARM, R636. -/
  | evtArm (m : Master) (n : Fin 512)
  /-- EVT_CANCEL, R635. -/
  | evtCancel (m : Master) (n : Fin 512)
  /-- EVT_RELEASE, R635. -/
  | evtRelease (m : Master) (n : Fin 512)
  /-- EVT_QUERY, R635. -/
  | evtQuery (m : Master) (n : Fin 512)
  /-- ENTRY_WRITE, R637. -/
  | entryWrite (m : Master) (n : Fin 512) (idx : Fin 4) (v : Word)
  /-- KPART_WRITE, R633. -/
  | kpartWrite (m : Master) (v : Word)
  /-- ENTRY_DUE, R641. -/
  | entryDue (n : Fin 512)
  /-- ENTRY_FIRE, R645. -/
  | entryFire (dt : Nat) (peak : Byte)
  /-- WINDOW_CLOSE, R644. -/
  | windowClose (n : Fin 512) (peak : Byte)
  /-- PULSE_END, R647. -/
  | pulseEnd (target : BitVec 6) (peak : Byte)
  /-- EVT_COUNTER_READ, R643. -/
  | evtCounterRead (m : Master) (idx : Fin 5) (side : Bool)
  /-- CONVERSION_END, R671. -/
  | conversionEnd (k : Fin 2) (code : BitVec 14)
  /-- CONVERSION_START, R674. -/
  | conversionStart (dt : Nat) (k : Fin 2)
  /-- TIME_TRIGGER, R680. -/
  | timeTrigger (k : Fin 2)
  /-- SWSEQ_WRITE, R681. -/
  | swseqWrite (m : Master) (k : Fin 2) (mask : BitVec 24)
  /-- KNOCK_SAMPLE, R684. -/
  | knockSample (n : Fin 2) (x : Word)
  /-- KFIFO_READ, R687. -/
  | kfifoRead (m : Master) (n : Fin 2) (side : Bool)
  /-- RES_READ, R671. -/
  | resRead (m : Master) (c : Fin 24) (side : Bool)
  /-- ION_SAMPLE, R688. -/
  | ionSample (n : Fin 4)
  /-- SELFTEST_ROUND_START, R692. -/
  | selftestRoundStart (dt : Nat) (k : Fin 2)
  /-- SELFTEST_STARVED, R695. -/
  | selftestStarved (k : Fin 2)
  /-- ADC_COUNTER_READ, R679. -/
  | adcCounterRead (m : Master) (idx : Fin 8) (side : Bool)
  /-- SWCMD_ON, R713. -/
  | swcmdOn (m : Master) (target : BitVec 6)
  /-- SWCMD_OFF, R713. -/
  | swcmdOff (m : Master) (target : BitVec 6) (peak : Byte)
  /-- MAX_DWELL, R718. -/
  | maxDwell (n : Fin 4)
  /-- IGN_SHORT, R719. -/
  | ignShort (dt : Nat) (n : Fin 4)
  /-- SOFT_TURNOFF_END, R721. -/
  | softTurnoffEnd (n : Fin 4)
  /-- INJ_PEAK_END, R724. -/
  | injPeakEnd (dt : Nat) (n : Fin 4) (timeout flows : Bool)
  /-- PWM_PERIOD, R727. -/
  | pwmPeriod (n : Fin 4)
  /-- HSD_SHORT, R728. -/
  | hsdShort (dt : Nat) (n : Fin 2)
  /-- STEPPER_STEP, R730. -/
  | stepperStep
  /-- STEPPER_HOLD, R730. -/
  | stepperHold
  /-- STEPCMD_HOME, R732. -/
  | stepcmdHome (m : Master)
  /-- HOMING_END, R732. -/
  | homingEnd
  /-- BRIDGE_OPEN_CHECK, R733. -/
  | bridgeOpenCheck (dt : Nat) (n : Fin 2) (below : Bool)
  /-- CURRENT_LIMIT_SHORT, R736. -/
  | currentLimitShort (dt : Nat) (idx : Fin 16)
  /-- OVER_TEMPERATURE, R736. -/
  | overTemperature (dt : Nat) (idx : Fin 16) (tripped : Bool)
  /-- DIAG_CLEAR, R737. -/
  | diagClear (m : Master) (idx : Fin 16) (v : Word)
  /-- OLT_ROUND, R740. -/
  | oltRound (opens : Word)
  /-- KERNEL_COMMIT, R756. -/
  | kernelCommit (k : Fin 8) (n : Fin 4)
  /-- PIGEONHOLE_REQUEST, R781. -/
  | pigeonholeRequest (k : Fin 8) (n : Fin 4)
  /-- PIGEONHOLE_FILL, R782. -/
  | pigeonholeFill (m : Master) (k : Fin 8) (n : Fin 4) (pair : Bool) (v : Pair)
  /-- MREQ, R777. -/
  | mreq (m : Master) (v : Word)
  /-- KERN_COUNTER_READ, R784. -/
  | kernCounterRead (m : Master) (idx : Fin 9) (side : Bool)
  /-- WAILI_CHARACTER, R805. -/
  | wailiCharacter (dt : Nat) (c : Byte) (stopOk : Bool)
  /-- WAILI_BREAK, R806. -/
  | wailiBreak (dt : Nat)
  /-- ID, R827. -/
  | idCmd
  /-- PING, R827. -/
  | ping
  /-- HELP, R827. -/
  | help
  /-- ECHO, R827. -/
  | echo
  /-- STRICT, R818. -/
  | strict
  /-- BAUD, R827. -/
  | baud
  /-- BOOT, R827. -/
  | bootCmd
  /-- STAT, R827. -/
  | statCmd
  /-- RD, R828. -/
  | rd
  /-- RDX, R828. -/
  | rdx
  /-- RD32, R828. -/
  | rd32
  /-- WR, R828. -/
  | wr
  /-- WR32, R828. -/
  | wr32
  /-- WAILI_MODE, R830. -/
  | wailiMode
  /-- WAILI_MODE_RUN, R831. -/
  | wailiModeRun
  /-- WAILI_MODE_SETUP, R831. -/
  | wailiModeSetup
  /-- WAILI_MODE_LIMP, R831. -/
  | wailiModeLimp
  /-- CFG_STAT, R830. -/
  | cfgStat
  /-- CFG_GET, R830. -/
  | cfgGet
  /-- CFG_SET, R830. -/
  | cfgSet
  /-- CFG_CHECK, R833. -/
  | cfgCheck
  /-- CFG_COMMIT, R834. -/
  | cfgCommit
  /-- FAULT, R835. -/
  | faultCmd
  /-- FAULT_CLR, R957. -/
  | faultClr
  /-- ABORT, R835. -/
  | abortCmd
  /-- FL_ID, R836. -/
  | flId
  /-- FL_RD, R836. -/
  | flRd
  /-- FL_ER, R836. -/
  | flEr
  /-- FL_PG, R836. -/
  | flPg
  /-- USR, R839. -/
  | usr
  /-- UTX, R842. -/
  | utx (m : Master) (c : Byte)
  /-- UEND, R840. -/
  | uend (m : Master) (v : Word)
  /-- NOFW, R841. -/
  | nofw
  /-- PROGRESS_LINE, R822. -/
  | progressLine
  /-- ROUTED_LINE, R844. -/
  | routedLine
  /-- ROUTED_LINE_RECEIVED, R846. -/
  | routedLineReceived
  /-- ROUTED_ANSWER, R847. -/
  | routedAnswer
  /-- NOUNIT, R848. -/
  | nounit
  /-- WAILI_ERR_READ, R806. -/
  | wailiErrRead (m : Master) (hi side : Bool)
  /-- ROUND_START, R876. -/
  | roundStart
  /-- OUT_LEG_START, R875. -/
  | outLegStart (dt : Nat) (h0 h1 h2 h3 : Word)
  /-- BACK_LEG, R896. -/
  | backLeg (dt : Nat) (ldrx : Bool) (turn : Nat) (h0 h1 h2 h3 : Word) (slots : List (Vector Word 8)) (t0 t1 : Word)
  /-- FOLD_TIMEOUT, R879. -/
  | foldTimeout
  /-- ENUMERATION, R883. -/
  | enumeration (dt : Nat) (slot : Option (Fin 64))
  /-- LOOP_ENUMERATE, R884. -/
  | loopEnumerate (m : Master)
  /-- SECOND_HEAD, R882. -/
  | secondHead (dt : Nat)
  /-- SILENT, R901. -/
  | silent
  /-- LOOP_EPOCH, R890. -/
  | loopEpoch
  /-- RSTREQ, R904. -/
  | rstreq (m : Master) (v : Word)
  /-- LOOP_ERR_READ, R896. -/
  | loopErrRead (m : Master) (idx : Fin 3) (side : Bool)
  /-- CAN_MODE_WRITE, R918. -/
  | canModeWrite (m : Master) (k : Fin 2) (v : Word)
  /-- CAN_INTEGRATED, R918. -/
  | canIntegrated (dt : Nat) (k : Fin 2)
  /-- CAN_FRAME_RECEIVED, R923. -/
  | canFrameReceived (dt : Nat) (k : Fin 2) (id : BitVec 29) (ide rtr fdf brs esi : Bool) (dlc : BitVec 4) (data : List Byte)
  /-- TXREQ, R924. -/
  | txreq (m : Master) (k : Fin 2) (v : Pair)
  /-- CAN_TX_DONE, R925. -/
  | canTxDone (dt : Nat) (k : Fin 2) (delay : BitVec 7)
  /-- TXCAN, R926. -/
  | txcan (m : Master) (k : Fin 2) (v : Pair)
  /-- CAN_ERROR, R927. -/
  | canError (dt : Nat) (k : Fin 2) (px dataPhase : Bool) (code : BitVec 3) (tx special : Bool)
  /-- BUS_OFF_RECOVERED, R921. -/
  | busOffRecovered (dt : Nat) (k : Fin 2)
  /-- CAN_COUNTER_READ, R927. -/
  | canCounterRead (m : Master) (k : Fin 2) (idx : Fin 3) (side : Bool)
  /-- TXD, R935. -/
  | txd (m : Master) (b : Byte)
  /-- KLINE_BYTE_SENT, R935. -/
  | klineByteSent (dt : Nat) (echo : Byte) (fe : Bool)
  /-- KLINE_BYTE_RECEIVED, R935. -/
  | klineByteReceived (dt : Nat) (b : Byte) (fe : Bool)
  /-- RXD, R935. -/
  | rxd (m : Master) (side : Bool)
  /-- KLINE_FAST, R936. -/
  | klineFast (m : Master)
  /-- KLINE_5BAUD, R936. -/
  | kline5baud (m : Master)
  /-- KLINE_CANCEL, R936. -/
  | klineCancel (m : Master)
  /-- KLINE_INIT_END, R936. -/
  | klineInitEnd (dt : Nat) (fiveBaud : Bool) (result : Byte) (bitTime : Nat) (kb1 kb2 adr : Byte)
  /-- FAULT_HANDLE, R951. -/
  | faultHandle
  /-- FSW_ACK, R955. -/
  | fswAck (m : Master) (v : Word)
  /-- FSW_CLEAR, R956. -/
  | fswClear (m : Master) (v : Word)
  /-- HCLR, R962. -/
  | hclr (m : Master)
  /-- WDSVC, R964. -/
  | wdsvc (m : Master)
  /-- WATCHDOG_EARLY, R965. -/
  | watchdogEarly
  /-- WATCHDOG_EXPIRY, R966. -/
  | watchdogExpiry (lhead testen : Bool)
  /-- ABCMD, R968. -/
  | abcmd (m : Master) (v : Word)
  /-- ABORT_REACHED, R971. -/
  | abortReached (kind : Fin 8) (idx : Fin 512)
  /-- DUMP, R973. -/
  | dumpWrite (m : Master)
  /-- DUMP_END, R977. -/
  | dumpEnd
  /-- LINE_RESET, R993. -/
  | lineReset
  /-- XRD, R1009. -/
  | xrd (req : BitVec 29)
  /-- XWR, R1009. -/
  | xwr (req : BitVec 29) (data : Pair) (dpar : Bool)
  /-- DRD, R1011. -/
  | drd (req : BitVec 29) (late : Bool)
  /-- DWR, R1011. -/
  | dwr (req : BitVec 29) (data : Pair) (dpar late : Bool)
  /-- CHISEL_ACCESS_DONE, R998. -/
  | chiselAccessDone (dt : Nat)
  /-- HALT, R1013. -/
  | haltReq (n : Fin 8)
  /-- THREAD_HALTED, R1013. -/
  | threadHalted (dt : Nat) (t : Fin 8)
  /-- RESUME, R1015. -/
  | resume (n : Fin 8)
  /-- STEP, R1016. -/
  | stepThread (n : Fin 8) (noint : Bool)
  /-- RDATA, R1017. -/
  | rdata (wr : Bool) (v : Word)
  /-- CDAT, R1012. -/
  | cdat (wr : Bool) (v : Word)
  /-- VTIN, R1030. -/
  | vtin (c : Byte)
  /-- VTOUT, R1030. -/
  | vtout
  /-- VTRX, R1030. -/
  | vtrx (m : Master)
  /-- VTTX, R1030. -/
  | vttx (m : Master) (c : Byte)
  /-- STAMP, R1031. -/
  | stamp (m : Master) (p : Fin 16) (v : Word)
  /-- UNLOCK_ATTEMPT, R1004. -/
  | unlockAttempt
  /-- RELOCK, R1006. -/
  | relock
  /-- LOCKOUT_END, R1005. -/
  | lockoutEnd
  /-- OTP_PROGRAM_IMAGE_KEY, R1007. -/
  | otpProgramImageKey
  /-- OTP_PROGRAM_DEBUG_KEY, R1007. -/
  | otpProgramDebugKey
  /-- OTP_SET_AUTHEN, R1007. -/
  | otpSetAuthen
  /-- OTP_SET_DBGLOCK, R1007. -/
  | otpSetDbglock
  /-- OTP_COMMAND_END, R1008. -/
  | otpCommandEnd (dt : Nat) (ok : Bool)
  /-- POSTMARK_COMPARE, R1048. -/
  | postmarkCompare (n : Fin 4)
  /-- CRYSTAL_EDGES_LOST, R44. -/
  | crystalEdgesLost (dt : Nat) (xtalStopped : Bool)
  /-- VB_SOURCE_CHANGE, R91. -/
  | vbSourceChange (dt : Nat) (fromStat : Bool)
  /-- SREF_CURRENT_LIMIT, R118. -/
  | srefCurrentLimit (dt : Nat) (entered : Bool)
  /-- WTX_CHARACTER_SENT, R842. -/
  | wtxCharacterSent (dt : Nat)
  /-- WAILI_FLASH_POLL_END, R838. -/
  | wailiFlashPollEnd (dt : Nat) (idle : Bool)
  /-- CAN_ARBITRATION_LOST, R925. -/
  | canArbitrationLost (dt : Nat) (k : Fin 2)
  /-- RMISS_PERIOD, R901. -/
  | rmissPeriod
deriving DecidableEq, Repr

end Sys2Proof
end

