-- ==== Sys2Proof/Decode.lean ====
section
/-!
DEFINITION. The words of spec/opcode_table.json. The block is commanded from outside; the table gives its rows no bits.
The bytes of a macro instruction, which a thread fetches from the code store, are Machine/Codec.lean's.
-/

namespace Sys2Proof

/-- The command a table word spells: none, since no row has bits. -/
def decodeTableWord (_nbits _w : Nat) : Option Instr := none

end Sys2Proof
end

