-- ==== Sys2Proof/Config.lean ====
section
/-!
DEFINITION. What an implementation fixes and the spec leaves open: free values. Each is an uninterpreted function of
the state's counter `free`, so no proof can see a value; every claim holds whatever it is.
-/
namespace Sys2Proof.Config

/-- A 16-bit word the spec leaves undefined. -/
opaque freeWord : Nat → Word
/-- A 32-bit value the spec leaves undefined. -/
opaque freePair : Nat → Pair
/-- A byte of flash left with undefined contents by a cut command (R525, R187). -/
opaque freeByte : Nat → Byte
/-- The entropy source behind the debug challenge (R1004). -/
opaque freeChallenge : Nat → BitVec 128
/-- A choice the spec leaves open. -/
opaque freeBool : Nat → Bool

end Sys2Proof.Config
end

