-- ==== Sys2Proof/Machine/Parts.lean ====
section
/-!
DEFINITION. The parts of the state, as plain data. INVENTORY.md lists every piece with the rule that names it.
-/
namespace Sys2Proof.Machine

/-- The major modes (R197). -/
inductive Mode where
  | setup | run | limp
deriving DecidableEq, Repr

/-- A mode request (R198, R199). -/
inductive ModeReq where
  | run | setup | limp
deriving DecidableEq, Repr

/-- The supply of the chip: rails up, rails below the POR thresholds, or asleep with only AON running (R99, R109). -/
inductive Power where
  | up | down | asleep
deriving DecidableEq, Repr

/-- The reset kinds of R21. -/
inductive ResetKind where
  | por | warm | looprst
deriving DecidableEq, Repr

/-- How far the boot microcode has come (R143, R147). -/
inductive BootStage where
  | notStarted
  /-- Waiting at B5 for the PLL lock or the lock timeout (R148). -/
  | waitLock
  | finished
deriving DecidableEq, Repr

/-- What a fault can name: the unit of a fence bit (bits 0-31 of SYS.FENCEA, then 32 + bit of SYS.FENCEB; bits 16 and 17
stand for TH0 and TH1, which are never fenced), or an Event Table entry (R219). -/
inductive FUnit where
  | bit (i : Fin 48)
  | entry (e : Fin 512)
deriving DecidableEq, Repr

/-- A raise on an error line (R945), waiting to be handled. -/
structure Raise where
  cls : Fin 16
  bmin : Nat := 0
  detail : Word := 0
  unit : Option FUnit := none
  note : Bool := false
deriving DecidableEq, Repr

/-- A history entry (R960). -/
structure HistEntry where
  stamp : BitVec 48
  cls : Fin 16
  esc : Bool
  level : Nat
  fen : Bool
  detail : Word
deriving DecidableEq, Repr

/-- The interrupt controller's source bits, held sources and timers (R540-R558). `newPend` and `newEv` are the sources
that became pending, or had an event, in tick `evTick` (R566, R567). -/
structure Intc where
  raw : BitVec 96 := 0
  pend : BitVec 96 := 0
  act : BitVec 96 := 0
  apend : BitVec 96 := 0
  mask : BitVec 96 := BitVec.allOnes 96
  held : Vector (Option (Fin 96)) 8 := Vector.replicate 8 none
  modDue : Vector (Option Nat) 12 := Vector.replicate 12 none
  counts : Vector Nat 96 := Vector.replicate 96 0
  evTick : Nat := 0
  newPend : BitVec 96 := 0
  newEv : BitVec 96 := 0
deriving DecidableEq, Repr

/-- Bits of a register word that hardware set in tick `tick`: all of them, and those that were 0 before (R25, R26). -/
structure HwBits where
  addr : Nat
  set : Word
  fresh : Word
deriving DecidableEq, Repr

/-- Counts that hardware added to a counter field in tick `tick` (R26). -/
structure HwCount where
  addr : Nat
  lo : Nat
  len : Nat
  before : Nat
  added : Nat
deriving DecidableEq, Repr

/-- What hardware did to software-clearable bits and counters in the tick named; void in any later tick (R25-R27). -/
structure HwTick where
  tick : Nat := 0
  bits : List HwBits := []
  counts : List HwCount := []
  /-- Words hardware replaced this tick, as they read before (R84, R701). -/
  olds : List (Nat × Word) := []
deriving DecidableEq, Repr

/-- The combinational lines, recomputed at the end of every step: event bit 8 of each thread (R542), the FAULT pin
(R63, R958) and the output stages whose pin is driven on (R52, R53, R219). -/
structure Lines where
  irq : BitVec 8 := 0
  faultLow : Bool := true
  stageOn : BitVec 16 := 0
deriving DecidableEq, Repr

/-- The boot microcode (R143-R148). `slow` is set when the lock timeout expired. -/
structure Boot where
  stage : BootStage := .notStarted
  kind : ResetKind := .por
  step : Nat := 0
  lockDue : Nat := 0
deriving DecidableEq, Repr

/-- One monitor channel's runs of scans (R124, R125). -/
structure MonRun where
  outRun : Nat := 0
  inRun : Nat := 0
  raised : Bool := false
deriving DecidableEq, Repr

/-- The Plinth beside its registers (R91-R142) and the pin levels it drives or watches: when the holdup timer, the 10 s of
a pending sleep request and the 10 ms of an SREF current limit end, what is logged once per POR, the wake latches, KEYWAKE's
level as last seen, the turning ticks of R129, the due ticks of the next scan and AVS step, each GPIO pin's level and last accepted edge, and LIVE. -/
structure Plinth where
  holdDue : Option Nat := none
  bfeedDone : Bool := false
  keyStuckLogged : Bool := false
  avsLogged : Bool := false
  sleepDue : Option Nat := none
  sleepGo : Bool := false
  srefDue : Option Nat := none
  srefOn : Bool := true
  wakeLatch : BitVec 4 := 0
  wakeMet : BitVec 4 := 0
  keywake : Bool := false
  cstby : Bool := true
  turnTicks : Nat := 0
  mon : Vector MonRun 9 := Vector.replicate 9 {}
  scanDue : Nat := 40000
  avsDue : Nat := 160000
  gpioIn : BitVec 17 := 0
  gpioEdge : Vector (Option Nat) 17 := Vector.replicate 17 none
  livePin : Bool := false
  liveLast : Nat := 0
deriving DecidableEq, Repr

/-- A transition out of SETUP while the re-application of R180 runs (R206, R1060). `l3` is the class of an L3 fault
handled meanwhile, or of a Loop policy, as LSRC and LCAUSE; `byW` and `waitW` mark a request of the Waili command MODE. -/
structure Reapply where
  target : Mode
  lsrc : Nat
  lcause : Nat
  l3 : Option (Nat × Nat) := none
  waiting : Option ModeReq := none
  byW : Bool := false
  waitW : Bool := false
deriving DecidableEq, Repr

/-- The mode state (R197-R227), the class that set each fence, the lifted units that return at the next cycle boundary
(R222), and the tick LIMP last became RUN (R226); `waitW` marks a waiting request of the Waili command MODE. -/
structure Modes where
  mode : Mode := .setup
  bootsu : Bool := false
  pend : Bool := false
  lsrc : Nat := 0
  lcause : Nat := 0
  waitCommit : Option ModeReq := none
  waitW : Bool := false
  reapply : Option Reapply := none
  fenceCls : List (Nat × Nat) := []
  returning : List Nat := []
  runTick : Option Nat := none
deriving DecidableEq, Repr

/-- An abort in progress: its target and the requesters (0-7 threads, 8 the debug master and Waili) (R967-R972). -/
structure AbortReq where
  kind : Nat
  idx : Nat
  reqs : List Nat
deriving DecidableEq, Repr

/-- The Fault Collector beside its registers (R945-R990). -/
structure Fcol where
  raises : List Raise := []
  hist : List HistEntry := []
  wdDue : Option Nat := none
  wdEarly : Bool := false
  aborts : List AbortReq := []
  /-- An abort of TH0 requested while DUMP runs waits for its end (R986). -/
  abortWait : List AbortReq := []
  /-- SEQ of the dump that runs (R973-R977). -/
  dump : Option Word := none
deriving DecidableEq, Repr

/-- A store-buffer entry (R503). -/
structure SbEntry where
  addr : Nat
  pair : Bool
  data : Pair
  thread : Fin 8
deriving DecidableEq, Repr

/-- The scratchpad words, those whose parity bit is wrong, and the store buffer (R484-R506). -/
structure Mem where
  spad : List (Nat × Word) := []
  parBad : List Nat := []
  sbuf : List SbEntry := []
  /-- The writes of tick `wTick`: master number of R488, address and the word before (R494, R501). -/
  wTick : Nat := 0
  wLog : List (Nat × Nat × Word) := []
deriving DecidableEq, Repr

/-- What the flash answers to the SFDP read (R150). -/
structure Sfdp where
  capL2 : Nat
  erL2 : Nat
  erIns : Byte
  rdIns : Byte
  dummy : Nat
  addr4 : Bool
deriving DecidableEq, Repr

/-- Who holds the flash master (R522, R153, R838). -/
inductive FlashOwner where
  | none | boot | commit | courier (c : Fin 8) | waili
deriving DecidableEq, Repr

/-- What a client asked of the flash and polls for (R523, R184). -/
inductive FlashBusy where
  | erase | page
deriving DecidableEq, Repr

/-- A commit in progress (R181): its step, target slot (0 A, 1 B), the next flash byte to erase or program, the busy
poll that runs with the tick it times out and whether it only ends a command that was cut (R525), and how the commit
ended: OK and TMO. -/
structure Commit where
  step : Nat := 1
  slot : Nat := 0
  gen : Nat := 0
  pos : Nat := 0
  poll : Option FlashBusy := none
  due : Nat := 0
  pre : Bool := false
  waitFlash : Bool := false
  ended : Option (Bool × Bool) := none
  waili : Bool := false
deriving DecidableEq, Repr

/-- The external flash as the flash master sees it, and the master itself (R150-R154, R522). -/
structure Flash where
  cells : List Host.Cell := []
  answers : Bool := true
  sfdp : Option Sfdp := none
  owner : FlashOwner := .none
  waiters : List FlashOwner := []
  commit : Option Commit := none
  /-- The kind of a flash command that was cut; the next one polls first (R525). -/
  cut : Option FlashBusy := none
  /-- SLOTA, SLOTB, DLADR and SLOTSZ of the directory read at B7 (R155). -/
  slotA : Nat := 0
  slotB : Nat := 0
  dlAdr : Nat := 0
  slotSz : Nat := 0
  /-- LC and LW of the image loaded, its header bytes and tag, for the verify of a LOOPRST (R143). -/
  imgLC : Nat := 0
  imgLW : Nat := 0
  imgHdr : List Byte := []
  imgTag : List Byte := []
  /-- The code store C: (R4) and the writable control store M:800 onward (R159). -/
  code : List Host.Cell := []
  wcs : List (Nat × Micro) := []
deriving DecidableEq, Repr

/-- The OTP fields (R160, R161, R1007), and the image key in use since the last POR (R1008). -/
structure Otp where
  authen : Bool := false
  dbglock : Bool := false
  keyprg : Bool := false
  dkey : Bool := false
  imageKey : BitVec 128 := 0
  debugKey : BitVec 128 := 0
  key : BitVec 128 := 0
deriving DecidableEq, Repr

/-- CSTATc.STATE without its FENCED value, which the fence bit gives (R515-R522). -/
inductive ChanState where
  | idle | run | waitfl
deriving DecidableEq, Repr

/-- A Courier channel: the descriptor it took, how far it has come, a word read and not yet written, and its flash
work (R510-R526). -/
structure Chan where
  st : ChanState := .idle
  /-- A descriptor fetch is due (after a start or at the end of a linked descriptor). -/
  fetch : Bool := false
  ctl : Word := 0
  src : Nat := 0
  dst : Nat := 0
  count : Nat := 0
  next : Word := 0
  moved : Nat := 0
  held : Option Pair := none
  retried : Bool := false
  collided : Bool := false
  page : List Word := []
  poll : Option FlashBusy := none
  due : Nat := 0
  pre : Bool := false
  err : Nat := 0
  done : Bool := false
deriving DecidableEq, Repr

/-- The Courier: its channels, and the channel served last (R521). -/
structure Cour where
  chans : Vector Chan 8 := Vector.replicate 8 {}
  last : Nat := 7
deriving DecidableEq, Repr

/-- An output stage beside its registers: whether it is on and since when, since when it is off, the end of a soft
turn-off ramp, the injector's peak phase, the end of the running PWM on-time and period, and its over-temperature
detector (R712-R742). -/
structure Stage where
  on : Bool := false
  onSince : Nat := 0
  offSince : Nat := 0
  soft : Option Nat := none
  peak : Bool := false
  offAt : Option Nat := none
  periodDue : Nat := 0
  tripped : Bool := false
deriving DecidableEq, Repr

/-- A command on its way to a target: it arrives in tick `tick` (R646, R713). `peak` is the shunt peak of the dwell an off
ends, in 2.5 mV. -/
structure OutCmd where
  tick : Nat
  tgt : Nat
  on : Bool
  peak : Byte := 0
deriving DecidableEq, Repr

/-- The stepper sequencer (R729-R733). -/
structure Stepper where
  homed : Bool := false
  homing : Option Nat := none
  moving : Bool := false
  holding : Bool := false
  lastStep : Nat := 0
  stepDue : Nat := 0
  everHomed : Bool := false
deriving DecidableEq, Repr

/-- The output stages, the commands on their way, and the stepper. -/
structure Out where
  stages : Vector Stage 16 := Vector.replicate 16 {}
  queue : List OutCmd := []
  stepper : Stepper := {}
  oltDue : Nat := 0
deriving DecidableEq, Repr

/-- The sync states (R591). -/
inductive AngState where
  | stop | hunt | crank | half | sync
deriving DecidableEq, Repr

/-- The tracker's configuration in force (R582; a write while the engine turns waits for the next accepted edge, R620). -/
structure AngCfg where
  teeth : Nat := 0
  missing : Nat := 0
  cycle4 : Bool := false
  cam : Bool := false
  crkHall : Bool := false
  camHall : Bool := false
  refang : Nat := 0
  camang : Nat := 0
  minper : Nat := 1
  stallt : Nat := 1000
  ncyl : Nat := 1
  tdc : Vector Nat 4 := Vector.replicate 4 0
deriving DecidableEq, Repr

/-- The Angle Tracker (R576-R627). `tk` is the tick of the last accepted edge while `edge` holds; `base` is the index of
R585; `hist` holds the periods of the intervals, newest first, with their spans; `wrapPend` says that angle 0 lies in the
interval under way or at its end and has not been signalled, `wrapOwed` that a tooth passed it. -/
structure Ang where
  st : AngState := .stop
  cfg : AngCfg := {}
  dirty : Bool := false
  ph : Bool := false
  base : Nat := 0
  edge : Bool := false
  tk : Nat := 0
  stampTk : Nat := 0
  tidx : Nat := 0
  tang : Nat := 0
  rate : Nat := 0
  tper : Nat := 0
  rpm : Nat := 0
  spanNext : Nat := 1
  frozen : Nat := 0
  rPrev : Option Nat := none
  prevGap : Bool := false
  pPrev : Option Nat := none
  cand : Bool := false
  huntTeeth : Nat := 0
  hist : List (Nat × Nat) := []
  crankTeeth : Nat := 0
  camLast : Option Nat := none
  camTaken : Bool := false
  camRef : Bool := false
  camOut : Nat := 0
  camCycles : Nat := 0
  phcmd : Option Bool := none
  pendTooth : Option Nat := none
  wrapPend : Bool := false
  wrapOwed : Bool := false
  thrCrank : Nat := 0
  thrCam : Nat := 0
deriving DecidableEq, Repr

/-- The states of an Event Table entry (R631). -/
inductive EntState where
  | free | armed | due | fired | cancelled
deriving DecidableEq, Repr

/-- An entry beside its four words: its state, the OPEN flag, REF and REFANG (R639), its due tick while timed, the tick it
fell due, and the slips already counted (R643). -/
structure Ent where
  st : EntState := .free
  opened : Bool := false
  ref : Nat := 0
  refAng : Nat := 0
  due : Option Nat := none
  fell : Nat := 0
  slips : Nat := 0
deriving DecidableEq, Repr

/-- The Event Table (R628-R667): entry words, entries that are not FREE, pulse timers (target, end,
entry), and the targets it holds on with the entry that turned each on; the firings of tick `fireTick`. -/
structure Evt where
  words : List (Nat × Word) := []
  ents : List (Nat × Ent) := []
  pulses : List (Nat × Nat × Nat) := []
  holds : List (Nat × Nat) := []
  fireTick : Nat := 0
  fired : Nat := 0
deriving DecidableEq, Repr


/-- A conversion sequence: the channels still to convert, the tick of its trigger, and whether its first conversion has
started (R677, R679). -/
structure Seq where
  mask : BitVec 24
  trig : Nat
  started : Bool := false
deriving DecidableEq, Repr

/-- What a running conversion is for: its class (R674), the converter whose request it is, and its channel (for self-test
and ion the step or the IS input). -/
structure Running where
  cls : Nat
  owner : Fin 2
  chan : Nat
  start : Nat
deriving DecidableEq, Repr

/-- A self-test round in progress: its step, the conversions of the step that ended, and their sum (R691). -/
structure SelfTest where
  step : Nat := 0
  n : Nat := 0
  sum : Nat := 0
  failed : Option Nat := none
deriving DecidableEq, Repr

/-- One converter: its queues (R679-R681), its running conversion and its self-test. -/
structure Conv where
  angleQ : List Seq := []
  timeQ : Option Seq := none
  swQ : Option Seq := none
  timeDue : Nat := 0
  run : Option Running := none
  test : Option SelfTest := none
  testDue : Nat := 0
  lastRound : Nat := 0
  failed : Bool := false
  starved : Bool := false
deriving DecidableEq, Repr

/-- An open knock window (R683-R685): who samples it, its period, taps and coefficient bank, the samples taken (newest
first), and the integral. -/
structure KnockWin where
  t0 : Nat
  conv : Fin 2
  period : Nat
  taps : Nat
  bankB : Bool
  coef : List Word
  xs : List Word := []
  n : Nat := 0
  ksum : Nat := 0
  kn : Nat := 0
deriving DecidableEq, Repr

/-- The FIFO of a knock input (R687). -/
structure KFifo where
  q : List Word := []
  ovf : Bool := false
deriving DecidableEq, Repr

/-- A running ion-sense evaluation (R688-R690): samples so far (newest first), how many in all, the period, the thresholds
taken at its start, the next due tick, and whether a sample waits for the converter. -/
structure IonEval where
  owner : Fin 2
  vs : List Nat
  len : Nat
  period : Nat
  thr : Nat
  base : Nat
  mis : Nat
  due : Nat
  want : Bool := false
deriving DecidableEq, Repr

/-- The Measurement Unit beside its registers. `adc0Tick` and `adc0Chans` are the channels ADC0 completed last (R672). -/
structure Adc where
  conv : Vector Conv 2 := Vector.replicate 2 {}
  knock : Vector (Option KnockWin) 2 := Vector.replicate 2 none
  fifo : Vector KFifo 2 := Vector.replicate 2 {}
  ion : Vector (Option IonEval) 4 := Vector.replicate 4 none
  adc0Tick : Nat := 0
  adc0Chans : BitVec 24 := 0
deriving DecidableEq, Repr



/-- A segment descriptor (R278). -/
structure Seg where
  base : BitVec 20 := 0
  limit : Word := 0
  en : Bool := false
  wr : Bool := false
deriving DecidableEq, Repr

/-- The thread states (R232). -/
inductive RunState where
  | stopped | ready | waiting | halted
deriving DecidableEq, Repr

/-- What acts after a delay slot (R302-R306): a branch taken or not, or a call or return. -/
inductive Cont where
  | jump (target : Option (BitVec 17))
  | bsr (target : BitVec 17)
  | callm (mask : Byte) (target : BitVec 17)
  | retm
deriving DecidableEq, Repr

/-- A delay slot that comes next: the address of its branch, and what acts after it. -/
structure Slot where
  pc : BitVec 17
  cont : Cont
deriving DecidableEq, Repr

/-- A SETM shadow: instructions still to execute, and the new discipline (R319). -/
structure Shadow where
  left : Nat
  disc : Bool
deriving DecidableEq, Repr

/-- What a WAITING thread waits in (R232). -/
inductive WaitKind where
  | event | seal
deriving DecidableEq, Repr

/-- A cause of a halt (HCAUSE), with the comparator for cause 5. -/
structure HaltCause where
  cause : Nat
  cmp : Nat := 0
deriving DecidableEq, Repr

/-- Micro locations whose producers have a distance rule (R418). -/
inductive MLoc where
  | reg (r : Fin 16)
  | tmp (i : Fin 8)
  | ac (k : Fin 2)
  | cr (c : Nat)
  | uc | mf | psw | ea | mdr
deriving DecidableEq, Repr

/-- A thread's user context (R398-R417): its instruction, the next microword, the microstack, the temporaries, the micro
flags MF (C, V, Z, N, S in bits 0-4), the carry latch, the segment of the last EAA, and the producers of the last three microwords with their number. -/
structure Micro where
  pre : List Prefix
  page : Fin 2
  opcode : Byte
  opnds : List Byte
  next : BitVec 17
  addr : BitVec 12
  stack : List (BitVec 12) := []
  t : Vector Word 8
  uc : Word
  mdr : Word
  mdrh : Word
  ea : BitVec 20
  mf : BitVec 5
  carry : Bool := false
  storeLow : Word := 0
  seg : Fin 8 := 0
  n : Nat := 0
  recent : List (Nat × MLoc) := []
  ucLoop : Bool := false
deriving DecidableEq, Repr

/-- A hardware thread: the registers of R273 and its flow of control. `latch` has bit 8 at 0, which is a level; `waitNext`
is the address after the WAIT or SEAL that blocks; `load` is the load not yet written (R299); `span` the instructions of
the span under way (R326); `startBlk` the start block of the last start; `begun` that a started thread has executed its
first instruction (R234). -/
structure Thread where
  r : Vector Word 16 := Vector.replicate 16 0
  ac : Vector (BitVec 40) 2 := Vector.replicate 2 0
  pc : BitVec 17 := 0
  lr : BitVec 17 := 0
  ls : Vector (BitVec 17) 3 := Vector.replicate 3 0
  le : Vector (BitVec 17) 3 := Vector.replicate 3 0
  lc : Vector Word 3 := Vector.replicate 3 0
  bk : Byte := 0
  sg : Vector Seg 8 := Vector.replicate 8 {}
  vbase : Word := 0
  ctxid : Byte := 0
  psw : Word := 0
  epc : BitVec 17 := 0
  epsw : Word := 0
  ecause : Word := 0
  eaddr : BitVec 20 := 0
  estat : Word := 0
  st : RunState := .stopped
  kept : RunState := .ready
  haltedBy : HaltCause := { cause := 0 }
  latch : Word := 0
  mask : Word := 0
  wkind : WaitKind := .event
  waitNext : BitVec 17 := 0
  tmr : Option Nat := none
  load : List (Fin 16 × Word) := []
  slot : Option Slot := none
  shadow : Option Shadow := none
  span : Nat := 0
  starting : Option Word := none
  startBlk : List Word := []
  stopReq : Bool := false
  haltReq : Option HaltCause := none
  stepping : Bool := false
  abortDue : Bool := false
  breakDue : Option Nat := none
  unmatched : Bool := false
  seqArm : BitVec 8 := 0
  held : Option (List Prefix × Op) := none
  heldAt : Nat := 0
  heldCounts : Bool := false
  inTile : Bool := false
  micro : Option Micro := none
  begun : Bool := false
  tmrLeft : Option Nat := none
deriving DecidableEq, Repr

/-- The threads, the issue wheel (R238-R241) and the seals (R254-R259). The slot pointer stood at `slot` in tick
`slotTick`. -/
structure Thr where
  th : Vector Thread 8 := Vector.replicate 8 {}
  shadow : Vector Word 4 := #v[0xBA98, 0xFEDC, 0xBA98, 0xFEDC]
  wpend : Bool := false
  slot : Nat := 0
  slotTick : Nat := 0
  donee : Fin 8 := 7
  issued : Option (Fin 8) := none
  credit : Vector Nat 8 := Vector.replicate 8 0
  owner : Vector (Option (Fin 8)) 32 := Vector.replicate 32 none
  want : Vector (Option (Fin 32)) 8 := Vector.replicate 8 none
deriving DecidableEq, Repr

/-- The tile states (R448). -/
inductive TileSt where
  | free | empty | resident | spilled
deriving DecidableEq, Repr

/-- A tile register: shape, owner, backing address, contents in row-major order, and its last use (R447-R458). -/
structure Tile where
  st : TileSt := .free
  rows : Nat := 0
  cols : Nat := 0
  owner : Fin 8 := 0
  base : Nat := 0
  data : List Word := []
  use : Nat := 0
deriving DecidableEq, Repr

/-- A thread's request to the Tile Unit: its instruction, the AC1 and SAT prefixes, its order of registration, the address
after the instruction, and whether a reload or load phase still comes first (R462-R466). -/
structure TileReq where
  t : Fin 8
  op : Op
  ac1 : Bool := false
  sat : Bool := false
  pair : Pair := 0
  order : Nat := 0
  len : Nat := 2
  reload : Bool := false
deriving DecidableEq, Repr

/-- The Tile Unit: its tiles, the running request and the waiting ones (R461-R466). -/
structure TileUnit where
  tl : Vector Tile 8 := Vector.replicate 8 {}
  run : Option TileReq := none
  wait : List TileReq := []
  order : Nat := 0
deriving DecidableEq, Repr

/-- The trace FIFO (R1032-R1035): its bytes, the tick the byte being sent ends, SEQ, the packets dropped and not yet
reported, Postmark bits 47-16 of the last TIME packet, and the packets since the last SYNC. -/
structure Trace where
  fifo : List Byte := []
  sendEnd : Nat := 0
  seq : Nat := 0
  lost : Nat := 0
  hi : Option Nat := none
  since : Nat := 0
deriving DecidableEq, Repr


/-- A Kernel function's KERNEL section words as step B10 loaded them (R752, R760). -/
structure KFn where
  armA : Bool := false
  map : Nat := 0
  deadline : Nat := 0
  p0 : Word := 0
  p1 : Word := 0
deriving DecidableEq, Repr

/-- The windows of F7 for a cylinder (R765): the sums of window B, the tooth intervals window E still needs, and E(n). -/
structure KTorque where
  b : Option (Nat × Nat) := none
  left : Option Nat := none
  e : Int := 0
deriving DecidableEq, Repr

/-- An entry the Kernel holds (R766): its function, its cylinder, which of the function's entries it is (0 INJ pulse, 1
IGN clear, 2 IGN set, 3 knock window, 4 conversion trigger), and its index. -/
structure KEntry where
  k : Nat
  n : Nat
  what : Nat
  idx : Nat
deriving DecidableEq, Repr

/-- The result of a Kernel knock window (R762): its tick, KINT, COUNT and SHORT. -/
structure KKnock where
  tick : Nat
  kint : Nat
  count : Nat
  short : Bool
deriving DecidableEq, Repr

/-- The Control Kernel (R752-R799): its configuration, MAQUETTE words and the CHARGE set-point; the H state (I of F3 and
F4, TRIM, the retards); the values last applied by F2 (per cylinder), F3, F4, F5, F6 and F7 (per cylinder); the pairs (k, n)
whose commit or request fell due at a tooth, and those already done in this tooth interval; what else R757, R762, R772,
R777 and R784-R785 need. -/
structure Kern where
  fn : Vector KFn 8 := Vector.replicate 8 {}
  maq : Vector Word 8 := Vector.replicate 8 0
  sp : Nat := 0
  i3 : Int := 0
  i4 : Int := 0
  trim : Int := 0
  retard : Vector Nat 4 := Vector.replicate 4 0
  v2 : Vector Int 4 := Vector.replicate 4 0
  v3 : Nat := 0
  v4 : Nat := 0
  v5 : Int := 0
  v6 : Option Nat := none
  h6 : Option Nat := none
  v7 : Vector Int 4 := Vector.replicate 4 0
  f7 : Vector KTorque 4 := Vector.replicate 4 {}
  knock : Vector (Option KKnock) 4 := Vector.replicate 4 none
  ents : List KEntry := []
  allocDue : Bool := false
  owed : List (Nat × Nat) := []
  done : List (Nat × Nat) := []
  owedReq : List (Nat × Nat) := []
  doneReq : List (Nat × Nat) := []
  calcDue : Bool := false
  lim : Option Nat := none
  cut : Bool := false
  mreqTick : Nat := 0
  lateRun : Vector Nat 8 := Vector.replicate 8 0
  lateNoted : Vector Bool 8 := Vector.replicate 8 false
deriving DecidableEq, Repr


/-- The Postmark compares: the tick from which each may fire (R1048). -/
structure Post where
  from_ : Vector Nat 4 := Vector.replicate 4 0
deriving DecidableEq, Repr

/-- A CAN controller beside its registers (R916-R944): whether it still integrates, recovers from bus off, or is to recover
once it runs again; its error counters; the object on the bus and whether its request was cancelled; and whether another
node's frame holds the bus. -/
structure Can where
  integrating : Bool := false
  recovering : Bool := false
  busOff : Bool := false
  tec : Nat := 0
  rec_ : Nat := 0
  cur : Option (Fin 32) := none
  cancelled : Bool := false
  busy : Bool := false
deriving DecidableEq, Repr

/-- The K-line (R934-R936): its FIFOs, a byte lost to a full RX FIFO in a tick (R943), whether a helper runs as 5-baud, and
the tick of a cancel (R942). -/
structure Kline where
  tx : List Byte := []
  rx : List Word := []
  lostAt : Option (Nat × Word) := none
  helper : Option Bool := none
  cancelAt : Option Nat := none
deriving DecidableEq, Repr

/-- A stream line from a partner: its start code and its characters so far (R897). -/
structure RxLine where
  unit : Nat
  code : Byte
  chars : List Byte
deriving DecidableEq, Repr

/-- The Loop engine beside its registers (R863-R915): whether it was started; FOLD; the SEQ, N, TURN0 and start of the round
under way; at the head the N and start of its next round, an enumeration asked for or under way, and headers still to carry a
reset request; TURN values, newest first; the epoch due and EPV; the letter due and last sent, CSEQ and trailer flags; the
address taken in an enumeration; what R879, R880, R900, R901 and R905 count; the streams (R897, R898). -/
structure Loop where
  started : Bool := false
  fold : Bool := true
  seq : Nat := 0
  n : Nat := 64
  turn0 : Nat := 0
  enum : Bool := false
  outStart : Option Nat := none
  backSeen : Bool := false
  headN : Nat := 64
  nextStart : Nat := 0
  enumPend : Bool := false
  enumWait : Bool := false
  rstTx : Nat := 0
  turns : List Nat := []
  epochDue : Option Nat := none
  epv : Bool := false
  letterDue : Option Nat := none
  letter : List Word := []
  cseq : Nat := 0
  trailer : Word := 0
  provis : Option Nat := none
  lastBack : Nat := 0
  missDue : Nat := 0
  everBack : Bool := false
  goodBacks : Nat := 0
  badBacks : Nat := 0
  foldNext : Bool := false
  dnGood : Nat := 0
  dnSeq : Nat := 0
  hconf : Bool := false
  rstSeen : Nat := 0
  rstSeq : Nat := 0
  miss : Vector Nat 64 := Vector.replicate 64 0
  seen : Vector Nat 64 := Vector.replicate 64 0
  tx : List Byte := []
  rx : List RxLine := []
  rxCseq : List (Nat × Nat) := []
  inbox : List RxLine := []
  dropMirror : Bool := false
deriving DecidableEq, Repr

/-- How a Waili command is answered (R816, R846, R847, R849): with a suffix; with the prefix of this unit's own address; over
the Loop to another unit. -/
structure WCtx where
  suffix : Bool := false
  own : Option Nat := none
  remote : Option Nat := none
deriving DecidableEq, Repr

/-- What a Waili command in progress waits for (R831, R834, R835, R838, R839, R848). -/
inductive WWait where
  | mode (entering : Bool)
  | commit
  | abort (kind idx : Nat)
  | flash (page : Bool) (addr : Nat) (data : List Byte)
  | flashRead (addr n : Nat)
  | usr
deriving DecidableEq, Repr

/-- The Waili engine beside its registers (R800-R862): the edit buffer and its marks, the held lines, a line still to be
executed here with its context, the command in progress, the characters to send, the answer of firmware (its characters, whether a data line has begun, its CRC so far, what waits for
that line's end, and its code), the units whose
routed answers are awaited with the tick each times out and the unit whose answer is being sent, the lines that wait for
the running command's end (R807), and what is pending. -/
structure Waili where
  on : Bool := false
  edit : List Byte := []
  long : Bool := false
  framing : Bool := false
  lastCr : Bool := false
  hold : Option (List Byte) := none
  rhold : Option (Nat × List Byte) := none
  inner : Option (List Byte × WCtx) := none
  run : Option (WWait × WCtx) := none
  out : List Byte := []
  utx : List Byte := []
  uline : List Byte := []
  ubegun : Bool := false
  ucrc : Byte := 0
  uwait : List Byte := []
  uend : Option Nat := none
  usrDue : Nat := 0
  progDue : Nat := 0
  pollDue : Nat := 0
  pollPre : Bool := false
  polling : Bool := false
  targets : List (Nat × Nat) := []
  tctx : WCtx := {}
  speak : Option Nat := none
  later : List (Bool × List Byte) := []
  divEff : Nat := 87
  divPend : Option (Nat × Nat) := none
deriving DecidableEq, Repr

/-- A request of the Chisel port as its 29 periods (period i in bit i) and the data of a write (R994, R998). -/
structure ChReq where
  req : BitVec 29
  data : Pair
deriving DecidableEq, Repr

/-- The answer of the port: ACK and data (R996). -/
structure ChAns where
  ack : Nat
  data : Pair
deriving DecidableEq, Repr

/-- The Chisel port beside the X: registers (R991-R1044): whether it ignores DIO until a line reset, an access in progress
and whether its outcome is to be dropped, a held outcome, the lock, its challenge and lockout, the virtual terminal, an OTP
command in progress, and the freeze in force with the watchdog's ticks left. -/
structure Chisel where
  dead : Bool := false
  prog : Option ChReq := none
  drop : Bool := false
  held : Option (ChReq × ChAns) := none
  locked : Bool := false
  lockout : Option Nat := none
  chal : BitVec 128 := 0
  vtIn : List Byte := []
  vtOut : List Byte := []
  otp : Option Nat := none
  evtFrozen : Bool := false
  wdLeft : Option Nat := none
deriving DecidableEq, Repr

end Sys2Proof.Machine
end

