-- ==== Sys2Proof/Machine/State.lean ====
section
/-!
DEFINITION. The state of the Stolu as plain data. Registers that are stored words live in `regs` (data space) and
`xregs` (Chisel space), each a sparse list over the reset values of its register table; everything the registers do not
hold has a typed home. INVENTORY.md lists every piece with the rule that names it.
-/
namespace Sys2Proof.Machine

/-- The machine never stops with a fault: a failing condition of the spec is an effect on the state. -/
inductive Fault where
  /-- Raised by nothing: kept because a step's form has a fault outcome. Safe. -/
  | unreachable
deriving DecidableEq, Repr

/-- The reasons for which a command has no meaning. -/
inductive Refusal where
  /-- Answered by the dispatch for a command without a meaning yet. Safe: it proves nothing of the hardware. -/
  | notModelled (mnemonic : String)
deriving DecidableEq, Repr

/-- The whole state. -/
structure State where
  /-- The commands waiting, first in, first out (the model's own). -/
  pending : List Instr := []
  power : Power := .up
  /-- Ticks since the last POR; the Postmark is its low 48 bits (R1043). -/
  now : Nat := 0
  regs : List (Nat × Word) := []
  xregs : List (Nat × Word) := []
  hw : HwTick := {}
  lines : Lines := {}
  boot : Boot := {}
  plinth : Plinth := {}
  modes : Modes := {}
  intc : Intc := {}
  fcol : Fcol := {}
  mem : Mem := {}
  flash : Flash := {}
  cour : Cour := {}
  otp : Otp := {}
  out : Out := {}
  ang : Ang := {}
  evt : Evt := {}
  adc : Adc := {}
  thr : Thr := {}
  tile : TileUnit := {}
  trace : Trace := {}
  kern : Kern := {}
  post : Post := {}
  can : Vector Can 2 := Vector.replicate 2 {}
  kline : Kline := {}
  loop : Loop := {}
  waili : Waili := {}
  chisel : Chisel := {}
  /-- The counter behind the free values (the model's own; DESIGN CHOICE, no statement rests on it). -/
  free : Nat := 0
  /-- The words the last read or answering command returned (the model's own). -/
  result : List Word := []
deriving DecidableEq, Repr

/-- The machine right after reset: the rails good and POR released, boot not yet started, every register at the value
its table gives for POR (R97 step 5). -/
def State.reset : State := {}

end Sys2Proof.Machine
end

