-- ==== Sys2Proof/Machine/RegMap.lean ====
section
/-!
DEFINITION. The register map of the data space, written from the register tables of spec/01 to spec/23: where each
register stands (R6, R484), its POR value, which bits a write sets, clears or sets to 1, which bits a read clears (R16),
and which bits a WARM, a LOOPRST or a POR keeps (R21-R23). An offset no row assigns reads 0 and ignores writes (R18).
-/

namespace Sys2Proof.Machine

/-- One line of a register table: `count` registers `stride` words apart from `addr` on, of one word or, where `pair`, of
two. `rw`, `w1c`, `w1s` and `rc` are the bits of that access code (R16); `kw`, `kl` and `kp` the bits that WARM, LOOPRST
and POR keep. -/
structure RegRow where
  addr : Nat
  stride : Nat := 1
  count : Nat := 1
  pair : Bool := false
  reset : Pair := 0
  rw : Pair := 0
  w1c : Pair := 0
  w1s : Pair := 0
  rc : Pair := 0
  kw : Pair := 0
  kl : Pair := 0
  kp : Pair := 0
deriving DecidableEq, Repr

/-! The addresses of the registers, named BLOCK_REGISTER; an indexed register takes its index. -/
namespace Reg
abbrev sys_DEVICE : Nat := 0x40000
abbrev sys_ID : Nat := 0x40001
abbrev sys_CLKSTAT : Nat := 0x40004
abbrev sys_STRAP : Nat := 0x40005
abbrev sys_RSTCAUSE : Nat := 0x40006
abbrev sys_BOOTSTAT : Nat := 0x40007
abbrev sys_ARMSTAT : Nat := 0x40008
abbrev sys_ARMCMD : Nat := 0x40009
abbrev sys_GENA : Nat := 0x4000A
abbrev sys_GENB : Nat := 0x4000C
abbrev sys_ARMRSN : Nat := 0x4000E
abbrev sys_OTPSTAT : Nat := 0x4000F
abbrev sys_MODE : Nat := 0x40010
abbrev sys_MODECMD : Nat := 0x40011
abbrev sys_MODESTAT : Nat := 0x40012
abbrev sys_FENCEA : Nat := 0x40014
abbrev sys_FENCEB : Nat := 0x40016
abbrev plinth_STAT : Nat := 0x40400
abbrev plinth_HOLD : Nat := 0x40401
abbrev plinth_DIPS : Nat := 0x40402
abbrev plinth_SLEEP : Nat := 0x40404
abbrev plinth_WAKEEN : Nat := 0x40405
abbrev plinth_WAKESRC : Nat := 0x40406
abbrev plinth_SREFCFG : Nat := 0x40408
abbrev plinth_CORECFG : Nat := 0x40409
abbrev plinth_AVSTGT : Nat := 0x4040A
abbrev plinth_CHGCFG : Nat := 0x4040C
abbrev plinth_CHGDUTY : Nat := 0x4040D
abbrev plinth_CLAMP : Nat := 0x4040E
abbrev plinth_EHOURS : Nat := 0x40410
abbrev mon_VAL (n : Nat) : Nat := 0x40800 + n
abbrev mon_WIN0 : Nat := 0x40810
abbrev mon_WIN1 : Nat := 0x40812
abbrev mon_WIN2 : Nat := 0x40814
abbrev mon_WIN3 : Nat := 0x40816
abbrev mon_WIN4 : Nat := 0x40818
abbrev mon_WIN5 : Nat := 0x4081A
abbrev mon_WIN6 : Nat := 0x4081C
abbrev mon_WIN7 : Nat := 0x4081E
abbrev mon_WIN8 : Nat := 0x40820
abbrev mon_CFG : Nat := 0x40830
abbrev mon_OUT : Nat := 0x40831
abbrev thr_CTL : Nat := 0x40C00
abbrev thr_STATE : Nat := 0x40C01
abbrev thr_WHEEL0 : Nat := 0x40C04
abbrev thr_WHEEL1 : Nat := 0x40C05
abbrev thr_WHEEL2 : Nat := 0x40C06
abbrev thr_WHEEL3 : Nat := 0x40C07
abbrev thr_WCMT : Nat := 0x40C08
abbrev thr_SCHED : Nat := 0x40C09
abbrev thr_ARG (n : Nat) : Nat := 0x40C10 + n
abbrev thr_EVT (n : Nat) : Nat := 0x40C18 + n
abbrev thr_MASK (n : Nat) : Nat := 0x40C20 + n
abbrev thr_TMR (n : Nat) : Nat := 0x40C28 + n
abbrev thr_WBITS (n : Nat) : Nat := 0x40C30 + n
abbrev thr_STALL : Nat := 0x40C38
abbrev thr_SEALOWN (n : Nat) : Nat := 0x40C40 + n
abbrev thr_WANT (n : Nat) : Nat := 0x40C48 + n
abbrev thr_SEALSTAT : Nat := 0x40C4C
abbrev thr_SBASE (n : Nat) : Nat := 0x40C50 + 2 * n
abbrev thr_MCADR : Nat := 0x40C60
abbrev thr_MCDAT (n : Nat) : Nat := 0x40C61 + n
abbrev thr_MCCMD : Nat := 0x40C68
abbrev thr_MCCTL : Nat := 0x40C69
abbrev thr_UINS : Nat := 0x40C6A
abbrev thr_PATCH (n : Nat) : Nat := 0x40C70 + n
abbrev thr_PTGT (n : Nat) : Nat := 0x40C80 + n
abbrev intc_PEND (n : Nat) : Nat := 0x41000 + n
abbrev intc_PENDSET (n : Nat) : Nat := 0x41008 + n
abbrev intc_PENDCLR (n : Nat) : Nat := 0x41010 + n
abbrev intc_MASK (n : Nat) : Nat := 0x41018 + n
abbrev intc_MASKSET (n : Nat) : Nat := 0x41020 + n
abbrev intc_MASKCLR (n : Nat) : Nat := 0x41028 + n
abbrev intc_ACT (n : Nat) : Nat := 0x41030 + n
abbrev intc_APEND (n : Nat) : Nat := 0x41038 + n
abbrev intc_RAW (n : Nat) : Nat := 0x41040 + n
abbrev intc_RUNST (n : Nat) : Nat := 0x41048 + n
abbrev intc_TGT (n : Nat) : Nat := 0x41050 + n
abbrev intc_CLAIM (n : Nat) : Nat := 0x41080 + n
abbrev intc_COMPL (n : Nat) : Nat := 0x41088 + n
abbrev intc_HELD (n : Nat) : Nat := 0x41090 + n
abbrev intc_MOD (n : Nat) : Nat := 0x41098 + n
abbrev intc_RUN (n : Nat) : Nat := 0x410A8 + n
abbrev intc_SPUR : Nat := 0x410B4
abbrev intc_ERR : Nat := 0x410B6
abbrev memc_CONF (n : Nat) : Nat := 0x41400 + n
abbrev memc_COLL (n : Nat) : Nat := 0x41408 + n
abbrev memc_PERR : Nat := 0x41410
abbrev memc_PCNT : Nat := 0x41412
abbrev memc_VIOL : Nat := 0x41414
abbrev memc_SBSTAT : Nat := 0x41416
abbrev memc_SBHOLD : Nat := 0x41417
abbrev memc_RGNA0 (n : Nat) : Nat := 0x41500 + 4 * n
abbrev memc_RGNB0 : Nat := 0x41502
abbrev memc_RGNAr0 (n : Nat) : Nat := 0x41504 + 4 * n
abbrev memc_RGNBr0 (n : Nat) : Nat := 0x41506 + 4 * n
abbrev memc_RGNA1 : Nat := 0x41520
abbrev memc_RGNB1 : Nat := 0x41522
abbrev memc_RGNAr1 (n : Nat) : Nat := 0x41524 + 4 * n
abbrev memc_RGNBr1 (n : Nat) : Nat := 0x41526 + 4 * n
abbrev memc_RGNA2 : Nat := 0x41540
abbrev memc_RGNB2 : Nat := 0x41542
abbrev memc_RGNAr2 (n : Nat) : Nat := 0x41544 + 4 * n
abbrev memc_RGNBr2 (n : Nat) : Nat := 0x41546 + 4 * n
abbrev memc_RGNA3 : Nat := 0x41560
abbrev memc_RGNB3 : Nat := 0x41562
abbrev memc_RGNAr3 (n : Nat) : Nat := 0x41564 + 4 * n
abbrev memc_RGNBr3 (n : Nat) : Nat := 0x41566 + 4 * n
abbrev memc_RGNA4 : Nat := 0x41580
abbrev memc_RGNB4 : Nat := 0x41582
abbrev memc_RGNAr4 (n : Nat) : Nat := 0x41584 + 4 * n
abbrev memc_RGNBr4 (n : Nat) : Nat := 0x41586 + 4 * n
abbrev cour_CTL : Nat := 0x41800
abbrev cour_STAT : Nat := 0x41801
abbrev cour_FLOWN : Nat := 0x41802
abbrev cour_FTMO : Nat := 0x41803
abbrev cour_FWIN : Nat := 0x41804
abbrev cour_FWLIM : Nat := 0x41806
abbrev cour_CHCFG (n : Nat) : Nat := 0x41810 + n
abbrev cour_HEAD (n : Nat) : Nat := 0x41818 + n
abbrev cour_CUR (n : Nat) : Nat := 0x41820 + n
abbrev cour_REM (n : Nat) : Nat := 0x41828 + n
abbrev cour_CSTAT (n : Nat) : Nat := 0x41830 + n
abbrev tile_STATE : Nat := 0x41C00
abbrev tile_STAT : Nat := 0x41C01
abbrev tile_USED : Nat := 0x41C02
abbrev tile_PRIO : Nat := 0x41C03
abbrev tile_FREE : Nat := 0x41C04
abbrev tile_SPILLS : Nat := 0x41C05
abbrev tile_ERR : Nat := 0x41C06
abbrev tile_CFG (n : Nat) : Nat := 0x41C10 + 2 * n
abbrev tile_TSR (n : Nat) : Nat := 0x41C20 + n
abbrev ang_WHEEL : Nat := 0x42000
abbrev ang_REFANG : Nat := 0x42001
abbrev ang_CAMANG : Nat := 0x42002
abbrev ang_MINPER : Nat := 0x42003
abbrev ang_STALLT : Nat := 0x42004
abbrev ang_TUNE : Nat := 0x42005
abbrev ang_VRCFG : Nat := 0x42006
abbrev ang_CAMTOL : Nat := 0x42007
abbrev ang_TDC (n : Nat) : Nat := 0x42008 + n
abbrev ang_STAT : Nat := 0x42010
abbrev ang_ANGLE : Nat := 0x42011
abbrev ang_TANG : Nat := 0x42012
abbrev ang_TIDX : Nat := 0x42013
abbrev ang_RATE : Nat := 0x42014
abbrev ang_TPER : Nat := 0x42016
abbrev ang_TSTAMP : Nat := 0x42018
abbrev ang_RPM : Nat := 0x4201A
abbrev ang_CYCCNT : Nat := 0x4201C
abbrev ang_REJCNT : Nat := 0x4201E
abbrev ang_LOSS : Nat := 0x4201F
abbrev ang_PHCMD : Nat := 0x42020
abbrev ang_VRPK : Nat := 0x42021
abbrev evt_CMD : Nat := 0x42400
abbrev evt_CFG : Nat := 0x42401
abbrev evt_KPART : Nat := 0x42402
abbrev evt_STAT : Nat := 0x42403
abbrev evt_SLIPCNT : Nat := 0x42404
abbrev evt_SLIPMAX : Nat := 0x42405
abbrev evt_LCAN : Nat := 0x42406
abbrev evt_WIGN : Nat := 0x42407
abbrev evt_RSLT (n : Nat) : Nat := 0x42408 + n
abbrev evt_CHERR : Nat := 0x42411
abbrev evt_QSTAT : Nat := 0x42412
abbrev evt_QDUE : Nat := 0x42414
abbrev evt_ST (n : Nat) : Nat := 0x42500 + n
abbrev adc_RATIO : Nat := 0x42800
abbrev adc_STCFG : Nat := 0x42801
abbrev adc_STAT : Nat := 0x42802
abbrev adc_IRQEN : Nat := 0x42803
abbrev adc_SCNT (n : Nat) : Nat := 0x42804 + 2 * n
abbrev adc_DROP : Nat := 0x42808
abbrev adc_ST (n : Nat) : Nat := 0x4280A + n
abbrev adc_TSEQ (n : Nat) : Nat := 0x42810 + 2 * n
abbrev adc_TPER (n : Nat) : Nat := 0x42814 + n
abbrev adc_SWSEQ (n : Nat) : Nat := 0x42818 + 2 * n
abbrev adc_RES (n : Nat) : Nat := 0x42820 + n
abbrev adc_OVRF : Nat := 0x42838
abbrev adc_OVREN : Nat := 0x4283A
abbrev adc_ASTAMP (n : Nat) : Nat := 0x4283C + 2 * n
abbrev adc_KCFG (n : Nat) : Nat := 0x42840 + n
abbrev adc_KINT (n : Nat) : Nat := 0x42844 + 2 * n
abbrev adc_KNS (n : Nat) : Nat := 0x42848 + n
abbrev adc_KFIFO (n : Nat) : Nat := 0x4284A + n
abbrev adc_KCOEF0 (n : Nat) : Nat := 0x42880 + n
abbrev adc_KCOEF1 (n : Nat) : Nat := 0x428A0 + n
abbrev adc_ICFG (n : Nat) : Nat := 0x428C0 + n
abbrev adc_ITHR (n : Nat) : Nat := 0x428C4 + n
abbrev adc_IBAS (n : Nat) : Nat := 0x428C8 + n
abbrev adc_IMIS (n : Nat) : Nat := 0x428CC + n
abbrev adc_ISUM (n : Nat) : Nat := 0x428D0 + 2 * n
abbrev adc_IPK (n : Nat) : Nat := 0x428D8 + n
abbrev adc_IIDX (n : Nat) : Nat := 0x428DC + n
abbrev adc_IMCNT (n : Nat) : Nat := 0x428E0 + n
abbrev out_CFG (n : Nat) : Nat := 0x42C00 + 2 * n
abbrev out_SWCMD : Nat := 0x42C20
abbrev out_PWMD (n : Nat) : Nat := 0x42C21 + n
abbrev out_STATE : Nat := 0x42C26
abbrev out_LATCH : Nat := 0x42C27
abbrev out_OLTCFG : Nat := 0x42C28
abbrev out_DIAG (n : Nat) : Nat := 0x42C30 + n
abbrev out_IPK (n : Nat) : Nat := 0x42C40 + n
abbrev out_STEPPOS : Nat := 0x42C44
abbrev out_STEPTGT : Nat := 0x42C45
abbrev out_STEPCMD : Nat := 0x42C46
abbrev out_STEPSTAT : Nat := 0x42C47
abbrev kern_MODE : Nat := 0x43000
abbrev kern_MREQ : Nat := 0x43001
abbrev kern_MPEND : Nat := 0x43002
abbrev kern_STAT : Nat := 0x43003
abbrev kern_LIM : Nat := 0x43004
abbrev kern_PHOWN : Nat := 0x43006
abbrev kern_LATELIM : Nat := 0x43008
abbrev kern_CLIP : Nat := 0x43009
abbrev kern_REQ (n : Nat) : Nat := 0x43010 + n
abbrev kern_LATE (n : Nat) : Nat := 0x43018 + n
abbrev kern_HST (n : Nat) : Nat := 0x43020 + n
abbrev kern_PHPEND : Nat := 0x43028
abbrev waili_DIV : Nat := 0x43400
abbrev waili_CTL : Nat := 0x43401
abbrev waili_STAT : Nat := 0x43402
abbrev waili_ERR : Nat := 0x43404
abbrev waili_RTMO : Nat := 0x43406
abbrev waili_UTMO : Nat := 0x43407
abbrev waili_USRC : Nat := 0x43408
abbrev waili_ULINE (n : Nat) : Nat := 0x43410 + n
abbrev waili_UTX : Nat := 0x43450
abbrev waili_UEND : Nat := 0x43451
abbrev loop_STAT : Nat := 0x43800
abbrev loop_RINFO : Nat := 0x43801
abbrev loop_CFG : Nat := 0x43802
abbrev loop_ARM : Nat := 0x43803
abbrev loop_PIN : Nat := 0x43804
abbrev loop_CMD : Nat := 0x43805
abbrev loop_RSTREQ : Nat := 0x43806
abbrev loop_SEQ : Nat := 0x43807
abbrev loop_TURN : Nat := 0x43808
abbrev loop_TURN0 : Nat := 0x43809
abbrev loop_OFS : Nat := 0x4380A
abbrev loop_EPOST : Nat := 0x4380C
abbrev loop_EANG : Nat := 0x4380E
abbrev loop_ERPM : Nat := 0x4380F
abbrev loop_LOST (n : Nat) : Nat := 0x43810 + n
abbrev loop_WATCH (n : Nat) : Nat := 0x43814 + n
abbrev loop_NOTIFY : Nat := 0x43818
abbrev loop_MBASE : Nat := 0x4381A
abbrev loop_ERRA : Nat := 0x4381C
abbrev loop_ERRB : Nat := 0x4381E
abbrev loop_FIELD (n : Nat) : Nat := 0x43820 + n
abbrev can0_MCTL : Nat := 0x43C00
abbrev can0_ABTIME : Nat := 0x43C02
abbrev can0_DBTIME : Nat := 0x43C04
abbrev can0_BUSST : Nat := 0x43C06
abbrev can0_ECNT : Nat := 0x43C07
abbrev can0_SSPDLY : Nat := 0x43C08
abbrev can0_LOSTCNT : Nat := 0x43C09
abbrev can0_ERRCNT : Nat := 0x43C0A
abbrev can0_PXCNT : Nat := 0x43C0B
abbrev can0_TXREQ : Nat := 0x43C10
abbrev can0_TXCAN : Nat := 0x43C12
abbrev can0_TXDONE : Nat := 0x43C14
abbrev can0_RXFULL : Nat := 0x43C16
abbrev can0_OBJ0_CTL : Nat := 0x43D00
abbrev can0_OBJ0_STAT : Nat := 0x43D01
abbrev can0_OBJ0_ID (n : Nat) : Nat := 0x43D02 + 2 * n
abbrev can0_OBJ0_TSTAMP : Nat := 0x43D06
abbrev can0_OBJ0_DATA (n : Nat) : Nat := 0x43D08 + n
abbrev can0_OBJ1_CTL : Nat := 0x43D28
abbrev can0_OBJ1_STAT : Nat := 0x43D29
abbrev can0_OBJ1_ID (n : Nat) : Nat := 0x43D2A + 2 * n
abbrev can0_OBJ1_TSTAMP : Nat := 0x43D2E
abbrev can0_OBJ1_DATA (n : Nat) : Nat := 0x43D30 + n
abbrev can0_OBJ2_CTL : Nat := 0x43D50
abbrev can0_OBJ2_STAT : Nat := 0x43D51
abbrev can0_OBJ2_ID (n : Nat) : Nat := 0x43D52 + 2 * n
abbrev can0_OBJ2_TSTAMP : Nat := 0x43D56
abbrev can0_OBJ2_DATA (n : Nat) : Nat := 0x43D58 + n
abbrev can0_OBJ3_CTL : Nat := 0x43D78
abbrev can0_OBJ3_STAT : Nat := 0x43D79
abbrev can0_OBJ3_ID (n : Nat) : Nat := 0x43D7A + 2 * n
abbrev can0_OBJ3_TSTAMP : Nat := 0x43D7E
abbrev can0_OBJ3_DATA (n : Nat) : Nat := 0x43D80 + n
abbrev can0_OBJ4_CTL : Nat := 0x43DA0
abbrev can0_OBJ4_STAT : Nat := 0x43DA1
abbrev can0_OBJ4_ID (n : Nat) : Nat := 0x43DA2 + 2 * n
abbrev can0_OBJ4_TSTAMP : Nat := 0x43DA6
abbrev can0_OBJ4_DATA (n : Nat) : Nat := 0x43DA8 + n
abbrev can0_OBJ5_CTL : Nat := 0x43DC8
abbrev can0_OBJ5_STAT : Nat := 0x43DC9
abbrev can0_OBJ5_ID (n : Nat) : Nat := 0x43DCA + 2 * n
abbrev can0_OBJ5_TSTAMP : Nat := 0x43DCE
abbrev can0_OBJ5_DATA (n : Nat) : Nat := 0x43DD0 + n
abbrev can0_OBJ6_CTL : Nat := 0x43DF0
abbrev can0_OBJ6_STAT : Nat := 0x43DF1
abbrev can0_OBJ6_ID (n : Nat) : Nat := 0x43DF2 + 2 * n
abbrev can0_OBJ6_TSTAMP : Nat := 0x43DF6
abbrev can0_OBJ6_DATA (n : Nat) : Nat := 0x43DF8 + n
abbrev can0_OBJ7_CTL : Nat := 0x43E18
abbrev can0_OBJ7_STAT : Nat := 0x43E19
abbrev can0_OBJ7_ID (n : Nat) : Nat := 0x43E1A + 2 * n
abbrev can0_OBJ7_TSTAMP : Nat := 0x43E1E
abbrev can0_OBJ7_DATA (n : Nat) : Nat := 0x43E20 + n
abbrev can0_OBJ8_CTL : Nat := 0x43E40
abbrev can0_OBJ8_STAT : Nat := 0x43E41
abbrev can0_OBJ8_ID (n : Nat) : Nat := 0x43E42 + 2 * n
abbrev can0_OBJ8_TSTAMP : Nat := 0x43E46
abbrev can0_OBJ8_DATA (n : Nat) : Nat := 0x43E48 + n
abbrev can0_OBJ9_CTL : Nat := 0x43E4C
abbrev can0_OBJ9_STAT : Nat := 0x43E4D
abbrev can0_OBJ9_ID (n : Nat) : Nat := 0x43E4E + 2 * n
abbrev can0_OBJ9_TSTAMP : Nat := 0x43E52
abbrev can0_OBJ9_DATA (n : Nat) : Nat := 0x43E54 + n
abbrev can0_OBJ10_CTL : Nat := 0x43E58
abbrev can0_OBJ10_STAT : Nat := 0x43E59
abbrev can0_OBJ10_ID (n : Nat) : Nat := 0x43E5A + 2 * n
abbrev can0_OBJ10_TSTAMP : Nat := 0x43E5E
abbrev can0_OBJ10_DATA (n : Nat) : Nat := 0x43E60 + n
abbrev can0_OBJ11_CTL : Nat := 0x43E64
abbrev can0_OBJ11_STAT : Nat := 0x43E65
abbrev can0_OBJ11_ID (n : Nat) : Nat := 0x43E66 + 2 * n
abbrev can0_OBJ11_TSTAMP : Nat := 0x43E6A
abbrev can0_OBJ11_DATA (n : Nat) : Nat := 0x43E6C + n
abbrev can0_OBJ12_CTL : Nat := 0x43E70
abbrev can0_OBJ12_STAT : Nat := 0x43E71
abbrev can0_OBJ12_ID (n : Nat) : Nat := 0x43E72 + 2 * n
abbrev can0_OBJ12_TSTAMP : Nat := 0x43E76
abbrev can0_OBJ12_DATA (n : Nat) : Nat := 0x43E78 + n
abbrev can0_OBJ13_CTL : Nat := 0x43E7C
abbrev can0_OBJ13_STAT : Nat := 0x43E7D
abbrev can0_OBJ13_ID (n : Nat) : Nat := 0x43E7E + 2 * n
abbrev can0_OBJ13_TSTAMP : Nat := 0x43E82
abbrev can0_OBJ13_DATA (n : Nat) : Nat := 0x43E84 + n
abbrev can0_OBJ14_CTL : Nat := 0x43E88
abbrev can0_OBJ14_STAT : Nat := 0x43E89
abbrev can0_OBJ14_ID (n : Nat) : Nat := 0x43E8A + 2 * n
abbrev can0_OBJ14_TSTAMP : Nat := 0x43E8E
abbrev can0_OBJ14_DATA (n : Nat) : Nat := 0x43E90 + n
abbrev can0_OBJ15_CTL : Nat := 0x43E94
abbrev can0_OBJ15_STAT : Nat := 0x43E95
abbrev can0_OBJ15_ID (n : Nat) : Nat := 0x43E96 + 2 * n
abbrev can0_OBJ15_TSTAMP : Nat := 0x43E9A
abbrev can0_OBJ15_DATA (n : Nat) : Nat := 0x43E9C + n
abbrev can0_OBJ16_CTL : Nat := 0x43EA0
abbrev can0_OBJ16_STAT : Nat := 0x43EA1
abbrev can0_OBJ16_ID (n : Nat) : Nat := 0x43EA2 + 2 * n
abbrev can0_OBJ16_TSTAMP : Nat := 0x43EA6
abbrev can0_OBJ16_DATA (n : Nat) : Nat := 0x43EA8 + n
abbrev can0_OBJ17_CTL : Nat := 0x43EAC
abbrev can0_OBJ17_STAT : Nat := 0x43EAD
abbrev can0_OBJ17_ID (n : Nat) : Nat := 0x43EAE + 2 * n
abbrev can0_OBJ17_TSTAMP : Nat := 0x43EB2
abbrev can0_OBJ17_DATA (n : Nat) : Nat := 0x43EB4 + n
abbrev can0_OBJ18_CTL : Nat := 0x43EB8
abbrev can0_OBJ18_STAT : Nat := 0x43EB9
abbrev can0_OBJ18_ID (n : Nat) : Nat := 0x43EBA + 2 * n
abbrev can0_OBJ18_TSTAMP : Nat := 0x43EBE
abbrev can0_OBJ18_DATA (n : Nat) : Nat := 0x43EC0 + n
abbrev can0_OBJ19_CTL : Nat := 0x43EC4
abbrev can0_OBJ19_STAT : Nat := 0x43EC5
abbrev can0_OBJ19_ID (n : Nat) : Nat := 0x43EC6 + 2 * n
abbrev can0_OBJ19_TSTAMP : Nat := 0x43ECA
abbrev can0_OBJ19_DATA (n : Nat) : Nat := 0x43ECC + n
abbrev can0_OBJ20_CTL : Nat := 0x43ED0
abbrev can0_OBJ20_STAT : Nat := 0x43ED1
abbrev can0_OBJ20_ID (n : Nat) : Nat := 0x43ED2 + 2 * n
abbrev can0_OBJ20_TSTAMP : Nat := 0x43ED6
abbrev can0_OBJ20_DATA (n : Nat) : Nat := 0x43ED8 + n
abbrev can0_OBJ21_CTL : Nat := 0x43EDC
abbrev can0_OBJ21_STAT : Nat := 0x43EDD
abbrev can0_OBJ21_ID (n : Nat) : Nat := 0x43EDE + 2 * n
abbrev can0_OBJ21_TSTAMP : Nat := 0x43EE2
abbrev can0_OBJ21_DATA (n : Nat) : Nat := 0x43EE4 + n
abbrev can0_OBJ22_CTL : Nat := 0x43EE8
abbrev can0_OBJ22_STAT : Nat := 0x43EE9
abbrev can0_OBJ22_ID (n : Nat) : Nat := 0x43EEA + 2 * n
abbrev can0_OBJ22_TSTAMP : Nat := 0x43EEE
abbrev can0_OBJ22_DATA (n : Nat) : Nat := 0x43EF0 + n
abbrev can0_OBJ23_CTL : Nat := 0x43EF4
abbrev can0_OBJ23_STAT : Nat := 0x43EF5
abbrev can0_OBJ23_ID (n : Nat) : Nat := 0x43EF6 + 2 * n
abbrev can0_OBJ23_TSTAMP : Nat := 0x43EFA
abbrev can0_OBJ23_DATA (n : Nat) : Nat := 0x43EFC + n
abbrev can0_OBJ24_CTL : Nat := 0x43F00
abbrev can0_OBJ24_STAT : Nat := 0x43F01
abbrev can0_OBJ24_ID (n : Nat) : Nat := 0x43F02 + 2 * n
abbrev can0_OBJ24_TSTAMP : Nat := 0x43F06
abbrev can0_OBJ24_DATA (n : Nat) : Nat := 0x43F08 + n
abbrev can0_OBJ25_CTL : Nat := 0x43F0C
abbrev can0_OBJ25_STAT : Nat := 0x43F0D
abbrev can0_OBJ25_ID (n : Nat) : Nat := 0x43F0E + 2 * n
abbrev can0_OBJ25_TSTAMP : Nat := 0x43F12
abbrev can0_OBJ25_DATA (n : Nat) : Nat := 0x43F14 + n
abbrev can0_OBJ26_CTL : Nat := 0x43F18
abbrev can0_OBJ26_STAT : Nat := 0x43F19
abbrev can0_OBJ26_ID (n : Nat) : Nat := 0x43F1A + 2 * n
abbrev can0_OBJ26_TSTAMP : Nat := 0x43F1E
abbrev can0_OBJ26_DATA (n : Nat) : Nat := 0x43F20 + n
abbrev can0_OBJ27_CTL : Nat := 0x43F24
abbrev can0_OBJ27_STAT : Nat := 0x43F25
abbrev can0_OBJ27_ID (n : Nat) : Nat := 0x43F26 + 2 * n
abbrev can0_OBJ27_TSTAMP : Nat := 0x43F2A
abbrev can0_OBJ27_DATA (n : Nat) : Nat := 0x43F2C + n
abbrev can0_OBJ28_CTL : Nat := 0x43F30
abbrev can0_OBJ28_STAT : Nat := 0x43F31
abbrev can0_OBJ28_ID (n : Nat) : Nat := 0x43F32 + 2 * n
abbrev can0_OBJ28_TSTAMP : Nat := 0x43F36
abbrev can0_OBJ28_DATA (n : Nat) : Nat := 0x43F38 + n
abbrev can0_OBJ29_CTL : Nat := 0x43F3C
abbrev can0_OBJ29_STAT : Nat := 0x43F3D
abbrev can0_OBJ29_ID (n : Nat) : Nat := 0x43F3E + 2 * n
abbrev can0_OBJ29_TSTAMP : Nat := 0x43F42
abbrev can0_OBJ29_DATA (n : Nat) : Nat := 0x43F44 + n
abbrev can0_OBJ30_CTL : Nat := 0x43F48
abbrev can0_OBJ30_STAT : Nat := 0x43F49
abbrev can0_OBJ30_ID (n : Nat) : Nat := 0x43F4A + 2 * n
abbrev can0_OBJ30_TSTAMP : Nat := 0x43F4E
abbrev can0_OBJ30_DATA (n : Nat) : Nat := 0x43F50 + n
abbrev can0_OBJ31_CTL : Nat := 0x43F54
abbrev can0_OBJ31_STAT : Nat := 0x43F55
abbrev can0_OBJ31_ID (n : Nat) : Nat := 0x43F56 + 2 * n
abbrev can0_OBJ31_TSTAMP : Nat := 0x43F5A
abbrev can0_OBJ31_DATA (n : Nat) : Nat := 0x43F5C + n
abbrev can1_MCTL : Nat := 0x44000
abbrev can1_ABTIME : Nat := 0x44002
abbrev can1_DBTIME : Nat := 0x44004
abbrev can1_BUSST : Nat := 0x44006
abbrev can1_ECNT : Nat := 0x44007
abbrev can1_SSPDLY : Nat := 0x44008
abbrev can1_LOSTCNT : Nat := 0x44009
abbrev can1_ERRCNT : Nat := 0x4400A
abbrev can1_PXCNT : Nat := 0x4400B
abbrev can1_TXREQ : Nat := 0x44010
abbrev can1_TXCAN : Nat := 0x44012
abbrev can1_TXDONE : Nat := 0x44014
abbrev can1_RXFULL : Nat := 0x44016
abbrev can1_OBJ0_CTL : Nat := 0x44100
abbrev can1_OBJ0_STAT : Nat := 0x44101
abbrev can1_OBJ0_ID (n : Nat) : Nat := 0x44102 + 2 * n
abbrev can1_OBJ0_TSTAMP : Nat := 0x44106
abbrev can1_OBJ0_DATA (n : Nat) : Nat := 0x44108 + n
abbrev can1_OBJ1_CTL : Nat := 0x44128
abbrev can1_OBJ1_STAT : Nat := 0x44129
abbrev can1_OBJ1_ID (n : Nat) : Nat := 0x4412A + 2 * n
abbrev can1_OBJ1_TSTAMP : Nat := 0x4412E
abbrev can1_OBJ1_DATA (n : Nat) : Nat := 0x44130 + n
abbrev can1_OBJ2_CTL : Nat := 0x44150
abbrev can1_OBJ2_STAT : Nat := 0x44151
abbrev can1_OBJ2_ID (n : Nat) : Nat := 0x44152 + 2 * n
abbrev can1_OBJ2_TSTAMP : Nat := 0x44156
abbrev can1_OBJ2_DATA (n : Nat) : Nat := 0x44158 + n
abbrev can1_OBJ3_CTL : Nat := 0x44178
abbrev can1_OBJ3_STAT : Nat := 0x44179
abbrev can1_OBJ3_ID (n : Nat) : Nat := 0x4417A + 2 * n
abbrev can1_OBJ3_TSTAMP : Nat := 0x4417E
abbrev can1_OBJ3_DATA (n : Nat) : Nat := 0x44180 + n
abbrev can1_OBJ4_CTL : Nat := 0x441A0
abbrev can1_OBJ4_STAT : Nat := 0x441A1
abbrev can1_OBJ4_ID (n : Nat) : Nat := 0x441A2 + 2 * n
abbrev can1_OBJ4_TSTAMP : Nat := 0x441A6
abbrev can1_OBJ4_DATA (n : Nat) : Nat := 0x441A8 + n
abbrev can1_OBJ5_CTL : Nat := 0x441C8
abbrev can1_OBJ5_STAT : Nat := 0x441C9
abbrev can1_OBJ5_ID (n : Nat) : Nat := 0x441CA + 2 * n
abbrev can1_OBJ5_TSTAMP : Nat := 0x441CE
abbrev can1_OBJ5_DATA (n : Nat) : Nat := 0x441D0 + n
abbrev can1_OBJ6_CTL : Nat := 0x441F0
abbrev can1_OBJ6_STAT : Nat := 0x441F1
abbrev can1_OBJ6_ID (n : Nat) : Nat := 0x441F2 + 2 * n
abbrev can1_OBJ6_TSTAMP : Nat := 0x441F6
abbrev can1_OBJ6_DATA (n : Nat) : Nat := 0x441F8 + n
abbrev can1_OBJ7_CTL : Nat := 0x44218
abbrev can1_OBJ7_STAT : Nat := 0x44219
abbrev can1_OBJ7_ID (n : Nat) : Nat := 0x4421A + 2 * n
abbrev can1_OBJ7_TSTAMP : Nat := 0x4421E
abbrev can1_OBJ7_DATA (n : Nat) : Nat := 0x44220 + n
abbrev can1_OBJ8_CTL : Nat := 0x44240
abbrev can1_OBJ8_STAT : Nat := 0x44241
abbrev can1_OBJ8_ID (n : Nat) : Nat := 0x44242 + 2 * n
abbrev can1_OBJ8_TSTAMP : Nat := 0x44246
abbrev can1_OBJ8_DATA (n : Nat) : Nat := 0x44248 + n
abbrev can1_OBJ9_CTL : Nat := 0x4424C
abbrev can1_OBJ9_STAT : Nat := 0x4424D
abbrev can1_OBJ9_ID (n : Nat) : Nat := 0x4424E + 2 * n
abbrev can1_OBJ9_TSTAMP : Nat := 0x44252
abbrev can1_OBJ9_DATA (n : Nat) : Nat := 0x44254 + n
abbrev can1_OBJ10_CTL : Nat := 0x44258
abbrev can1_OBJ10_STAT : Nat := 0x44259
abbrev can1_OBJ10_ID (n : Nat) : Nat := 0x4425A + 2 * n
abbrev can1_OBJ10_TSTAMP : Nat := 0x4425E
abbrev can1_OBJ10_DATA (n : Nat) : Nat := 0x44260 + n
abbrev can1_OBJ11_CTL : Nat := 0x44264
abbrev can1_OBJ11_STAT : Nat := 0x44265
abbrev can1_OBJ11_ID (n : Nat) : Nat := 0x44266 + 2 * n
abbrev can1_OBJ11_TSTAMP : Nat := 0x4426A
abbrev can1_OBJ11_DATA (n : Nat) : Nat := 0x4426C + n
abbrev can1_OBJ12_CTL : Nat := 0x44270
abbrev can1_OBJ12_STAT : Nat := 0x44271
abbrev can1_OBJ12_ID (n : Nat) : Nat := 0x44272 + 2 * n
abbrev can1_OBJ12_TSTAMP : Nat := 0x44276
abbrev can1_OBJ12_DATA (n : Nat) : Nat := 0x44278 + n
abbrev can1_OBJ13_CTL : Nat := 0x4427C
abbrev can1_OBJ13_STAT : Nat := 0x4427D
abbrev can1_OBJ13_ID (n : Nat) : Nat := 0x4427E + 2 * n
abbrev can1_OBJ13_TSTAMP : Nat := 0x44282
abbrev can1_OBJ13_DATA (n : Nat) : Nat := 0x44284 + n
abbrev can1_OBJ14_CTL : Nat := 0x44288
abbrev can1_OBJ14_STAT : Nat := 0x44289
abbrev can1_OBJ14_ID (n : Nat) : Nat := 0x4428A + 2 * n
abbrev can1_OBJ14_TSTAMP : Nat := 0x4428E
abbrev can1_OBJ14_DATA (n : Nat) : Nat := 0x44290 + n
abbrev can1_OBJ15_CTL : Nat := 0x44294
abbrev can1_OBJ15_STAT : Nat := 0x44295
abbrev can1_OBJ15_ID (n : Nat) : Nat := 0x44296 + 2 * n
abbrev can1_OBJ15_TSTAMP : Nat := 0x4429A
abbrev can1_OBJ15_DATA (n : Nat) : Nat := 0x4429C + n
abbrev can1_OBJ16_CTL : Nat := 0x442A0
abbrev can1_OBJ16_STAT : Nat := 0x442A1
abbrev can1_OBJ16_ID (n : Nat) : Nat := 0x442A2 + 2 * n
abbrev can1_OBJ16_TSTAMP : Nat := 0x442A6
abbrev can1_OBJ16_DATA (n : Nat) : Nat := 0x442A8 + n
abbrev can1_OBJ17_CTL : Nat := 0x442AC
abbrev can1_OBJ17_STAT : Nat := 0x442AD
abbrev can1_OBJ17_ID (n : Nat) : Nat := 0x442AE + 2 * n
abbrev can1_OBJ17_TSTAMP : Nat := 0x442B2
abbrev can1_OBJ17_DATA (n : Nat) : Nat := 0x442B4 + n
abbrev can1_OBJ18_CTL : Nat := 0x442B8
abbrev can1_OBJ18_STAT : Nat := 0x442B9
abbrev can1_OBJ18_ID (n : Nat) : Nat := 0x442BA + 2 * n
abbrev can1_OBJ18_TSTAMP : Nat := 0x442BE
abbrev can1_OBJ18_DATA (n : Nat) : Nat := 0x442C0 + n
abbrev can1_OBJ19_CTL : Nat := 0x442C4
abbrev can1_OBJ19_STAT : Nat := 0x442C5
abbrev can1_OBJ19_ID (n : Nat) : Nat := 0x442C6 + 2 * n
abbrev can1_OBJ19_TSTAMP : Nat := 0x442CA
abbrev can1_OBJ19_DATA (n : Nat) : Nat := 0x442CC + n
abbrev can1_OBJ20_CTL : Nat := 0x442D0
abbrev can1_OBJ20_STAT : Nat := 0x442D1
abbrev can1_OBJ20_ID (n : Nat) : Nat := 0x442D2 + 2 * n
abbrev can1_OBJ20_TSTAMP : Nat := 0x442D6
abbrev can1_OBJ20_DATA (n : Nat) : Nat := 0x442D8 + n
abbrev can1_OBJ21_CTL : Nat := 0x442DC
abbrev can1_OBJ21_STAT : Nat := 0x442DD
abbrev can1_OBJ21_ID (n : Nat) : Nat := 0x442DE + 2 * n
abbrev can1_OBJ21_TSTAMP : Nat := 0x442E2
abbrev can1_OBJ21_DATA (n : Nat) : Nat := 0x442E4 + n
abbrev can1_OBJ22_CTL : Nat := 0x442E8
abbrev can1_OBJ22_STAT : Nat := 0x442E9
abbrev can1_OBJ22_ID (n : Nat) : Nat := 0x442EA + 2 * n
abbrev can1_OBJ22_TSTAMP : Nat := 0x442EE
abbrev can1_OBJ22_DATA (n : Nat) : Nat := 0x442F0 + n
abbrev can1_OBJ23_CTL : Nat := 0x442F4
abbrev can1_OBJ23_STAT : Nat := 0x442F5
abbrev can1_OBJ23_ID (n : Nat) : Nat := 0x442F6 + 2 * n
abbrev can1_OBJ23_TSTAMP : Nat := 0x442FA
abbrev can1_OBJ23_DATA (n : Nat) : Nat := 0x442FC + n
abbrev can1_OBJ24_CTL : Nat := 0x44300
abbrev can1_OBJ24_STAT : Nat := 0x44301
abbrev can1_OBJ24_ID (n : Nat) : Nat := 0x44302 + 2 * n
abbrev can1_OBJ24_TSTAMP : Nat := 0x44306
abbrev can1_OBJ24_DATA (n : Nat) : Nat := 0x44308 + n
abbrev can1_OBJ25_CTL : Nat := 0x4430C
abbrev can1_OBJ25_STAT : Nat := 0x4430D
abbrev can1_OBJ25_ID (n : Nat) : Nat := 0x4430E + 2 * n
abbrev can1_OBJ25_TSTAMP : Nat := 0x44312
abbrev can1_OBJ25_DATA (n : Nat) : Nat := 0x44314 + n
abbrev can1_OBJ26_CTL : Nat := 0x44318
abbrev can1_OBJ26_STAT : Nat := 0x44319
abbrev can1_OBJ26_ID (n : Nat) : Nat := 0x4431A + 2 * n
abbrev can1_OBJ26_TSTAMP : Nat := 0x4431E
abbrev can1_OBJ26_DATA (n : Nat) : Nat := 0x44320 + n
abbrev can1_OBJ27_CTL : Nat := 0x44324
abbrev can1_OBJ27_STAT : Nat := 0x44325
abbrev can1_OBJ27_ID (n : Nat) : Nat := 0x44326 + 2 * n
abbrev can1_OBJ27_TSTAMP : Nat := 0x4432A
abbrev can1_OBJ27_DATA (n : Nat) : Nat := 0x4432C + n
abbrev can1_OBJ28_CTL : Nat := 0x44330
abbrev can1_OBJ28_STAT : Nat := 0x44331
abbrev can1_OBJ28_ID (n : Nat) : Nat := 0x44332 + 2 * n
abbrev can1_OBJ28_TSTAMP : Nat := 0x44336
abbrev can1_OBJ28_DATA (n : Nat) : Nat := 0x44338 + n
abbrev can1_OBJ29_CTL : Nat := 0x4433C
abbrev can1_OBJ29_STAT : Nat := 0x4433D
abbrev can1_OBJ29_ID (n : Nat) : Nat := 0x4433E + 2 * n
abbrev can1_OBJ29_TSTAMP : Nat := 0x44342
abbrev can1_OBJ29_DATA (n : Nat) : Nat := 0x44344 + n
abbrev can1_OBJ30_CTL : Nat := 0x44348
abbrev can1_OBJ30_STAT : Nat := 0x44349
abbrev can1_OBJ30_ID (n : Nat) : Nat := 0x4434A + 2 * n
abbrev can1_OBJ30_TSTAMP : Nat := 0x4434E
abbrev can1_OBJ30_DATA (n : Nat) : Nat := 0x44350 + n
abbrev can1_OBJ31_CTL : Nat := 0x44354
abbrev can1_OBJ31_STAT : Nat := 0x44355
abbrev can1_OBJ31_ID (n : Nat) : Nat := 0x44356 + 2 * n
abbrev can1_OBJ31_TSTAMP : Nat := 0x4435A
abbrev can1_OBJ31_DATA (n : Nat) : Nat := 0x4435C + n
abbrev kline_CTL : Nat := 0x44400
abbrev kline_DIV : Nat := 0x44401
abbrev kline_GAP : Nat := 0x44402
abbrev kline_W1 : Nat := 0x44403
abbrev kline_W2 : Nat := 0x44404
abbrev kline_W3 : Nat := 0x44405
abbrev kline_W4 : Nat := 0x44406
abbrev kline_TINIL : Nat := 0x44407
abbrev kline_TWUP : Nat := 0x44408
abbrev kline_IDLE : Nat := 0x44409
abbrev kline_CMD : Nat := 0x4440A
abbrev kline_ISTAT : Nat := 0x4440B
abbrev kline_ADDR : Nat := 0x4440C
abbrev kline_KB : Nat := 0x4440D
abbrev kline_TXD : Nat := 0x44410
abbrev kline_RXD : Nat := 0x44411
abbrev kline_STAT : Nat := 0x44412
abbrev kline_ERRC : Nat := 0x44413
abbrev fcol_FSW : Nat := 0x44800
abbrev fcol_ACK : Nat := 0x44801
abbrev fcol_LV (n : Nat) : Nat := 0x44802 + n
abbrev fcol_POL0 : Nat := 0x44806
abbrev fcol_POL1 : Nat := 0x44807
abbrev fcol_POL2 : Nat := 0x44808
abbrev fcol_POL3 : Nat := 0x44809
abbrev fcol_FLV : Nat := 0x4480A
abbrev fcol_HSTAT : Nat := 0x4480B
abbrev fcol_HCLR : Nat := 0x4480C
abbrev fcol_HGEN : Nat := 0x4480D
abbrev fcol_WDCFG : Nat := 0x44810
abbrev fcol_WDSVC : Nat := 0x44811
abbrev fcol_WDCNT : Nat := 0x44812
abbrev fcol_DUMP : Nat := 0x44814
abbrev fcol_DSTAT : Nat := 0x44815
abbrev fcol_ABCMD : Nat := 0x44818
abbrev fcol_ABRSLT (n : Nat) : Nat := 0x44820 + n
abbrev fcol_H (n : Nat) : Nat := 0x44840 + 8 * n
abbrev dbg_VTRX : Nat := 0x44C00
abbrev dbg_VTTX : Nat := 0x44C01
abbrev dbg_VTSTAT : Nat := 0x44C02
abbrev dbg_STAMP (n : Nat) : Nat := 0x44C10 + n
abbrev dbg_STSTAT : Nat := 0x44C20
abbrev flash_STAT : Nat := 0x45000
abbrev flash_GEOM : Nat := 0x45001
abbrev flash_RDCFG : Nat := 0x45002
abbrev flash_ERINS : Nat := 0x45003
abbrev flash_CMT : Nat := 0x45004
abbrev gpio_PCFG (n : Nat) : Nat := 0x45400 + n
abbrev gpio_DROP : Nat := 0x45418
abbrev gpio_CAP (n : Nat) : Nat := 0x45420 + 2 * n
abbrev post_NOWL : Nat := 0x45800
abbrev post_NOWH : Nat := 0x45802
abbrev post_CMPL (n : Nat) : Nat := 0x45808 + 4 * n
abbrev post_CMPH (n : Nat) : Nat := 0x4580A + 4 * n
abbrev post_CMPCTL : Nat := 0x45820
end Reg

/-- The rows of SYS. -/
def rowsSys : List RegRow := [
  { addr := 0x40000, reset := 0x4816 },
  { addr := 0x40001, reset := 0x3A01 },
  { addr := 0x40004, reset := 0x8000, kw := 0xFF, kl := 0xE0FF },
  { addr := 0x40005, reset := 0x1, kl := 0xC00F },
  { addr := 0x40006, reset := 0x8000 },
  { addr := 0x40007 },
  { addr := 0x40008, w1c := 0x400 },
  { addr := 0x40009 },
  { addr := 0x4000A, pair := true },
  { addr := 0x4000C, pair := true },
  { addr := 0x4000E },
  { addr := 0x4000F },
  { addr := 0x40010 },
  { addr := 0x40011 },
  { addr := 0x40012, kw := 0xFF00, kl := 0xFF00 },
  { addr := 0x40014, pair := true, w1c := 0xFFFC7FFF },
  { addr := 0x40016, w1c := 0xFF07 }]

/-- The rows of PLINTH. -/
def rowsPlinth : List RegRow := [
  { addr := 0x40400, w1c := 0x180, kw := 0xFC40, kl := 0xFC40, kp := 0x2000 },
  { addr := 0x40401, reset := 0x32, rw := 0xFF },
  { addr := 0x40402, rc := 0xFFFF },
  { addr := 0x40404 },
  { addr := 0x40405, reset := 0x1, rw := 0xF },
  { addr := 0x40406, reset := 0x8000, w1c := 0x800F, kw := 0x800F, kl := 0x800F },
  { addr := 0x40408, reset := 0x8000, rw := 0xC000 },
  { addr := 0x40409, reset := 0x14, rw := 0x801F },
  { addr := 0x4040A, reset := 0x800, rw := 0xFFFF },
  { addr := 0x4040C, rw := 0xFFFF },
  { addr := 0x4040D },
  { addr := 0x4040E, pair := true, reset := 0x5AA, rw := 0xFFFF, rc := 0xFFFF0000 },
  { addr := 0x40410, pair := true, rw := 0xFFFFFFFF, kw := 0xFFFFFFFF, kl := 0xFFFFFFFF, kp := 0xFFFFFFFF }]

/-- The rows of MON. -/
def rowsMon : List RegRow := [
  { addr := 0x40800, count := 9 },
  { addr := 0x40810, pair := true, reset := 0x488FE98, rw := 0xFFFFFFFF },
  { addr := 0x40812, pair := true, reset := 0x4B0FE98, rw := 0xFFFFFFFF },
  { addr := 0x40814, pair := true, reset := 0x4B0FE98, rw := 0xFFFFFFFF },
  { addr := 0x40816, pair := true, reset := 0x46501770, rw := 0xFFFFFFFF },
  { addr := 0x40818, pair := true, reset := 0xEA600000, rw := 0xFFFFFFFF },
  { addr := 0x4081A, pair := true, reset := 0xD7A0C4E, rw := 0xFFFFFFFF },
  { addr := 0x4081C, pair := true, reset := 0x4BA03AC, rw := 0xFFFFFFFF },
  { addr := 0x4081E, pair := true, reset := 0x13EC1324, rw := 0xFFFFFFFF },
  { addr := 0x40820, pair := true, reset := 0xA280640, rw := 0xFFFFFFFF },
  { addr := 0x40830, reset := 0x4, rw := 0xF },
  { addr := 0x40831 }]

/-- The rows of THR. -/
def rowsThr : List RegRow := [
  { addr := 0x40C00 },
  { addr := 0x40C01 },
  { addr := 0x40C04, reset := 0xBA98, rw := 0xFFFF },
  { addr := 0x40C05, reset := 0xFEDC, rw := 0xFFFF },
  { addr := 0x40C06, reset := 0xBA98, rw := 0xFFFF },
  { addr := 0x40C07, reset := 0xFEDC, rw := 0xFFFF },
  { addr := 0x40C08 },
  { addr := 0x40C09, reset := 0x7 },
  { addr := 0x40C10, count := 8, rw := 0xFFFF },
  { addr := 0x40C18, count := 8 },
  { addr := 0x40C20, count := 8 },
  { addr := 0x40C28, count := 8, rw := 0xFFFF },
  { addr := 0x40C30, count := 8, rc := 0xFF },
  { addr := 0x40C38 },
  { addr := 0x40C40, count := 8 },
  { addr := 0x40C48, count := 4 },
  { addr := 0x40C4C, rc := 0xFF },
  { addr := 0x40C50, stride := 2, count := 8, pair := true, rw := 0xFFFFF },
  { addr := 0x40C60, reset := 0x800, rw := 0xFFF },
  { addr := 0x40C61, count := 7, rw := 0xFFFF },
  { addr := 0x40C68 },
  { addr := 0x40C69, rw := 0x4000, w1c := 0x2, w1s := 0x8000 },
  { addr := 0x40C6A },
  { addr := 0x40C70, count := 16, rw := 0x8FFF },
  { addr := 0x40C80, count := 16, rw := 0xFFF }]

/-- The rows of INTC. -/
def rowsIntc : List RegRow := [
  { addr := 0x41000, count := 6 },
  { addr := 0x41008, count := 6 },
  { addr := 0x41010, count := 6 },
  { addr := 0x41018, count := 6, reset := 0xFFFF },
  { addr := 0x41020, count := 6 },
  { addr := 0x41028, count := 6 },
  { addr := 0x41030, count := 6 },
  { addr := 0x41038, count := 6 },
  { addr := 0x41040, count := 6 },
  { addr := 0x41048, count := 6, w1c := 0xFFFF },
  { addr := 0x41050, count := 48, reset := 0x101, rw := 0xFFFF },
  { addr := 0x41080, count := 8, reset := 0x7F },
  { addr := 0x41088, count := 8 },
  { addr := 0x41090, count := 8 },
  { addr := 0x41098, count := 12, rw := 0x3FF },
  { addr := 0x410A8, count := 12, reset := 0x100, rw := 0x3FF },
  { addr := 0x410B4, rc := 0xFFFF },
  { addr := 0x410B6, pair := true, reset := 0x7F0000, w1c := 0x80000000 }]

/-- The rows of MEMC. -/
def rowsMemc : List RegRow := [
  { addr := 0x41400, count := 5, rc := 0xFFFF },
  { addr := 0x41408, count := 5, rc := 0xFFFF },
  { addr := 0x41410, pair := true, w1c := 0x80000000 },
  { addr := 0x41412, rc := 0xFFFF },
  { addr := 0x41414, pair := true, w1c := 0x80000000 },
  { addr := 0x41416 },
  { addr := 0x41417, rc := 0xFFFF },
  { addr := 0x41500, stride := 4, pair := true, reset := 0xEFF00000, rw := 0xEFFFFFFF },
  { addr := 0x41502, stride := 4, pair := true, reset := 0xFFFFF, rw := 0xFFFFF },
  { addr := 0x41504, stride := 4, count := 7, pair := true, rw := 0xEFFFFFFF },
  { addr := 0x41506, stride := 4, count := 7, pair := true, rw := 0xFFFFF },
  { addr := 0x41520, stride := 4, pair := true, reset := 0xEFF00000, rw := 0xEFFFFFFF },
  { addr := 0x41522, stride := 4, pair := true, reset := 0xFFFFF, rw := 0xFFFFF },
  { addr := 0x41524, stride := 4, count := 7, pair := true, rw := 0xEFFFFFFF },
  { addr := 0x41526, stride := 4, count := 7, pair := true, rw := 0xFFFFF },
  { addr := 0x41540, stride := 4, pair := true, reset := 0xEFF00000, rw := 0xEFFFFFFF },
  { addr := 0x41542, stride := 4, pair := true, reset := 0xFFFFF, rw := 0xFFFFF },
  { addr := 0x41544, stride := 4, count := 7, pair := true, rw := 0xEFFFFFFF },
  { addr := 0x41546, stride := 4, count := 7, pair := true, rw := 0xFFFFF },
  { addr := 0x41560, stride := 4, pair := true, reset := 0xEFF00000, rw := 0xEFFFFFFF },
  { addr := 0x41562, stride := 4, pair := true, reset := 0xFFFFF, rw := 0xFFFFF },
  { addr := 0x41564, stride := 4, count := 7, pair := true, rw := 0xEFFFFFFF },
  { addr := 0x41566, stride := 4, count := 7, pair := true, rw := 0xFFFFF },
  { addr := 0x41580, stride := 4, pair := true, reset := 0xEFF00000, rw := 0xEFFFFFFF },
  { addr := 0x41582, stride := 4, pair := true, reset := 0xFFFFF, rw := 0xFFFFF },
  { addr := 0x41584, stride := 4, count := 7, pair := true, rw := 0xEFFFFFFF },
  { addr := 0x41586, stride := 4, count := 7, pair := true, rw := 0xFFFFF }]

/-- The rows of COUR. -/
def rowsCour : List RegRow := [
  { addr := 0x41800 },
  { addr := 0x41801, w1c := 0xFF },
  { addr := 0x41802 },
  { addr := 0x41803, reset := 0x6432, rw := 0xFFFF },
  { addr := 0x41804, pair := true, rw := 0xFFFFFFFF },
  { addr := 0x41806, pair := true, rw := 0xFFFFFFFF },
  { addr := 0x41810, count := 8, rw := 0x7 },
  { addr := 0x41818, count := 8, reset := 0xFFFF, rw := 0xFFFF },
  { addr := 0x41820, count := 8, reset := 0xFFFF },
  { addr := 0x41828, count := 8 },
  { addr := 0x41830, count := 8 }]

/-- The rows of TILE. -/
def rowsTile : List RegRow := [
  { addr := 0x41C00 },
  { addr := 0x41C01 },
  { addr := 0x41C02 },
  { addr := 0x41C03, rw := 0xFFFF },
  { addr := 0x41C04 },
  { addr := 0x41C05, rc := 0xFFFF },
  { addr := 0x41C06, w1c := 0xC000 },
  { addr := 0x41C10, stride := 2, count := 8, pair := true },
  { addr := 0x41C20, count := 8, rw := 0xF }]

/-- The rows of ANG. -/
def rowsAng : List RegRow := [
  { addr := 0x42000, rw := 0xFFFB },
  { addr := 0x42001, rw := 0xFFFF },
  { addr := 0x42002, rw := 0xFFFF },
  { addr := 0x42003, reset := 0x1, rw := 0xFFFF },
  { addr := 0x42004, reset := 0x3E8, rw := 0xFFFF },
  { addr := 0x42005, reset := 0x4, rw := 0xEF0F },
  { addr := 0x42006, reset := 0x5005, rw := 0xF0FF },
  { addr := 0x42007, reset := 0x500, rw := 0xFFFF },
  { addr := 0x42008, count := 4, rw := 0xFFFF },
  { addr := 0x42010 },
  { addr := 0x42011 },
  { addr := 0x42012 },
  { addr := 0x42013 },
  { addr := 0x42014, pair := true },
  { addr := 0x42016, pair := true },
  { addr := 0x42018, pair := true },
  { addr := 0x4201A },
  { addr := 0x4201C, pair := true, kw := 0xFFFFFFFF, kl := 0xFFFFFFFF },
  { addr := 0x4201E, rc := 0xFFFF },
  { addr := 0x4201F, rc := 0xFFFF },
  { addr := 0x42020 },
  { addr := 0x42021 }]

/-- The rows of EVT. -/
def rowsEvt : List RegRow := [
  { addr := 0x42400 },
  { addr := 0x42401, reset := 0x40, rw := 0xFF },
  { addr := 0x42402, reset := 0x40, rw := 0x3FF },
  { addr := 0x42403 },
  { addr := 0x42404, rc := 0xFFFF },
  { addr := 0x42405, rc := 0xFFFF },
  { addr := 0x42406, rc := 0xFFFF },
  { addr := 0x42407, rc := 0xFFFF },
  { addr := 0x42408, count := 9 },
  { addr := 0x42411, rc := 0xFFFF },
  { addr := 0x42412 },
  { addr := 0x42414, pair := true },
  { addr := 0x42500, count := 128 }]

/-- The rows of ADC. -/
def rowsAdc : List RegRow := [
  { addr := 0x42800, rw := 0xFFFF },
  { addr := 0x42801, reset := 0xA10, rw := 0xFFFF },
  { addr := 0x42802 },
  { addr := 0x42803, rw := 0x77 },
  { addr := 0x42804, stride := 2, count := 2, pair := true },
  { addr := 0x42808, pair := true, rc := 0xFFFFFFFF },
  { addr := 0x4280A, count := 2, w1c := 0x8000, rc := 0xFF },
  { addr := 0x42810, stride := 2, count := 2, pair := true, rw := 0xFFFFFF },
  { addr := 0x42814, count := 2, rw := 0xFFFF },
  { addr := 0x42818, stride := 2, count := 2, pair := true },
  { addr := 0x42820, count := 24, rc := 0x8000 },
  { addr := 0x42838, pair := true, w1c := 0xFFFFFF },
  { addr := 0x4283A, pair := true, rw := 0xFFFFFF },
  { addr := 0x4283C, stride := 2, count := 2, pair := true },
  { addr := 0x42840, count := 2, reset := 0x2010, rw := 0xF83F },
  { addr := 0x42844, stride := 2, count := 2, pair := true },
  { addr := 0x42848, count := 2, w1c := 0x4000 },
  { addr := 0x4284A, count := 2 },
  { addr := 0x42880, count := 32, rw := 0xFFFF },
  { addr := 0x428A0, count := 32, rw := 0xFFFF },
  { addr := 0x428C0, count := 4, reset := 0x20, rw := 0x8FFF },
  { addr := 0x428C4, count := 4, rw := 0xFFFF },
  { addr := 0x428C8, count := 4, rw := 0xFFFF },
  { addr := 0x428CC, count := 4, rw := 0xFFFF },
  { addr := 0x428D0, stride := 2, count := 4, pair := true },
  { addr := 0x428D8, count := 4 },
  { addr := 0x428DC, count := 4 },
  { addr := 0x428E0, count := 4, rc := 0xFFFF }]

/-- The rows of OUT. -/
def rowsOut : List RegRow := [
  { addr := 0x42C00, stride := 2, count := 14, pair := true, rw := 0xFFFFFFFF },
  { addr := 0x42C20 },
  { addr := 0x42C21, count := 4, rw := 0xFFFF },
  { addr := 0x42C26 },
  { addr := 0x42C27 },
  { addr := 0x42C28, rw := 0xFF },
  { addr := 0x42C30, count := 16, w1c := 0x3F },
  { addr := 0x42C40, count := 4 },
  { addr := 0x42C44 },
  { addr := 0x42C45, rw := 0x3FFF },
  { addr := 0x42C46 },
  { addr := 0x42C47 }]

/-- The rows of KERN. -/
def rowsKern : List RegRow := [
  { addr := 0x43000 },
  { addr := 0x43001 },
  { addr := 0x43002 },
  { addr := 0x43003, w1c := 0xFF },
  { addr := 0x43004 },
  { addr := 0x43006, pair := true, rw := 0xFFFFFFFF },
  { addr := 0x43008, rw := 0xFF },
  { addr := 0x43009, rc := 0xFFFF },
  { addr := 0x43010, count := 8, reset := 0x500, rw := 0xFFFF },
  { addr := 0x43018, count := 8, rc := 0xFFFF },
  { addr := 0x43020, count := 8 },
  { addr := 0x43028, pair := true }]

/-- The rows of WAILI. -/
def rowsWaili : List RegRow := [
  { addr := 0x43400, reset := 0x57, rw := 0xFFFF },
  { addr := 0x43401, rw := 0x3 },
  { addr := 0x43402 },
  { addr := 0x43404, pair := true, rc := 0xFFFFFFFF },
  { addr := 0x43406, reset := 0x64, rw := 0xFF },
  { addr := 0x43407, reset := 0x64, rw := 0xFFFF },
  { addr := 0x43408 },
  { addr := 0x43410, count := 60 },
  { addr := 0x43450 },
  { addr := 0x43451 }]

/-- The rows of LOOP. -/
def rowsLoop : List RegRow := [
  { addr := 0x43800, w1c := 0x100, kl := 0xBF },
  { addr := 0x43801 },
  { addr := 0x43802, reset := 0x8000, rw := 0x8000 },
  { addr := 0x43803, rw := 0xFF0F },
  { addr := 0x43804, reset := 0xFFFF, rw := 0xFFFF },
  { addr := 0x43805 },
  { addr := 0x43806, rw := 0x7F, w1s := 0x8000 },
  { addr := 0x43807 },
  { addr := 0x43808 },
  { addr := 0x43809 },
  { addr := 0x4380A },
  { addr := 0x4380C, pair := true },
  { addr := 0x4380E },
  { addr := 0x4380F },
  { addr := 0x43810, count := 4 },
  { addr := 0x43814, count := 4 },
  { addr := 0x43818, rw := 0xFF },
  { addr := 0x4381A, pair := true, rw := 0x800FFFFF },
  { addr := 0x4381C, pair := true, rc := 0xFFFFFFFF },
  { addr := 0x4381E, rc := 0xFF00 },
  { addr := 0x43820, count := 16, rw := 0xFFFF }]

/-- The rows of CAN0. -/
def rowsCan0 : List RegRow := [
  { addr := 0x43C00, reset := 0x1000, rw := 0xFF80 },
  { addr := 0x43C02, pair := true, rw := 0x1FFFFFFC },
  { addr := 0x43C04, pair := true, rw := 0xFFFFC0FF },
  { addr := 0x43C06, w1c := 0x2000 },
  { addr := 0x43C07 },
  { addr := 0x43C08 },
  { addr := 0x43C09, rc := 0xFFFF },
  { addr := 0x43C0A, rc := 0xFFFF },
  { addr := 0x43C0B, rc := 0xFFFF },
  { addr := 0x43C10, pair := true, w1s := 0xFFFFFFFF },
  { addr := 0x43C12, pair := true, w1s := 0xFFFFFFFF },
  { addr := 0x43C14, pair := true, w1c := 0xFFFFFFFF },
  { addr := 0x43C16, pair := true },
  { addr := 0x43D00, rw := 0xFF0F, kw := 0xFF0F, kl := 0xFF0F },
  { addr := 0x43D01, w1c := 0xC600 },
  { addr := 0x43D02, stride := 2, count := 2, pair := true, rw := 0x1FFFFFFF, kw := 0x1FFFFFFF, kl := 0x1FFFFFFF },
  { addr := 0x43D06, pair := true, kw := 0xFFFFFFFF, kl := 0xFFFFFFFF },
  { addr := 0x43D08, count := 32, rw := 0xFFFF, kw := 0xFFFF, kl := 0xFFFF },
  { addr := 0x43D28, rw := 0xFF0F, kw := 0xFF0F, kl := 0xFF0F },
  { addr := 0x43D29, w1c := 0xC600 },
  { addr := 0x43D2A, stride := 2, count := 2, pair := true, rw := 0x1FFFFFFF, kw := 0x1FFFFFFF, kl := 0x1FFFFFFF },
  { addr := 0x43D2E, pair := true, kw := 0xFFFFFFFF, kl := 0xFFFFFFFF },
  { addr := 0x43D30, count := 32, rw := 0xFFFF, kw := 0xFFFF, kl := 0xFFFF },
  { addr := 0x43D50, rw := 0xFF0F, kw := 0xFF0F, kl := 0xFF0F },
  { addr := 0x43D51, w1c := 0xC600 },
  { addr := 0x43D52, stride := 2, count := 2, pair := true, rw := 0x1FFFFFFF, kw := 0x1FFFFFFF, kl := 0x1FFFFFFF },
  { addr := 0x43D56, pair := true, kw := 0xFFFFFFFF, kl := 0xFFFFFFFF },
  { addr := 0x43D58, count := 32, rw := 0xFFFF, kw := 0xFFFF, kl := 0xFFFF },
  { addr := 0x43D78, rw := 0xFF0F, kw := 0xFF0F, kl := 0xFF0F },
  { addr := 0x43D79, w1c := 0xC600 },
  { addr := 0x43D7A, stride := 2, count := 2, pair := true, rw := 0x1FFFFFFF, kw := 0x1FFFFFFF, kl := 0x1FFFFFFF },
  { addr := 0x43D7E, pair := true, kw := 0xFFFFFFFF, kl := 0xFFFFFFFF },
  { addr := 0x43D80, count := 32, rw := 0xFFFF, kw := 0xFFFF, kl := 0xFFFF },
  { addr := 0x43DA0, rw := 0xFF0F, kw := 0xFF0F, kl := 0xFF0F },
  { addr := 0x43DA1, w1c := 0xC600 },
  { addr := 0x43DA2, stride := 2, count := 2, pair := true, rw := 0x1FFFFFFF, kw := 0x1FFFFFFF, kl := 0x1FFFFFFF },
  { addr := 0x43DA6, pair := true, kw := 0xFFFFFFFF, kl := 0xFFFFFFFF },
  { addr := 0x43DA8, count := 32, rw := 0xFFFF, kw := 0xFFFF, kl := 0xFFFF },
  { addr := 0x43DC8, rw := 0xFF0F, kw := 0xFF0F, kl := 0xFF0F },
  { addr := 0x43DC9, w1c := 0xC600 },
  { addr := 0x43DCA, stride := 2, count := 2, pair := true, rw := 0x1FFFFFFF, kw := 0x1FFFFFFF, kl := 0x1FFFFFFF },
  { addr := 0x43DCE, pair := true, kw := 0xFFFFFFFF, kl := 0xFFFFFFFF },
  { addr := 0x43DD0, count := 32, rw := 0xFFFF, kw := 0xFFFF, kl := 0xFFFF },
  { addr := 0x43DF0, rw := 0xFF0F, kw := 0xFF0F, kl := 0xFF0F },
  { addr := 0x43DF1, w1c := 0xC600 },
  { addr := 0x43DF2, stride := 2, count := 2, pair := true, rw := 0x1FFFFFFF, kw := 0x1FFFFFFF, kl := 0x1FFFFFFF },
  { addr := 0x43DF6, pair := true, kw := 0xFFFFFFFF, kl := 0xFFFFFFFF },
  { addr := 0x43DF8, count := 32, rw := 0xFFFF, kw := 0xFFFF, kl := 0xFFFF },
  { addr := 0x43E18, rw := 0xFF0F, kw := 0xFF0F, kl := 0xFF0F },
  { addr := 0x43E19, w1c := 0xC600 },
  { addr := 0x43E1A, stride := 2, count := 2, pair := true, rw := 0x1FFFFFFF, kw := 0x1FFFFFFF, kl := 0x1FFFFFFF },
  { addr := 0x43E1E, pair := true, kw := 0xFFFFFFFF, kl := 0xFFFFFFFF },
  { addr := 0x43E20, count := 32, rw := 0xFFFF, kw := 0xFFFF, kl := 0xFFFF },
  { addr := 0x43E40, rw := 0xFF0F, kw := 0xFF0F, kl := 0xFF0F },
  { addr := 0x43E41, w1c := 0xC600 },
  { addr := 0x43E42, stride := 2, count := 2, pair := true, rw := 0x1FFFFFFF, kw := 0x1FFFFFFF, kl := 0x1FFFFFFF },
  { addr := 0x43E46, pair := true, kw := 0xFFFFFFFF, kl := 0xFFFFFFFF },
  { addr := 0x43E48, count := 4, rw := 0xFFFF, kw := 0xFFFF, kl := 0xFFFF },
  { addr := 0x43E4C, rw := 0xFF0F, kw := 0xFF0F, kl := 0xFF0F },
  { addr := 0x43E4D, w1c := 0xC600 },
  { addr := 0x43E4E, stride := 2, count := 2, pair := true, rw := 0x1FFFFFFF, kw := 0x1FFFFFFF, kl := 0x1FFFFFFF },
  { addr := 0x43E52, pair := true, kw := 0xFFFFFFFF, kl := 0xFFFFFFFF },
  { addr := 0x43E54, count := 4, rw := 0xFFFF, kw := 0xFFFF, kl := 0xFFFF },
  { addr := 0x43E58, rw := 0xFF0F, kw := 0xFF0F, kl := 0xFF0F },
  { addr := 0x43E59, w1c := 0xC600 },
  { addr := 0x43E5A, stride := 2, count := 2, pair := true, rw := 0x1FFFFFFF, kw := 0x1FFFFFFF, kl := 0x1FFFFFFF },
  { addr := 0x43E5E, pair := true, kw := 0xFFFFFFFF, kl := 0xFFFFFFFF },
  { addr := 0x43E60, count := 4, rw := 0xFFFF, kw := 0xFFFF, kl := 0xFFFF },
  { addr := 0x43E64, rw := 0xFF0F, kw := 0xFF0F, kl := 0xFF0F },
  { addr := 0x43E65, w1c := 0xC600 },
  { addr := 0x43E66, stride := 2, count := 2, pair := true, rw := 0x1FFFFFFF, kw := 0x1FFFFFFF, kl := 0x1FFFFFFF },
  { addr := 0x43E6A, pair := true, kw := 0xFFFFFFFF, kl := 0xFFFFFFFF },
  { addr := 0x43E6C, count := 4, rw := 0xFFFF, kw := 0xFFFF, kl := 0xFFFF },
  { addr := 0x43E70, rw := 0xFF0F, kw := 0xFF0F, kl := 0xFF0F },
  { addr := 0x43E71, w1c := 0xC600 },
  { addr := 0x43E72, stride := 2, count := 2, pair := true, rw := 0x1FFFFFFF, kw := 0x1FFFFFFF, kl := 0x1FFFFFFF },
  { addr := 0x43E76, pair := true, kw := 0xFFFFFFFF, kl := 0xFFFFFFFF },
  { addr := 0x43E78, count := 4, rw := 0xFFFF, kw := 0xFFFF, kl := 0xFFFF },
  { addr := 0x43E7C, rw := 0xFF0F, kw := 0xFF0F, kl := 0xFF0F },
  { addr := 0x43E7D, w1c := 0xC600 },
  { addr := 0x43E7E, stride := 2, count := 2, pair := true, rw := 0x1FFFFFFF, kw := 0x1FFFFFFF, kl := 0x1FFFFFFF },
  { addr := 0x43E82, pair := true, kw := 0xFFFFFFFF, kl := 0xFFFFFFFF },
  { addr := 0x43E84, count := 4, rw := 0xFFFF, kw := 0xFFFF, kl := 0xFFFF },
  { addr := 0x43E88, rw := 0xFF0F, kw := 0xFF0F, kl := 0xFF0F },
  { addr := 0x43E89, w1c := 0xC600 },
  { addr := 0x43E8A, stride := 2, count := 2, pair := true, rw := 0x1FFFFFFF, kw := 0x1FFFFFFF, kl := 0x1FFFFFFF },
  { addr := 0x43E8E, pair := true, kw := 0xFFFFFFFF, kl := 0xFFFFFFFF },
  { addr := 0x43E90, count := 4, rw := 0xFFFF, kw := 0xFFFF, kl := 0xFFFF },
  { addr := 0x43E94, rw := 0xFF0F, kw := 0xFF0F, kl := 0xFF0F },
  { addr := 0x43E95, w1c := 0xC600 },
  { addr := 0x43E96, stride := 2, count := 2, pair := true, rw := 0x1FFFFFFF, kw := 0x1FFFFFFF, kl := 0x1FFFFFFF },
  { addr := 0x43E9A, pair := true, kw := 0xFFFFFFFF, kl := 0xFFFFFFFF },
  { addr := 0x43E9C, count := 4, rw := 0xFFFF, kw := 0xFFFF, kl := 0xFFFF },
  { addr := 0x43EA0, rw := 0xFF0F, kw := 0xFF0F, kl := 0xFF0F },
  { addr := 0x43EA1, w1c := 0xC600 },
  { addr := 0x43EA2, stride := 2, count := 2, pair := true, rw := 0x1FFFFFFF, kw := 0x1FFFFFFF, kl := 0x1FFFFFFF },
  { addr := 0x43EA6, pair := true, kw := 0xFFFFFFFF, kl := 0xFFFFFFFF },
  { addr := 0x43EA8, count := 4, rw := 0xFFFF, kw := 0xFFFF, kl := 0xFFFF },
  { addr := 0x43EAC, rw := 0xFF0F, kw := 0xFF0F, kl := 0xFF0F },
  { addr := 0x43EAD, w1c := 0xC600 },
  { addr := 0x43EAE, stride := 2, count := 2, pair := true, rw := 0x1FFFFFFF, kw := 0x1FFFFFFF, kl := 0x1FFFFFFF },
  { addr := 0x43EB2, pair := true, kw := 0xFFFFFFFF, kl := 0xFFFFFFFF },
  { addr := 0x43EB4, count := 4, rw := 0xFFFF, kw := 0xFFFF, kl := 0xFFFF },
  { addr := 0x43EB8, rw := 0xFF0F, kw := 0xFF0F, kl := 0xFF0F },
  { addr := 0x43EB9, w1c := 0xC600 },
  { addr := 0x43EBA, stride := 2, count := 2, pair := true, rw := 0x1FFFFFFF, kw := 0x1FFFFFFF, kl := 0x1FFFFFFF },
  { addr := 0x43EBE, pair := true, kw := 0xFFFFFFFF, kl := 0xFFFFFFFF },
  { addr := 0x43EC0, count := 4, rw := 0xFFFF, kw := 0xFFFF, kl := 0xFFFF },
  { addr := 0x43EC4, rw := 0xFF0F, kw := 0xFF0F, kl := 0xFF0F },
  { addr := 0x43EC5, w1c := 0xC600 },
  { addr := 0x43EC6, stride := 2, count := 2, pair := true, rw := 0x1FFFFFFF, kw := 0x1FFFFFFF, kl := 0x1FFFFFFF },
  { addr := 0x43ECA, pair := true, kw := 0xFFFFFFFF, kl := 0xFFFFFFFF },
  { addr := 0x43ECC, count := 4, rw := 0xFFFF, kw := 0xFFFF, kl := 0xFFFF },
  { addr := 0x43ED0, rw := 0xFF0F, kw := 0xFF0F, kl := 0xFF0F },
  { addr := 0x43ED1, w1c := 0xC600 },
  { addr := 0x43ED2, stride := 2, count := 2, pair := true, rw := 0x1FFFFFFF, kw := 0x1FFFFFFF, kl := 0x1FFFFFFF },
  { addr := 0x43ED6, pair := true, kw := 0xFFFFFFFF, kl := 0xFFFFFFFF },
  { addr := 0x43ED8, count := 4, rw := 0xFFFF, kw := 0xFFFF, kl := 0xFFFF },
  { addr := 0x43EDC, rw := 0xFF0F, kw := 0xFF0F, kl := 0xFF0F },
  { addr := 0x43EDD, w1c := 0xC600 },
  { addr := 0x43EDE, stride := 2, count := 2, pair := true, rw := 0x1FFFFFFF, kw := 0x1FFFFFFF, kl := 0x1FFFFFFF },
  { addr := 0x43EE2, pair := true, kw := 0xFFFFFFFF, kl := 0xFFFFFFFF },
  { addr := 0x43EE4, count := 4, rw := 0xFFFF, kw := 0xFFFF, kl := 0xFFFF },
  { addr := 0x43EE8, rw := 0xFF0F, kw := 0xFF0F, kl := 0xFF0F },
  { addr := 0x43EE9, w1c := 0xC600 },
  { addr := 0x43EEA, stride := 2, count := 2, pair := true, rw := 0x1FFFFFFF, kw := 0x1FFFFFFF, kl := 0x1FFFFFFF },
  { addr := 0x43EEE, pair := true, kw := 0xFFFFFFFF, kl := 0xFFFFFFFF },
  { addr := 0x43EF0, count := 4, rw := 0xFFFF, kw := 0xFFFF, kl := 0xFFFF },
  { addr := 0x43EF4, rw := 0xFF0F, kw := 0xFF0F, kl := 0xFF0F },
  { addr := 0x43EF5, w1c := 0xC600 },
  { addr := 0x43EF6, stride := 2, count := 2, pair := true, rw := 0x1FFFFFFF, kw := 0x1FFFFFFF, kl := 0x1FFFFFFF },
  { addr := 0x43EFA, pair := true, kw := 0xFFFFFFFF, kl := 0xFFFFFFFF },
  { addr := 0x43EFC, count := 4, rw := 0xFFFF, kw := 0xFFFF, kl := 0xFFFF },
  { addr := 0x43F00, rw := 0xFF0F, kw := 0xFF0F, kl := 0xFF0F },
  { addr := 0x43F01, w1c := 0xC600 },
  { addr := 0x43F02, stride := 2, count := 2, pair := true, rw := 0x1FFFFFFF, kw := 0x1FFFFFFF, kl := 0x1FFFFFFF },
  { addr := 0x43F06, pair := true, kw := 0xFFFFFFFF, kl := 0xFFFFFFFF },
  { addr := 0x43F08, count := 4, rw := 0xFFFF, kw := 0xFFFF, kl := 0xFFFF },
  { addr := 0x43F0C, rw := 0xFF0F, kw := 0xFF0F, kl := 0xFF0F },
  { addr := 0x43F0D, w1c := 0xC600 },
  { addr := 0x43F0E, stride := 2, count := 2, pair := true, rw := 0x1FFFFFFF, kw := 0x1FFFFFFF, kl := 0x1FFFFFFF },
  { addr := 0x43F12, pair := true, kw := 0xFFFFFFFF, kl := 0xFFFFFFFF },
  { addr := 0x43F14, count := 4, rw := 0xFFFF, kw := 0xFFFF, kl := 0xFFFF },
  { addr := 0x43F18, rw := 0xFF0F, kw := 0xFF0F, kl := 0xFF0F },
  { addr := 0x43F19, w1c := 0xC600 },
  { addr := 0x43F1A, stride := 2, count := 2, pair := true, rw := 0x1FFFFFFF, kw := 0x1FFFFFFF, kl := 0x1FFFFFFF },
  { addr := 0x43F1E, pair := true, kw := 0xFFFFFFFF, kl := 0xFFFFFFFF },
  { addr := 0x43F20, count := 4, rw := 0xFFFF, kw := 0xFFFF, kl := 0xFFFF },
  { addr := 0x43F24, rw := 0xFF0F, kw := 0xFF0F, kl := 0xFF0F },
  { addr := 0x43F25, w1c := 0xC600 },
  { addr := 0x43F26, stride := 2, count := 2, pair := true, rw := 0x1FFFFFFF, kw := 0x1FFFFFFF, kl := 0x1FFFFFFF },
  { addr := 0x43F2A, pair := true, kw := 0xFFFFFFFF, kl := 0xFFFFFFFF },
  { addr := 0x43F2C, count := 4, rw := 0xFFFF, kw := 0xFFFF, kl := 0xFFFF },
  { addr := 0x43F30, rw := 0xFF0F, kw := 0xFF0F, kl := 0xFF0F },
  { addr := 0x43F31, w1c := 0xC600 },
  { addr := 0x43F32, stride := 2, count := 2, pair := true, rw := 0x1FFFFFFF, kw := 0x1FFFFFFF, kl := 0x1FFFFFFF },
  { addr := 0x43F36, pair := true, kw := 0xFFFFFFFF, kl := 0xFFFFFFFF },
  { addr := 0x43F38, count := 4, rw := 0xFFFF, kw := 0xFFFF, kl := 0xFFFF },
  { addr := 0x43F3C, rw := 0xFF0F, kw := 0xFF0F, kl := 0xFF0F },
  { addr := 0x43F3D, w1c := 0xC600 },
  { addr := 0x43F3E, stride := 2, count := 2, pair := true, rw := 0x1FFFFFFF, kw := 0x1FFFFFFF, kl := 0x1FFFFFFF },
  { addr := 0x43F42, pair := true, kw := 0xFFFFFFFF, kl := 0xFFFFFFFF },
  { addr := 0x43F44, count := 4, rw := 0xFFFF, kw := 0xFFFF, kl := 0xFFFF },
  { addr := 0x43F48, rw := 0xFF0F, kw := 0xFF0F, kl := 0xFF0F },
  { addr := 0x43F49, w1c := 0xC600 },
  { addr := 0x43F4A, stride := 2, count := 2, pair := true, rw := 0x1FFFFFFF, kw := 0x1FFFFFFF, kl := 0x1FFFFFFF },
  { addr := 0x43F4E, pair := true, kw := 0xFFFFFFFF, kl := 0xFFFFFFFF },
  { addr := 0x43F50, count := 4, rw := 0xFFFF, kw := 0xFFFF, kl := 0xFFFF },
  { addr := 0x43F54, rw := 0xFF0F, kw := 0xFF0F, kl := 0xFF0F },
  { addr := 0x43F55, w1c := 0xC600 },
  { addr := 0x43F56, stride := 2, count := 2, pair := true, rw := 0x1FFFFFFF, kw := 0x1FFFFFFF, kl := 0x1FFFFFFF },
  { addr := 0x43F5A, pair := true, kw := 0xFFFFFFFF, kl := 0xFFFFFFFF },
  { addr := 0x43F5C, count := 4, rw := 0xFFFF, kw := 0xFFFF, kl := 0xFFFF }]

/-- The rows of CAN1. -/
def rowsCan1 : List RegRow := [
  { addr := 0x44000, rw := 0xEF80 },
  { addr := 0x44002, pair := true, rw := 0x1FFFFFFC },
  { addr := 0x44004, pair := true, rw := 0xFFFFC0FF },
  { addr := 0x44006, w1c := 0x2000 },
  { addr := 0x44007 },
  { addr := 0x44008 },
  { addr := 0x44009, rc := 0xFFFF },
  { addr := 0x4400A, rc := 0xFFFF },
  { addr := 0x4400B, rc := 0xFFFF },
  { addr := 0x44010, pair := true, w1s := 0xFFFFFFFF },
  { addr := 0x44012, pair := true, w1s := 0xFFFFFFFF },
  { addr := 0x44014, pair := true, w1c := 0xFFFFFFFF },
  { addr := 0x44016, pair := true },
  { addr := 0x44100, rw := 0xFF0F, kw := 0xFF0F, kl := 0xFF0F },
  { addr := 0x44101, w1c := 0xC600 },
  { addr := 0x44102, stride := 2, count := 2, pair := true, rw := 0x1FFFFFFF, kw := 0x1FFFFFFF, kl := 0x1FFFFFFF },
  { addr := 0x44106, pair := true, kw := 0xFFFFFFFF, kl := 0xFFFFFFFF },
  { addr := 0x44108, count := 32, rw := 0xFFFF, kw := 0xFFFF, kl := 0xFFFF },
  { addr := 0x44128, rw := 0xFF0F, kw := 0xFF0F, kl := 0xFF0F },
  { addr := 0x44129, w1c := 0xC600 },
  { addr := 0x4412A, stride := 2, count := 2, pair := true, rw := 0x1FFFFFFF, kw := 0x1FFFFFFF, kl := 0x1FFFFFFF },
  { addr := 0x4412E, pair := true, kw := 0xFFFFFFFF, kl := 0xFFFFFFFF },
  { addr := 0x44130, count := 32, rw := 0xFFFF, kw := 0xFFFF, kl := 0xFFFF },
  { addr := 0x44150, rw := 0xFF0F, kw := 0xFF0F, kl := 0xFF0F },
  { addr := 0x44151, w1c := 0xC600 },
  { addr := 0x44152, stride := 2, count := 2, pair := true, rw := 0x1FFFFFFF, kw := 0x1FFFFFFF, kl := 0x1FFFFFFF },
  { addr := 0x44156, pair := true, kw := 0xFFFFFFFF, kl := 0xFFFFFFFF },
  { addr := 0x44158, count := 32, rw := 0xFFFF, kw := 0xFFFF, kl := 0xFFFF },
  { addr := 0x44178, rw := 0xFF0F, kw := 0xFF0F, kl := 0xFF0F },
  { addr := 0x44179, w1c := 0xC600 },
  { addr := 0x4417A, stride := 2, count := 2, pair := true, rw := 0x1FFFFFFF, kw := 0x1FFFFFFF, kl := 0x1FFFFFFF },
  { addr := 0x4417E, pair := true, kw := 0xFFFFFFFF, kl := 0xFFFFFFFF },
  { addr := 0x44180, count := 32, rw := 0xFFFF, kw := 0xFFFF, kl := 0xFFFF },
  { addr := 0x441A0, rw := 0xFF0F, kw := 0xFF0F, kl := 0xFF0F },
  { addr := 0x441A1, w1c := 0xC600 },
  { addr := 0x441A2, stride := 2, count := 2, pair := true, rw := 0x1FFFFFFF, kw := 0x1FFFFFFF, kl := 0x1FFFFFFF },
  { addr := 0x441A6, pair := true, kw := 0xFFFFFFFF, kl := 0xFFFFFFFF },
  { addr := 0x441A8, count := 32, rw := 0xFFFF, kw := 0xFFFF, kl := 0xFFFF },
  { addr := 0x441C8, rw := 0xFF0F, kw := 0xFF0F, kl := 0xFF0F },
  { addr := 0x441C9, w1c := 0xC600 },
  { addr := 0x441CA, stride := 2, count := 2, pair := true, rw := 0x1FFFFFFF, kw := 0x1FFFFFFF, kl := 0x1FFFFFFF },
  { addr := 0x441CE, pair := true, kw := 0xFFFFFFFF, kl := 0xFFFFFFFF },
  { addr := 0x441D0, count := 32, rw := 0xFFFF, kw := 0xFFFF, kl := 0xFFFF },
  { addr := 0x441F0, rw := 0xFF0F, kw := 0xFF0F, kl := 0xFF0F },
  { addr := 0x441F1, w1c := 0xC600 },
  { addr := 0x441F2, stride := 2, count := 2, pair := true, rw := 0x1FFFFFFF, kw := 0x1FFFFFFF, kl := 0x1FFFFFFF },
  { addr := 0x441F6, pair := true, kw := 0xFFFFFFFF, kl := 0xFFFFFFFF },
  { addr := 0x441F8, count := 32, rw := 0xFFFF, kw := 0xFFFF, kl := 0xFFFF },
  { addr := 0x44218, rw := 0xFF0F, kw := 0xFF0F, kl := 0xFF0F },
  { addr := 0x44219, w1c := 0xC600 },
  { addr := 0x4421A, stride := 2, count := 2, pair := true, rw := 0x1FFFFFFF, kw := 0x1FFFFFFF, kl := 0x1FFFFFFF },
  { addr := 0x4421E, pair := true, kw := 0xFFFFFFFF, kl := 0xFFFFFFFF },
  { addr := 0x44220, count := 32, rw := 0xFFFF, kw := 0xFFFF, kl := 0xFFFF },
  { addr := 0x44240, rw := 0xFF0F, kw := 0xFF0F, kl := 0xFF0F },
  { addr := 0x44241, w1c := 0xC600 },
  { addr := 0x44242, stride := 2, count := 2, pair := true, rw := 0x1FFFFFFF, kw := 0x1FFFFFFF, kl := 0x1FFFFFFF },
  { addr := 0x44246, pair := true, kw := 0xFFFFFFFF, kl := 0xFFFFFFFF },
  { addr := 0x44248, count := 4, rw := 0xFFFF, kw := 0xFFFF, kl := 0xFFFF },
  { addr := 0x4424C, rw := 0xFF0F, kw := 0xFF0F, kl := 0xFF0F },
  { addr := 0x4424D, w1c := 0xC600 },
  { addr := 0x4424E, stride := 2, count := 2, pair := true, rw := 0x1FFFFFFF, kw := 0x1FFFFFFF, kl := 0x1FFFFFFF },
  { addr := 0x44252, pair := true, kw := 0xFFFFFFFF, kl := 0xFFFFFFFF },
  { addr := 0x44254, count := 4, rw := 0xFFFF, kw := 0xFFFF, kl := 0xFFFF },
  { addr := 0x44258, rw := 0xFF0F, kw := 0xFF0F, kl := 0xFF0F },
  { addr := 0x44259, w1c := 0xC600 },
  { addr := 0x4425A, stride := 2, count := 2, pair := true, rw := 0x1FFFFFFF, kw := 0x1FFFFFFF, kl := 0x1FFFFFFF },
  { addr := 0x4425E, pair := true, kw := 0xFFFFFFFF, kl := 0xFFFFFFFF },
  { addr := 0x44260, count := 4, rw := 0xFFFF, kw := 0xFFFF, kl := 0xFFFF },
  { addr := 0x44264, rw := 0xFF0F, kw := 0xFF0F, kl := 0xFF0F },
  { addr := 0x44265, w1c := 0xC600 },
  { addr := 0x44266, stride := 2, count := 2, pair := true, rw := 0x1FFFFFFF, kw := 0x1FFFFFFF, kl := 0x1FFFFFFF },
  { addr := 0x4426A, pair := true, kw := 0xFFFFFFFF, kl := 0xFFFFFFFF },
  { addr := 0x4426C, count := 4, rw := 0xFFFF, kw := 0xFFFF, kl := 0xFFFF },
  { addr := 0x44270, rw := 0xFF0F, kw := 0xFF0F, kl := 0xFF0F },
  { addr := 0x44271, w1c := 0xC600 },
  { addr := 0x44272, stride := 2, count := 2, pair := true, rw := 0x1FFFFFFF, kw := 0x1FFFFFFF, kl := 0x1FFFFFFF },
  { addr := 0x44276, pair := true, kw := 0xFFFFFFFF, kl := 0xFFFFFFFF },
  { addr := 0x44278, count := 4, rw := 0xFFFF, kw := 0xFFFF, kl := 0xFFFF },
  { addr := 0x4427C, rw := 0xFF0F, kw := 0xFF0F, kl := 0xFF0F },
  { addr := 0x4427D, w1c := 0xC600 },
  { addr := 0x4427E, stride := 2, count := 2, pair := true, rw := 0x1FFFFFFF, kw := 0x1FFFFFFF, kl := 0x1FFFFFFF },
  { addr := 0x44282, pair := true, kw := 0xFFFFFFFF, kl := 0xFFFFFFFF },
  { addr := 0x44284, count := 4, rw := 0xFFFF, kw := 0xFFFF, kl := 0xFFFF },
  { addr := 0x44288, rw := 0xFF0F, kw := 0xFF0F, kl := 0xFF0F },
  { addr := 0x44289, w1c := 0xC600 },
  { addr := 0x4428A, stride := 2, count := 2, pair := true, rw := 0x1FFFFFFF, kw := 0x1FFFFFFF, kl := 0x1FFFFFFF },
  { addr := 0x4428E, pair := true, kw := 0xFFFFFFFF, kl := 0xFFFFFFFF },
  { addr := 0x44290, count := 4, rw := 0xFFFF, kw := 0xFFFF, kl := 0xFFFF },
  { addr := 0x44294, rw := 0xFF0F, kw := 0xFF0F, kl := 0xFF0F },
  { addr := 0x44295, w1c := 0xC600 },
  { addr := 0x44296, stride := 2, count := 2, pair := true, rw := 0x1FFFFFFF, kw := 0x1FFFFFFF, kl := 0x1FFFFFFF },
  { addr := 0x4429A, pair := true, kw := 0xFFFFFFFF, kl := 0xFFFFFFFF },
  { addr := 0x4429C, count := 4, rw := 0xFFFF, kw := 0xFFFF, kl := 0xFFFF },
  { addr := 0x442A0, rw := 0xFF0F, kw := 0xFF0F, kl := 0xFF0F },
  { addr := 0x442A1, w1c := 0xC600 },
  { addr := 0x442A2, stride := 2, count := 2, pair := true, rw := 0x1FFFFFFF, kw := 0x1FFFFFFF, kl := 0x1FFFFFFF },
  { addr := 0x442A6, pair := true, kw := 0xFFFFFFFF, kl := 0xFFFFFFFF },
  { addr := 0x442A8, count := 4, rw := 0xFFFF, kw := 0xFFFF, kl := 0xFFFF },
  { addr := 0x442AC, rw := 0xFF0F, kw := 0xFF0F, kl := 0xFF0F },
  { addr := 0x442AD, w1c := 0xC600 },
  { addr := 0x442AE, stride := 2, count := 2, pair := true, rw := 0x1FFFFFFF, kw := 0x1FFFFFFF, kl := 0x1FFFFFFF },
  { addr := 0x442B2, pair := true, kw := 0xFFFFFFFF, kl := 0xFFFFFFFF },
  { addr := 0x442B4, count := 4, rw := 0xFFFF, kw := 0xFFFF, kl := 0xFFFF },
  { addr := 0x442B8, rw := 0xFF0F, kw := 0xFF0F, kl := 0xFF0F },
  { addr := 0x442B9, w1c := 0xC600 },
  { addr := 0x442BA, stride := 2, count := 2, pair := true, rw := 0x1FFFFFFF, kw := 0x1FFFFFFF, kl := 0x1FFFFFFF },
  { addr := 0x442BE, pair := true, kw := 0xFFFFFFFF, kl := 0xFFFFFFFF },
  { addr := 0x442C0, count := 4, rw := 0xFFFF, kw := 0xFFFF, kl := 0xFFFF },
  { addr := 0x442C4, rw := 0xFF0F, kw := 0xFF0F, kl := 0xFF0F },
  { addr := 0x442C5, w1c := 0xC600 },
  { addr := 0x442C6, stride := 2, count := 2, pair := true, rw := 0x1FFFFFFF, kw := 0x1FFFFFFF, kl := 0x1FFFFFFF },
  { addr := 0x442CA, pair := true, kw := 0xFFFFFFFF, kl := 0xFFFFFFFF },
  { addr := 0x442CC, count := 4, rw := 0xFFFF, kw := 0xFFFF, kl := 0xFFFF },
  { addr := 0x442D0, rw := 0xFF0F, kw := 0xFF0F, kl := 0xFF0F },
  { addr := 0x442D1, w1c := 0xC600 },
  { addr := 0x442D2, stride := 2, count := 2, pair := true, rw := 0x1FFFFFFF, kw := 0x1FFFFFFF, kl := 0x1FFFFFFF },
  { addr := 0x442D6, pair := true, kw := 0xFFFFFFFF, kl := 0xFFFFFFFF },
  { addr := 0x442D8, count := 4, rw := 0xFFFF, kw := 0xFFFF, kl := 0xFFFF },
  { addr := 0x442DC, rw := 0xFF0F, kw := 0xFF0F, kl := 0xFF0F },
  { addr := 0x442DD, w1c := 0xC600 },
  { addr := 0x442DE, stride := 2, count := 2, pair := true, rw := 0x1FFFFFFF, kw := 0x1FFFFFFF, kl := 0x1FFFFFFF },
  { addr := 0x442E2, pair := true, kw := 0xFFFFFFFF, kl := 0xFFFFFFFF },
  { addr := 0x442E4, count := 4, rw := 0xFFFF, kw := 0xFFFF, kl := 0xFFFF },
  { addr := 0x442E8, rw := 0xFF0F, kw := 0xFF0F, kl := 0xFF0F },
  { addr := 0x442E9, w1c := 0xC600 },
  { addr := 0x442EA, stride := 2, count := 2, pair := true, rw := 0x1FFFFFFF, kw := 0x1FFFFFFF, kl := 0x1FFFFFFF },
  { addr := 0x442EE, pair := true, kw := 0xFFFFFFFF, kl := 0xFFFFFFFF },
  { addr := 0x442F0, count := 4, rw := 0xFFFF, kw := 0xFFFF, kl := 0xFFFF },
  { addr := 0x442F4, rw := 0xFF0F, kw := 0xFF0F, kl := 0xFF0F },
  { addr := 0x442F5, w1c := 0xC600 },
  { addr := 0x442F6, stride := 2, count := 2, pair := true, rw := 0x1FFFFFFF, kw := 0x1FFFFFFF, kl := 0x1FFFFFFF },
  { addr := 0x442FA, pair := true, kw := 0xFFFFFFFF, kl := 0xFFFFFFFF },
  { addr := 0x442FC, count := 4, rw := 0xFFFF, kw := 0xFFFF, kl := 0xFFFF },
  { addr := 0x44300, rw := 0xFF0F, kw := 0xFF0F, kl := 0xFF0F },
  { addr := 0x44301, w1c := 0xC600 },
  { addr := 0x44302, stride := 2, count := 2, pair := true, rw := 0x1FFFFFFF, kw := 0x1FFFFFFF, kl := 0x1FFFFFFF },
  { addr := 0x44306, pair := true, kw := 0xFFFFFFFF, kl := 0xFFFFFFFF },
  { addr := 0x44308, count := 4, rw := 0xFFFF, kw := 0xFFFF, kl := 0xFFFF },
  { addr := 0x4430C, rw := 0xFF0F, kw := 0xFF0F, kl := 0xFF0F },
  { addr := 0x4430D, w1c := 0xC600 },
  { addr := 0x4430E, stride := 2, count := 2, pair := true, rw := 0x1FFFFFFF, kw := 0x1FFFFFFF, kl := 0x1FFFFFFF },
  { addr := 0x44312, pair := true, kw := 0xFFFFFFFF, kl := 0xFFFFFFFF },
  { addr := 0x44314, count := 4, rw := 0xFFFF, kw := 0xFFFF, kl := 0xFFFF },
  { addr := 0x44318, rw := 0xFF0F, kw := 0xFF0F, kl := 0xFF0F },
  { addr := 0x44319, w1c := 0xC600 },
  { addr := 0x4431A, stride := 2, count := 2, pair := true, rw := 0x1FFFFFFF, kw := 0x1FFFFFFF, kl := 0x1FFFFFFF },
  { addr := 0x4431E, pair := true, kw := 0xFFFFFFFF, kl := 0xFFFFFFFF },
  { addr := 0x44320, count := 4, rw := 0xFFFF, kw := 0xFFFF, kl := 0xFFFF },
  { addr := 0x44324, rw := 0xFF0F, kw := 0xFF0F, kl := 0xFF0F },
  { addr := 0x44325, w1c := 0xC600 },
  { addr := 0x44326, stride := 2, count := 2, pair := true, rw := 0x1FFFFFFF, kw := 0x1FFFFFFF, kl := 0x1FFFFFFF },
  { addr := 0x4432A, pair := true, kw := 0xFFFFFFFF, kl := 0xFFFFFFFF },
  { addr := 0x4432C, count := 4, rw := 0xFFFF, kw := 0xFFFF, kl := 0xFFFF },
  { addr := 0x44330, rw := 0xFF0F, kw := 0xFF0F, kl := 0xFF0F },
  { addr := 0x44331, w1c := 0xC600 },
  { addr := 0x44332, stride := 2, count := 2, pair := true, rw := 0x1FFFFFFF, kw := 0x1FFFFFFF, kl := 0x1FFFFFFF },
  { addr := 0x44336, pair := true, kw := 0xFFFFFFFF, kl := 0xFFFFFFFF },
  { addr := 0x44338, count := 4, rw := 0xFFFF, kw := 0xFFFF, kl := 0xFFFF },
  { addr := 0x4433C, rw := 0xFF0F, kw := 0xFF0F, kl := 0xFF0F },
  { addr := 0x4433D, w1c := 0xC600 },
  { addr := 0x4433E, stride := 2, count := 2, pair := true, rw := 0x1FFFFFFF, kw := 0x1FFFFFFF, kl := 0x1FFFFFFF },
  { addr := 0x44342, pair := true, kw := 0xFFFFFFFF, kl := 0xFFFFFFFF },
  { addr := 0x44344, count := 4, rw := 0xFFFF, kw := 0xFFFF, kl := 0xFFFF },
  { addr := 0x44348, rw := 0xFF0F, kw := 0xFF0F, kl := 0xFF0F },
  { addr := 0x44349, w1c := 0xC600 },
  { addr := 0x4434A, stride := 2, count := 2, pair := true, rw := 0x1FFFFFFF, kw := 0x1FFFFFFF, kl := 0x1FFFFFFF },
  { addr := 0x4434E, pair := true, kw := 0xFFFFFFFF, kl := 0xFFFFFFFF },
  { addr := 0x44350, count := 4, rw := 0xFFFF, kw := 0xFFFF, kl := 0xFFFF },
  { addr := 0x44354, rw := 0xFF0F, kw := 0xFF0F, kl := 0xFF0F },
  { addr := 0x44355, w1c := 0xC600 },
  { addr := 0x44356, stride := 2, count := 2, pair := true, rw := 0x1FFFFFFF, kw := 0x1FFFFFFF, kl := 0x1FFFFFFF },
  { addr := 0x4435A, pair := true, kw := 0xFFFFFFFF, kl := 0xFFFFFFFF },
  { addr := 0x4435C, count := 4, rw := 0xFFFF, kw := 0xFFFF, kl := 0xFFFF }]

/-- The rows of KLINE. -/
def rowsKline : List RegRow := [
  { addr := 0x44400, reset := 0x2000, rw := 0xE000 },
  { addr := 0x44401, reset := 0x3C2, rw := 0xFFFF },
  { addr := 0x44402, rw := 0xFFFF },
  { addr := 0x44403, reset := 0x64, rw := 0xFFFF },
  { addr := 0x44404, reset := 0xA, rw := 0xFFFF },
  { addr := 0x44405, reset := 0xA, rw := 0xFFFF },
  { addr := 0x44406, reset := 0x1E, rw := 0xFFFF },
  { addr := 0x44407, reset := 0x19, rw := 0xFFFF },
  { addr := 0x44408, reset := 0x32, rw := 0xFFFF },
  { addr := 0x44409, reset := 0x12C, rw := 0xFFFF },
  { addr := 0x4440A },
  { addr := 0x4440B },
  { addr := 0x4440C, reset := 0xFF00, rw := 0xFFFF },
  { addr := 0x4440D, reset := 0x8F08, rw := 0xFFFF },
  { addr := 0x44410 },
  { addr := 0x44411 },
  { addr := 0x44412, w1c := 0x80 },
  { addr := 0x44413, rc := 0xFFFF }]

/-- The rows of FCOL. -/
def rowsFcol : List RegRow := [
  { addr := 0x44800, w1c := 0xFFFF, kw := 0xFFFF, kl := 0xFFFF },
  { addr := 0x44801, w1s := 0xFFFF, kw := 0xFFFF, kl := 0xFFFF },
  { addr := 0x44802, count := 4, kw := 0xFFFF, kl := 0xFFFF },
  { addr := 0x44806, reset := 0x2313 },
  { addr := 0x44807, reset := 0x1112 },
  { addr := 0x44808, reset := 0x1122 },
  { addr := 0x44809, reset := 0x4321 },
  { addr := 0x4480A, reset := 0x1 },
  { addr := 0x4480B, kw := 0xFF1F, kl := 0xFF1F },
  { addr := 0x4480C },
  { addr := 0x4480D, kw := 0xFFFF, kl := 0xFFFF },
  { addr := 0x44810, reset := 0x1F4 },
  { addr := 0x44811 },
  { addr := 0x44812 },
  { addr := 0x44814 },
  { addr := 0x44815 },
  { addr := 0x44818 },
  { addr := 0x44820, count := 9 },
  { addr := 0x44840, stride := 8, count := 16, kw := 0xFFFF, kl := 0xFFFF }]

/-- The rows of DBG. -/
def rowsDbg : List RegRow := [
  { addr := 0x44C00 },
  { addr := 0x44C01 },
  { addr := 0x44C02, w1c := 0x8000 },
  { addr := 0x44C10, count := 16 },
  { addr := 0x44C20, rc := 0xFFFF }]

/-- The rows of FLASH. -/
def rowsFlash : List RegRow := [
  { addr := 0x45000 },
  { addr := 0x45001 },
  { addr := 0x45002 },
  { addr := 0x45003 },
  { addr := 0x45004, w1c := 0x8000 }]

/-- The rows of GPIO. -/
def rowsGpio : List RegRow := [
  { addr := 0x45400, count := 17, reset := 0x40, rw := 0xFF1 },
  { addr := 0x45418, rc := 0xFFFF },
  { addr := 0x45420, stride := 2, count := 17, pair := true }]

/-- The rows of POST. -/
def rowsPost : List RegRow := [
  { addr := 0x45800, pair := true, kw := 0xFFFFFFFF, kl := 0xFFFFFFFF },
  { addr := 0x45802, kw := 0xFFFF, kl := 0xFFFF },
  { addr := 0x45808, stride := 4, count := 4, pair := true, rw := 0xFFFFFFFF },
  { addr := 0x4580A, stride := 4, count := 4, rw := 0xFFFF },
  { addr := 0x45820, rw := 0xF }]

/-- The rows of the block a data address of D:40000-45BFF lies in (R484). -/
def blockRows (a : Nat) : List RegRow :=
  match (a - 0x40000) / 0x400 with
  | 0 => rowsSys
  | 1 => rowsPlinth
  | 2 => rowsMon
  | 3 => rowsThr
  | 4 => rowsIntc
  | 5 => rowsMemc
  | 6 => rowsCour
  | 7 => rowsTile
  | 8 => rowsAng
  | 9 => rowsEvt
  | 10 => rowsAdc
  | 11 => rowsOut
  | 12 => rowsKern
  | 13 => rowsWaili
  | 14 => rowsLoop
  | 15 => rowsCan0
  | 16 => rowsCan1
  | 17 => rowsKline
  | 18 => rowsFcol
  | 19 => rowsDbg
  | 20 => rowsFlash
  | 21 => rowsGpio
  | 22 => rowsPost
  | _ => []

/-- The row that holds the word at `a`, and whether it is the high word of a paired register. -/
def findRow (rows : List RegRow) (a : Nat) : Option (RegRow × Bool) :=
  match rows with
  | [] => none
  | r :: rest =>
    if r.addr ≤ a && (a - r.addr) / r.stride < r.count && (a - r.addr) % r.stride == 0 then some (r, false)
    else if r.pair && r.addr + 1 ≤ a && (a - r.addr - 1) / r.stride < r.count && (a - r.addr - 1) % r.stride == 0 then
      some (r, true)
    else findRow rest a

/-- The row of a data address, if a register table assigns it (R18). -/
def regRow (a : Nat) : Option (RegRow × Bool) :=
  if 0x40000 ≤ a && a < 0x45C00 then findRow (blockRows a) a else none

/-- The word of a row's 32-bit mask that belongs to the address. -/
def rowWord (x : RegRow × Bool) (f : RegRow → Pair) : Word :=
  if x.2 then (f x.1).extractLsb' 16 16 else (f x.1).extractLsb' 0 16

/-- The mask `f` of the register at `a`; 0 where no table assigns the offset. -/
def regMask (f : RegRow → Pair) (a : Nat) : Word :=
  match regRow a with
  | some x => rowWord x f
  | none => 0

/-- The POR value of the word at `a`. -/
def regReset (a : Nat) : Word := regMask RegRow.reset a

/-- Whether `a` is the low word of a register marked paired (R507). -/
def isPairedLow (a : Nat) : Bool :=
  match regRow a with
  | some (r, h) => r.pair && !h
  | none => false

end Sys2Proof.Machine
end

