-- ==== Sys2Proof/Machine/Ops.lean ====
section
/-!
DEFINITION. The named operations every block uses: bit fields, sparse memories in canonical form, the register words
with their access codes (R16-R27), time, free values, and the outcome of a command.
-/

namespace Sys2Proof.Machine

/-! ### Bit fields (R9) -/

/-- Bits `lo` to `lo + len - 1` of a word, as a number. -/
def fld {n : Nat} (w : BitVec n) (lo len : Nat) : Nat := (w.toNat >>> lo) % 2 ^ len

/-- The word with the field `[lo + len - 1 : lo]` replaced. -/
def putFld {n : Nat} (w : BitVec n) (lo len v : Nat) : BitVec n :=
  let m : BitVec n := BitVec.ofNat n ((2 ^ len - 1) <<< lo)
  (w &&& ~~~m) ||| (BitVec.ofNat n ((v % 2 ^ len) <<< lo))

/-- The word with bit `i` set to `b`. -/
def putBit {n : Nat} (w : BitVec n) (i : Nat) (b : Bool) : BitVec n := putFld w i 1 b.toNat

/-- A word from a number, modulo 2^16. -/
def wd (n : Nat) : Word := BitVec.ofNat 16 n

/-- The low and the high word of a pair (R9). -/
def lowWord (p : Pair) : Word := p.extractLsb' 0 16
def highWord (p : Pair) : Word := p.extractLsb' 16 16

/-- A pair from its low and high words (R9). -/
def mkPair (lo hi : Word) : Pair := hi ++ lo

/-- An addition that stops at `top`. -/
def satAdd (top a b : Nat) : Nat := min top (a + b)

/-- The signed reading of a 16-bit word (R10). -/
def sgn (w : Word) : Int := w.toInt

/-- A signed number clamped to `lo .. hi`. -/
def clampI (lo hi x : Int) : Int := max lo (min hi x)

/-! ### Sparse memories

A list of (address, value) pairs, addresses strictly rising, no entry equal to what its address reads when unlisted. -/

/-- The value at `a`; an unlisted address reads `d a`. -/
def cget {α : Type} (d : Nat → α) (m : List (Nat × α)) (a : Nat) : α :=
  match m with
  | [] => d a
  | (k, v) :: t => if k = a then v else cget d t a

/-- The entry `(a, v)` put in its place. -/
def cins {α : Type} (m : List (Nat × α)) (a : Nat) (v : α) : List (Nat × α) :=
  match m with
  | [] => [(a, v)]
  | (k, w) :: t => if k = a then (a, v) :: t else if a < k then (a, v) :: (k, w) :: t else (k, w) :: cins t a v

/-- The memory with `v` at `a`: writing what an unlisted address reads removes the entry. -/
def cset {α : Type} [DecidableEq α] (d : Nat → α) (m : List (Nat × α)) (a : Nat) (v : α) : List (Nat × α) :=
  if v = d a then m.filter (fun e => e.1 != a) else cins m a v

/-- The canonical form above the bound `lo`. -/
def cwfFrom {α : Type} [DecidableEq α] (d : Nat → α) (lo : Nat) (m : List (Nat × α)) : Bool :=
  match m with
  | [] => true
  | (k, v) :: t => decide (lo ≤ k) && decide (v ≠ d k) && cwfFrom d (k + 1) t

/-- The canonical form of a sparse memory. -/
def cwf {α : Type} [DecidableEq α] (d : Nat → α) (m : List (Nat × α)) : Bool := cwfFrom d 0 m

/-- `n` values from address `a` on. -/
def cread {α : Type} (d : Nat → α) (m : List (Nat × α)) (a : Nat) : Nat → List α
  | 0 => []
  | n + 1 => cget d m a :: cread d m (a + 1) n

/-- The values of a list written from address `a` on. -/
def cwrite {α : Type} [DecidableEq α] (d : Nat → α) (m : List (Nat × α)) (a : Nat) : List α → List (Nat × α)
  | [] => m
  | v :: t => cwrite d (cset d m a v) (a + 1) t

/-- What the scratchpad reads where nothing is listed. The spec leaves it undefined after a POR; step B6 writes 0
(R145). DESIGN CHOICE, log entry 2. -/
def spadDefault (_ : Nat) : Word := 0
/-- An erased or absent flash byte reads FFh (R191). DESIGN CHOICE, log entry 2. -/
def flashDefault (_ : Nat) : Byte := 0xFF
/-- Code store bytes beyond the image read FFh (R163). -/
def codeDefault (_ : Nat) : Byte := 0xFF
/-- The unloaded microword: SEQ 1111b, every other bit 0 (R397). -/
def microUnloaded : Sys2Proof.Micro := BitVec.ofNat 112 (15 * 2 ^ 108)

/-! ### Time -/

/-- CLK runs from the backup oscillator (SYS.CLKSTAT.BKUP). -/
def onBackup (s : State) : Bool := (cget regReset s.regs Reg.sys_CLKSTAT).getLsbD 15

/-- Ticks in one CLK period: 1, and 20 on the backup oscillator (R38). -/
def clkTicks (s : State) : Nat := if onBackup s then 20 else 1

/-- `n` ticks pass; those in which the tracker reports the engine turning count for the engine hours (R129). -/
def advance (n : Nat) (s : State) : State :=
  { s with
    now := s.now + n
    plinth := { s.plinth with turnTicks := if s.ang.st = .stop then s.plinth.turnTicks else s.plinth.turnTicks + n } }

/-- The Postmark (R1043): 48 bits, modulo 2^48. -/
def postmark (s : State) : BitVec 48 := BitVec.ofNat 48 s.now

/-- Bits 31-0 of the Postmark. -/
def stamp32 (s : State) : Pair := BitVec.ofNat 32 s.now

/-- Ticks of a microsecond and of a millisecond (R13). -/
def usTicks : Nat := 160
def msTicks : Nat := 160000

/-! ### Register words -/

/-- The stored word of the register at `a`. -/
def reg (s : State) (a : Nat) : Word := cget regReset s.regs a

/-- The register word at `a` set by hardware or by a write already checked. -/
def setReg (a : Nat) (v : Word) (s : State) : State := { s with regs := cset regReset s.regs a v }

/-- A paired register as 32 bits, and its write (R9). -/
def reg32 (s : State) (a : Nat) : Pair := mkPair (reg s a) (reg s (a + 1))
def setReg32 (a : Nat) (v : Pair) (s : State) : State := setReg (a + 1) (highWord v) (setReg a (lowWord v) s)

/-- A field of a register, as a number; and its write. -/
def regF (s : State) (a lo len : Nat) : Nat := fld (reg s a) lo len
def setRegF (a lo len v : Nat) (s : State) : State := setReg a (putFld (reg s a) lo len v) s
def regBit (s : State) (a i : Nat) : Bool := (reg s a).getLsbD i
def setRegBit (a i : Nat) (b : Bool) (s : State) : State := setReg a (putBit (reg s a) i b) s

/-- What hardware did this tick; nothing, when the record is of an earlier one. -/
def hwNow (s : State) : HwTick := if s.hw.tick = s.now then s.hw else { tick := s.now }

/-- Hardware sets the bits `m` of the register at `a`; the tick's record keeps a clear or a read of the same tick from
losing them (R25, R26). -/
def hwSet (a : Nat) (m : Word) (s : State) : State :=
  let h := hwNow s
  let old := reg s a
  let s := setReg a (old ||| m) s
  { s with hw := { h with bits := { addr := a, set := m, fresh := m &&& ~~~old } :: h.bits } }

/-- The bits hardware set this tick in the register at `a`, and those of them that were 0 before. -/
def hwSetBits (s : State) (a : Nat) : Word :=
  ((hwNow s).bits.filter (·.addr == a)).foldl (fun w b => w ||| b.set) 0
def hwFreshBits (s : State) (a : Nat) : Word :=
  ((hwNow s).bits.filter (·.addr == a)).foldl (fun w b => w ||| b.fresh) 0

/-- Hardware adds `n` to the counter field `[lo + len - 1 : lo]` of the register at `a`, which saturates at its largest
value; the record keeps the tick's counts apart from those before it (R26). -/
def hwCountF (a lo len n : Nat) (s : State) : State :=
  let h := hwNow s
  let before := regF s a lo len
  let s := setRegF a lo len (satAdd (2 ^ len - 1) before n) s
  let rec bump : List HwCount → List HwCount
    | [] => [{ addr := a, lo := lo, len := len, before := before, added := n }]
    | c :: t => if c.addr = a ∧ c.lo = lo then { c with added := c.added + n } :: t else c :: bump t
  { s with hw := { h with counts := bump h.counts } }

/-- Hardware adds 1 to a 16-bit counter that saturates at FFFFh. -/
def hwCount (a : Nat) (s : State) : State := hwCountF a 0 16 1 s

/-- Hardware replaces the word at `a`; a read of the same tick still returns the word from before (R84, R701). -/
def hwWrite (a : Nat) (v : Word) (s : State) : State :=
  let h := hwNow s
  let old := reg s a
  let s := setReg a v s
  { s with hw := { h with olds := h.olds ++ [(a, old)] } }

/-- The word a read of this tick returns: from before a replacement of this tick. -/
def readWord (s : State) (a : Nat) : Word :=
  match (hwNow s).olds.find? (·.1 == a) with
  | some (_, v) => v
  | none => reg s a

/-- The counts of this tick in the register at `a`. -/
def hwCounts (s : State) (a : Nat) : List HwCount := (hwNow s).counts.filter (·.addr == a)

/-- What an ordinary read of the word at `a` returns where bits are RC: a counter's value and a flag from before this
tick's events (R26). -/
def rcValue (s : State) (a : Nat) : Word :=
  let v := readWord s a &&& ~~~(hwFreshBits s a &&& regMask RegRow.rc a)
  (hwCounts s a).foldl (fun w c => putFld w c.lo c.len c.before) v

/-- The word an RC read leaves: cleared, but for this tick's counts and flags (R26). -/
def rcCleared (s : State) (a : Nat) : Word :=
  let rc := regMask RegRow.rc a
  let v := (reg s a &&& ~~~rc) ||| (hwSetBits s a &&& rc)
  (hwCounts s a).foldl
    (fun w c => putFld w c.lo c.len (min (2 ^ c.len - 1) c.added)) v

/-- An ordinary read with its side effect of a register with RC bits: the value, and the state after it. -/
def rcRead (a : Nat) (s : State) : Word × State := (rcValue s a, setReg a (rcCleared s a) s)

/-- A write of `v` to the register at `a` by the access codes of its fields (R16, R17): RW bits take the value, W1C bits
clear, W1S bits set, everything else is ignored; bits hardware set this tick stay set (R25). -/
def regWriteBits (a : Nat) (v : Word) (s : State) : State :=
  let rw := regMask RegRow.rw a
  let w1c := regMask RegRow.w1c a
  let w1s := regMask RegRow.w1s a
  let old := reg s a
  let new := ((old &&& ~~~rw) ||| (v &&& rw)) &&& ~~~(v &&& w1c &&& ~~~hwSetBits s a) ||| (v &&& w1s)
  setReg a new s

/-- The registers after a reset: kept bits stay, every other bit takes its reset value, and nothing equal to the reset
value stays listed (R21-R23). -/
def resetRegs (keep : RegRow → Pair) : List (Nat × Word) → List (Nat × Word)
  | [] => []
  | (a, v) :: t =>
    let k := regMask keep a
    let v' := (v &&& k) ||| (regReset a &&& ~~~k)
    if v' = regReset a then resetRegs keep t else (a, v') :: resetRegs keep t

/-! ### Free values -/

/-- A free word, and the state with the counter moved on. -/
def takeWord (s : State) : Word × State := (Config.freeWord s.free, { s with free := s.free + 1 })
def takePair (s : State) : Pair × State := (Config.freePair s.free, { s with free := s.free + 1 })

/-! ### Masters -/

/-- TH0, TH1, the debug bus master and the Waili command path: the writers most registers accept (R82, R131, R199,
R497, R954). -/
def privileged : Master → Bool
  | .thread t => t.val < 2
  | .debug => true
  | .waili => true
  | _ => false

/-- A thread, the debug bus master or the Waili command path (R82, R562). -/
def threadOrHost : Master → Bool
  | .thread _ => true
  | .debug => true
  | .waili => true
  | _ => false

/-- The Waili command path and the debug port: their reads of RC and RA registers need a request for the side effect
(R20, R828). -/
def isHost : Master → Bool
  | .debug => true
  | .waili => true
  | _ => false

/-! ### Error lines -/

/-- A raise is registered; FAULT_HANDLE handles it (R945, R952). -/
def raise (r : Raise) (s : State) : State := { s with fcol := { s.fcol with raises := s.fcol.raises ++ [r] } }

/-- A raise whose rule logs it at L0 NOTE without escalation (R949). -/
def note (cls : Fin 16) (detail : Word) (s : State) : State := raise { cls := cls, detail := detail, note := true } s

/-- The class numbers of R947. -/
abbrev clsClock : Fin 16 := 0
abbrev clsPower : Fin 16 := 1
abbrev clsThermal : Fin 16 := 2
abbrev clsMemory : Fin 16 := 3
abbrev clsSequencer : Fin 16 := 4
abbrev clsTile : Fin 16 := 5
abbrev clsAngle : Fin 16 := 6
abbrev clsEvent : Fin 16 := 7
abbrev clsAdc : Fin 16 := 8
abbrev clsOutput : Fin 16 := 9
abbrev clsKernel : Fin 16 := 10
abbrev clsPartner : Fin 16 := 11
abbrev clsArmature : Fin 16 := 12
abbrev clsIntc : Fin 16 := 13
abbrev clsWatchdog : Fin 16 := 14
abbrev clsSecurity : Fin 16 := 15

/-! ### Fences (R219, SYS.FENCEA and SYS.FENCEB) -/

/-- The fence bit of a unit is set: bits 0-31 of FENCEA, then 32 + bit of FENCEB. -/
def fenceBit (s : State) (i : Nat) : Bool :=
  if i < 16 then regBit s Reg.sys_FENCEA i
  else if i < 32 then regBit s (Reg.sys_FENCEA + 1) (i - 16)
  else regBit s Reg.sys_FENCEB (i - 32)

/-- The unit is out of service: fenced, or lifted and waiting for the cycle boundary (R222). -/
def outOfService (s : State) (i : Nat) : Bool := fenceBit s i || s.modes.returning.contains i

/-- The fence bits of the units. -/
abbrev fbStage (n : Nat) : Nat := n
abbrev fbChg : Nat := 14
abbrev fbThread (n : Nat) : Nat := 16 + n
abbrev fbKern (k : Nat) : Nat := 24 + k
abbrev fbAdc (k : Nat) : Nat := 32 + k
abbrev fbCam : Nat := 34
abbrev fbCour (c : Nat) : Nat := 40 + c

/-! ### Modes -/

def inSetup (s : State) : Bool := s.modes.mode == .setup

/-- RUN or LIMP. -/
def driving (s : State) : Bool := s.modes.mode != .setup

end Sys2Proof.Machine
end

