-- ==== Sys2Proof/Machine/Settle.lean ====
section
/-!
DEFINITION. The combinational side of the block: the lines computed from the state, and the safe state every output
stage takes while something keeps its pin OFF (R715, R742). Every command ends with `settle`.
-/

namespace Sys2Proof.Machine

/-- The target mask of a source (INTC.TGTk). -/
def targetOf (s : State) (n : Nat) : Nat := regF s (Reg.intc_TGT (n / 2)) (8 * (n % 2)) 8

/-- Source `n` is claimable by thread `t` (R542, R543). -/
def claimable (s : State) (t n : Nat) : Bool :=
  s.intc.pend.getLsbD n && !s.intc.act.getLsbD n && !s.intc.mask.getLsbD n && (targetOf s n).testBit t

/-- Event latch bit 8 of thread `t` (R542). -/
def irqLine (s : State) (t : Nat) : Bool := (List.range 96).any (claimable s t)

/-- The recorded level LV of class `c` (FCOL.LVw). -/
def lvOf (s : State) (c : Nat) : Nat := regF s (Reg.fcol_LV (c / 4)) (4 * (c % 4)) 3

/-- The FAULT level in force: a FLV of 0 acts as 1 (R958). -/
def faultLevel (s : State) : Nat := max 1 (regF s Reg.fcol_FLV 0 3)

/-- Boot step B10 has not ended, or boot SETUP (R63, R959). -/
def bootHoldsFault (s : State) : Bool := decide (s.boot.step < 10) || s.modes.bootsu

/-- FAULT is low: driven so (R63, R958), or held by its pull-down without supply and in sleep (R51). -/
def faultPinLow (s : State) : Bool :=
  s.power != .up || bootHoldsFault s ||
    (List.range 16).any (fun c => regBit s Reg.fcol_FSW c && decide (faultLevel s ≤ lvOf s c))

/-- Stage `i` is enabled: EN of OUT.CFGs, and for the CHG stages R735. -/
def stageEnabled (s : State) (i : Nat) : Bool :=
  if i < 14 then regBit s (Reg.out_CFG i) 15
  else
    let topo := regF s Reg.plinth_CHGCFG 14 2
    if i = 14 then topo != 0 else topo != 0 && regBit s Reg.plinth_CHGCFG 13

/-- Stage `i` is a low-side driver or a bridge, which a load dump turns off (R96). -/
def isLsdOrBr (i : Nat) : Bool := (4 ≤ i && i < 10) || i == 12 || i == 13

/-- What keeps the pin of stage `i` OFF (R715): SETUP, a load dump, a fence, a latch-off, EN at 0. -/
def stageBlocked (s : State) (i : Nat) : Bool :=
  inSetup s || (isLsdOrBr i && regBit s Reg.plinth_STAT 12) || outOfService s (if i < 14 then i else fbChg)
    || regBit s Reg.out_LATCH i || !stageEnabled s i

/-- A stage taken to its safe state: an IGN stage that was on takes a soft turn-off of 1 ms (R721, R722, R742). -/
def safeStage (now : Nat) (i : Nat) (g : Stage) : Stage :=
  { g with
    on := false
    peak := false
    offAt := none
    offSince := if g.on then now else g.offSince
    soft := if g.on && decide (i < 4) then some (now + msTicks) else g.soft }

/-- Every blocked stage in its safe state. -/
def safeStages (s : State) : Vector Stage 16 :=
  Vector.ofFn (fun i : Fin 16 =>
    if stageBlocked s i.val then safeStage s.now i.val s.out.stages[i] else s.out.stages[i])

/-- A latch-off or fence of a bridge, or the loss of its enable, stops the sequencer; a latch-off or fence clears HOMED
(R733, R715). -/
def safeStepper (s : State) : Stepper :=
  let stop := stageBlocked s 12 || stageBlocked s 13
  let lost := outOfService s 12 || outOfService s 13 || regBit s Reg.out_LATCH 12 || regBit s Reg.out_LATCH 13
  let p := s.out.stepper
  if stop then
    { p with moving := false, holding := false, homed := p.homed && !lost
             homing := none }
  else p

/-- The pin of stage `i` is on (OUT.STATE). -/
def stagePin (g : Stage) (now : Nat) : Bool :=
  g.on && (match g.offAt with
    | some t => decide (now < t)
    | none => true)

/-- The state with every blocked stage in its safe state, and the lines recomputed. -/
def settle (s : State) : State :=
  let stages := safeStages s
  { s with
    out := { s.out with stages := stages, stepper := safeStepper s }
    lines := {
      irq := BitVec.ofFnLE (fun t : Fin 8 => irqLine s t.val)
      faultLow := faultPinLow s
      stageOn := BitVec.ofFnLE (fun i : Fin 16 => stagePin stages[i] s.now) } }

end Sys2Proof.Machine
end

