-- ==== Sys2Proof/Machine/Intc.lean ====
section
/-!
DEFINITION. The interrupt controller (spec/12_interrupt_controller.md, R539-R575).
-/

namespace Sys2Proof.Machine

/-- The controller with the records of an earlier tick dropped (R566, R567). -/
def intcNow (s : State) : Intc :=
  if s.intc.evTick = s.now then s.intc else { s.intc with evTick := s.now, newPend := 0, newEv := 0 }

/-- A source takes its event: APEND while active, else PEND (R541). -/
def takeEvent (n : Fin 96) (s : State) : State :=
  let c := intcNow s
  let c := { c with newEv := putBit c.newEv n true }
  { s with intc :=
      if c.act.getLsbD n then { c with apend := putBit c.apend n true }
      else if c.pend.getLsbD n then c
      else { c with pend := putBit c.pend n true, newPend := putBit c.newPend n true } }

/-- The event of a source with its group's moderation: RAW and the group timer, or the event at once (R554, R555). -/
def moderated (n : Fin 96) (s : State) : State :=
  let g : Fin 12 := ⟨n.val / 8, by omega⟩
  let per := regF s (Reg.intc_MOD g) 0 10
  if per = 0 then takeEvent n s
  else
    let c := intcNow s
    let due := match c.modDue[g] with
      | some d => some d
      | none => some (s.now + per * usTicks)
    { s with intc := { c with
        raw := putBit c.raw n true
        newEv := putBit c.newEv n true
        modDue := c.modDue.set g due } }

/-- The runaway check of one event (R558, R559). -/
def countEvent (n : Fin 96) (s : State) : State :=
  let k := s.intc.counts[n] + 1
  let s := { s with intc := { s.intc with counts := s.intc.counts.set n k } }
  let limit := regF s (Reg.intc_RUN (n.val / 8)) 0 10
  let w := Reg.intc_RUNST (n.val / 16)
  if n.val = 63 ∨ limit = 0 ∨ k ≤ limit ∨ regBit s w (n.val % 16) then s
  else
    let s := { s with intc := { s.intc with mask := putBit s.intc.mask n true } }
    let s := hwSet w (wd (2 ^ (n.val % 16))) s
    moderated 63 (note clsIntc (wd (0x100 + n.val)) s)

/-- A block signals source `n` (R541, R555, R558). -/
def signal (n : Fin 96) (s : State) : State := countEvent n (moderated n s)

/-- A block signals the source of a number computed from an index; a number past the last source is none. -/
def signalNat (n : Nat) (s : State) : State := if h : n < 96 then signal ⟨n, h⟩ s else s

/-- The hold of group `g` ends: each RAW source takes its event and the timer goes idle (R555). -/
def endHold (g : Fin 12) (s : State) : State :=
  let raws := s.intc.raw
  let s := { s with intc := { s.intc with modDue := s.intc.modDue.set g none } }
  (List.finRange 8).foldl
    (fun s (i : Fin 8) =>
      let n : Fin 96 := ⟨g.val * 8 + i.val, by omega⟩
      if raws.getLsbD n then takeEvent n { s with intc := { s.intc with raw := putBit s.intc.raw n false } } else s) s

/-- The source a claim by thread `t` would return in this tick (R542, R544, R566, R573). -/
def claimNumber (s : State) (t : Fin 8) : Option (Fin 96) :=
  if s.intc.held[t].isSome then none
  else (List.finRange 96).find? (fun n => claimable s t n && !(intcNow s).newPend.getLsbD n)

/-- CLAIM by thread `t`: the number read, and the state after it (R544, R567). -/
def claimRead (t : Fin 8) (s : State) : Word × State :=
  match claimNumber s t with
  | none => (127, hwCount Reg.intc_SPUR s)
  | some n =>
    let c := intcNow s
    (wd n.val, { s with intc := { c with
        pend := putBit c.pend n false
        act := putBit c.act n true
        apend := putBit c.apend n (c.apend.getLsbD n || c.newEv.getLsbD n)
        held := c.held.set t (some n) } })

/-- The source thread `t` holds is completed; an APEND becomes a PEND (R547, R550, R568). -/
def completeHeld (t : Fin 8) (s : State) : State :=
  match s.intc.held[t] with
  | none => s
  | some n =>
    let c := intcNow s
    { s with intc := { c with
        act := putBit c.act n false
        held := c.held.set t none
        pend := putBit c.pend n (c.pend.getLsbD n || c.apend.getLsbD n)
        apend := putBit c.apend n false } }

/-- COMPLt written with number `v` for thread `t` (R547, R560, R561, R570). -/
def complWrite (t : Fin 8) (v : Word) (s : State) : State :=
  let n := fld v 0 7
  if n = 127 then s
  else if s.intc.held[t].map (·.val) = some n then completeHeld t s
  else
    let h := match s.intc.held[t] with
      | some k => k.val
      | none => 127
    let s := setReg32 Reg.intc_ERR (BitVec.ofNat 32 (t.val * 2 ^ 24 + h * 2 ^ 16 + n)) s
    let s := hwSet (Reg.intc_ERR + 1) 0x8000 s
    raise { cls := clsIntc, detail := wd (t.val * 4096 + n), unit := some (.bit ⟨16 + t.val, by omega⟩) } s

/-- The bits of a PENDSET, PENDCLR, MASKSET or MASKCLR write that act for the master (R562). -/
def writerBit (s : State) (m : Master) (n : Nat) : Bool :=
  match m with
  | .thread t => t.val < 2 || (targetOf s n).testBit t
  | .debug => true
  | .waili => true
  | _ => false

/-- `f` applied to every source of word `w` whose bit of `v` is 1 and acts for the master. -/
def eachSource (m : Master) (w : Fin 6) (v : Word) (f : Fin 96 → State → State) (s : State) : State :=
  (List.finRange 16).foldl
    (fun s' (b : Fin 16) =>
      let n : Fin 96 := ⟨w.val * 16 + b.val, by omega⟩
      if v.getLsbD b && writerBit s m n then f n s' else s') s

/-- A PENDSET bit: the group's hold ends, and the source takes an event that moderation does not delay and the runaway
check counts (R555, R564). -/
def pendSet (n : Fin 96) (s : State) : State :=
  countEvent n (takeEvent n (endHold ⟨n.val / 8, by omega⟩ s))

/-- A PENDCLR bit: RAW, PEND and APEND clear, unless the source had an event in this tick; a group left without a RAW
source has its timer idle (R557, R564, R565). -/
def pendClr (n : Fin 96) (s : State) : State :=
  let c := intcNow s
  if c.newEv.getLsbD n then s
  else
    let g : Fin 12 := ⟨n.val / 8, by omega⟩
    let raw := putBit c.raw n false
    let idle := (List.range 8).all (fun i => !raw.getLsbD (g.val * 8 + i))
    { s with intc := { c with
        raw := raw
        pend := putBit c.pend n false
        apend := putBit c.apend n false
        modDue := if idle then c.modDue.set g none else c.modDue } }

def maskSet (n : Fin 96) (s : State) : State := { s with intc := { s.intc with mask := putBit s.intc.mask n true } }
def maskClr (n : Fin 96) (s : State) : State := { s with intc := { s.intc with mask := putBit s.intc.mask n false } }

/-- Word `w` of a 96-bit field of source bits. -/
def srcWord (b : BitVec 96) (w : Nat) : Word := b.extractLsb' (16 * w) 16

/-- A write to an INTC register (R546, R547, R562-R564). -/
def intcWrite (m : Master) (a : Nat) (v : Word) (s : State) : State :=
  let o := a - 0x41000
  if h : 0x08 ≤ o ∧ o < 0x0E then eachSource m ⟨o - 0x08, by omega⟩ v pendSet s
  else if h : 0x10 ≤ o ∧ o < 0x16 then eachSource m ⟨o - 0x10, by omega⟩ v pendClr s
  else if h : 0x20 ≤ o ∧ o < 0x26 then eachSource m ⟨o - 0x20, by omega⟩ v maskSet s
  else if h : 0x28 ≤ o ∧ o < 0x2E then eachSource m ⟨o - 0x28, by omega⟩ v maskClr s
  else if h : 0x88 ≤ o ∧ o < 0x90 then
    let t : Fin 8 := ⟨o - 0x88, by omega⟩
    if isHost m || m = .thread t then complWrite t v s else s
  else if privileged m then regWriteBits a v s
  else s

/-- The value an INTC register shows without side effects (R540, R546). -/
def intcPeek (s : State) (a : Nat) : Word :=
  let o := a - 0x41000
  if o < 0x06 then srcWord s.intc.pend o
  else if 0x18 ≤ o ∧ o < 0x1E then srcWord s.intc.mask (o - 0x18)
  else if 0x30 ≤ o ∧ o < 0x36 then srcWord s.intc.act (o - 0x30)
  else if 0x38 ≤ o ∧ o < 0x3E then srcWord s.intc.apend (o - 0x38)
  else if 0x40 ≤ o ∧ o < 0x46 then srcWord s.intc.raw (o - 0x40)
  else if h : 0x80 ≤ o ∧ o < 0x88 then
    match claimNumber s ⟨o - 0x80, by omega⟩ with
    | some n => wd n.val
    | none => 127
  else if h : 0x90 ≤ o ∧ o < 0x98 then
    match s.intc.held[o - 0x90]'(by omega) with
    | some n => wd (0x8000 + n.val)
    | none => 0
  else if h : 0x98 ≤ o ∧ o < 0xA4 then
    putBit (reg s a) 15 (s.intc.modDue[o - 0x98]'(by omega)).isSome
  else reg s a

/-- A read of CLAIMt by a master, with its side effect (R544, R546). -/
def claimAccess (m : Master) (t : Fin 8) (side : Bool) (s : State) : Word × State :=
  match m with
  | .thread u => if u = t then claimRead t s else (127, s)
  | .debug => if side then claimRead t s else (intcPeek s (Reg.intc_CLAIM t), s)
  | .waili => if side then claimRead t s else (intcPeek s (Reg.intc_CLAIM t), s)
  | _ => (127, s)

/-- The tick the moderation timer of group `g` expires in. -/
def modDueTick (s : State) (g : Fin 12) : Nat := s.intc.modDue[g].getD s.now

/-- The moderation timer of group `g` expires (R555). -/
def modExpiry (g : Fin 12) (s : State) : State := if s.intc.modDue[g].isSome then endHold g s else s

/-- A thread waits for an unmasked source of group `g` that is held back: the hold ends (R555, R556). -/
def modBypass (g : Fin 12) (s : State) : State :=
  let waits (n : Nat) : Bool := (List.finRange 8).any (fun t : Fin 8 =>
    s.thr.th[t].st == .waiting && (targetOf s n).testBit t)
  if (List.range 8).any (fun i => s.intc.raw.getLsbD (g.val * 8 + i) && !s.intc.mask.getLsbD (g.val * 8 + i)
      && waits (g.val * 8 + i)) then endHold g s
  else s

/-- The end of the running 1 ms window (R558). -/
def windowDue (s : State) : Nat := (s.now / msTicks + 1) * msTicks

/-- A 1 ms runaway window ends: the counts start again (R558). -/
def runawayWindow (s : State) : State :=
  { s with intc := { s.intc with counts := Vector.replicate 96 0 } }

end Sys2Proof.Machine
end

