-- ==== Sys2Proof/Machine/Out.lean ====
section
/-!
DEFINITION. The output stages (spec/16_output_stages.md, R710-R751), and the arrival of output commands as time passes.
-/

namespace Sys2Proof.Machine

/-! ### Stage records -/

def stageAt (s : State) (i : Nat) : Stage := if h : i < 16 then s.out.stages[i] else {}

def setStage (i : Nat) (f : Stage → Stage) (s : State) : State :=
  if h : i < 16 then { s with out := { s.out with stages := s.out.stages.set i (f s.out.stages[i]) } } else s

/-- LIMIT and PARAM of OUT.CFGs. -/
def stageLimit (s : State) (i : Nat) : Nat := regF s (Reg.out_CFG i) 0 14
def stageParam (s : State) (i : Nat) : Word := reg s (Reg.out_CFG i + 1)

/-- LIMIT where its range starts at 1 (OUT.CFGs). -/
def stageLimit1 (s : State) (i : Nat) : Nat := max 1 (stageLimit s i)

/-- LS4, LS5, HSD0 or HSD1 with LIMIT bits 13-12 naming a PWM mode (R716, R727). -/
def stagePwm (s : State) (i : Nat) : Bool :=
  8 ≤ i && i < 12 && (stageLimit s i / 4096 == 1 || stageLimit s i / 4096 == 2)

/-- Diagnostics enabled (R735, R738). -/
def stageDiagEn (s : State) (i : Nat) : Bool :=
  if i < 14 then regBit s (Reg.out_CFG i) 14 else regBit s Reg.plinth_CHGCFG 12

/-! ### Diagnostics (R737-R739) -/

/-- The DIAG bits. -/
abbrev dOpen : Nat := 0
abbrev dShort : Nat := 1
abbrev dOt : Nat := 2
abbrev dDwell : Nat := 3
abbrev dGate : Nat := 4
abbrev dPkto : Nat := 5

/-- The kind number of a DIAG bit in the OUTPUT detail (R739). -/
def diagKind (b : Nat) : Nat := b + 1

/-- The interrupt source of a stage (R739). -/
def stageSource (i : Nat) : Fin 96 :=
  if i < 4 then 24 else if i < 8 then 25 else if i < 12 then 26 else if i < 14 then 27 else 28

/-- The unit a stage's fault names: the stage, or CHG (R739). -/
def stageUnit (i : Fin 16) : FUnit := .bit ⟨if i.val < 14 then i.val else 14, by split <;> omega⟩

/-- A DIAG bit is set: a new one raises OUTPUT and signals the stage's source (but for PKTO), and SHORT, OT, DWELL and
GATE latch the stage off, GATE both CHG stages (R734, R737, R739). -/
def setDiag (i : Fin 16) (b : Nat) (s : State) : State :=
  let a := Reg.out_DIAG i
  let was := regBit s a b
  let s := hwSet a (wd (2 ^ b)) s
  let s :=
    if b = dShort ∨ b = dOt ∨ b = dDwell then setRegBit Reg.out_LATCH i true s
    else if b = dGate then setRegBit Reg.out_LATCH 15 true (setRegBit Reg.out_LATCH 14 true s)
    else s
  if was ∨ b = dPkto then s
  else signal (stageSource i)
    (raise { cls := clsOutput, detail := wd (diagKind b * 0x1000 + i.val), unit := some (stageUnit i) } s)

/-- A DIAG bit written 1: the bit and the latch it caused clear, unless hardware set the bit in this tick, or the bit is OT
and its detector is still tripped (R737, R745). -/
def clearDiagBit (i : Fin 16) (b : Nat) (s : State) : State :=
  let a := Reg.out_DIAG i
  if (hwSetBits s a).getLsbD b then s
  else if b = dOt ∧ (stageAt s i).tripped then s
  else
    let s := setRegBit a b false s
    let d := reg s a
    let latched (x : Word) : Bool := x.getLsbD dShort || x.getLsbD dOt || x.getLsbD dDwell || x.getLsbD dGate
    let other := reg s (Reg.out_DIAG (29 - i.val))
    let keep := latched d || (decide (14 ≤ i.val) && other.getLsbD dGate)
    let s := if keep then s else setRegBit Reg.out_LATCH i false s
    if b = dGate ∧ 14 ≤ i.val ∧ !latched other then setRegBit Reg.out_LATCH (29 - i.val) false s else s

/-- A write of `v` to OUT.DIAGs (R737). -/
def diagWrite (i : Fin 16) (v : Word) (s : State) : State :=
  (List.range 6).foldl (fun s b => if v.getLsbD b then clearDiagBit i b s else s) s

/-! ### Commands to targets -/

/-- An on command reaches stage `i` (R712, R715, R716, R722, R724). -/
def stageOnCmd (i : Nat) (s : State) : State :=
  let g := stageAt s i
  if stageBlocked s i || stagePwm s i || g.soft.isSome || g.on then s
  else setStage i (fun g => { g with
    on := true
    onSince := s.now
    offAt := none
    peak := decide (4 ≤ i ∧ i < 8) && (fld (stageParam s i) 8 8 != 0) }) s

/-- The end of a dwell by a normal off: IPK takes the peak, and a long dwell with too low a peak sets OPEN (R717, R720). -/
def endDwell (i : Fin 16) (pk : Byte) (s : State) : State :=
  let ilim := fld (stageParam s i) 8 8
  let imin := fld (stageParam s i) 0 8
  let clim := ilim ≠ 0 ∧ ilim ≤ pk.toNat
  let seen := if ilim ≠ 0 then min ilim pk.toNat else pk.toNat
  let s' := setReg (Reg.out_IPK i) (wd ((if clim then 0x8000 else 0) + seen)) s
  if stageDiagEn s i && decide (imin ≠ 0 ∧ seen < imin ∧ 200 * usTicks ≤ s.now - (stageAt s i).onSince) then
    setDiag i dOpen s'
  else s'

/-- An off command reaches stage `i`, a normal off for an IGN stage (R721). -/
def stageOffCmd (i : Nat) (pk : Byte) (s : State) : State :=
  let g := stageAt s i
  if stagePwm s i || !g.on then s
  else
    let s := if h : i < 4 then endDwell ⟨i, by omega⟩ pk s else s
    setStage i (fun g => { g with on := false, peak := false, offAt := none, offSince := s.now }) s

/-- A command reaches its target: a stage, or a GPIO pin, which takes it while its FUNC is 01b (R629, R648). -/
def targetCmd (c : OutCmd) (s : State) : State :=
  if c.tgt < 12 then (if c.on then stageOnCmd c.tgt s else stageOffCmd c.tgt c.peak s)
  else if 0x20 ≤ c.tgt ∧ c.tgt ≤ 0x30 then
    let a := Reg.gpio_PCFG (c.tgt - 0x20)
    if regF s a 10 2 = 1 then setRegBit a 0 c.on s else s
  else s

/-- A command is sent to a target; it arrives 2 ticks later (R646, R713). -/
def sendOut (tgt : Nat) (on : Bool) (pk : Byte) (s : State) : State :=
  { s with out := { s.out with queue := s.out.queue ++ [{ tick := s.now + 2, tgt := tgt, on := on, peak := pk }] } }

/-- The commands arrived by now take effect, in the order of their ticks; within one tick an off wins over an on (R647). -/
def flushOut (s : State) : State :=
  let due := s.out.queue.filter (fun c => decide (c.tick ≤ s.now))
  let rest := s.out.queue.filter (fun c => !decide (c.tick ≤ s.now))
  let wins (c : OutCmd) : Bool := !c.on || due.all (fun d => d.on || d.tgt != c.tgt || d.tick != c.tick)
  (due.filter wins).foldl (fun s c => targetCmd c s) { s with out := { s.out with queue := rest } }

/-! ### Time -/

/-- `n` ticks pass: the Postmark counts, and the output commands under way arrive. -/
def elapse (n : Nat) (s : State) : State := flushOut (advance n s)

/-- A soft turn-off of an IGN stage that was on (R718, R719, R721). -/
def softOff (i : Nat) (s : State) : State :=
  setStage i (fun g => { g with on := false, offSince := s.now, soft := some (s.now + msTicks) }) s

/-! ### The commands of the chapter -/

/-- OUT.SWCMD written: target codes 00h-0Bh, OP 01b on and 10b off (R713). -/
def swcmdWrite (m : Master) (v : Word) (pk : Byte) (s : State) : State :=
  let tgt := fld v 0 6
  let op := fld v 14 2
  if threadOrHost m && decide (tgt < 12) then
    if op = 1 then sendOut tgt true 0 s else if op = 2 then sendOut tgt false pk s else s
  else s

/-- The maximum dwell of an IGN stage (R718). -/
def maxDwellDue (s : State) (n : Fin 4) : Nat := (stageAt s n).onSince + stageLimit1 s n * 10 * usTicks

def maxDwell (n : Fin 4) (s : State) : State :=
  if (stageAt s n).on then setDiag ⟨n.val, by omega⟩ dDwell (softOff n s) else s

/-- The shunt voltage of a dwell reaches ILIM within the first 10 µs (R719). -/
def ignShort (n : Fin 4) (s : State) : State :=
  let g := stageAt s n
  if g.on ∧ s.now - g.onSince ≤ 10 * usTicks then setDiag ⟨n.val, by omega⟩ dShort (softOff n s) else s

/-- The ramp of a soft turn-off ends (R721, R750). -/
def softEndDue (s : State) (n : Fin 4) : Nat := (stageAt s n).soft.getD s.now

def softTurnoffEnd (n : Fin 4) (s : State) : State := setStage n (fun g => { g with soft := none }) s

/-- The injector current reaches IPEAK, or LIMIT µs have passed; `flows` says whether at least 100 mA flow (R724, R726). -/
def injPeakEnd (n : Fin 4) (timeout flows : Bool) (s : State) : State :=
  let i := n.val + 4
  let g := stageAt s i
  if !g.on then s
  else
    let wasPeak := g.peak
    let s := setStage i (fun g => { g with peak := false }) s
    if !timeout then s
    else if !flows then (if stageDiagEn s i then setDiag ⟨i, by omega⟩ dOpen s else s)
    else if wasPeak then setDiag ⟨i, by omega⟩ dPkto s
    else s

/-- The duty in force of a PWM stage: OUT.PWMDn under MODE 01b, F3's under MODE 10b (OUT.PWMDn). -/
def pwmDuty (s : State) (n : Fin 4) : Nat := (reg s (Reg.out_PWMD n)).toNat

/-- The period of a PWM stage in ticks: the whole number nearest to 160,000,000 / (10 × LIMIT[11:0]) (R727). -/
def pwmPeriodTicks (s : State) (n : Fin 4) : Nat :=
  let f := 10 * max 1 (stageLimit s (n.val + 8) % 4096)
  (2 * 160000000 + f) / (2 * f)

/-- The on-time of a period: floor(duty × period / 65536), all of it for FFFFh; on an LS stage an on-time or off-time
below 2 µs counts as 0 (R727). -/
def pwmOnTicks (s : State) (n : Fin 4) : Nat :=
  let p := pwmPeriodTicks s n
  let d := pwmDuty s n
  let on := if d = 0xFFFF then p else d * p / 65536
  if n.val < 2 then
    if on < 2 * usTicks then 0 else if p - on < 2 * usTicks then p else on
  else on

def pwmPeriodDue (s : State) (n : Fin 4) : Nat := (stageAt s (n.val + 8)).periodDue

/-- A PWM period starts (R715, R727). -/
def pwmPeriod (n : Fin 4) (s : State) : State :=
  let i := n.val + 8
  if !stagePwm s i || stageBlocked s i then s
  else
    let on := pwmOnTicks s n
    let p := pwmPeriodTicks s n
    setStage i (fun g => { g with
      on := decide (0 < on)
      onSince := if g.on then g.onSince else s.now
      offSince := if g.on && on == 0 then s.now else g.offSince
      offAt := if on = p then none else some (s.now + on)
      periodDue := s.now + p }) s

/-- VBAT − HSSn exceeds 1.0 V for 2 µs, from 10 µs after the on command (R728). -/
def hsdShort (n : Fin 2) (s : State) : State :=
  let i := n.val + 10
  let g := stageAt s i
  if g.on ∧ 12 * usTicks ≤ s.now - g.onSince then
    setDiag ⟨i, by omega⟩ dShort (setStage i (fun g => { g with on := false, offAt := none, offSince := s.now }) s)
  else s

/-! ### Stepper (R729-R733) -/

def stepPeriod (s : State) : Nat := max 1 (fld (stageParam s 12) 8 8) * (msTicks / 2)

/-- The sequencer may run: both bridges enabled and nothing keeps their pins OFF (R715, R729). -/
def stepperRuns (s : State) : Bool := !stageBlocked s 12 && !stageBlocked s 13

def setStepper (f : Stepper → Stepper) (s : State) : State := { s with out := { s.out with stepper := f s.out.stepper } }

/-- Homing starts: LIMIT + 8 steps towards 0 (R732). -/
def startHoming (s : State) : State :=
  if stepperRuns s then
    setStepper (fun p => { p with
      homing := some (stageLimit s 12 + 8), holding := false, moving := false, everHomed := true
      stepDue := s.now + stepPeriod s }) s
  else s

/-- The first entry to RUN or LIMP after a reset homes the stepper (R732). -/
def firstHoming (s : State) : State := if s.out.stepper.everHomed then s else startHoming s

def stepperDue (s : State) : Nat := s.out.stepper.stepDue

/-- One step of the sequencer: of a homing, or towards STEPTGT clamped to 0..LIMIT; a sequencer that restarts with HOMED
at 0 homes first (R730, R732, R733, R748). -/
def stepperStep (s : State) : State :=
  if !stepperRuns s then s
  else
    match s.out.stepper.homing with
    | some (k + 1) =>
      setStepper (fun p => { p with homing := some k, lastStep := s.now, stepDue := s.now + stepPeriod s }) s
    | some 0 => s
    | none =>
      if !s.out.stepper.homed then startHoming s
      else
        let pos := regF s Reg.out_STEPPOS 0 14
        let tgt := min (regF s Reg.out_STEPTGT 0 14) (stageLimit s 12)
        if pos = tgt then setStepper (fun p => { p with moving := false }) s
        else
          let pos' := if pos < tgt then pos + 1 else pos - 1
          setStepper (fun p => { p with
            moving := decide (pos' ≠ tgt), holding := false, lastStep := s.now, stepDue := s.now + stepPeriod s })
            (setRegF Reg.out_STEPPOS 0 14 pos' s)

/-- Homing completes after its last step (R732). -/
def homingEnd (s : State) : State :=
  if s.out.stepper.homing = some 0 then
    setStepper (fun p => { p with homing := none, homed := true }) (setReg Reg.out_STEPPOS 0 s)
  else s

def stepperHoldDue (s : State) : Nat := s.out.stepper.lastStep + 100 * msTicks

/-- 100 ms after the last step the bridges take the hold duty (R730). -/
def stepperHold (s : State) : State :=
  if stepperRuns s ∧ s.out.stepper.homing = none then setStepper (fun p => { p with moving := false, holding := true }) s
  else s

/-- OUT.STEPCMD written (R732, R743). -/
def stepcmdWrite (m : Master) (v : Word) (s : State) : State :=
  if privileged m && v == 1 then startHoming s else s

/-- The coil current 1 ms after a step energised the bridge (R733). -/
def bridgeOpenCheck (n : Fin 2) (below : Bool) (s : State) : State :=
  let i := n.val + 12
  if below && stageDiagEn s i && stepperRuns s then setDiag ⟨i, by omega⟩ dOpen s else s

/-! ### Protections (R734, R736) -/

/-- A current limit of an LSD or bridge acts for 10 µs (R736). -/
def currentLimitShort (i : Fin 16) (s : State) : State :=
  if isLsdOrBr i && (stageAt s i).on || (12 ≤ i.val && i.val < 14 && stepperRuns s) then setDiag i dShort s else s

/-- A thermal detector trips or recovers: an LSD channel's or a bridge's own, or for the other stages the shared predriver
bank's, which sets OT on every enabled IGN, HSD and CHG stage (R736). -/
def overTemperature (i : Fin 16) (tripped : Bool) (s : State) : State :=
  let bank (k : Nat) : Bool := k < 4 || k == 10 || k == 11 || 14 ≤ k
  let hit (k : Fin 16) : Bool := if isLsdOrBr i then k == i else bank k && stageEnabled s k
  (List.finRange 16).foldl
    (fun s' (k : Fin 16) =>
      let member := if isLsdOrBr i then k == i else bank k
      let s' := if member then setStage k (fun g => { g with tripped := tripped }) s' else s'
      if tripped && hit k then setDiag k dOt s' else s') s

/-- The edge checks of the CHG gates (R734): `openG` and `gateG` tell for each gate whether the 40 ns and the 2 µs check
failed at this period's edges. -/
def chgChecks (openG gateG : BitVec 2) (s : State) : State :=
  (List.finRange 2).foldl
    (fun s (k : Fin 2) =>
      let i : Fin 16 := ⟨14 + k.val, by omega⟩
      if !stageEnabled s i then s
      else
        let s := if openG.getLsbD k && stageDiagEn s i then setDiag i dOpen s else s
        if gateG.getLsbD k then setDiag i dGate s else s) s

/-! ### Off-state open-load test (R740, R741) -/

/-- Stage `i` takes part in a round. -/
def oltEligible (s : State) (i : Nat) : Bool :=
  let g := stageAt s i
  4 ≤ i && i < 12 && stageEnabled s i && stageDiagEn s i && !regBit s Reg.out_LATCH i && !g.on &&
    decide (200 * usTicks ≤ s.now - g.offSince) && (!stagePwm s i || reg s (Reg.out_PWMD (i - 8)) == 0)

def oltDue (s : State) : Nat := s.out.oltDue

/-- A test round: `opens` tells which stages read as open (R740). -/
def oltRound (opens : Word) (s : State) : State :=
  let per := regF s Reg.out_OLTCFG 0 8
  if per = 0 then s
  else
    let s := (List.finRange 16).foldl
      (fun s (i : Fin 16) => if oltEligible s i && opens.getLsbD i then setDiag i dOpen s else s) s
    signal 29 { s with out := { s.out with oltDue := s.now + per * msTicks } }

/-! ### Registers -/

/-- A write to an OUT register (R711, R713, R731, R743, R737). -/
def outWrite (m : Master) (a : Nat) (v : Word) (s : State) : State :=
  let o := a - 0x42C00
  if o < 0x1C then (if inSetup s && privileged m then regWriteBits a v s else s)
  else if o = 0x20 then swcmdWrite m v 0 s
  else if 0x21 ≤ o ∧ o < 0x25 then
    (if threadOrHost m && stageLimit s (o - 0x21 + 8) / 4096 != 2 then regWriteBits a v s else s)
  else if o = 0x28 then
    (if privileged m then
      let was := regF s a 0 8
      let s := regWriteBits a v s
      if was = 0 then { s with out := { s.out with oltDue := s.now + regF s a 0 8 * msTicks } } else s
    else s)
  else if h : 0x30 ≤ o ∧ o < 0x40 then diagWrite ⟨o - 0x30, by omega⟩ v s
  else if o = 0x45 then
    (if threadOrHost m && !regBit s Reg.kern_MODE 11 then regWriteBits a v s else s)
  else if o = 0x46 then stepcmdWrite m v s
  else s

/-- The value an OUT register shows. -/
def outPeek (s : State) (a : Nat) : Word :=
  let o := a - 0x42C00
  if o = 0x26 then BitVec.ofFnLE (fun i : Fin 16 => stagePin s.out.stages[i] s.now)
  else if o = 0x47 then
    let p := s.out.stepper
    wd (p.homed.toNat * 0x8000 + p.homing.isSome.toNat * 0x4000 + p.moving.toNat * 0x2000 + p.holding.toNat * 0x1000)
  else reg s a

end Sys2Proof.Machine
end

