-- ==== Sys2Proof/Machine/Ang.lean ====
section
/-!
DEFINITION. The Angle Tracker's geometry, published angle and registers (spec/13_angle_tracker.md, R576-R627). The
effect of a tooth or cam edge, which reaches the Event Table, the Kernel and the mode, stands in Tooth.lean.
-/

namespace Sys2Proof.Machine

/-- One revolution in au. -/
abbrev revAu : Nat := 23040

/-- The cycle length of a configuration (R584). -/
def cycleLen (c : AngCfg) : Nat := if c.cycle4 then 2 * revAu else revAu

/-- L in force. -/
def angL (s : State) : Nat := cycleLen s.ang.cfg

/-- The configuration the registers of R582 describe. -/
def cfgOfRegs (s : State) : AngCfg :=
  let n := regF s Reg.ang_WHEEL 10 6
  { teeth := if n ≤ 60 then n else 0
    missing := regF s Reg.ang_WHEEL 8 2
    cycle4 := regBit s Reg.ang_WHEEL 7
    cam := regBit s Reg.ang_WHEEL 6
    crkHall := regBit s Reg.ang_WHEEL 5
    camHall := regBit s Reg.ang_WHEEL 4
    refang := (reg s Reg.ang_REFANG).toNat
    camang := (reg s Reg.ang_CAMANG).toNat
    minper := max 1 (reg s Reg.ang_MINPER).toNat
    stallt := min 5000 (max 10 (reg s Reg.ang_STALLT).toNat)
    ncyl := regF s Reg.ang_WHEEL 0 2 + 1
    tdc := Vector.ofFn (fun n : Fin 4 => (reg s (Reg.ang_TDC n)).toNat) }

/-- The cam is in use (R589). -/
def camInUse (s : State) : Bool :=
  s.ang.cfg.cam && !regBit s Reg.ang_TUNE 15 && !outOfService s fbCam

/-- The wheel has no reference (R586). -/
def noRef (s : State) : Bool := 1 < s.ang.cfg.teeth && s.ang.cfg.missing == 0 && !camInUse s

/-- Teeth present on the wheel. -/
def teethPresent (c : AngCfg) : Nat := c.teeth - c.missing

/-- The angle of tooth `i` before the phase term and the modulus (R584, R585). -/
def toothBase (s : State) (i : Nat) : Nat :=
  s.ang.cfg.refang + (s.ang.base + i) * revAu / max 1 s.ang.cfg.teeth

/-- The modulus angles are counted by: 23040 in CRANK, L otherwise (R591). -/
def angMod (s : State) : Nat := if s.ang.st = .crank then revAu else angL s

/-- A(i), with PH taken as 0 in CRANK (R584, R591). -/
def toothAngle (s : State) (i : Nat) : Nat :=
  (toothBase s i + (if s.ang.ph && s.ang.st != .crank then revAu else 0)) % angMod s

/-- The span of the interval that ends at tooth `i` (R586). -/
def toothSpan (s : State) (i : Nat) : Nat :=
  let k := max 1 (teethPresent s.ang.cfg)
  let d := (toothBase s (i % k) + 2 * revAu - toothBase s ((i + k - 1) % k) % revAu) % revAu
  if d = 0 then revAu else d

/-- The tracker publishes an angle: CRANK, HALF or SYNC (R591, R607). -/
def angPublishes (s : State) : Bool := s.ang.st == .crank || s.ang.st == .half || s.ang.st == .sync

/-- Synchronised: HALF or SYNC (R591). -/
def angSync (s : State) : Bool := s.ang.st == .half || s.ang.st == .sync

/-- The engine turns: every state but STOP (R614). -/
def angTurning (s : State) : Bool := s.ang.st != .stop

/-- The published angle in tick `τ` (R608); frozen in STOP and HUNT. -/
def angleAt (s : State) (τ : Nat) : Nat :=
  if angPublishes s then
    let d := if s.ang.rate = 0 then 0 else (τ - s.ang.tk) * 65536 / s.ang.rate
    (s.ang.tang + min d (s.ang.spanNext - 1)) % angMod s
  else s.ang.frozen

/-- The published angle now. -/
def angleNow (s : State) : Nat := angleAt s s.now

/-- The predicted tick of an angle `d` au past the last tooth, rounded to the backup period there (R609, R626). -/
def tickOfDist (s : State) (d : Nat) : Nat :=
  let x := s.ang.tk + (d * s.ang.rate + 32768) / 65536
  if onBackup s then (x + 10) / 20 * 20 else x

/-- due(θ) of R609. -/
def angDue (s : State) (θ : Nat) : Nat :=
  let l := angL s
  tickOfDist s ((θ + l - s.ang.tang % l) % l)

/-- The first tick in which the published angle reaches `d` au past the last tooth within this interval (R608). -/
def tickReached (s : State) (d : Nat) : Nat := s.ang.tk + (d * s.ang.rate + 65535) / 65536

/-- TPER's mantissa and shift (R610). -/
def tperWord (p : Nat) : Pair :=
  let e := ((List.range 16).find? (fun e => p / 2 ^ e < 2 ^ 24)).getD 15
  BitVec.ofNat 32 (e * 2 ^ 24 + p / 2 ^ e % 2 ^ 24)

/-- The code of a sync state (R591). -/
def angStateCode : AngState → Nat
  | .stop => 0
  | .hunt => 1
  | .crank => 2
  | .half => 3
  | .sync => 4

/-- The value an ANG register shows. -/
def angPeek (s : State) (a : Nat) : Word :=
  let o := a - 0x42000
  let g := s.ang
  if o = 0x10 then
    wd ((angTurning s).toNat * 0x8000 + (angSync s).toNat * 0x4000 + (g.st == .sync).toNat * 0x2000
      + g.ph.toNat * 0x1000 + (noRef s).toNat * 0x800 + (!camInUse s).toNat * 0x400 + angStateCode g.st)
  else if o = 0x11 then wd (angleNow s)
  else if o = 0x12 then wd g.tang
  else if o = 0x13 then wd g.tidx
  else if o = 0x14 then lowWord (BitVec.ofNat 32 g.rate)
  else if o = 0x15 then highWord (BitVec.ofNat 32 g.rate)
  else if o = 0x16 then lowWord (tperWord g.tper)
  else if o = 0x17 then highWord (tperWord g.tper)
  else if o = 0x18 then lowWord (BitVec.ofNat 32 g.stampTk)
  else if o = 0x19 then highWord (BitVec.ofNat 32 g.stampTk)
  else if o = 0x1A then wd g.rpm
  else reg s a

/-- The VR arming threshold after a peak of `pk` × 20 mV, in 20 mV units (R577). -/
def vrThreshold (s : State) (pk : Nat) : Nat :=
  max (max 1 (regF s Reg.ang_VRCFG 0 8)) (pk * regF s Reg.ang_VRCFG 12 4 / 16)

/-- ANG.PHCMD written: CONFIRM or FLIP, in HALF only (R598). -/
def phcmdWrite (m : Master) (v : Word) (s : State) : State :=
  if privileged m && s.ang.st == .half then
    if v = 1 then { s with ang := { s.ang with phcmd := some true } }
    else if v = 2 then { s with ang := { s.ang with phcmd := some false } }
    else s
  else s

/-- A write to ANG.WHEEL that the ANGLE section could not describe is ignored as a whole (R583). -/
def wheelRefused (v : Word) : Bool :=
  let n := fld v 10 6
  (1 ≤ n && n ≤ 60 && n ≤ fld v 8 2) || (v.getLsbD 6 && !v.getLsbD 7)

end Sys2Proof.Machine
end

