-- ==== Sys2Proof/Machine/Trace.lean ====
section
/-!
DEFINITION. The registers of the X: space (spec/22_chisel_debug_trace.md, R1009, R1010) and the trace packets
(R1031-R1035).
-/

namespace Sys2Proof.Machine

/-! ### X: registers (R1009) -/

namespace X
abbrev dctl : Nat := 0x0004
abbrev dstat : Nat := 0x0005
abbrev hpol : Nat := 0x0006
abbrev step : Nat := 0x0011
abbrev hstart : Nat := 0x0013
abbrev rsel : Nat := 0x0020
abbrev cadrl : Nat := 0x0030
abbrev cadrh : Nat := 0x0031
abbrev cdat : Nat := 0x0032
/-- Register `o` of comparator `c`: CCTL, CSEL, LOL, LOH, HIL, HIH, VAL, VMASK, CNT at 0 to 8. -/
abbrev cmp (c o : Nat) : Nat := 0x0100 + 0x10 * c + o
abbrev trctl : Nat := 0x0300
abbrev trdiv : Nat := 0x0301
abbrev trstm : Nat := 0x0302
abbrev trstat : Nat := 0x0303
abbrev lstat : Nat := 0x0401
abbrev chal (w : Nat) : Nat := 0x0408 + w
abbrev resp (w : Nat) : Nat := 0x0410 + w
abbrev otpst : Nat := 0x0501
abbrev otpdata (w : Nat) : Nat := 0x0508 + w
end X

/-- The POR value of an X: register: HPOL 0001h, TRDIV 0008h, else 0. -/
def xReset (a : Nat) : Word := if a = X.hpol then 1 else if a = X.trdiv then 8 else 0

def xreg (s : State) (a : Nat) : Word := cget xReset s.xregs a
def setXreg (a : Nat) (v : Word) (s : State) : State := { s with xregs := cset xReset s.xregs a v }
def xregBit (s : State) (a i : Nat) : Bool := (xreg s a).getLsbD i
def setXregF (a lo len v : Nat) (s : State) : State := setXreg a (putFld (xreg s a) lo len v) s

/-! ### Trace -/

/-- A number as `n` bytes, low byte first. -/
def bytesLE : Nat → Nat → List Byte
  | 0, _ => []
  | n + 1, v => BitVec.ofNat 8 v :: bytesLE n (v / 256)

/-- Ticks of one byte on TRACE: ten bits of TRDIV ticks, TRDIV below 2 taken as 2 (R1032, R1044). -/
def traceByteTicks (s : State) : Nat := 10 * max 2 (fld (xreg s X.trdiv) 0 8) * clkTicks s

/-- The bytes of a FIFO sent by tick `now`, each `per` ticks, the first ending at `e`. -/
def traceSent (now per : Nat) : List Byte → Nat → List Byte × Nat
  | [], e => ([], e)
  | b :: t, e => if e ≤ now then traceSent now per t (e + per) else (b :: t, e)

/-- The FIFO with the bytes sent by now gone; nothing is sent while EN is 0 (R1032). -/
def traceDrain (s : State) : State :=
  if xregBit s X.trctl 15 then
    let r := traceSent s.now (traceByteTicks s) s.trace.fifo s.trace.sendEnd
    { s with trace := { s.trace with fifo := r.1, sendEnd := r.2 } }
  else s

/-- A packet takes its SEQ and enters the FIFO, or is dropped whole and counted; a dropped STAMP also counts in
DBG.STSTAT.LOST and signals source 59 (R1035). -/
def tracePut (hdr : Nat) (body : List Byte) (stamp : Bool) (s : State) : State :=
  let t := s.trace
  let s := { s with trace := { t with seq := (t.seq + 1) % 256, since := t.since + 1 } }
  if t.fifo.length + body.length + 2 ≤ 64 then
    let start := if t.fifo.isEmpty then s.now + traceByteTicks s else t.sendEnd
    { s with trace := { s.trace with
        fifo := t.fifo ++ BitVec.ofNat 8 hdr :: BitVec.ofNat 8 t.seq :: body, sendEnd := start } }
  else
    let s := { s with trace := { s.trace with lost := min 255 (t.lost + 1) } }
    let s := setXregF X.trstat 8 8 (min 255 (fld (xreg s X.trstat) 8 8 + 1)) s
    if stamp then signal 59 (hwCount Reg.dbg_STSTAT s) else s

/-- A TIME packet (R1034). -/
def traceTime (s : State) : State :=
  let s := tracePut 0x80 (bytesLE 6 (postmark s).toNat) false s
  { s with trace := { s.trace with hi := some ((postmark s).toNat / 65536) } }

/-- SYNC and then TIME (R1034). -/
def traceSync (s : State) : State :=
  let s := tracePut 0xF0 [0xA5, 0x5A, 0xA5, 0x5A] false s
  traceTime { s with trace := { s.trace with since := 0 } }

/-- A packet is generated: a LOST packet first where one is owed and fits, SYNC and TIME after every 256 packets, TIME where
Postmark bits 47-16 changed (R1033-R1035). -/
def traceEmit (hdr : Nat) (body : List Byte) (stamp : Bool) (s : State) : State :=
  let s := traceDrain s
  let s :=
    if s.trace.lost ≠ 0 ∧ s.trace.fifo.length + 3 ≤ 64 then
      let n := s.trace.lost
      tracePut 0x90 [BitVec.ofNat 8 n] false { s with trace := { s.trace with lost := 0 } }
    else s
  let s := if 256 ≤ s.trace.since then traceSync s else s
  let s := if s.trace.hi = some ((postmark s).toNat / 65536) then s else traceTime s
  tracePut hdr body stamp s

/-- The events of TRCTL bit `i` are traced (R1033). -/
def traces (s : State) (i : Nat) : Bool := xregBit s X.trctl 15 && xregBit s X.trctl i

/-- TS of R1033. -/
def tsBytes (s : State) : List Byte := bytesLE 2 s.now

def traceExc (t num epc : Nat) (s : State) : State :=
  if traces s 4 then traceEmit (0x20 + num) (BitVec.ofNat 8 t :: bytesLE 3 epc ++ tsBytes s) false s else s

def traceComp (c t addr : Nat) (s : State) : State :=
  if traces s 3 then traceEmit (0x30 + c) (BitVec.ofNat 8 t :: bytesLE 3 addr ++ tsBytes s) false s else s

def traceHalt (t cause pc : Nat) (s : State) : State :=
  if traces s 2 then traceEmit (0x40 + t) (BitVec.ofNat 8 cause :: bytesLE 3 pc ++ tsBytes s) false s else s

/-- A FAULT packet for a history entry with word 3 `w3`. -/
def traceFault (cls : Nat) (w3 detail : Word) (s : State) : State :=
  if traces s 1 then
    traceEmit (0x50 + cls) (BitVec.ofNat 8 (fld w3 7 5) :: bytesLE 2 detail.toNat ++ tsBytes s) false s
  else s

def traceMode (code : Nat) (s : State) : State :=
  if traces s 0 then traceEmit (0x60 + code) (tsBytes s) false s else s

/-- A write to DBG.STAMPp by a thread, or EVIO code 5h (R1031). -/
def stampWrite (t : Fin 8) (p : Nat) (v : Word) (s : State) : State :=
  if traces s 5 && xregBit s X.trstm p then
    traceEmit (0x10 + p) (BitVec.ofNat 8 t.val :: bytesLE 2 v.toNat ++ tsBytes s) true s
  else s

/-- TRCTL written: SYNC and TIME when EN goes to 1 (R1034). -/
def trctlWrite (v : Word) (s : State) : State :=
  let was := xregBit s X.trctl 15
  let s := setXreg X.trctl (v &&& 0x803F) (traceDrain s)
  if !was && v.getLsbD 15 then
    traceSync { s with trace := { s.trace with sendEnd := s.now + traceByteTicks s } }
  else s

end Sys2Proof.Machine
end

