-- ==== Sys2Proof/Machine/Mem.lean ====
section
/-!
DEFINITION. The data space below the registers: what is mapped, the region registers, refusals, the scratchpad with its
parity, same-word writes, and the store buffer (spec/11_scratchpad_masters_courier.md, R484-R509).
-/

namespace Sys2Proof.Machine

/-! ### Masters, map and regions -/

/-- The master number of R488; Waili uses the debug master's port (R824). -/
def masterNo : Master → Nat
  | .thread _ => 0
  | .tile => 1
  | .courier _ => 2
  | .loop => 3
  | .debug => 4
  | .waili => 4

/-- The UNIT field of MEMC.PERR and MEMC.VIOL. -/
def masterUnit : Master → Nat
  | .thread t => t.val
  | .courier c => c.val
  | _ => 0

def isSpad (a : Nat) : Bool := decide (a < 0x18000)
def isPeriph (a : Nat) : Bool := 0x40000 ≤ a && a < 0x45C00
def isEvtWord (a : Nat) : Bool := 0x50000 ≤ a && a < 0x50800

/-- The mapped addresses (R484, R486). -/
def isMapped (a : Nat) : Bool := isSpad a || isPeriph a || isEvtWord a

/-- The Armature working copy (R484). -/
def isWorking (a : Nat) : Bool := 0x16000 ≤ a && a < 0x17000

/-- Region `r` of master `m` permits the access (R495). -/
def regionOk (s : State) (m : Master) (r a w : Nat) (wr : Bool) : Bool :=
  let ra := reg32 s (0x41500 + 0x20 * masterNo m + 4 * r)
  let rb := reg32 s (0x41502 + 0x20 * masterNo m + 4 * r)
  let mine := match m with
    | .thread t => ra.getLsbD (20 + t.val)
    | _ => true
  ra.getLsbD 31 && decide (fld ra 0 20 ≤ a) && decide (a + w - 1 ≤ fld rb 0 20) &&
    (if wr then ra.getLsbD 29 else ra.getLsbD 30) && mine

def regionsPermit (s : State) (m : Master) (a w : Nat) (wr : Bool) : Bool :=
  (List.range 8).any (fun r => regionOk s m r a w wr)

/-- The checks of R498, in their order. -/
inductive Why where
  | unmapped | odd | region | working
deriving DecidableEq, Repr

def whyCode : Why → Nat
  | .unmapped => 0
  | .odd => 1
  | .region => 2
  | .working => 3

/-- ARMSTAT.CBUSY (R182). -/
def commitBusy (s : State) : Bool := regBit s Reg.sys_ARMSTAT 11

/-- The check an access of `w` words at `a` fails, if any (R498). -/
def refusal (s : State) (m : Master) (a w : Nat) (wr : Bool) : Option Why :=
  if !(List.range w).all (fun i => isMapped (a + i)) then some .unmapped
  else if w = 2 ∧ a % 2 = 1 then some .odd
  else if !regionsPermit s m a w wr then some .region
  else if wr && (List.range w).any (fun i => isWorking (a + i)) && (!inSetup s || commitBusy s) then some .working
  else none

/-- A refusal of a master other than the sequencer is recorded in MEMC.VIOL and signals source 61 (R498, R539). -/
def recordViol (m : Master) (a : Nat) (wr : Bool) (why : Why) (s : State) : State :=
  match m with
  | .thread _ => s
  | _ =>
    let v := 2 ^ 31 + masterNo m * 2 ^ 28 + masterUnit m * 2 ^ 25 + wr.toNat * 2 ^ 24 + whyCode why * 2 ^ 22 + a % 2 ^ 20
    signal 61 (hwSet (Reg.memc_VIOL + 1) 0x8000 (setReg32 Reg.memc_VIOL (BitVec.ofNat 32 v) s))

/-! ### The scratchpad (R485-R488, R494, R501) -/

def spadGet (s : State) (a : Nat) : Word := cget spadDefault s.mem.spad a

/-- The word as the block writes it, parity set (R487). -/
def spadPut (a : Nat) (v : Word) (s : State) : State :=
  { s with mem := { s.mem with
      spad := cset spadDefault s.mem.spad a v
      parBad := s.mem.parBad.filter (· != a) } }

/-- `vs` written from `a` on. -/
def spadPuts (a : Nat) : List Word → State → State
  | [], s => s
  | v :: t, s => spadPuts (a + 1) t (spadPut a v s)

/-- Words `a` to `a + n - 1`. -/
def spadWords (s : State) (a n : Nat) : List Word := cread spadDefault s.mem.spad a n

/-- Who a read is made for: its master code of R488 (5 for the Kernel port), its unit number, and what a MEMORY fault
names (R947). -/
structure Reader where
  mst : Nat
  unit : Nat
  names : Option FUnit

def readerOf : Master → Reader
  | .thread t => ⟨0, t.val, some (.bit ⟨16 + t.val, by omega⟩)⟩
  | .courier c => ⟨2, c.val, some (.bit ⟨40 + c.val, by omega⟩)⟩
  | m => ⟨masterNo m, 0, none⟩

def kernReader (k : Fin 8) : Reader := ⟨5, k.val, some (.bit ⟨24 + k.val, by omega⟩)⟩

def parityBad (s : State) (a : Nat) : Bool := s.mem.parBad.contains a

/-- A parity error at `a` is detected (R488). -/
def parityError (r : Reader) (a : Nat) (s : State) : State :=
  let s := setReg32 Reg.memc_PERR (BitVec.ofNat 32 (2 ^ 31 + r.mst * 2 ^ 28 + r.unit * 2 ^ 25 + a)) s
  let s := hwSet (Reg.memc_PERR + 1) 0x8000 s
  raise { cls := clsMemory, detail := wd (r.mst * 0x2000 + r.unit * 0x400 + a / 0x4000), unit := r.names }
    (hwCount Reg.memc_PCNT s)

/-- The writes of this tick. -/
def wLogNow (s : State) : List (Nat × Nat × Word) := if s.mem.wTick = s.now then s.mem.wLog else []

/-- What a read by master `m` returns: a word written in this tick by another master reads as before it (R494). -/
def spadSeen (s : State) (m : Nat) (a : Nat) : Word :=
  match (wLogNow s).find? (fun e => e.2.1 == a && e.1 != m) with
  | some e => e.2.2
  | none => spadGet s a

/-- The write of `vs` at `a` loses to the write of an earlier master in the same tick (R501). -/
def collides (s : State) (m : Nat) (a n : Nat) : Bool :=
  (wLogNow s).any (fun e => decide (e.1 < m) && decide (a ≤ e.2.1 ∧ e.2.1 < a + n))

/-- A write of master `m`, recorded for this tick; a write to the working copy sets ARMSTAT.WCDIRTY (R178). -/
def spadWriteBy (m : Nat) (a : Nat) (vs : List Word) (s : State) : State :=
  let s := if (List.range vs.length).any (fun i => isWorking (a + i)) then setRegBit Reg.sys_ARMSTAT 12 true s else s
  let log := (List.range vs.length).map (fun i => (m, a + i, spadGet s (a + i)))
  let s := { s with mem := { s.mem with wTick := s.now, wLog := wLogNow s ++ log } }
  spadPuts a vs s

/-- A write of a master that R501 may discard: whether it stood, and the state; COLLm counts a discarded one. -/
def spadWrite (m : Master) (a : Nat) (vs : List Word) (s : State) : Bool × State :=
  let k := masterNo m
  if collides s k a vs.length then (false, hwCount (Reg.memc_COLL k) s) else (true, spadWriteBy k a vs s)

/-- A read of `n` scratchpad words by a reader: the words, or none on the first parity error, which is recorded. -/
def spadRead (r : Reader) (a : Nat) : Nat → State → Option (List Word) × State
  | 0, s => (some [], s)
  | n + 1, s =>
    if parityBad s a then (none, parityError r a s)
    else
      let v := spadSeen s r.mst a
      match spadRead r (a + 1) n s with
      | (some vs, s') => (some (v :: vs), s')
      | (none, s') => (none, s')

/-! ### The store buffer (R503-R506) -/

def sbWords (e : SbEntry) : Nat := if e.pair then 2 else 1

/-- Entry `e` overlaps the words `a` to `a + w - 1`. -/
def sbOverlaps (e : SbEntry) (a w : Nat) : Bool := decide (e.addr < a + w ∧ a < e.addr + sbWords e)

/-- What the buffer says to a load (R505, R506): hold (and whether SBHOLD counts it), forward, or go to memory. -/
inductive SbAnswer where
  | hold (counts : Bool)
  | forward (v : Pair)
  | memory
deriving DecidableEq, Repr

/-- A load of `w` words at `a` by thread `t` against the buffer. -/
def sbAsk (s : State) (t : Fin 8) (a w : Nat) (sealed : Bool) : SbAnswer :=
  let mine := s.mem.sbuf.any (fun e => e.thread == t)
  let hits := s.mem.sbuf.filter (fun e => sbOverlaps e a w)
  if (!isSpad a || sealed) && mine then .hold false
  else if sealed && !hits.isEmpty then .hold false
  else
    match hits.getLast? with
    | none => .memory
    | some e => if e.addr = a ∧ sbWords e = w then .forward e.data else .hold true

/-- A store enters the buffer. -/
def sbPush (t : Fin 8) (a w : Nat) (v : Pair) (s : State) : State :=
  { s with mem := { s.mem with sbuf := s.mem.sbuf ++ [{ addr := a, pair := w == 2, data := v, thread := t }] } }

def sbFull (s : State) : Bool := decide (4 ≤ s.mem.sbuf.length)

/-- Thread `t` has a store in the buffer. -/
def sbHas (s : State) (t : Fin 8) : Bool := s.mem.sbuf.any (fun e => e.thread == t)

/-! ### The working copy -/

/-- Word `i` of the working copy. -/
def wcWord (s : State) (i : Nat) : Word := spadGet s (0x16000 + i)

end Sys2Proof.Machine
end

