-- ==== Sys2Proof/Machine/Thr.lean ====
section
/-!
DEFINITION. The threads: states, events, seals, starts and stops, exception entry and the issue wheel
(spec/06_threads_waits_seals.md; spec/07_programming_model.md, R279-R282, R322-R329).
-/

namespace Sys2Proof.Machine

/-! ### Access -/

def thread (s : State) (t : Fin 8) : Thread := s.thr.th[t]

def setThread (t : Fin 8) (f : Thread → Thread) (s : State) : State :=
  { s with thr := { s.thr with th := s.thr.th.set t (f s.thr.th[t]) } }

/-- The state THR.STATE reports: a started thread reads STOPPED until its first instruction (R234). -/
def shownState (h : Thread) : RunState := if h.st == .ready && !h.begun then .stopped else h.st

def stateCode : RunState → Nat
  | .stopped => 0
  | .ready => 1
  | .waiting => 2
  | .halted => 3

def isStopped (s : State) (t : Fin 8) : Bool := shownState (thread s t) == .stopped

/-- The event latch with bit 8 at its level (R243). -/
def latchOf (s : State) (t : Fin 8) : Word := putBit (thread s t).latch 8 (irqLine s t)

/-! ### PSW and ESTAT fields -/

abbrev pC : Nat := 0
abbrev pV : Nat := 1
abbrev pZ : Nat := 2
abbrev pN : Nat := 3
abbrev pS : Nat := 4
abbrev pDLY : Nat := 5
abbrev pMCP : Nat := 6
abbrev pDISC : Nat := 7
abbrev pIE : Nat := 10
abbrev pSYS : Nat := 11

def ldep (h : Thread) : Nat := fld h.psw 8 2
def setLdep (d : Nat) (h : Thread) : Thread := { h with psw := putFld h.psw 8 2 d }
def inException (h : Thread) : Bool := h.estat.getLsbD 15

/-! ### Events (R243-R249) -/

/-- An event sets bit `b` of the latch, and is discarded while the thread is STOPPED (R248). -/
def setEvent (t : Fin 8) (b : Nat) (s : State) : State :=
  if isStopped s t then s else setThread t (fun h => { h with latch := putBit h.latch b true }) s

/-- A WAKE action: bit 9 and THR.WBITSn (R243). -/
def wakeAction (t : Fin 8) (ebit : Nat) (s : State) : State :=
  if isStopped s t then s else hwSet (Reg.thr_WBITS t) (wd (2 ^ ebit)) (setEvent t 9 s)

/-- A thread number of a field, as an index. -/
def thrIdx (n : Nat) : Fin 8 := ⟨n % 8, by omega⟩

/-! ### Abort outcomes (R971) -/

/-- Where a requester's outcome is written: ABRSLT of thread 0-7, or ABRSLTX (8). -/
def writeResultReg (r kind res idx : Nat) (s : State) : State :=
  setReg (0x44820 + r) (wd (kind * 0x1000 + res * 0x200 + idx)) s

/-- The abort of target (kind, idx) reaches its outcome ABORTED (R971). -/
def abortDone (kind idx : Nat) (s : State) : State :=
  let mine := s.fcol.aborts.filter (fun a => a.kind == kind && a.idx == idx)
  let s := { s with fcol := { s.fcol with aborts := s.fcol.aborts.filter (fun a => !(a.kind == kind && a.idx == idx)) } }
  mine.foldl (fun s a => a.reqs.foldl (fun s r =>
    let s := writeResultReg r kind 3 idx s
    if r < 8 then setEvent (thrIdx r) 15 s else s) s) s

/-! ### Seals (R254-R259) -/

/-- The seal wanted by a thread that waits in SEAL. -/
def waitsFor (s : State) (u : Fin 8) (n : Fin 32) : Bool :=
  let h := thread s u
  (h.st == .waiting || (h.st == .halted && h.kept == .waiting)) && h.wkind == .seal && s.thr.want[u] == some n

/-- A seal is released: the first waiting thread after the releaser receives it, or it becomes free (R258). -/
def releaseSeal (n : Fin 32) (by_ : Fin 8) (s : State) : State :=
  match (List.range 8).find? (fun k => waitsFor s (thrIdx (by_.val + 1 + k)) n) with
  | some k =>
    let u := thrIdx (by_.val + 1 + k)
    let s := { s with thr := { s.thr with owner := s.thr.owner.set n (some u), want := s.thr.want.set u none } }
    setEvent u 12 s
  | none => { s with thr := { s.thr with owner := s.thr.owner.set n none } }

def ownsSeal (s : State) (t : Fin 8) (n : Nat) : Bool :=
  if h : n < 32 then s.thr.owner[n] == some t else false

/-- The owner to wanted walk of R256 finds the requester. -/
def sealWalk (s : State) (t : Fin 8) : Nat → Fin 32 → Bool
  | 0, _ => false
  | k + 1, n =>
    match s.thr.owner[n] with
    | none => false
    | some u =>
      if u = t then true
      else
        match s.thr.want[u] with
        | none => false
        | some n' => sealWalk s t k n'

/-! ### Stops (R235, R262, R263, R1021) -/

/-- The flow of control of a thread forgotten: no wait, slot, shadow, span, load or routine under way. -/
def dropFlow (h : Thread) : Thread :=
  { h with
    mask := 0, wkind := .event, load := [], slot := none, shadow := none, span := 0, starting := none, stopReq := false
    haltReq := none, stepping := false, abortDue := false, breakDue := none, held := none
    inTile := false, micro := none, begun := false }

/-- Thread `t` becomes STOPPED, with the effects of R235; an abort of it ends there (R971). -/
def stopThread (t : Fin 8) (s : State) : State :=
  let s := setThread t (fun h => { dropFlow h with
    st := .stopped, kept := .ready, haltedBy := { cause := 0 }, latch := 0, tmr := none, tmrLeft := none }) s
  let s := { s with thr := { s.thr with want := s.thr.want.set t none } }
  let s := (List.finRange 32).foldl (fun s n => if s.thr.owner[n] == some t then releaseSeal n t s else s) s
  let s := completeHeld t (setReg (Reg.thr_WBITS t) 0 s)
  let s := { s with tile := { s.tile with wait := s.tile.wait.filter (fun q => q.t != t) } }
  abortDone 1 t s

/-- A stop is requested: it acts at once for a thread that waits or is halted or has not begun, and otherwise at the
thread's next boundary; a start in progress is cancelled; TH0 is never stopped (R234-R236, R262, R1021). -/
def requestStop (t : Fin 8) (s : State) : State :=
  if t = 0 then s
  else
    let h := thread s t
    match h.st with
    | .stopped => setThread t (fun h => { h with starting := none }) s
    | .ready => if h.begun then setThread t (fun h => { h with stopReq := true, haltReq := none }) s else stopThread t s
    | .waiting => stopThread t s
    | .halted => stopThread t s

/-! ### Halt requests (R1013, R1020) -/

abbrev causeRequest : Nat := 1
abbrev causeStep : Nat := 2
abbrev causeStart : Nat := 3
abbrev causeBrk : Nat := 4
abbrev causeComp : Nat := 5
abbrev causeXhalt : Nat := 6

/-- A halt of thread `t` is requested; a thread that is STOPPED or HALTED, or about to stop, ignores it, and the first
request stands (R1013, R1036). -/
def requestHalt (c : HaltCause) (t : Fin 8) (s : State) : State :=
  let h := thread s t
  if isStopped s t || h.st == .halted || h.stopReq then s
  else setThread t (fun h => { h with haltReq := some (h.haltReq.getD c) }) s

/-- A halt for a cause other than a request halts every other thread while XHALT is 1 (R1020). -/
def crossHalt (t : Fin 8) (c : HaltCause) (s : State) : State :=
  if xregBit s X.dctl 14 && c.cause != causeRequest then
    (List.finRange 8).foldl (fun s u => if u = t then s else requestHalt { cause := causeXhalt } u s) s
  else s

/-! ### Starts (R279-R282, R1018) -/

/-- The registers a segment descriptor's three words give (R278). -/
def segOfWords (w0 w1 w2 : Word) : Seg :=
  { base := w1.extractLsb' 0 4 ++ w0, limit := w2, en := w1.getLsbD 15, wr := w1.getLsbD 14 }

/-- The state of R280 from the start block, or of R281 where the block is empty. -/
def startState (t : Fin 8) (d0 : Word) (blk : List Word) : Thread :=
  let w (i : Nat) : Word := blk.getD i 0
  let sys := decide (t.val < 2)
  let disc := if blk.isEmpty then true else sys && (w 1).getLsbD 0
  let vbase := w 0 &&& 0x3FF
  { r := ((Vector.replicate 16 0).set 0 d0).set 15 (w 4)
    pc := BitVec.ofNat 17 (vbase.toNat * 128)
    vbase := vbase
    bk := (w 2).setWidth 8
    ctxid := (w 3).setWidth 8
    sg := Vector.ofFn (fun k : Fin 8 => if blk.isEmpty then {} else segOfWords (w (5 + 3 * k)) (w (6 + 3 * k)) (w (7 + 3 * k)))
    psw := wd (sys.toNat * 0x800 + ((w 1).getLsbD 1).toNat * 0x400 + disc.toNat * 0x80)
    startBlk := blk }

/-- The thread takes the state of its start; HSTART halts it before its first instruction (R280, R1018). -/
def beginThread (t : Fin 8) (d0 : Word) (blk : List Word) (s : State) : State :=
  let halt := xregBit s X.hstart t
  let h := startState t d0 blk
  let s := setThread t (fun old => { h with
    st := if halt then .halted else .ready
    haltedBy := if halt then { cause := causeStart } else { cause := 0 }
    begun := halt || blk.isEmpty, latch := old.latch, seqArm := 0 }) s
  if halt then crossHalt t { cause := causeStart } (traceHalt t causeStart h.pc.toNat s) else s

/-! ### Exceptions (R322-R329) -/

/-- The loaded words written (R299, R301). -/
def applyLoads (ls : List (Fin 16 × Word)) (r : Vector Word 16) : Vector Word 16 :=
  ls.foldl (fun r e => r.set e.1 e.2) r

/-- EPC and DLY of an exception at the thread's present instruction: the branch and 1 in a delay slot (R328). -/
def excPoint (h : Thread) : BitVec 17 × Bool :=
  match h.slot with
  | some sl => (sl.pc, true)
  | none => (h.pc, false)

/-- The registers an entry to exception `num` leaves (R322, R323, R328, R329). -/
def entered (num det : Nat) (ea : Option (BitVec 20)) (epc : BitVec 17) (dly : Bool) (h : Thread) : Thread :=
  let epsw := putBit (putBit h.psw pDLY dly) pMCP h.shadow.isSome
  let estat0 := match h.shadow with
    | some sh => putFld (putBit h.estat 13 sh.disc) 11 2 sh.left
    | none => h.estat
  { h with
    r := applyLoads h.load h.r
    load := []
    epc := epc
    epsw := epsw
    ecause := wd (num * 0x1000 + det % 0x1000)
    eaddr := ea.getD h.eaddr
    estat := putBit (putBit estat0 14 (h.estat.getLsbD 15)) 15 true
    psw := putBit (putBit (putBit h.psw pIE false) pMCP false) pDLY dly
    pc := BitVec.ofNat 17 (fld h.vbase 0 10 * 128 + 8 * num)
    slot := none, shadow := none, span := 0, held := none, micro := none, inTile := false, begun := true }

/-- Exception `num` is entered (R323); an EXC packet is generated (R1033). -/
def enterExc (t : Fin 8) (num det : Nat) (ea : Option (BitVec 20)) (epc : BitVec 17) (dly : Bool) (s : State) : State :=
  traceExc t num epc.toNat (setThread t (entered num det ea epc dly) s)

/-- A double exception (R327): TH2-TH7 stop, TH0 and TH1 restart at START with D0 = E000h + the number. -/
def doubleExc (t : Fin 8) (num : Nat) (s : State) : State :=
  let s := raise { cls := clsSequencer, bmin := 2, detail := 2, unit := some (.bit ⟨16 + t.val, by omega⟩) } s
  if 2 ≤ t.val then stopThread t s
  else
    setThread t (fun h =>
      { startState t (wd (0xE000 + num)) h.startBlk with
        st := .ready, begun := true, latch := h.latch, tmr := h.tmr, seqArm := h.seqArm }) s

/-- A synchronous exception of the present instruction (R324, R327, R328). -/
def syncExc (t : Fin 8) (num det : Nat) (ea : Option (BitVec 20)) (s : State) : State :=
  let h := thread s t
  if inException h then doubleExc t num s
  else
    let p := excPoint h
    enterExc t num det ea p.1 p.2 s

/-- The wait of a thread ends with no completion: no event bit consumed, the wanted seal cleared, a granted seal kept and
its latch bit 12 cleared (R252, R332). -/
def cancelWait (t : Fin 8) (s : State) : State :=
  let h := thread s t
  if h.st == .waiting then
    let inSeal := h.wkind == .seal
    let s := setThread t (fun h => { h with
      st := .ready, mask := 0, wkind := .event, latch := if inSeal then putBit h.latch 12 false else h.latch }) s
    if inSeal then { s with thr := { s.thr with want := s.thr.want.set t none } } else s
  else s

/-! ### The issue wheel (R238-R241, R264, R265) -/

/-- The owner of slot `k` in four wheel words. -/
def slotOwner (w : Nat → Word) (k : Nat) : Option (Fin 8) :=
  let f := fld (w (k / 4)) (4 * (k % 4)) 4
  if 8 ≤ f then some (thrIdx f) else none

/-- The state of the wheel while it runs. -/
structure WheelRun where
  slot : Nat
  donee : Fin 8
  issued : Option (Fin 8)
  credit : Vector Nat 8
  switched : Bool
  ticks : Nat

/-- The thread that issues in a slot, and DONEE after it (R238, R239). -/
def issueOf (rdy : Fin 8 → Bool) (own : Option (Fin 8)) (w : WheelRun) : Option (Fin 8) × Fin 8 :=
  let ok (u : Fin 8) : Bool := rdy u && w.issued != some u
  let donate : Option (Fin 8) × Fin 8 :=
    match (List.range 8).find? (fun k => ok (thrIdx (w.donee.val + 1 + k))) with
    | some k => (some (thrIdx (w.donee.val + 1 + k)), thrIdx (w.donee.val + 1 + k))
    | none => (none, w.donee)
  match own with
  | some o => if ok o then (some o, w.donee) else donate
  | none => donate

/-- The wheel runs, CLK period by CLK period, until `t` has issued `need` microwords; the microwords of other threads are
credited to their next instruction (log entry 5). A pending commit switches the wheel at slot 0. -/
def wheelLoop (rdy : Fin 8 → Bool) (act_ sh : Nat → Word) (pend : Bool) (t : Fin 8) :
    Nat → Nat → WheelRun → WheelRun
  | 0, _, w => w
  | _, 0, w => w
  | fuel + 1, need + 1, w =>
    let slot := (w.slot + 1) % 16
    let sw := w.switched || (pend && slot == 0)
    let own := slotOwner (if sw then sh else act_) slot
    let r := issueOf rdy own w
    let credit := match r.1 with
      | some u => if u = t then w.credit else w.credit.set u (min 16 (w.credit[u] + 1))
      | none => w.credit
    let w' : WheelRun := { slot := slot, donee := r.2, issued := r.1, credit := credit, switched := sw, ticks := w.ticks + 1 }
    wheelLoop rdy act_ sh pend t fuel (if r.1 = some t then need else need + 1) w'

/-- The slot of the current tick. -/
def slotNow (s : State) : Nat := (s.thr.slot + (s.now - s.thr.slotTick) / clkTicks s) % 16

/-- The shadow wheel becomes the active one (R241). -/
def applyWheel (s : State) : State :=
  let s := (List.finRange 4).foldl (fun s w => setReg ((Reg.thr_WHEEL0 + w.val)) s.thr.shadow[w] s) s
  { s with thr := { s.thr with wpend := false } }

/-- The wheel serves an instruction of `c` microwords of thread `t`: time passes to the tick of the last of them. -/
def serve (t : Fin 8) (c : Nat) (s : State) : State :=
  let need := max 1 (c - s.thr.credit[t])
  let stale := decide (s.thr.slotTick + clkTicks s ≤ s.now)
  let w0 : WheelRun :=
    { slot := slotNow s, donee := s.thr.donee, issued := if stale then none else s.thr.issued
      credit := s.thr.credit.set t 0, switched := false, ticks := 0 }
  let w := wheelLoop (fun u => (thread s u).st == .ready) (fun i => reg s (Reg.thr_WHEEL0 + i))
    (fun i => if h : i < 4 then s.thr.shadow[i] else 0) s.thr.wpend t (32 * need) need w0
  let s' := elapse (w.ticks * clkTicks s) s
  let s' := { s' with thr := { s'.thr with
    slot := w.slot, slotTick := s'.now, donee := w.donee, issued := w.issued, credit := w.credit } }
  if w.switched then applyWheel s' else s'

end Sys2Proof.Machine
end

