-- ==== Sys2Proof/Machine/Adc.lean ====
section
/-!
DEFINITION. The Measurement Unit (spec/15_measurement.md, R668-R709).
-/

namespace Sys2Proof.Machine

/-! ### Freeze (R1022) -/

/-- The freeze condition holds. -/
def freezing (s : State) : Bool :=
  let halted := (List.finRange 8).any (fun t => (thread s t).st == .halted)
  if xregBit s X.dctl 13 then
    halted && (List.finRange 8).all (fun t => (thread s t).st == .halted || shownState (thread s t) == .stopped)
  else halted

/-- Block `i` of R1022 is frozen. -/
def frozenBlock (s : State) (i : Nat) : Bool := freezing s && xregBit s X.hpol i

def setConv (k : Fin 2) (f : Conv → Conv) (s : State) : State :=
  { s with adc := { s.adc with conv := s.adc.conv.set k (f s.adc.conv[k]) } }

def setKnock (n : Fin 2) (w : Option KnockWin) (s : State) : State :=
  { s with adc := { s.adc with knock := s.adc.knock.set n w } }

def setIon (n : Fin 4) (e : Option IonEval) (s : State) : State :=
  { s with adc := { s.adc with ion := s.adc.ion.set n e } }

/-- The converter is fenced (or lifted and not yet back in service). -/
def adcOut (s : State) (k : Fin 2) : Bool := outOfService s (fbAdc k)

def otherConv (k : Fin 2) : Fin 2 := if k = 0 then 1 else 0

/-- The converter that serves the requests addressed to `k`: none while both are fenced or the unit is frozen
(R696, R698, R1022). -/
def servedBy (s : State) (k : Fin 2) : Option (Fin 2) :=
  if frozenBlock s 3 then none else if !adcOut s k then some k else if !adcOut s (otherConv k) then some (otherConv k) else none

/-- Ticks of one conversion (R670, R700). -/
def convTicks (s : State) : Nat := 80 * clkTicks s

/-! ### Results -/

/-- A result of channel `c` by converter `k` (R671, R672). -/
def writeResult (k : Fin 2) (c : Nat) (code : Nat) (s : State) : State :=
  let a := Reg.adc_RES c
  let loses := decide (k = 1 ∧ s.adc.adc0Tick = s.now) && s.adc.adc0Chans.getLsbD c
  let ovfA := Reg.adc_OVRF + c / 16
  let bump (s : State) : State :=
    let s := hwSet ovfA (wd (2 ^ (c % 16))) s
    if regBit s (Reg.adc_OVREN + c / 16) (c % 16) then signal 18 s else s
  if loses then bump s
  else
    let was := regBit s a 15
    let s := hwWrite a (wd (k.val * 0x4000 + min code 16383)) s
    let s := hwSet a 0x8000 s
    let s :=
      if k = 0 then
        { s with adc := { s.adc with
          adc0Chans := putBit (if s.adc.adc0Tick = s.now then s.adc.adc0Chans else 0) c true, adc0Tick := s.now } }
      else s
    if was then bump s else s

/-! ### Triggers (R679-R681) -/

/-- An ADC_TRIG of an entry: its mask under R668 (R630, R679, R698). -/
def adcTrigger (k : Fin 2) (list : Bool) (param : Word) (s : State) : State :=
  let m : BitVec 24 := if list then BitVec.ofNat 24 (param.toNat % 256 * 2 ^ 16) else BitVec.ofNat 24 param.toNat
  let q := s.adc.conv[k].angleQ
  if (servedBy s k).isNone || decide (4 ≤ q.length) then hwCountF Reg.adc_DROP 8 8 1 s
  else setConv k (fun c => { c with angleQ := q ++ [{ mask := m, trig := s.now }] }) s

def timeTriggerDue (s : State) (k : Fin 2) : Nat := s.adc.conv[k].timeDue

/-- A TPERk time trigger; under remapping the period doubles (R680, R696, R698). -/
def timeTrigger (k : Fin 2) (s : State) : State :=
  let per := (reg s (Reg.adc_TPER k)).toNat * usTicks * (if adcOut s k then 2 else 1)
  if per = 0 then s
  else
    let s := setConv k (fun c => { c with timeDue := s.now + per }) s
    let mask := BitVec.ofNat 24 (reg32 s (Reg.adc_TSEQ k)).toNat
    if (servedBy s k).isNone || s.adc.conv[k].timeQ.isSome then hwCountF Reg.adc_DROP 0 8 1 s
    else if mask = 0 then s
    else setConv k (fun c => { c with timeQ := some { mask := mask, trig := s.now } }) s

/-- SWSEQk written with a mask (R681, R682, R698). -/
def swseqWrite (m : Master) (k : Fin 2) (mask : BitVec 24) (s : State) : State :=
  if !threadOrHost m || mask == 0 || s.adc.conv[k].swQ.isSome || (servedBy s k).isNone then s
  else setConv k (fun c => { c with swQ := some { mask := mask, trig := s.now } }) s

/-! ### Knock windows (R683-R687) -/

def knockPeriod (s : State) (n : Fin 2) : Nat :=
  match regF s (Reg.adc_KCFG n) 11 2 with
  | 0 => 1600
  | 1 => 800
  | _ => 400

/-- A KNOCK_WIN entry opens a window of input `n`, or is counted in KDROP (R683, R696). -/
def knockOpen (n : Fin 2) (s : State) : State :=
  let c := servedBy s n
  let other := s.adc.knock[otherConv n]
  let clash := match c, other with
    | some k, some w => k ≠ n && w.conv == k
    | _, _ => false
  match c with
  | none => hwCountF (Reg.adc_DROP + 1) 8 8 1 s
  | some k =>
    if s.adc.knock[n].isSome || onBackup s || clash then hwCountF (Reg.adc_DROP + 1) 8 8 1 s
    else
      let b := decide (k ≠ n)
      let bank := if b then Reg.adc_KCOEF1 else Reg.adc_KCOEF0
      setKnock n (some {
        t0 := s.now, conv := k, period := knockPeriod s n * (if b then 2 else 1)
        taps := min 32 (max 1 (regF s (Reg.adc_KCFG n) 0 6)), bankB := b
        coef := (List.range 32).map (fun i => reg s (bank i)) }) s

/-- The window of input `n` closes at its closing angle: results and source 19 or 20 (R685, R702). -/
def knockClose (n : Fin 2) (s : State) : State :=
  match s.adc.knock[n] with
  | none => s
  | some w =>
    let a := Reg.adc_KNS n
    let s := setReg32 (Reg.adc_KINT n) (BitVec.ofNat 32 w.ksum) s
    let s := setReg a ((reg s a &&& 0x4000) ||| wd ((if w.n < w.taps then 0x8000 else 0) + w.kn)) s
    signalNat (19 + n.val) (setKnock n none s)

/-- The window of input `n` ends without a result (R686). -/
def knockAbort (n : Fin 2) (s : State) : State :=
  match s.adc.knock[n] with
  | none => s
  | some _ => hwSet (Reg.adc_KNS n) 0x4000 (setKnock n none s)

/-- A conversion of converter `k` completes (SCNTk, R670). -/
def countConv (k : Fin 2) (s : State) : State :=
  setReg32 (Reg.adc_SCNT k) (reg32 s (Reg.adc_SCNT k) + 1) s

/-- The filter output of a window: Σ h[i] x[j − i], rounded, shifted and clamped (R684). -/
def knockFilter (coef xs : List Word) (taps : Nat) : Int :=
  let sum := ((coef.take taps).zip xs).foldl (fun acc p => acc + sgn p.1 * sgn p.2) 0
  clampI (-32768) 32767 ((sum + 16384) / 32768)

def knockDue (s : State) (n : Fin 2) : Nat :=
  match s.adc.knock[n] with
  | some w => w.t0 + w.n * w.period
  | none => s.now

/-- A knock sample of code `x` (signed, −8192 to 8191) is converted, filtered, integrated and pushed (R684, R687). -/
def knockSample (n : Fin 2) (x : Word) (s : State) : State :=
  match s.adc.knock[n] with
  | none => s
  | some w =>
    if frozenBlock s 3 then s
    else
    let x := BitVec.ofInt 16 (clampI (-8192) 8191 (sgn x))
    let xs := (x :: w.xs).take 32
    let y := knockFilter w.coef xs w.taps
    let w' : KnockWin :=
      if w.taps ≤ w.n + 1 then
        { w with xs := xs, n := w.n + 1, ksum := min 0xFFFFFFFF (w.ksum + y.natAbs), kn := min 16383 (w.kn + 1) }
      else { w with xs := xs, n := w.n + 1 }
    let f := s.adc.fifo[n]
    let f' : KFifo := if 64 ≤ f.q.length then { f with ovf := true } else { f with q := f.q ++ [x] }
    let s := countConv w.conv (setKnock n (some w') s)
    { s with adc := { s.adc with fifo := s.adc.fifo.set n f' } }

/-- KFIFOn as it reads: V, OVF and the oldest sample (R687). -/
def kfifoWord (f : KFifo) : Word :=
  match f.q with
  | x :: _ => wd (0x8000 + f.ovf.toNat * 0x4000 + fld x 0 14)
  | [] => wd (f.ovf.toNat * 0x4000)

/-- A popping read of KFIFOn (R687). -/
def kfifoPop (n : Fin 2) (s : State) : Word × State :=
  let f := s.adc.fifo[n]
  (kfifoWord f, { s with adc := { s.adc with fifo := s.adc.fifo.set n { q := f.q.tail, ovf := false } } })

/-! ### Ion sense (R688-R690) -/

/-- An evaluation starts with sample `v0` (R688). -/
def ionStart (n : Fin 4) (owner : Fin 2) (v0 start : Nat) (s : State) : State :=
  let cfg := reg s (Reg.adc_ICFG n)
  let p := max (convTicks s) (80 * (fld cfg 8 4 + 1))
  setIon n (some {
    owner := owner, vs := [v0], len := max 1 (fld cfg 0 8), period := p
    thr := regF s (Reg.adc_ITHR n) 0 14, base := regF s (Reg.adc_IBAS n) 0 14, mis := (reg s (Reg.adc_IMIS n)).toNat
    due := start + p }) s

/-- The first index of the list whose element satisfies `p`. -/
def firstIdx (p : Nat → Bool) (l : List Nat) : Option Nat := l.findIdx? p

/-- The results of an evaluation whose last sample is taken (R689). -/
def ionFinish (n : Fin 4) (e : IonEval) (s : State) : State :=
  let vs := e.vs.reverse
  let sum := vs.foldl (fun a v => a + (v - e.base)) 0
  let peak := vs.foldl max 0
  let misf := decide (sum < e.mis * 256)
  let onset := firstIdx (fun v => decide (e.thr ≤ v)) vs
  let s := setReg32 (Reg.adc_ISUM n) (BitVec.ofNat 32 sum) s
  let s := setReg (Reg.adc_IPK n) (wd (misf.toNat * 0x8000 + onset.isSome.toNat * 0x4000 + peak)) s
  let s := setReg (Reg.adc_IIDX n)
    (wd (onset.getD 0 * 256 + (firstIdx (fun v => decide (v = peak)) vs).getD 0)) s
  let s := if misf then hwCount (Reg.adc_IMCNT n) s else s
  signal 21 (setIon n none s)

/-- A sample of an evaluation ends (R688, R689). -/
def ionSampleEnd (n : Fin 4) (v start : Nat) (s : State) : State :=
  match s.adc.ion[n] with
  | none => s
  | some e =>
    let e := { e with vs := v :: e.vs, due := start + e.period, want := false }
    if e.len ≤ e.vs.length then ionFinish n e s else setIon n (some e) s

def ionDue (s : State) (n : Fin 4) : Nat :=
  match s.adc.ion[n] with
  | some e => e.due
  | none => s.now

/-- A further sample falls due and is requested (R688). -/
def ionSample (n : Fin 4) (s : State) : State :=
  match s.adc.ion[n] with
  | none => s
  | some e => setIon n (some { e with want := true }) s

/-! ### Conversions (R670-R678) -/

/-- The lowest channel of a mask. -/
def lowestChan (m : BitVec 24) : Nat := ((List.range 24).find? (fun i => m.getLsbD i)).getD 0

/-- The converters whose requests converter `k` serves: its own, then a fenced other's (R696). -/
def servesFor (s : State) (k : Fin 2) : List (Fin 2) :=
  ([0, 1] : List (Fin 2)).filter (fun o => servedBy s o == some k)

/-- The angle sequence converter `k` serves next: the earliest trigger, the lower converter on equal ticks; a sequence
begun goes on (R676, R696). -/
def nextAngle (s : State) (k : Fin 2) : Option (Fin 2 × Seq) :=
  (servesFor s k).foldl
    (fun best o =>
      match s.adc.conv[o].angleQ, best with
      | q :: _, none => some (o, q)
      | q :: _, some (_, b) => if q.started && !b.started || (q.started == b.started && decide (q.trig < b.trig)) then some (o, q) else best
      | [], _ => best) none

/-- The ion evaluation with a sample waiting for converter `k`. -/
def nextIon (s : State) (k : Fin 2) : Option (Fin 4 × IonEval) :=
  (List.finRange 4).findSome? (fun n =>
    match s.adc.ion[n] with
    | some e => if e.want && servedBy s e.owner == some k then some (n, e) else none
    | none => none)

/-- The request converter `k` starts next, by class (R674); none while a fence holds but self-test. -/
def nextRequest (s : State) (k : Fin 2) : Option Running :=
  match nextAngle s k with
  | some (o, q) => some { cls := 2, owner := o, chan := lowestChan q.mask, start := s.now }
  | none =>
    match nextIon s k with
    | some (n, e) => some { cls := 3, owner := e.owner, chan := n.val, start := s.now }
    | none =>
      match (servesFor s k).find? (fun o => s.adc.conv[o].timeQ.isSome) with
      | some o => some { cls := 4, owner := o, chan := lowestChan ((s.adc.conv[o].timeQ.map Seq.mask).getD 0), start := s.now }
      | none =>
        match (servesFor s k).find? (fun o => s.adc.conv[o].swQ.isSome) with
        | some o => some { cls := 5, owner := o, chan := lowestChan ((s.adc.conv[o].swQ.map Seq.mask).getD 0), start := s.now }
        | none =>
          match s.adc.conv[k].test with
          | some t => some { cls := 6, owner := k, chan := t.step, start := s.now }
          | none => none

/-- A knock sample of a window on converter `k` falls due before a conversion started now would end (R675). -/
def knockBlocks (s : State) (k : Fin 2) : Bool :=
  (List.finRange 2).any (fun n : Fin 2 =>
    match s.adc.knock[n] with
    | some w => w.conv == k && decide (w.t0 + w.n * w.period < s.now + convTicks s)
    | none => false)

/-- Converter `k`, idle, starts the waiting conversion of the highest class (R674, R675, R679, R693). -/
def conversionStart (k : Fin 2) (s : State) : State :=
  if s.adc.conv[k].run.isSome || knockBlocks s k then s
  else
    match nextRequest s k with
    | none => s
    | some r =>
      let s := setConv k (fun c => { c with run := some r }) s
      if r.cls = 6 then s
      else
        -- a request of any class lets the interrupted self-test step restart
        let s := setConv k (fun c => { c with test := c.test.map (fun t => { t with n := 0, sum := 0 }) }) s
        if r.cls = 2 then
          match s.adc.conv[r.owner].angleQ with
          | q :: t =>
            let s := if q.started then s else setReg32 (Reg.adc_ASTAMP r.owner) (stamp32 s) s
            setConv r.owner (fun c => { c with angleQ := { q with started := true } :: t }) s
          | [] => s
        else s

/-- The expected self-test code of a step (R691). -/
def selfTestCode : Nat → Nat
  | 0 => 512
  | 1 => 8192
  | _ => 15360

/-- A completed self-test round (R692, R694). -/
def roundEnd (k : Fin 2) (t : SelfTest) (s : State) : State :=
  let a := Reg.adc_ST k
  let s := hwCountF a 0 8 1 s
  let again := s.adc.conv[k].failed
  let s := setConv k (fun c => { c with test := none, lastRound := s.now, starved := false, failed := t.failed.isSome }) s
  match t.failed with
  | none => s
  | some st =>
    let s := setRegF a 13 2 st (hwSet a 0x8000 s)
    let s := signal 22 s
    if again then s
    else raise { cls := clsAdc, detail := wd (0x10 * k.val + st), unit := some (.bit ⟨32 + k.val, by omega⟩) } s

/-- A self-test conversion ends; the fourth completes its step (R691, R693, R707). -/
def selfTestEnd (k : Fin 2) (code : Nat) (s : State) : State :=
  match s.adc.conv[k].test with
  | none => s
  | some t =>
    let t := { t with n := t.n + 1, sum := t.sum + code }
    if t.n < 4 then setConv k (fun c => { c with test := some t }) s
    else
      let tol := max 1 (regF s Reg.adc_STCFG 0 8)
      let avg := (t.sum + 2) / 4
      let e := selfTestCode t.step
      let pass := decide (max avg e - min avg e ≤ tol)
      let failed := match t.failed with
        | some x => some x
        | none => if pass then none else some t.step
      if t.step < 2 then
        setConv k (fun c => { c with test := some { step := t.step + 1, n := 0, sum := 0, failed := failed } }) s
      else roundEnd k { t with failed := failed } s

/-- The sequence's channel is converted; the last one ends it and signals source 16 or 17 (R677). -/
def seqDone (o : Fin 2) (bit : Nat) (drop : Conv → Seq → Conv) (q : Seq) (c : Nat) (s : State) : State :=
  let m := putBit q.mask c false
  let s := setConv o (fun v => drop v { q with mask := m }) s
  if m = 0 && regBit s Reg.adc_IRQEN (4 * o.val + bit) then signalNat (16 + o.val) s else s

/-- A conversion of converter `k` ends with `code` (R670, R671, R677, R688, R690). -/
def conversionEnd (k : Fin 2) (code : Nat) (s : State) : State :=
  match s.adc.conv[k].run with
  | none => s
  | some r =>
    let code := min code 16383
    let s := countConv k (setConv k (fun c => { c with run := none }) s)
    match r.cls with
    | 2 =>
      let s := writeResult k r.chan code s
      let s :=
        if h : 16 ≤ r.chan ∧ r.chan < 20 then
          let n : Fin 4 := ⟨r.chan - 16, by omega⟩
          if !regBit s (Reg.adc_ICFG n) 15 then s
          else if s.adc.ion[n].isSome then hwCountF (Reg.adc_DROP + 1) 0 8 1 s
          else
            let s := ionStart n r.owner code r.start s
            match s.adc.ion[n] with
            | some e => if e.len ≤ 1 then ionFinish n e s else s
            | none => s
        else s
      match s.adc.conv[r.owner].angleQ with
      | q :: t => seqDone r.owner 0 (fun v q' => { v with angleQ := if q'.mask = 0 then t else q' :: t }) q r.chan s
      | [] => s
    | 3 => if h : r.chan < 4 then ionSampleEnd ⟨r.chan, h⟩ code r.start s else s
    | 4 =>
      let s := writeResult k r.chan code s
      match s.adc.conv[r.owner].timeQ with
      | some q => seqDone r.owner 1 (fun v q' => { v with timeQ := if q'.mask = 0 then none else some q' }) q r.chan s
      | none => s
    | 5 =>
      let s := writeResult k r.chan code s
      match s.adc.conv[r.owner].swQ with
      | some q => seqDone r.owner 2 (fun v q' => { v with swQ := if q'.mask = 0 then none else some q' }) q r.chan s
      | none => s
    | _ => selfTestEnd k code s

/-- The tick a running conversion ends. -/
def conversionDue (s : State) (k : Fin 2) : Nat :=
  match s.adc.conv[k].run with
  | some r => r.start + convTicks s
  | none => s.now

/-- An idle converter starts a self-test round (R692). -/
def selftestRoundStart (k : Fin 2) (s : State) : State :=
  let per := regF s Reg.adc_STCFG 8 8
  let fenced := adcOut s k
  let idle := s.adc.conv[k].run.isNone && (nextRequest s k).isNone && s.adc.conv[k].test.isNone
  if idle && (fenced || (decide (per ≠ 0) && decide (s.adc.conv[k].testDue ≤ s.now))) then
    setConv k (fun c => { c with test := some {}, testDue := s.now + per * msTicks }) s
  else s

/-- No round completed for 1 s (R695). -/
def selftestStarved (k : Fin 2) (s : State) : State :=
  if adcOut s k || regF s Reg.adc_STCFG 8 8 == 0 || s.adc.conv[k].starved then s
  else note clsAdc (wd (0x20 + k.val)) (setConv k (fun c => { c with starved := true }) s)

def starvedDue (s : State) (k : Fin 2) : Nat := s.adc.conv[k].lastRound + 1000 * msTicks

/-! ### Fences and aborts (R686, R690, R696-R699, R705) -/

/-- What converter `k` itself works on ends: its conversion, the windows it samples, the evaluations it takes. -/
def dropWork (k : Fin 2) (s : State) : State :=
  let s := (List.finRange 2).foldl
    (fun s (n : Fin 2) => if (s.adc.knock[n].map (·.conv)) == some k then knockAbort n s else s) s
  let s := (List.finRange 4).foldl
    (fun s (n : Fin 4) => if (s.adc.ion[n].map (·.owner)) == some k then setIon n none s else s) s
  setConv k (fun c => { c with run := none, test := none }) s

/-- A fence of converter `k` takes effect, before its fence bit is set: remapping starts (R696, R705). -/
def adcFence (k : Fin 2) (s : State) : State := signal 23 (dropWork k s)

/-- An abort of converter `k` (R699). -/
def adcAbort (k : Fin 2) (s : State) : State :=
  let s := dropWork k s
  let s := knockAbort k s
  setConv k (fun c => { c with angleQ := [], timeQ := none, swQ := none }) s

/-- Converter `k` is at rest for an abort (R969). -/
def adcAtRest (s : State) (k : Fin 2) : Bool :=
  let c := s.adc.conv[k]
  (match c.run with
    | some r => r.cls == 6
    | none => true) && c.angleQ.isEmpty && c.timeQ.isNone && c.swQ.isNone &&
    (List.finRange 2).all (fun n : Fin 2 => match s.adc.knock[n] with
      | some w => w.conv != k && n != k
      | none => true) &&
    (List.finRange 4).all (fun n : Fin 4 => match s.adc.ion[n] with
      | some e => e.owner != k
      | none => true)

/-! ### Registers -/

/-- ADC.STAT's byte for converter `k`. -/
def adcStatByte (s : State) (k : Fin 2) : Nat :=
  let c := s.adc.conv[k]
  (c.run.isSome.toNat) * 0x80 + (match c.run with
    | some r => r.cls
    | none => 0) * 0x10 + ((adcOut s k && !adcOut s (otherConv k)).toNat) * 8 + min 4 c.angleQ.length

/-- The value an ADC register shows. -/
def adcPeek (s : State) (a : Nat) : Word :=
  let o := a - 0x42800
  if o = 0x02 then wd (adcStatByte s 1 * 256 + adcStatByte s 0)
  else if h : o = 0x19 ∨ o = 0x1B then
    wd ((s.adc.conv[(o - 0x19) / 2]'(by omega)).swQ.isSome.toNat * 0x8000)
  else if h : 0x4A ≤ o ∧ o < 0x4C then kfifoWord (s.adc.fifo[o - 0x4A]'(by omega))
  else readWord s a

/-- A write to an ADC register (R680-R682); RATE 11b of KCFGn is reserved (R19). -/
def adcWrite (m : Master) (a : Nat) (v : Word) (s : State) : State :=
  let o := a - 0x42800
  if !threadOrHost m then s
  else if h : 0x14 ≤ o ∧ o < 0x16 then
    let k : Fin 2 := ⟨o - 0x14, by omega⟩
    let was := reg s a
    let s := regWriteBits a v s
    if was = 0 then setConv k (fun c => { c with timeDue := s.now + v.toNat * usTicks }) s else s
  else if h : 0x18 ≤ o ∧ o < 0x1C then
    let k : Fin 2 := ⟨(o - 0x18) / 2, by omega⟩
    swseqWrite m k (if o % 2 = 0 then BitVec.ofNat 24 v.toNat else BitVec.ofNat 24 (v.toNat % 256 * 65536)) s
  else if 0x40 ≤ o ∧ o < 0x42 then
    regWriteBits a (if fld v 11 2 = 3 then putFld v 11 2 (regF s a 11 2) else v) s
  else regWriteBits a v s

end Sys2Proof.Machine
end

