-- ==== Sys2Proof/Machine/Evt.lean ====
section
/-!
DEFINITION. The Event Table (spec/14_event_table.md, R628-R667).
-/

namespace Sys2Proof.Machine

/-! ### Entries (R628-R631) -/

def entWord (s : State) (n i : Nat) : Word := cget (fun _ => 0) s.evt.words (4 * n + i)
def setEntWord (n i : Nat) (v : Word) (s : State) : State :=
  { s with evt := { s.evt with words := cset (fun _ => (0 : Word)) s.evt.words (4 * n + i) v } }

def ent (s : State) (n : Nat) : Ent := cget (fun _ => {}) s.evt.ents n
def setEnt (n : Nat) (e : Ent) (s : State) : State :=
  { s with evt := { s.evt with ents := cset (fun _ => ({} : Ent)) s.evt.ents n e } }

def entAngle (s : State) (n : Nat) : Nat := (entWord s n 0).toNat
def entAct (s : State) (n : Nat) : Nat := fld (entWord s n 1) 12 4
def entArg (s : State) (n : Nat) : Nat := fld (entWord s n 1) 0 12
def entParam (s : State) (n : Nat) : Nat := (entWord s n 2).toNat
def entOwn (s : State) (n : Nat) : Nat := fld (entWord s n 3) 12 4
def entCyc (s : State) (n : Nat) : Nat := fld (entWord s n 3) 10 2
def entLv (s : State) (n : Nat) : Bool := (entWord s n 3).getLsbD 9
def entLink (s : State) (n : Nat) : Nat := fld (entWord s n 3) 0 9

/-- The OUT actions 1h-4h, and their target. -/
def isOutAct (a : Nat) : Bool := 1 ≤ a && a ≤ 4
def entTarget (s : State) (n : Nat) : Nat := entArg s n % 64

/-- KPART.COUNT, values above 512 taken as 512. -/
def kpart (s : State) : Nat := min 512 (regF s Reg.evt_KPART 0 10)

/-- ARMED or DUE. -/
def entLive (e : Ent) : Bool := e.st == .armed || e.st == .due

def entCode (e : Ent) : Nat :=
  (match e.st with
    | .free => 0
    | .armed => 1
    | .due => 2
    | .fired => 3
    | .cancelled => 4) + 8 * e.opened.toNat

/-- A target code that exists (R629). -/
def targetOk (t : Nat) : Bool := t < 12 || (0x20 ≤ t && t ≤ 0x30)

/-- The format checks of result 4h (R636), on the four words. -/
def formatOk (s : State) (w0 w1 w2 w3 : Word) : Bool :=
  let act := fld w1 12 4
  let arg := fld w1 0 12
  let par := w2.toNat
  let l := angL s
  let fields :=
    match act with
    | 1 => arg < 64 && targetOk arg && par == 0
    | 2 => arg < 64 && targetOk arg && par == 0
    | 3 => decide (arg / 64 % 4 = 0) && arg < 0x800 && targetOk (arg % 64) && par != 0
    | 4 => arg < 64 && targetOk arg && par != 0 && decide (par < l)
    | 5 => arg < 4 && par != 0 && (arg < 2 || par < 256)
    | 6 => arg < 2 && par != 0 && decide (par < l)
    | 7 => arg < 128 && arg / 8 % 2 == 0 && par == 0
    | 8 => decide (arg < 16)
    | 9 => arg == 0 && decide (par < l) && w3.getLsbD 9
    | _ => false
  fields && fld w3 10 2 != 3 && decide (w0.toNat < l) && (!w3.getLsbD 9 || decide (kpart s ≤ fld w3 0 9))

/-- The OUT action's target stage is fenced (R636, result 5h). -/
def targetFenced (s : State) (n : Nat) : Bool :=
  isOutAct (entAct s n) && decide (entTarget s n < 12) && outOfService s (entTarget s n)

/-! ### Timing (R638-R641) -/

/-- The entry is timed (R638); nothing is timed while the Event Table is frozen (R1022). -/
def timed (s : State) (n : Nat) : Bool :=
  (angSync s || (s.ang.st == .crank && entCyc s n == 2)) && !frozenBlock s 1

def entLap (s : State) (n : Nat) : Nat := if entCyc s n = 2 then revAu else angL s

/-- The target angle of the entry, modulo its lap. -/
def targetAngle (s : State) (n : Nat) (e : Ent) : Nat :=
  (if e.opened then (entAngle s n + entParam s n) % angL s else entAngle s n) % entLap s n

/-- due_tick of R639. -/
def dueTick (s : State) (n : Nat) (e : Ent) : Nat :=
  let lap := entLap s n
  let a := s.ang.tang % lap
  let d := (targetAngle s n e + lap - a) % lap
  let late := decide (s.ang.tk ≤ e.ref) && decide (d ≤ (e.refAng + lap - a) % lap)
  tickOfDist s (if late then d + lap else d)

/-- The entry with its due tick from the latest tooth data (R640, R642). -/
def retimed (s : State) (n : Nat) (e : Ent) : Ent :=
  { e with due := if e.st == .armed && timed s n then some (dueTick s n e) else none }

/-- The entry armed, with REF at this tick (R639). -/
def armEnt (n : Nat) (s : State) : State :=
  setEnt n (retimed s n { (ent s n) with
    st := .armed, ref := s.now, refAng := angleNow s % entLap s n, slips := 0 }) s

/-- REF taken at this tick, for every ARMED entry that `p` selects, and its due tick computed (R638). -/
def refAll (p : Nat → Bool) (s : State) : State :=
  { s with evt := { s.evt with ents := s.evt.ents.map (fun x =>
      if x.2.st == .armed && p x.1 then
        (x.1, retimed s x.1 { x.2 with ref := s.now, refAng := angleNow s % entLap s x.1 })
      else x) } }

/-- The due ticks of every ARMED entry recomputed (R642). -/
def retimeAll (s : State) : State :=
  { s with evt := { s.evt with ents := s.evt.ents.map (fun x => (x.1, retimed s x.1 x.2)) } }

/-! ### Output targets (R646-R648) -/

/-- The Event Table turns target `tgt` on for entry `n`; in SETUP nothing reaches a pin (R215). -/
def targetOn (tgt n : Nat) (s : State) : State :=
  if inSetup s then s
  else
    let s := { s with evt := { s.evt with holds := (tgt, n) :: s.evt.holds.filter (·.1 != tgt) } }
    sendOut tgt true 0 s

/-- It turns the target off. -/
def targetOff (tgt : Nat) (pk : Byte) (s : State) : State :=
  if inSetup s then s
  else
    let s := { s with evt := { s.evt with holds := s.evt.holds.filter (·.1 != tgt) } }
    sendOut tgt false pk s

def endPulse (tgt : Nat) (s : State) : State :=
  { s with evt := { s.evt with pulses := s.evt.pulses.filter (·.1 != tgt) } }

def startPulse (tgt n ticks : Nat) (s : State) : State :=
  let s := endPulse tgt s
  { s with evt := { s.evt with pulses := s.evt.pulses ++ [(tgt, s.now + ticks, n)] } }

/-- A target taken to its safe state at once: a soft turn-off for IGN, off for the other stages and for a GPIO output
(R651, R742). -/
def targetSafe (tgt : Nat) (s : State) : State :=
  let s := endPulse tgt s
  let s := { s with
    evt := { s.evt with holds := s.evt.holds.filter (·.1 != tgt) }
    out := { s.out with queue := s.out.queue.filter (fun c => c.tgt != tgt) } }
  if tgt < 12 then setStage tgt (safeStage s.now tgt) s
  else targetCmd { tick := s.now, tgt := tgt, on := false } s

/-! ### Cancelling (R647, R651, R652) -/

/-- The pulse or window the entry holds ends: its target goes off, its knock window ends without a result (R647, R686). -/
def endHolds (n : Nat) (s : State) : State :=
  let e := ent s n
  let s := s.evt.pulses.foldl (fun s p => if p.2.2 = n then targetOff p.1 0 (endPulse p.1 s) else s) s
  if e.opened then
    if entAct s n = 4 then targetOff (entTarget s n) 0 s
    else if entAct s n = 6 then knockAbort ⟨entArg s n % 2, by omega⟩ s
    else s
  else s

/-- The entry becomes CANCELLED; OPEN clears. -/
def cancelEnt (n : Nat) (s : State) : State :=
  setEnt n { (ent (endHolds n s) n) with st := .cancelled, opened := false, due := none } (endHolds n s)

/-- An aborted entry ends CANCELLED, and any target it holds on is turned off (R652). -/
def abortEnt (n : Nat) (s : State) : State :=
  let s := cancelEnt n s
  (s.evt.holds.filter (fun h => h.2 == n)).foldl (fun s h => targetOff h.1 0 s) s

/-- Every ARMED or DUE entry that `p` selects is cancelled. -/
def cancelWhere (p : Nat → Ent → Bool) (s : State) : State :=
  (s.evt.ents.filter (fun x => entLive x.2 && p x.1 x.2)).foldl (fun s x => cancelEnt x.1 s) s

/-- What the Event Table does when synchronisation is lost, or CRANK is left for HUNT or STOP (R651). -/
def syncCancel (s : State) : State :=
  let hit (x : Nat × Ent) : Bool := entLive x.2 && (isOutAct (entAct s x.1) || (entAct s x.1 == 6 && x.2.opened))
  let xs := s.evt.ents.filter hit
  let s := xs.foldl (fun s x =>
    let s := if entAct s x.1 = 6 then knockAbort ⟨entArg s x.1 % 2, by omega⟩ s else s
    setEnt x.1 { x.2 with st := .cancelled, opened := false, due := none } s) s
  let s := hwCountF Reg.evt_LCAN 0 16 xs.length s
  let s := s.evt.holds.foldl (fun s h => targetSafe h.1 s) s
  let s := { s with evt := { s.evt with pulses := [] } }
  retimeAll (signal 10 s)

/-- Every reset kind frees every entry and clears timers, pulses and windows (R632). -/
def evtCleared (e : Evt) : Evt := { words := e.words }

/-! ### Firing (R643-R650) -/

/-- Entry LINK of entry `n` is armed at angle `ang` (R650). -/
def chainArm (n ang : Nat) (s : State) : State :=
  let k := entLink s n
  let e := ent s k
  let ok := (e.st == .fired || e.st == .cancelled) && entOwn s k == entOwn s n &&
    formatOk s (wd ang) (entWord s k 1) (entWord s k 2) (entWord s k 3) && !targetFenced s k
  if ok then armEnt k (setEntWord k 0 (wd ang) s) else hwCount Reg.evt_CHERR s

/-- The opening or only action of entry `n` (R646). -/
def actionOf (n : Nat) (pk : Byte) (s : State) : State :=
  let tgt := entTarget s n
  match entAct s n with
  | 1 => targetOn tgt n (endPulse tgt s)
  | 2 => targetOff tgt pk (endPulse tgt s)
  | 3 => if inSetup s then s else startPulse tgt n (entParam s n * 2 ^ (entArg s n / 256 % 8)) (targetOn tgt n s)
  | 4 => targetOn tgt n s
  | 5 => adcTrigger ⟨entArg s n % 2, by omega⟩ (entArg s n / 2 % 2 == 1) (entWord s n 2) s
  | 6 => knockOpen ⟨entArg s n % 2, by omega⟩ s
  | 7 => wakeAction (thrIdx (entArg s n / 16)) (entArg s n % 8) s
  | 8 => setReg (Reg.loop_FIELD (entArg s n % 16)) (entWord s n 2) s
  | 9 => chainArm n ((entAngle s n + entParam s n) % angL s) s
  | _ => s

/-- The result of a window the Kernel opened, kept for F2's decision (R762). -/
def kernKnock (n : Nat) (s : State) : State :=
  match s.kern.ents.find? (fun e => e.idx == n && e.what == 3) with
  | none => s
  | some e =>
    let i := entArg s n % 2
    let w := reg s (Reg.adc_KNS i)
    let r : KKnock := { tick := s.now, kint := (reg32 s (Reg.adc_KINT i)).toNat, count := fld w 0 14, short := w.getLsbD 15 }
    if h : e.n < 4 then { s with kern := { s.kern with knock := s.kern.knock.set e.n (some r) } } else s

/-- The closing of entry `n` (R644, R646). -/
def closingOf (n : Nat) (pk : Byte) (s : State) : State :=
  if entAct s n = 4 then targetOff (entTarget s n) pk (endPulse (entTarget s n) s)
  else if entAct s n = 6 then
    (if (s.adc.knock[entArg s n % 2]'(by omega)).isSome then kernKnock n (knockClose ⟨entArg s n % 2, by omega⟩ s) else s)
  else s

/-- Steps 3 and 4 of R645. -/
def afterFiring (n : Nat) (s : State) : State :=
  let s := if entLv s n && entAct s n != 9 then chainArm n (entAngle s (entLink s n)) s else s
  let e := ent s n
  if e.st == .due then
    if entCyc s n = 0 then setEnt n { e with st := .fired, opened := false, due := none } s
    else armEnt n (setEnt n { e with opened := false } s)
  else s

/-- Entry `n` fires (R645): a window that opens stays ARMED with OPEN set. -/
def fireEnt (n : Nat) (pk : Byte) (s : State) : State :=
  let e := ent s n
  if e.opened then afterFiring n (closingOf n pk s)
  else
    let s := actionOf n pk s
    if entAct s n = 4 ∨ entAct s n = 6 then armEnt n (setEnt n { (ent s n) with opened := true } s)
    else afterFiring n s

/-- The slips of the ticks that have ended since each DUE entry fell due (R643, R666). -/
def countSlips (s : State) : State :=
  let owed (e : Ent) : Nat := if e.st == .due then (s.now - e.fell) / clkTicks s - e.slips else 0
  let total := (s.evt.ents.map (fun x => owed x.2)).foldl (· + ·) 0
  let s' := { s with evt := { s.evt with
    ents := s.evt.ents.map (fun x => (x.1, { x.2 with slips := x.2.slips + owed x.2 })) } }
  if total = 0 then s' else signal 9 (hwCountF Reg.evt_SLIPCNT 0 16 total s')

/-- The DUE entry that fires first: earliest due, then lowest index (R643). -/
def firstDue (s : State) : Option Nat :=
  (s.evt.ents.foldl (fun best x =>
    if x.2.st == .due then
      match best with
      | none => some x
      | some b => if x.2.fell < b.2.fell then some x else best
    else best) (none : Option (Nat × Ent))).map (·.1)

/-- The delay of entry `n` recorded at its firing, and the slip-limit fault (R643, R654). -/
def recordDelay (n : Nat) (s : State) : State :=
  let late := s.now - (ent s n).fell
  let s := if reg s Reg.evt_SLIPMAX < wd (min 0xFFFF late) then hwWrite Reg.evt_SLIPMAX (wd (min 0xFFFF late)) s else s
  let lim := regF s Reg.evt_CFG 0 8
  if lim ≠ 0 ∧ lim < late then
    raise { cls := clsEvent, detail := wd (0x1000 + n), unit := if h : n < 512 then some (.entry ⟨n, h⟩) else none } s
  else s

/-- Firings already made in this tick. -/
def firedNow (s : State) : Nat := if s.evt.fireTick = s.now then s.evt.fired else 0

/-- Entry `n`, DUE, fires now. -/
def fireNow (n : Nat) (pk : Byte) (s : State) : State :=
  let k := firedNow s
  fireEnt n pk (recordDelay n { s with evt := { s.evt with fireTick := s.now, fired := k + 1 } })

/-- The first candidate fires; after four firings in a tick it waits for the next CLK period (R643, R645). -/
def entryFire (pk : Byte) (s : State) : State :=
  let s := if 4 ≤ firedNow s then elapse (clkTicks s) s else s
  let s := countSlips s
  match firstDue s with
  | some n => fireNow n pk s
  | none => s

/-- The tick entry `n` is due in. -/
def entryDueTick (s : State) (n : Nat) : Nat := (ent s n).due.getD s.now

/-- Entry `n` falls due (R641). -/
def entryDue (n : Nat) (s : State) : State :=
  let e := ent s n
  if e.st == .armed && e.due.isSome && timed s n then setEnt n { e with st := .due, fell := s.now, due := none } s else s

/-- An open window reaches its closing angle; the closing fires unless four firings came before it (R644). -/
def windowClose (n : Nat) (pk : Byte) (s : State) : State :=
  if (ent s n).opened then
    let s := entryDue n s
    if firedNow s < 4 ∧ firstDue s = some n then fireNow n pk (countSlips s) else s
  else s

/-- The tick the pulse of target `tgt` ends. -/
def pulseDue (s : State) (tgt : Nat) : Nat :=
  match s.evt.pulses.find? (fun p => p.1 == tgt) with
  | some p => p.2.1
  | none => s.now

/-- A pulse ends (R646). -/
def pulseEnd (tgt : Nat) (pk : Byte) (s : State) : State :=
  if s.evt.pulses.any (fun p => p.1 == tgt) then targetOff tgt pk (endPulse tgt s) else s

/-! ### Commands (R633-R637) -/

/-- The RSLT register of an issuer, if it may write EVT.CMD (R634). -/
def issuerReg : Master → Option Nat
  | .thread t => some (0x42408 + t.val)
  | .debug => some 0x42410
  | .waili => some 0x42410
  | _ => none

def evtResult (m : Master) (res idx : Nat) (s : State) : State :=
  match issuerReg m with
  | some a => setReg a (wd (res * 0x1000 + idx)) s
  | none => s

/-- A non-privileged issuer names an entry it does not own. -/
def foreign (s : State) (m : Master) (n : Nat) : Bool :=
  match m with
  | .thread t => !privileged m && entOwn s n != t.val
  | _ => false

/-- The owner number an ALLOC gives. -/
def ownerOf : Master → Nat
  | .thread t => t.val
  | _ => 0

def evtAlloc (m : Master) (s : State) : State :=
  match (List.range 512).find? (fun n => decide (kpart s ≤ n) && (ent s n).st == .free) with
  | none => evtResult m 1 0 (signal 11 s)
  | some n =>
    let s := setEntWord n 3 (wd (ownerOf m * 0x1000)) (setEntWord n 2 0 (setEntWord n 1 0 (setEntWord n 0 0 s)))
    evtResult m 0 n (setEnt n { st := .cancelled } s)

/-- The checks of R636 with results 6h, 2h and 3h. -/
def evtCheck (m : Master) (n : Nat) (inPartOk : Bool) (states : List EntState) (s : State) : Nat :=
  if decide (n < kpart s) && (!inPartOk || !privileged m) then 6
  else if foreign s m n then 2
  else if !states.contains (ent s n).st then 3
  else 0

def evtArm (m : Master) (n : Nat) (s : State) : State :=
  let c := evtCheck m n false [.fired, .cancelled] s
  if c ≠ 0 then evtResult m c n s
  else if !formatOk s (entWord s n 0) (entWord s n 1) (entWord s n 2) (entWord s n 3) then evtResult m 4 n s
  else if targetFenced s n then evtResult m 5 n s
  else evtResult m 0 n (armEnt n s)

def evtCancel (m : Master) (n : Nat) (s : State) : State :=
  let c := evtCheck m n true [.armed, .due, .fired, .cancelled] s
  if c ≠ 0 then evtResult m c n s else evtResult m 0 n (cancelEnt n s)

def evtRelease (m : Master) (n : Nat) (s : State) : State :=
  let c := evtCheck m n true [.fired, .cancelled] s
  if c ≠ 0 then evtResult m c n s else evtResult m 0 n (setEnt n {} (endHolds n s))

def evtQuery (m : Master) (n : Nat) (s : State) : State :=
  let c := evtCheck m n true [.free, .armed, .due, .fired, .cancelled] s
  if c ≠ 0 then evtResult m c n s
  else
    let e := ent s n
    let tmd := e.due.isSome
    let s := setReg Reg.evt_QSTAT (wd (entCode e * 0x1000 + tmd.toNat * 0x800 + n)) s
    evtResult m 0 n (setReg32 Reg.evt_QDUE (BitVec.ofNat 32 (e.due.getD 0)) s)

/-- A write to EVT.CMD (R634, R635). -/
def evtCommand (m : Master) (v : Word) (s : State) : State :=
  if (issuerReg m).isNone then s
  else
    let n := fld v 0 9
    match fld v 12 4 with
    | 1 => evtAlloc m s
    | 2 => evtArm m n s
    | 3 => evtCancel m n s
    | 4 => evtRelease m n s
    | 5 => evtQuery m n s
    | _ => s

/-- A write to an entry word (R637, R640, R657). -/
def entryWrite (m : Master) (n i : Nat) (v : Word) (s : State) : State :=
  let e := ent s n
  let allowed := privileged m || (match m with
    | .thread t => entOwn s n == t.val
    | _ => false)
  let inert := e.st == .fired || e.st == .cancelled
  if decide (n < kpart s) || !allowed then hwCount Reg.evt_WIGN s
  else if inert then
    setEntWord n i (if i = 3 then putFld v 12 4 (entOwn s n) else v) s
  else if e.st == .armed && i == 0 then
    let s := setEntWord n 0 v s
    setEnt n (retimed s n { (ent s n) with ref := s.now, refAng := angleNow s % entLap s n }) s
  else hwCount Reg.evt_WIGN s

/-- A write to EVT.KPART (R633). -/
def kpartWrite (m : Master) (v : Word) (s : State) : State :=
  if inSetup s && privileged m && s.evt.ents.all (fun x => !entLive x.2) then
    let old := kpart s
    let s := regWriteBits Reg.evt_KPART v s
    let new := kpart s
    { s with evt := { s.evt with
      ents := s.evt.ents.filter (fun x => !(decide (min old new ≤ x.1) && decide (x.1 < max old new))) } }
  else s

/-- The value an EVT register shows. -/
def evtPeek (s : State) (a : Nat) : Word :=
  let o := a - 0x42400
  if o = 0x03 then
    wd ((angSync s).toNat * 0x4000 + (angPublishes s).toNat * 0x2000 + (s.evt.ents.filter (fun x => entLive x.2)).length)
  else if 0x100 ≤ o ∧ o < 0x180 then
    let k := 4 * (o - 0x100)
    wd (entCode (ent s k) + entCode (ent s (k + 1)) * 0x10 + entCode (ent s (k + 2)) * 0x100
      + entCode (ent s (k + 3)) * 0x1000)
  else readWord s a

/-- A write to an EVT register. -/
def evtWrite (m : Master) (a : Nat) (v : Word) (s : State) : State :=
  if a = Reg.evt_CMD then evtCommand m v s
  else if a = Reg.evt_KPART then kpartWrite m v s
  else if privileged m then regWriteBits a v s
  else s

end Sys2Proof.Machine
end

