-- ==== Sys2Proof/Machine/Can.lean ====
section
/-!
DEFINITION. The CAN controllers (spec/20_can_and_kline.md, R916-R933, R937-R941).
-/

namespace Sys2Proof.Machine

/-! ### Registers and objects -/

def canBase (k : Fin 2) : Nat := 0x43C00 + 0x400 * k.val
def canAt (k : Fin 2) (o : Nat) : Nat := canBase k + o

/-- The offsets of the registers. -/
abbrev cMCTL : Nat := 0x00
abbrev cABTIME : Nat := 0x02
abbrev cDBTIME : Nat := 0x04
abbrev cBUSST : Nat := 0x06
abbrev cSSPDLY : Nat := 0x08
abbrev cLOSTCNT : Nat := 0x09
abbrev cERRCNT : Nat := 0x0A
abbrev cPXCNT : Nat := 0x0B
abbrev cTXREQ : Nat := 0x10
abbrev cTXDONE : Nat := 0x14

/-- The offset of word 0 of object `j`, and its data words (R922). -/
def objOff (j : Fin 32) : Nat := if j.val < 8 then 0x100 + 0x28 * j.val else 0x240 + 0x0C * (j.val - 8)
def objAt (k : Fin 2) (j : Fin 32) (w : Nat) : Nat := canBase k + objOff j + w
def objCap (j : Fin 32) : Nat := if j.val < 8 then 64 else 8

def objBit (s : State) (k : Fin 2) (j : Fin 32) (w i : Nat) : Bool := regBit s (objAt k j w) i
def objEn (s : State) (k : Fin 2) (j : Fin 32) : Bool := objBit s k j 0 15
def objDir (s : State) (k : Fin 2) (j : Fin 32) : Bool := objBit s k j 0 14
def objIde (s : State) (k : Fin 2) (j : Fin 32) : Bool := objBit s k j 0 13
def objFdf (s : State) (k : Fin 2) (j : Fin 32) : Bool := objBit s k j 0 12
def objBrs (s : State) (k : Fin 2) (j : Fin 32) : Bool := objBit s k j 0 11
def objRtr (s : State) (k : Fin 2) (j : Fin 32) : Bool := objBit s k j 0 10
def objIrq (s : State) (k : Fin 2) (j : Fin 32) : Bool := objBit s k j 0 9
def objOvw (s : State) (k : Fin 2) (j : Fin 32) : Bool := objBit s k j 0 8
def objDlc (s : State) (k : Fin 2) (j : Fin 32) : Nat := regF s (objAt k j 0) 0 4

/-- The data bytes a DLC codes (R924; the FD lengths of ISO 11898-1). -/
def dlcBytes (fdf : Bool) (dlc : Nat) : Nat :=
  if fdf then #[0, 1, 2, 3, 4, 5, 6, 7, 8, 12, 16, 20, 24, 32, 48, 64].getD dlc 64 else min 8 dlc

def pendingTx (s : State) (k : Fin 2) (j : Fin 32) : Bool := (reg32 s (canAt k cTXREQ)).getLsbD j

/-! ### States (R918, R921) -/

def canRec (s : State) (k : Fin 2) : Can := s.can[k]
def setCan (k : Fin 2) (f : Can → Can) (s : State) : State := { s with can := s.can.set k (f s.can[k]) }

/-- MCTL.MODE: 0 OFF, 1 NORMAL, 2 LISTEN, 3 SELFTEST. -/
def canMode (s : State) (k : Fin 2) : Nat := regF s (canAt k cMCTL) 13 3

/-- BUSST.STATE: 0 active, 1 passive, 2 bus off, 3 OFF or integrating. -/
def canState (s : State) (k : Fin 2) : Nat :=
  let c := canRec s k
  if canMode s k = 0 ∨ c.integrating then 3
  else if c.recovering then 2
  else if 127 < c.tec ∨ 127 < c.rec_ then 1
  else 0

/-- A change to controller `k`; source 45 or 49 on a change of BUSST.STATE (R921). -/
def canChange (k : Fin 2) (f : State → State) (s : State) : State :=
  let old := canState s k
  let s := f s
  if canState s k = old then s else signal ⟨45 + 4 * k.val, by omega⟩ s

/-- The controller takes part on the bus. -/
def canOnBus (s : State) (k : Fin 2) : Bool := canState s k < 2

/-! ### Transmission (R924-R926) -/

/-- The identifier of object `j` in the ISO arbitration order: the base identifier, then 11-bit before 29-bit, then the
rest. -/
def arbKey (s : State) (k : Fin 2) (j : Fin 32) : Nat :=
  let id := (reg32 s (objAt k j 2)).toNat % 2 ^ 29
  (id / 2 ^ 18) * 2 ^ 19 + (if objIde s k j then 2 ^ 18 + id % 2 ^ 18 else 0)

/-- The pending object that goes first. -/
def canFirst (s : State) (k : Fin 2) : Option (Fin 32) :=
  (List.finRange 32).foldl (fun best (j : Fin 32) =>
    if pendingTx s k j then
      match best with
      | none => some j
      | some b => if arbKey s k j < arbKey s k b then some j else best
    else best) none

/-- The controller starts to transmit when the bus is free for it; frozen, it starts nothing (R925, R1022). -/
def canPick (k : Fin 2) (s : State) : State :=
  let c := canRec s k
  if canOnBus s k && (canMode s k == 1 || canMode s k == 3) && c.cur.isNone && !c.busy && !frozenBlock s 5 then
    setCan k (fun c => { c with cur := canFirst s k, cancelled := false }) s
  else s

/-- Request `j` ends. -/
def clearTxreq (k : Fin 2) (j : Fin 32) (s : State) : State :=
  let a := canAt k cTXREQ
  setReg32 a (putBit (reg32 s a) j false) s

def setAbt (k : Fin 2) (j : Fin 32) (s : State) : State := hwSet (objAt k j 1) 0x0200 s

/-- TXREQ written 1 at bit `j` (R924). -/
def requestTx (k : Fin 2) (j : Fin 32) (s : State) : State :=
  let fd := regBit s (canAt k cMCTL) 11
  let rs := regBit s (canAt k cMCTL) 10
  if pendingTx s k j then s
  else if !objEn s k j || !objDir s k j || (objFdf s k j && !fd) || (objBrs s k j && (!objFdf s k j || !rs))
      || (objRtr s k j && objFdf s k j) || decide (objCap j < dlcBytes (objFdf s k j) (objDlc s k j)) then
    hwSet (objAt k j 1) 0x0400 s
  else
    let a := canAt k cTXREQ
    setReg32 a (putBit (reg32 s a) j true) s

/-- TXCAN written 1 at bit `j` (R926). -/
def cancelTx (k : Fin 2) (j : Fin 32) (s : State) : State :=
  if !pendingTx s k j then s
  else if (canRec s k).cur = some j then setCan k (fun c => { c with cancelled := true }) s
  else setAbt k j (clearTxreq k j s)

/-- `f` for every bit of a pair that is 1. -/
def eachObj (v : Pair) (f : Fin 32 → State → State) (s : State) : State :=
  (List.finRange 32).foldl (fun s (j : Fin 32) => if v.getLsbD j then f j s else s) s

/-- The masters that may write objects, TXREQ, TXCAN and TXDONE. -/
def canWriter : Master → Bool
  | .courier _ => true
  | m => threadOrHost m

def txreqWrite (m : Master) (k : Fin 2) (v : Pair) (s : State) : State :=
  if canWriter m then canPick k (eachObj v (requestTx k) s) else s

def txcanWrite (m : Master) (k : Fin 2) (v : Pair) (s : State) : State :=
  if canWriter m then eachObj v (cancelTx k) s else s

/-- An attempt that did not succeed ends: the request stays for another, or ends with ABT (R925, R926). -/
def attemptFailed (k : Fin 2) (s : State) : State :=
  match (canRec s k).cur with
  | none => s
  | some j =>
    let ends := regBit s (canAt k cMCTL) 9 || (canRec s k).cancelled
    let s := setCan k (fun c => { c with cur := none, cancelled := false }) s
    if ends then setAbt k j (clearTxreq k j s) else s

/-! ### Modes (R918, R928, R932, R941) -/

/-- A bit time in ticks from its four fields, and RJW not above PH2 (R918, R919). -/
def bitTicks (pre ph1 ph2 : Nat) : Nat := (pre + 1) * (1 + (ph1 + 1) + (ph2 + 1))

def canConfigOk (s : State) (k : Fin 2) : Bool :=
  let a := reg32 s (canAt k cABTIME)
  let d := reg32 s (canAt k cDBTIME)
  decide (160 ≤ bitTicks (fld a 24 5) (fld a 16 8) (fld a 9 7)) && decide (32 ≤ bitTicks (fld d 27 5) (fld d 22 5) (fld d 18 4))
    && decide (fld a 2 7 ≤ fld a 9 7) && decide (fld d 14 4 ≤ fld d 18 4) && !onBackup s

/-- The controller enters OFF: its requests end with ABT, and its counters stay (R928, R932, R941). -/
def canOff (k : Fin 2) : State → State := canChange k (fun s =>
  let s := eachObj (reg32 s (canAt k cTXREQ)) (fun j s => setAbt k j s) s
  let s := setRegF (canAt k cMCTL) 13 3 0 (setReg32 (canAt k cTXREQ) 0 s)
  setCan k (fun c => { c with
    integrating := false, recovering := false, busOff := c.busOff || c.recovering, cur := none, cancelled := false
    busy := false }) s)

/-- A running mode is entered from OFF (R918, R921). -/
def canStart (k : Fin 2) (mode : Nat) : State → State := canChange k (fun s =>
  if canConfigOk s k then
    setCan k (fun c => { c with integrating := !c.busOff, recovering := c.busOff, busOff := false, busy := false })
      (setRegF (canAt k cMCTL) 13 3 mode s)
  else hwSet (canAt k cBUSST) 0x2000 s)

/-- MCTL written: bits 11-7 only in OFF, and before the MODE written with them (R918); CSTBY follows CAN0's XSTB (R930). -/
def mctlWrite (m : Master) (k : Fin 2) (v : Word) (s : State) : State :=
  if !privileged m then s
  else
    let a := canAt k cMCTL
    let s := if k = 0 then
        { setRegBit a 12 (v.getLsbD 12) s with plinth := { s.plinth with cstby := v.getLsbD 12 } }
      else s
    let n := fld v 13 3
    if canMode s k = 0 then
      let s := setRegF a 7 5 (fld v 7 5) s
      if 1 ≤ n ∧ n ≤ 3 then canStart k n s else s
    else if n = 0 then canOff k s
    else s

/-- 11 consecutive recessive bits were seen (R918). -/
def canIntegrated (k : Fin 2) (s : State) : State :=
  if (canRec s k).integrating then canPick k (canChange k (setCan k (fun c => { c with integrating := false })) s) else s

/-- The recovery from bus off completes (R921). -/
def canRecovered (k : Fin 2) (s : State) : State :=
  if (canRec s k).recovering then
    canPick k (canChange k (setCan k (fun c => { c with recovering := false, tec := 0, rec_ := 0 })) s)
  else s

/-- Bus off: recovery at once, or OFF until the firmware starts again (R921). -/
def enterBusOff (k : Fin 2) (s : State) : State :=
  if regBit s (canAt k cMCTL) 8 then
    setCan k (fun c => { c with busOff := true, cur := none, busy := false }) (setRegF (canAt k cMCTL) 13 3 0 s)
  else setCan k (fun c => { c with recovering := true, busy := false }) s

/-! ### Reception (R923, R937) -/

/-- A valid frame. An 11-bit identifier stands in bits 28-18. -/
structure CanFrame where
  id : BitVec 29
  ide : Bool
  rtr : Bool
  fdf : Bool
  brs : Bool
  esi : Bool
  dlc : BitVec 4
  data : List Byte
deriving DecidableEq, Repr

def frameLen (f : CanFrame) : Nat := if f.rtr then 0 else dlcBytes f.fdf f.dlc.toNat

/-- The identifier bits that count. -/
def frameId (f : CanFrame) : Nat := if f.ide then f.id.toNat else f.id.toNat / 2 ^ 18 * 2 ^ 18

/-- Object `j` matches the frame. -/
def objMatches (s : State) (k : Fin 2) (f : CanFrame) (j : Fin 32) : Bool :=
  let id : BitVec 29 := (reg32 s (objAt k j 2)).setWidth 29
  let mask : BitVec 29 := (reg32 s (objAt k j 4)).setWidth 29
  objEn s k j && !objDir s k j && ((BitVec.ofNat 29 (frameId f) ^^^ id) &&& mask) == 0 && objIde s k j == f.ide
    && objRtr s k j == f.rtr && decide (frameLen f ≤ objCap j)

/-- Data byte `i` of object `j` written. -/
def putObjByte (k : Fin 2) (j : Fin 32) (i : Nat) (b : Byte) (s : State) : State :=
  setRegF (objAt k j (8 + i / 2)) (8 * (i % 2)) 8 b.toNat s

/-- Object `j` takes the frame. -/
def takeFrame (k : Fin 2) (f : CanFrame) (j : Fin 32) (s : State) : State :=
  let a := objAt k j 1
  let full := regBit s a 15
  let rcnt := regF s a 4 4
  let s := (List.range (frameLen f)).foldl (fun s i => putObjByte k j i (f.data.getD i 0) s) s
  let s := setRegF a 4 4 ((rcnt + 1) % 16) (setRegF a 0 4 f.dlc.toNat s)
  let s := setRegBit a 13 f.esi (setRegBit a 12 f.fdf (setRegBit a 11 f.brs s))
  let s := setReg32 (objAt k j 6) (stamp32 s) s
  let s := hwSet a (if full then 0xC000 else 0x8000) s
  if objIrq s k j then signal ⟨42 + 4 * k.val, by omega⟩ s else s

/-- A valid frame is offered to the receive objects. -/
def offerFrame (k : Fin 2) (f : CanFrame) (s : State) : State :=
  let ms := (List.finRange 32).filter (objMatches s k f)
  match ms.find? (fun j => !objBit s k j 1 15 || objOvw s k j) with
  | some j => takeFrame k f j s
  | none =>
    match ms with
    | [] => s
    | j :: _ => hwCount (canAt k cLOSTCNT) (hwSet (objAt k j 1) 0x4000 s)

/-! ### Errors (R927) -/

/-- A protocol error is detected: `code` as R927 codes it, in the data phase or not, while transmitting or receiving;
`special` marks the ISO 11898-1 exceptions of the counters (no TEC count, or 8 instead of 1 on REC). -/
def canError (k : Fin 2) (dataPhase : Bool) (code : Nat) (tx special : Bool) (s : State) : State :=
  let s := setRegF (canAt k cBUSST) (if dataPhase then 4 else 0) 3 code s
  let s := signal ⟨44 + 4 * k.val, by omega⟩ (hwCount (canAt k cERRCNT) s)
  let s := canChange k (fun s =>
    let s := if tx then attemptFailed k s else s
    let s := setCan k (fun c => { c with
      busy := false
      tec := if tx && !special then c.tec + 8 else c.tec
      rec_ := if tx then c.rec_ else min 255 (c.rec_ + if special then 8 else 1) }) s
    if 255 < (canRec s k).tec then enterBusOff k s else s) s
  canPick k s

/-- A received frame that became valid (R917, R923, R927): an FD frame while FDEN is 0 is a form error. -/
def canReceived (k : Fin 2) (f : CanFrame) (s : State) : State :=
  if !canOnBus s k || canMode s k == 3 then s
  else if f.fdf && !regBit s (canAt k cMCTL) 11 then canError k false 3 false false s
  else
    let s := offerFrame k f s
    let s := canChange k (fun s => setCan k (fun c => { c with
      busy := false
      rec_ := if 127 < c.rec_ then 119 + s.free % 9 else c.rec_ - 1 }) { s with free := s.free + 1 }) s
    canPick k s

/-- The frame object `j` sends. -/
def frameOf (s : State) (k : Fin 2) (j : Fin 32) : CanFrame :=
  let f : CanFrame :=
    { id := (reg32 s (objAt k j 2)).setWidth 29, ide := objIde s k j, rtr := objRtr s k j, fdf := objFdf s k j
      brs := objBrs s k j, esi := canState s k == 1 && objFdf s k j, dlc := BitVec.ofNat 4 (objDlc s k j), data := [] }
  let bytes : List Byte := (List.range (frameLen f)).map
    (fun i => BitVec.ofNat 8 (regF s (objAt k j (8 + i / 2)) (8 * (i % 2)) 8))
  { f with data := bytes }

/-- The transmission under way succeeds; `delay` is the loop delay measured where R920 measures it. -/
def canTxDone (k : Fin 2) (delay : BitVec 7) (s : State) : State :=
  match (canRec s k).cur with
  | none => s
  | some j =>
    let f := frameOf s k j
    let s := hwSet (canAt k cTXDONE + j.val / 16) (wd (2 ^ (j.val % 16))) (clearTxreq k j s)
    let s := setReg32 (objAt k j 6) (stamp32 s) s
    let s := if objFdf s k j && objBrs s k j && regBit s (canAt k cDBTIME) 7 then
        setReg (canAt k cSSPDLY) (wd delay.toNat) s
      else s
    let s := if objIrq s k j then signal ⟨43 + 4 * k.val, by omega⟩ s else s
    let s := canChange k (setCan k (fun c => { c with cur := none, cancelled := false, tec := c.tec - 1 })) s
    let s := if canMode s k = 3 then offerFrame k f s else s
    canPick k s

/-- A protocol error, or, with `px`, a recessive res bit: a form error under PXSTRICT, else a protocol exception event,
after which the controller integrates again (R916, R927). Only codes 1 to 6 exist, and only on the bus. -/
def canErrorEvent (k : Fin 2) (px dataPhase : Bool) (code : BitVec 3) (tx special : Bool) (s : State) : State :=
  if !canOnBus s k then s
  else if px then
    if regBit s (canAt k cMCTL) 7 then canError k false 3 false false s
    else canChange k (setCan k (fun c => { c with integrating := true, busy := false })) (hwCount (canAt k cPXCNT) s)
  else if code = 0 ∨ code = 7 ∨ (tx ∧ (canRec s k).cur.isNone) then s
  else canError k dataPhase code.toNat tx special s

/-- The transmission under way loses the arbitration (R925). -/
def canArbLost (k : Fin 2) (s : State) : State :=
  if (canRec s k).cur.isNone then s
  else setCan k (fun c => { c with busy := true }) (attemptFailed k s)

/-! ### Accesses -/

/-- The object that owns an offset, with the word within it. -/
def objOfOff (o : Nat) : Option (Fin 32 × Nat) :=
  if 0x100 ≤ o ∧ o < 0x240 then some (⟨((o - 0x100) / 0x28) % 32, by omega⟩, (o - 0x100) % 0x28)
  else if 0x240 ≤ o ∧ o < 0x360 then some (⟨(8 + (o - 0x240) / 0x0C) % 32, by omega⟩, (o - 0x240) % 0x0C)
  else none

/-- A write to a register of controller `k`; the words 0, 2-5 and the data of a pending object ignore it (R926). -/
def canWrite (m : Master) (k : Fin 2) (a : Nat) (v : Word) (s : State) : State :=
  let o := a - canBase k
  let hi (b : Nat) : Pair := if o = b then v.setWidth 32 else v.setWidth 32 <<< 16
  if o = cMCTL then mctlWrite m k v s
  else if o < 6 then (if privileged m && canMode s k == 0 then regWriteBits a v s else s)
  else if o = 0x10 ∨ o = 0x11 then txreqWrite m k (hi 0x10) s
  else if o = 0x12 ∨ o = 0x13 then txcanWrite m k (hi 0x12) s
  else if !canWriter m then s
  else
    match objOfOff o with
    | some (j, w) =>
      if pendingTx s k j && w != 1 then s else regWriteBits a v s
    | none => regWriteBits a v s

/-- The value a register of controller `k` shows without side effects. -/
def canPeek (s : State) (k : Fin 2) (a : Nat) : Word :=
  let o := a - canBase k
  let c := canRec s k
  let full : Pair := (List.finRange 32).foldl
    (fun (w : Pair) (j : Fin 32) => if objBit s k j 1 15 then w ||| BitVec.ofNat 32 (2 ^ j.val) else w) 0
  if o = cBUSST then putBit (putFld (reg s a) 14 2 (canState s k)) 12 c.recovering
  else if o = 0x07 then wd ((decide (127 < c.rec_)).toNat * 0x8000 + min 127 c.rec_ * 256 + min 255 c.tec)
  else if o = 0x12 ∨ o = 0x13 then 0
  else if o = 0x16 then lowWord full
  else if o = 0x17 then highWord full
  else reg s a

end Sys2Proof.Machine
end

