-- ==== Sys2Proof/Machine/Crypto.lean ====
section
/-!
DEFINITION. The checksums and the cipher the spec names: CRC-32 (R157), CRC-16 (R869), AES-128 and its CMAC
(NIST SP 800-38B, R160, R1003).
-/
namespace Sys2Proof.Machine

/-! ### CRC -/

/-- One bit of the reflected CRC-32 with polynomial 04C11DB7h. -/
def crc32Bit (c : BitVec 32) : BitVec 32 := if c.getLsbD 0 then (c >>> 1) ^^^ 0xEDB88320 else c >>> 1

def crc32Byte (c : BitVec 32) (b : Byte) : BitVec 32 :=
  (List.range 8).foldl (fun c _ => crc32Bit c) (c ^^^ b.setWidth 32)

/-- CRC-32 of R157. -/
def crc32 (bs : List Byte) : BitVec 32 := ~~~(bs.foldl crc32Byte 0xFFFFFFFF)

/-- One word of the CRC-16 of R869, bit 15 first. -/
def crc16Word (c : Word) (w : Word) : Word :=
  (List.range 16).foldl (fun c _ => if c.getLsbD 15 then (c <<< 1) ^^^ 0x1021 else c <<< 1) (c ^^^ w)

/-- CRC-16 of R869 over words. -/
def crc16 (ws : List Word) : Word := ws.foldl crc16Word 0xFFFF

/-! ### AES-128 -/

def sboxTable : List Byte :=
  [0x63, 0x7C, 0x77, 0x7B, 0xF2, 0x6B, 0x6F, 0xC5, 0x30, 0x01, 0x67, 0x2B, 0xFE, 0xD7, 0xAB, 0x76] ++
  [0xCA, 0x82, 0xC9, 0x7D, 0xFA, 0x59, 0x47, 0xF0, 0xAD, 0xD4, 0xA2, 0xAF, 0x9C, 0xA4, 0x72, 0xC0] ++
  [0xB7, 0xFD, 0x93, 0x26, 0x36, 0x3F, 0xF7, 0xCC, 0x34, 0xA5, 0xE5, 0xF1, 0x71, 0xD8, 0x31, 0x15] ++
  [0x04, 0xC7, 0x23, 0xC3, 0x18, 0x96, 0x05, 0x9A, 0x07, 0x12, 0x80, 0xE2, 0xEB, 0x27, 0xB2, 0x75] ++
  [0x09, 0x83, 0x2C, 0x1A, 0x1B, 0x6E, 0x5A, 0xA0, 0x52, 0x3B, 0xD6, 0xB3, 0x29, 0xE3, 0x2F, 0x84] ++
  [0x53, 0xD1, 0x00, 0xED, 0x20, 0xFC, 0xB1, 0x5B, 0x6A, 0xCB, 0xBE, 0x39, 0x4A, 0x4C, 0x58, 0xCF] ++
  [0xD0, 0xEF, 0xAA, 0xFB, 0x43, 0x4D, 0x33, 0x85, 0x45, 0xF9, 0x02, 0x7F, 0x50, 0x3C, 0x9F, 0xA8] ++
  [0x51, 0xA3, 0x40, 0x8F, 0x92, 0x9D, 0x38, 0xF5, 0xBC, 0xB6, 0xDA, 0x21, 0x10, 0xFF, 0xF3, 0xD2] ++
  [0xCD, 0x0C, 0x13, 0xEC, 0x5F, 0x97, 0x44, 0x17, 0xC4, 0xA7, 0x7E, 0x3D, 0x64, 0x5D, 0x19, 0x73] ++
  [0x60, 0x81, 0x4F, 0xDC, 0x22, 0x2A, 0x90, 0x88, 0x46, 0xEE, 0xB8, 0x14, 0xDE, 0x5E, 0x0B, 0xDB] ++
  [0xE0, 0x32, 0x3A, 0x0A, 0x49, 0x06, 0x24, 0x5C, 0xC2, 0xD3, 0xAC, 0x62, 0x91, 0x95, 0xE4, 0x79] ++
  [0xE7, 0xC8, 0x37, 0x6D, 0x8D, 0xD5, 0x4E, 0xA9, 0x6C, 0x56, 0xF4, 0xEA, 0x65, 0x7A, 0xAE, 0x08] ++
  [0xBA, 0x78, 0x25, 0x2E, 0x1C, 0xA6, 0xB4, 0xC6, 0xE8, 0xDD, 0x74, 0x1F, 0x4B, 0xBD, 0x8B, 0x8A] ++
  [0x70, 0x3E, 0xB5, 0x66, 0x48, 0x03, 0xF6, 0x0E, 0x61, 0x35, 0x57, 0xB9, 0x86, 0xC1, 0x1D, 0x9E] ++
  [0xE1, 0xF8, 0x98, 0x11, 0x69, 0xD9, 0x8E, 0x94, 0x9B, 0x1E, 0x87, 0xE9, 0xCE, 0x55, 0x28, 0xDF] ++
  [0x8C, 0xA1, 0x89, 0x0D, 0xBF, 0xE6, 0x42, 0x68, 0x41, 0x99, 0x2D, 0x0F, 0xB0, 0x54, 0xBB, 0x16]

def sbox (b : Byte) : Byte := sboxTable.getD b.toNat 0

/-- Multiplication by x in GF(2^8). -/
def xtime (b : Byte) : Byte := if b.getLsbD 7 then (b <<< 1) ^^^ 0x1B else b <<< 1

def xorBytes (a b : List Byte) : List Byte := List.zipWith (· ^^^ ·) a b

/-- The next round key: 16 bytes, in the byte order of FIPS 197. -/
def nextKey (k : List Byte) (rcon : Byte) : List Byte :=
  let t := ((k.drop 13).take 3 ++ (k.drop 12).take 1).map sbox
  let t := xorBytes t [rcon, 0, 0, 0]
  let w0 := xorBytes (k.take 4) t
  let w1 := xorBytes ((k.drop 4).take 4) w0
  let w2 := xorBytes ((k.drop 8).take 4) w1
  let w3 := xorBytes ((k.drop 12).take 4) w2
  w0 ++ w1 ++ w2 ++ w3

/-- The state with row `r` rotated left by `r`: byte `i` comes from byte 5i mod 16 of the column order. -/
def shiftRows (s : List Byte) : List Byte := (List.range 16).map (fun i => s.getD (5 * i % 16) 0)

def mixColumn : List Byte → List Byte
  | [a, b, c, d] =>
    [xtime a ^^^ (xtime b ^^^ b) ^^^ c ^^^ d, a ^^^ xtime b ^^^ (xtime c ^^^ c) ^^^ d,
     a ^^^ b ^^^ xtime c ^^^ (xtime d ^^^ d), (xtime a ^^^ a) ^^^ b ^^^ c ^^^ xtime d]
  | s => s

def mixColumns (s : List Byte) : List Byte :=
  mixColumn (s.take 4) ++ mixColumn ((s.drop 4).take 4) ++ mixColumn ((s.drop 8).take 4) ++ mixColumn (s.drop 12)

/-- Rounds `n` down to the last, with the round constant. -/
def aesRounds : Nat → Byte → List Byte → List Byte → List Byte
  | 0, _, _, s => s
  | n + 1, rc, k, s =>
    let k := nextKey k rc
    let s := shiftRows (s.map sbox)
    let s := if n = 0 then s else mixColumns s
    aesRounds n (xtime rc) k (xorBytes s k)

/-- AES-128 encryption of 16 bytes. -/
def aes128 (key s : List Byte) : List Byte := aesRounds 10 1 key (xorBytes s key)

/-- Doubling of a 128-bit block, bytes most significant first (SP 800-38B). -/
def dbl (b : List Byte) : List Byte :=
  let v : BitVec 128 := BitVec.ofNat 128 (b.foldl (fun a x => a * 256 + x.toNat) 0)
  let w := if v.getLsbD 127 then (v <<< 1) ^^^ 0x87 else v <<< 1
  (List.range 16).map (fun i => w.extractLsb' (8 * (15 - i)) 8)

/-- The CBC chain of the CMAC over whole blocks; the last block, complete or padded, takes a subkey. -/
def cmacGo (key k1 k2 : List Byte) : Nat → List Byte → List Byte → List Byte
  | 0, c, _ => c
  | n + 1, c, m =>
    if m.length ≤ 16 then
      let last :=
        if m.length = 16 then xorBytes m k1
        else xorBytes (m ++ 0x80 :: List.replicate (15 - m.length) 0) k2
      aes128 key (xorBytes c last)
    else cmacGo key k1 k2 n (aes128 key (xorBytes c (m.take 16))) (m.drop 16)

/-- The CMAC of a message. -/
def cmac (key m : List Byte) : List Byte :=
  let k1 := dbl (aes128 key (List.replicate 16 0))
  cmacGo key k1 (dbl k1) (m.length / 16 + 1) (List.replicate 16 0) m

end Sys2Proof.Machine
end

