-- ==== Sys2Proof/Machine/Armature.lean ====
section
/-!
DEFINITION. The Armature: its words, sections, CRC and check (spec/04_start_up_image_armature.md, R166-R173; R760).
An Armature is given as the function from a word index to its word.
-/

namespace Sys2Proof.Machine

/-- The silicon revision A1, SYS+01h bits 7-0 (R2). -/
abbrev siliconRev : Nat := 1

/-- A section: its type, instance, and the index and length of its body (R168). -/
structure Section where
  ty : Nat
  inst : Nat
  body : Nat
  len : Nat
deriving DecidableEq, Repr

/-- The sections from word `p` to `stop` exclusive; none where a section runs past it (R168). -/
def walkSections (f : Nat → Word) (stop : Nat) : Nat → Nat → Option (List Section)
  | 0, _ => none
  | n + 1, p =>
    if p = stop then some []
    else if stop < p + 2 then none
    else
      let l := (f (p + 1)).toNat
      if stop < p + 2 + l then none
      else (walkSections f stop n (p + 2 + l)).map (fun t => ⟨fld (f p) 8 8, fld (f p) 0 8, p + 2, l⟩ :: t)

/-- The sections of an Armature of `len` words. -/
def sectionsOf (f : Nat → Word) (len : Nat) : Option (List Section) := walkSections f (len - 2) 2048 16

/-- The body words of the types that appear at most once (R169). -/
def onceBody : Nat → Option Nat
  | 1 => some 8
  | 2 => some 17
  | 3 => some 19
  | 4 => some 14
  | 5 => some 32
  | 7 => some 8
  | 8 => some 28
  | 9 => some 4
  | 10 => some 4
  | _ => none

def noRepeat : List Nat → Bool
  | [] => true
  | a :: t => !t.contains a && noRepeat t

/-- The STRUCTURE check on the sections found (R169, R173). -/
def structureOk (l : List Section) : Bool :=
  l.all (fun x => decide (0x80 ≤ x.ty) || (decide (1 ≤ x.ty) && decide (x.ty ≤ 10))) &&
  noRepeat ((l.filter (fun x => (onceBody x.ty).isSome)).map (·.ty)) &&
  (l.filter (·.ty == 6)).all (fun x => x.inst != 0 && x.inst != 0xFF) &&
  noRepeat ((l.filter (·.ty == 6)).map (·.inst))

def requiredOk (l : List Section) : Bool :=
  ([1, 2, 4, 5, 7] : List Nat).all (fun t => l.any (·.ty == t))

/-- The body start of the one section of a type. -/
def secBody (l : List Section) (t : Nat) : Option Nat := (l.find? (·.ty == t)).map (·.body)

/-! ### Ranges (R170, R760) -/

def inRange (lo hi : Nat) (w : Word) : Bool := decide (lo ≤ w.toNat) && decide (w.toNat ≤ hi)
def zeroBits (m : Word) (w : Word) : Bool := w &&& m == 0

/-- Words `a + 1 .. a + n` spaced `st` apart rise strictly. -/
def rising (f : Nat → Word) (st : Nat) : Nat → Nat → Bool
  | 0, _ => true
  | n + 1, a => (f a).toNat < (f (a + st)).toNat && rising f st n (a + st)

def mapRange (f : Nat → Word) (b len : Nat) : Bool :=
  let r := (f b).toNat
  let c := (f (b + 1)).toNat
  decide (4 ≤ len) && inRange 2 16 (f b) && inRange 2 32 (f (b + 1)) && decide (r * c ≤ 256) &&
    zeroBits 0x7FF0 (f (b + 2)) && f (b + 3) == 0 && len == 4 + r * c &&
    rising f 1 (c - 2) (b + 5) && rising f c (r - 2) (b + 4 + c)

def angleRange (f : Nat → Word) (b : Nat) : Bool :=
  let w (i : Nat) : Word := f (b + i)
  let l := if w 3 = 1 then 46080 else 23040
  inRange 1 60 (w 0) && inRange 0 3 (w 1) && decide ((w 1).toNat < (w 0).toNat) && inRange 0 23039 (w 2) &&
    inRange 0 1 (w 3) && inRange 0 1 (w 4) && (w 4 != 1 || w 3 == 1) && inRange 0 46079 (w 5) &&
    zeroBits 0xFFF8 (w 6) && w 7 != 0 && inRange 10 5000 (w 8) && inRange 1 4 (w 9) && w 10 == 0 &&
    ([11, 12, 13] : List Nat).all (fun i => decide ((w i).toNat < l))

/-- The KERNEL words of function `k`; the PARAM ranges and the required map bind an enabled function (R760). -/
def kernelFnRange (f : Nat → Word) (b l k : Nat) : Bool :=
  let c := f (b + 4 * k)
  let m := fld c 0 8
  let p0 := f (b + 4 * k + 2)
  let p1 := f (b + 4 * k + 3)
  zeroBits 0x3F00 c && decide ((f (b + 4 * k + 1)).toNat < l) &&
    (!c.getLsbD 15 ||
      match k with
      | 0 => m != 0 && decide (fld p1 0 8 ≤ 239)
      | 1 => m != 0 && p0 != 0 && decide (fld p1 0 8 ≤ 60)
      | 2 => m != 0 && fld p0 0 8 != 0
      | 3 => m != 0 && fld p1 8 8 == 0
      | 4 => true
      | 5 => m != 0 && fld p0 8 4 == 0 && decide (fld p1 8 8 ≤ 127)
      | 6 => (m != 0 || inRange 500 20000 p0) && fld p1 2 6 == 0
      | _ => inRange 1 16 (p0 &&& 0xFF) && p1 == 0)

/-- The OUTPUT words of stage `s`; the ranges of LIMIT and PARAM bind an enabled stage (R711, R717-R729). -/
def stageRange (f : Nat → Word) (b s : Nat) : Bool :=
  let c := f (b + 2 * s)
  let p := f (b + 2 * s + 1)
  let lim := fld c 0 14
  if s = 13 then lim == 0 && p == 0
  else !c.getLsbD 15 || s == 12 ||
    (if s < 8 then lim != 0
     else lim / 4096 != 3 && decide (1 ≤ lim % 4096) && decide (lim % 4096 ≤ 2000) && p == 0)

def monRange (f : Nat → Word) (b : Nat) : Bool :=
  (List.range 9).all (fun n =>
    let lo := f (b + 2 * n)
    let hi := f (b + 2 * n + 1)
    if n < 3 then decide (sgn lo ≤ sgn hi) else decide (lo.toNat ≤ hi.toNat)) && inRange 1 15 (f (b + 18))

/-- The ranges of one section's body; `l` is the cycle length of the ANGLE section. -/
def sectionRange (f : Nat → Word) (l : Nat) (x : Section) : Bool :=
  let b := x.body
  let w (i : Nat) : Word := f (b + i)
  (match onceBody x.ty with
    | some n => x.len == n
    | none => true) &&
  match x.ty with
  | 1 => zeroBits 0xFFFC (w 0) && inRange 1 255 (w 2) && inRange 0 15 (w 3) && zeroBits 0x3FFF (w 4) &&
      inRange 6 65535 (w 5) && zeroBits 0xFFFC (w 6) && inRange 1 1000 (w 7)
  | 2 => (List.range 17).all (fun i => inRange 0 4 (w i))
  | 3 => monRange f b
  | 4 => angleRange f b
  | 5 => (List.range 8).all (kernelFnRange f b l)
  | 6 => mapRange f b x.len
  | 7 => inRange 1 0xFE (w 0) && inRange 0 0xFE (w 1) && inRange 0 3840 (w 2) && inRange 0 1280 (w 3) &&
      inRange 500 20000 (w 4) && w 6 == 0 && w 7 == 0
  | 8 => (List.range 14).all (stageRange f b)
  | 9 => fld (w 0) 14 2 != 3 && inRange 0 6000 (w 1) && inRange 0 16000 (w 2) && w 3 == 0
  | 10 => (inRange 0 63 (w 0) || w 0 == 0xFFFF) && inRange 0 2 (w 1) && inRange 0 2 (w 2) && inRange 0 255 (w 3)
  | _ => true

/-- The MAP INST values KERNEL and MAQUETTE name, for enabled functions (R171, R760). -/
def namedMaps (f : Nat → Word) (k m : Nat) : List Nat :=
  let fn (i : Nat) : List Nat :=
    if !(f (k + 4 * i)).getLsbD 15 then []
    else
      let own := if i = 4 ∨ i = 7 then [] else [fld (f (k + 4 * i)) 0 8]
      let p0 := f (k + 4 * i + 2)
      let p1 := f (k + 4 * i + 3)
      own ++ (if i = 0 then [fld p0 8 8, fld p1 8 8] else if i = 1 then [fld p1 8 8] else [])
  ((List.range 8).flatMap fn ++ [(f m).toNat, (f (m + 1)).toNat]).filter (· != 0)

/-- Checks 8 to 11 of R173. -/
def bodyCheck (f : Nat → Word) (len : Nat) : Nat :=
  match sectionsOf f len with
  | none => 8
  | some l =>
    if !structureOk l then 8
    else if !requiredOk l then 9
    else
      let cyc := match secBody l 4 with
        | some b => if f (b + 3) = 1 then 46080 else 23040
        | none => 23040
      if !l.all (sectionRange f cyc) then 10
      else
        match secBody l 5, secBody l 7 with
        | some k, some m =>
          if (namedMaps f k m).all (fun i => l.any (fun x => x.ty == 6 && x.inst == i)) then 0 else 11
        | _, _ => 9

/-! ### CRC (R167) -/

def wordBytes (w : Word) : List Byte := [w.extractLsb' 0 8, w.extractLsb' 8 8]

def wordsFrom (f : Nat → Word) (a n : Nat) : List Word := (List.range n).map (fun i => f (a + i))

def armCrc (f : Nat → Word) (len : Nat) : Pair :=
  crc32 ((wordsFrom f 0 14 ++ wordsFrom f 16 (len - 18)).flatMap wordBytes)

/-! ### The check (R173) -/

def armLen (f : Nat → Word) : Nat := (f 6).toNat
def armGen (f : Nat → Word) : Nat := (mkPair (f 4) (f 5)).toNat

def magicOk (f : Nat → Word) : Bool := f 0 == 0x4A46 && f 1 == 0x5241

/-- LEN lies in its range for slots of `kib` KiB (R166, R192). -/
def lenOk (f : Nat → Word) (kib : Nat) : Bool :=
  decide (18 ≤ armLen f) && decide (armLen f ≤ 4096) && decide (2 * armLen f ≤ kib * 1024)

/-- The check of R173 in full, for a slot of `kib` KiB. -/
def slotCheck (f : Nat → Word) (kib : Nat) : Nat :=
  if !magicOk f then 1
  else if f 2 ≠ 1 ∨ f 3 ≠ 0x10 then 2
  else if f 7 ≠ 0x4816 ∨ siliconRev < (f 8).toNat then 3
  else if armGen f = 0 ∨ armGen f = 0xFFFFFFFF then 4
  else if !lenOk f kib then 5
  else if f 14 ≠ 0x5AC3 ∨ f 15 ≠ 0x3CA5 then 6
  else if armCrc f (armLen f) ≠ mkPair (f (armLen f - 2)) (f (armLen f - 1)) then 7
  else bodyCheck f (armLen f)

/-- The check of R173 without its slot-only steps. -/
def copyCheck (f : Nat → Word) (kib : Nat) : Nat :=
  if !magicOk f then 1
  else if f 2 ≠ 1 ∨ f 3 ≠ 0x10 then 2
  else if f 7 ≠ 0x4816 ∨ siliconRev < (f 8).toNat then 3
  else if !lenOk f kib then 5
  else bodyCheck f (armLen f)

/-! ### The working copy -/

/-- The sections of the working copy; none where the walk fails. -/
def wcSections (s : State) : List Section := (sectionsOf (wcWord s) (armLen (wcWord s))).getD []

/-- Word `i` of the body of a section type that appears once, if the section is there. -/
def wcSec (s : State) (ty i : Nat) : Option Word := (secBody (wcSections s) ty).map (fun b => wcWord s (b + i))

/-- The body start of the MAP section of an instance. -/
def wcMap (s : State) (inst : Nat) : Option Nat :=
  ((wcSections s).find? (fun x => x.ty == 6 && x.inst == inst)).map (·.body)

end Sys2Proof.Machine
end

