-- ==== Sys2Proof/Machine/Maps.lean ====
section
/-!
DEFINITION. The bilinear lookup of TMAP and of the Control Kernel (spec/10_tiles_and_maps.md, R467, R468;
spec/17_kernel_and_duty_split.md, R759, R1059).
-/

namespace Sys2Proof.Machine

/-- An axis result: the cell, the fraction in 1/65536, and whether the input was clamped. -/
structure AxisPos where
  i : Nat
  f : Nat
  clamped : Bool
deriving DecidableEq, Repr

/-- The axis step of R468 over breakpoints `b 1 .. b (n - 1)`; none is BKPT. -/
def axisPos (b : Nat → Nat) (n x : Nat) : Option AxisPos :=
  let x1 := max x (b 1)
  let x2 := min x1 (b (n - 1))
  let cl := decide (x < b 1) || decide (b (n - 1) < x1)
  if n = 2 then some ⟨1, 0, cl⟩
  else
    let i := ((List.range (n - 2)).reverse.find? (fun k => decide (b (k + 1) ≤ x2))).getD 0 + 1
    if b (i + 1) ≤ b i then none
    else some ⟨i, (x2 - b i) * 65536 / (b (i + 1) - b i), cl⟩

/-- The lookup of R468 on a table of `rows` × `cols` words: the result, and C; none is BKPT. -/
def mapLookup (v : Nat → Nat → Word) (rows cols : Nat) (x y : Word) : Option (Word × Bool) :=
  let signed := (v 0 0).getLsbD 15
  let val (r c : Nat) : Int := if signed then sgn (v r c) else (v r c).toNat
  match axisPos (fun c => (v 0 c).toNat) cols x.toNat, axisPos (fun r => (v r 0).toNat) rows y.toNat with
  | some ax, some ay =>
    let i' := if 2 < cols then ax.i + 1 else ax.i
    let j' := if 2 < rows then ay.i + 1 else ay.i
    let a := val ay.i ax.i
    let b := val ay.i i'
    let c := val j' ax.i
    let d := val j' i'
    let p := a * 65536 + (b - a) * ax.f
    let q := c * 65536 + (d - c) * ax.f
    let r := p * 65536 + (q - p) * ay.f
    some (BitVec.ofInt 16 ((r + 2 ^ 31) / 2 ^ 32), ax.clamped || ay.clamped)
  | _, _ => none

/-- The Kernel port reads a working-copy word for function `k`: a wrong parity is recorded and the word used as read
(R1059). -/
def kernCheck (k : Fin 8) (a : Nat) (s : State) : State := if parityBad s a then parityError (kernReader k) a s else s

/-- The working-copy words a Kernel lookup reads: the map's first three words, its breakpoints and its four body
values. -/
def mapWords (s : State) (b : Nat) (x y : Word) : List Nat :=
  let rows := (wcWord s b).toNat
  let cols := (wcWord s (b + 1)).toNat
  let at_ (r c : Nat) : Nat := b + 4 + r * cols + c
  let v (r c : Nat) : Nat := (wcWord s (at_ r c)).toNat
  let cell := match axisPos (v 0) cols x.toNat, axisPos (fun r => v r 0) rows y.toNat with
    | some ax, some ay =>
      [at_ ay.i ax.i, at_ ay.i (ax.i + 1), at_ (ay.i + 1) ax.i, at_ (ay.i + 1) (ax.i + 1)]
    | _, _ => []
  [b, b + 1, b + 2] ++ (List.range cols).map (at_ 0) ++ ((List.range rows).drop 1).map (fun r => at_ r 0) ++ cell

/-- Kmap(i, x, y) as a number, read with the section's SIGNED bit (R759); a section that is not there, or whose axes
break R170, gives a free value. -/
def kmap (k : Fin 8) (inst : Nat) (x y : Word) (s : State) : Int × State :=
  let free (s : State) : Int × State := let r := takeWord s; (r.1.toNat, r.2)
  match wcMap s inst with
  | none => free s
  | some b =>
    let cols := (wcWord s (b + 1)).toNat
    let s := (mapWords s b x y).foldl (fun s i => kernCheck k (0x16000 + i) s) s
    match mapLookup (fun r c => if r = 0 ∧ c = 0 then wcWord s (b + 2) else wcWord s (b + 4 + r * cols + c))
        (wcWord s b).toNat cols x y with
    | none => free s
    | some (w, _) => (if (wcWord s (b + 2)).getLsbD 15 then sgn w else w.toNat, s)

end Sys2Proof.Machine
end

