-- ==== Sys2Proof/Machine/Kern.lean ====
section
/-!
DEFINITION. The Control Kernel (spec/17_kernel_and_duty_split.md, R752-R799).
-/

namespace Sys2Proof.Machine

/-! ### Configuration and inputs (R752-R760) -/

def setKern (f : Kern → Kern) (s : State) : State := { s with kern := f s.kern }

/-- Function `k` is enabled, and its mode is A (KERN.MODE). -/
def kEn (s : State) (k : Nat) : Bool := regBit s Reg.kern_MODE (8 + k)
def kModeA (s : State) (k : Nat) : Bool := regBit s Reg.kern_MODE k

/-- Fk takes its R216 value: it is fenced, or for F3 a bridge is (R217, R219). -/
def kFenced (s : State) (k : Nat) : Bool :=
  outOfService s (fbKern k) || (k == 3 && (outOfService s 12 || outOfService s 13))

def kfn (s : State) (k : Fin 8) : KFn := s.kern.fn[k]
def kp0 (s : State) (k : Fin 8) : Word := (kfn s k).p0
def kp1 (s : State) (k : Fin 8) : Word := (kfn s k).p1

/-- Cylinders (ANG.WHEEL.NCYL). -/
def nCyl (s : State) : Nat := s.ang.cfg.ncyl

/-- A per-cylinder function (R753). -/
def perCyl (k : Nat) : Bool := k == 0 || k == 1 || k == 2 || k == 7

/-- The pair (k, n) exists: one pigeonhole, one commit per lap. -/
def kPair (s : State) (k n : Nat) : Bool := decide (k < 8) && (n == 0 || (perCyl k && decide (n < nCyl s)))

def tdcOf (s : State) (n : Nat) : Nat := if h : n < 4 then s.ang.cfg.tdc[n] else 0

/-- x − y modulo L, for angles. -/
def angSub (l x y : Nat) : Nat := (x % l + l - y % l) % l

/-- C(k,n) of R753. -/
def commitAngle (s : State) (k : Fin 8) (n : Nat) : Nat := angSub (angL s) (tdcOf s n) (kfn s k).deadline

/-- The request lead of Fk; values of L or above count as 0 (KERN.REQk). -/
def reqLead (s : State) (k : Fin 8) : Nat :=
  let r := (reg s (Reg.kern_REQ k)).toNat
  if angL s ≤ r then 0 else r

def resVal (s : State) (c : Nat) : Word := wd (regF s (Reg.adc_RES c) 0 14)
def loadCh (s : State) : Nat := fld (kp0 s 0) 4 4
def tempCh (s : State) : Nat := fld (kp0 s 0) 0 4
def lamCh (s : State) : Nat := fld (kp0 s 5) 12 4
def inLoad (s : State) : Word := resVal s (loadCh s)
def inTemp (s : State) : Word := resVal s (tempCh s)
def inRpm (s : State) : Word := wd s.ang.rpm
def inVbat (s : State) : Word := reg s (Reg.mon_VAL 3)

/-- TR of R761: the F5 value in force. -/
def trimInForce (s : State) : Int :=
  if !kEn s 5 || kFenced s 5 || s.modes.mode == .limp then 0 else s.kern.v5

/-! ### The H values (R761, R762) -/

/-- An H computation: the value, and e and act of F3 and F4 for R776. -/
structure HRes where
  h : Int
  e : Int := 0
  act : Bool := false

/-- F0 with base map `inst` (R761, R216). -/
def fuelH (inst : Nat) (s : State) : Int × State :=
  let (b, s) := kmap 0 inst (inRpm s) (inLoad s) s
  let tc := fld (kp0 s 0) 8 8
  let dt := fld (kp1 s 0) 8 8
  let (kt, s) := if tc = 0 then ((16384 : Int), s) else kmap 0 tc (inTemp s) (inRpm s) s
  let (d, s) := if dt = 0 then ((0 : Int), s) else kmap 0 dt (inVbat s) (inRpm s) s
  (b * kt * (65536 + trimInForce s) / 2 ^ 30 + d, s)

/-- The knock decision of F2 for cylinder `n` (R762, R796). -/
def knockDecision (n : Fin 4) (s : State) : State :=
  match s.kern.knock[n] with
  | none => s
  | some w =>
    if s.now ≤ w.tick then s
    else
      let s := setKern (fun q => { q with knock := q.knock.set n none }) s
      if w.count = 0 ∨ w.short then s
      else
        let (t, s) := kmap 2 (kfn s 2).map (inRpm s) (inLoad s) s
        let r := s.kern.retard[n]
        let p1 := kp1 s 2
        let r' := if (w.kint : Int) > 256 * t then min (r + 16 * fld p1 8 8) (128 * fld p1 0 4) else r - 4 * fld p1 4 4
        setKern (fun q => { q with retard := q.retard.set n r' }) s

def idleH (s : State) : HRes × State :=
  let (t, s) := kmap 3 (kfn s 3).map (inTemp s) (inLoad s) s
  let rpm : Int := s.ang.rpm
  let e := clampI (-2000) 2000 (t - rpm)
  let act := decide (rpm ≤ t + 16 * fld (kp1 s 3) 0 8)
  let i := if act then clampI (-32768) 32767 (s.kern.i3 + fld (kp0 s 3) 0 8 * e / 16) else s.kern.i3
  let ff : Int := (s.kern.maq[5]).toNat
  let h := clampI 0 65535 (ff + i + if act then fld (kp0 s 3) 8 8 * e else 0)
  (⟨h, e, act⟩, setKern (fun q => { q with i3 := i }) s)

/-- DMAX of F4; 0 means FFFFh (R760). -/
def dMax (s : State) : Nat := let d := (kp1 s 4).toNat; if d = 0 then 0xFFFF else d

def chargeH (s : State) : HRes × State :=
  let v : Int := (inVbat s).toNat
  let sp : Int := s.kern.sp
  let raw := match regF s Reg.plinth_CHGCFG 14 2 with
    | 1 => v - sp
    | 2 => sp - v
    | _ => 0
  let e := clampI (-4000) 4000 raw
  let i := clampI 0 (dMax s) (s.kern.i4 + fld (kp0 s 4) 0 8 * e / 16)
  (⟨clampI 0 (dMax s) (fld (kp0 s 4) 8 8 * e + i), e, true⟩, setKern (fun q => { q with i4 := i }) s)

def lambdaH (s : State) : Int × State :=
  if fld (kp1 s 5) 0 8 * 64 ≤ s.ang.rpm ∧ s.kern.cut = false then
    let (t, s) := kmap 5 (kfn s 5).map (inRpm s) (inLoad s) s
    let lam : Int := (resVal s (lamCh s)).toNat
    let m : Int := 256 * fld (kp1 s 5) 8 8
    let tr := clampI (-m) m (s.kern.trim - fld (kp0 s 5) 0 8 * (lam - t) / 256)
    (tr, setKern (fun q => { q with trim := tr }) s)
  else (s.kern.trim, s)

def limitH (s : State) : Int × State :=
  let (h, s) := if (kfn s 6).map = 0 then (((kp0 s 6).toNat : Int), s)
    else kmap 6 (kfn s 6).map (inTemp s) (inLoad s) s
  (h, setKern (fun q => { q with h6 := some h.toNat }) s)

/-- The H value of (k, n) (R761). -/
def hValue (k : Fin 8) (n : Fin 4) (s : State) : HRes × State :=
  match k.val with
  | 0 => let (h, s) := fuelH (kfn s 0).map s; (⟨h, 0, false⟩, s)
  | 1 => let (h, s) := kmap 1 (kfn s 1).map (inRpm s) (inLoad s) s; (⟨h, 0, false⟩, s)
  | 2 => let s := knockDecision n s; (⟨s.kern.retard[n], 0, false⟩, s)
  | 3 => idleH s
  | 4 => chargeH s
  | 5 => let (h, s) := lambdaH s; (⟨h, 0, false⟩, s)
  | 6 => let (h, s) := limitH s; (⟨h, 0, false⟩, s)
  | _ => (⟨s.kern.f7[n].e, 0, false⟩, s)

/-- The H value computed for a request leaves the H state as it was (R779). -/
def hValueOnly (k : Fin 8) (n : Fin 4) (s : State) : Int × State :=
  let (r, s') := hValue k n s
  (r.h, { s' with kern := s.kern })

/-! ### Pigeonholes (R779-R783) -/

def phAddr (k : Fin 8) (n : Fin 4) (i : Nat) : Nat := 0x43100 + 8 * (4 * k.val + n.val) + i
def phWord (s : State) (k : Fin 8) (n : Fin 4) (i : Nat) : Word := reg s (phAddr k n i)
def setPh (k : Fin 8) (n : Fin 4) (i : Nat) (v : Word) (s : State) : State := setReg (phAddr k n i) v s

/-- The bits of pigeonhole word 6. -/
abbrev phFULL : Nat := 15
abbrev phREQ : Nat := 14
abbrev phLATE : Nat := 13
abbrev phSTALE : Nat := 12

/-- Bit 4k + n of KERN.PHPEND. -/
def setPhPend (k : Fin 8) (n : Fin 4) (b : Bool) (s : State) : State :=
  let i := 4 * k.val + n.val
  setRegBit (Reg.kern_PHPEND + i / 16) (i % 16) b s

/-- FULL and REQ of every pigeonhole cleared (R786). -/
def clearPh (s : State) : State :=
  let s := (List.finRange 8).foldl (fun s k => (List.finRange 4).foldl (fun s n =>
    setPh k n 6 (putFld (phWord s k n 6) 14 2 0) s) s) s
  setReg32 Reg.kern_PHPEND 0 s

/-! ### Cuts (R772) -/

def fuelCut (s : State) : Bool :=
  s.kern.cut && ((kp1 s 6).getLsbD 0 || (s.modes.mode == .limp && fld (kp1 s 6) 0 2 == 0))
def sparkCut (s : State) : Bool := s.kern.cut && (kp1 s 6).getLsbD 1

/-- LIM in force by the mode (R772). -/
def limInForce (s : State) : Option Nat :=
  let w4 := (s.kern.maq[4]).toNat
  match s.modes.mode with
  | .limp => some (if kEn s 6 then min w4 (s.kern.h6.getD w4) else w4)
  | .run => s.kern.v6
  | .setup => s.kern.lim

/-- CUT evaluated, at an accepted tooth or at te (R772). -/
def evalCut (s : State) : State :=
  let s := setKern (fun q => { q with lim := limInForce s }) s
  let was := s.kern.cut
  let now :=
    if s.modes.mode != .limp && !kEn s 6 then false
    else match s.kern.lim with
      | none => was
      | some l =>
        if l < s.ang.rpm then true
        else if s.ang.rpm + 16 * fld (kp1 s 6) 8 8 < l then false
        else was
  if was = now then s else signal 14 (setKern (fun q => { q with cut := now }) s)

/-! ### Entries (R766-R770) -/

def kEntry (s : State) (k n what : Nat) : Option Nat :=
  (s.kern.ents.find? (fun e => e.k == k && e.n == n && e.what == what)).map (·.idx)

/-- The four words of an entry, written in one tick (R768). -/
def putEntry (i : Nat) (w0 w1 w2 w3 : Nat) (s : State) : State :=
  setEntWord i 3 (wd w3) (setEntWord i 2 (wd w2) (setEntWord i 1 (wd w1) (setEntWord i 0 (wd w0) s)))

/-- Word 3 of an entry of Fk: OWN 8h + k, CYC EVERY, LV 0 (R766). -/
def kWord3 (k : Nat) : Nat := (8 + k) * 0x1000 + 0x400

/-- The Kernel cancels an entry of its own; a dwell or pulse already started goes on (R770, R795). -/
def kernCancel (i : Nat) (s : State) : State :=
  if entLive (ent s i) then setEnt i { (ent s i) with st := .cancelled, opened := false, due := none } s else s

/-- The Dmax of R767. -/
def kDmax (s : State) : Nat :=
  (List.finRange 8).foldl (fun m (k : Fin 8) => if kEn s k then max m (kfn s k).deadline else m) 0

/-- The words of the entries armed at allocation: KNOCK_WIN and ADC_TRIG (R767). -/
def placeFixed (what n i : Nat) (s : State) : State :=
  let l := angL s
  if what = 3 then
    putEntry i ((tdcOf s n + 64 * fld (kp0 s 2) 8 8) % l) (0x6000 + n % 2) (64 * fld (kp0 s 2) 0 8) (kWord3 2) s
  else
    let bit (c : Nat) : Word := wd (2 ^ c)
    let mask := bit (loadCh s) ||| bit (tempCh s) ||| (if kEn s 5 then bit (lamCh s) else 0)
    putEntry i (angSub l (angSub l (tdcOf s n) (kDmax s)) 1280) 0x5000 mask.toNat (kWord3 0) s

/-- The entries to allocate, in order (R766): function, cylinder, which. -/
def allocOrder (s : State) : List (Nat × Nat × Nat) :=
  let ns := List.range (nCyl s)
  let any := (List.range 8).any (kEn s)
  (if kEn s 0 then ns.map (fun n => (0, n, 0)) else []) ++
  (if kEn s 1 then ns.flatMap (fun n => [(1, n, 1), (1, n, 2)]) else []) ++
  (if kEn s 2 then ns.map (fun n => (2, n, 3)) else []) ++
  (if any then ns.map (fun n => (0, n, 4)) else [])

/-- The lowest-index FREE entry of the partition. -/
def freeKpart (s : State) : Option Nat := (List.range (kpart s)).find? (fun i => (ent s i).st == .free)

/-- The Kernel allocates its entries (R766, R654). -/
def allocGo : List (Nat × Nat × Nat) → List Nat → State → State
  | [], _, s => s
  | (k, n, what) :: t, failed, s =>
    if failed.contains k then allocGo t failed s
    else
      match freeKpart s with
      | none =>
        let s := raise { cls := clsEvent, detail := wd (0x2000 + k) } (signal 11 s)
        allocGo t (k :: failed) (hwSet Reg.kern_STAT (wd (2 ^ k)) s)
      | some i =>
        let s := setKern (fun q => { q with ents := q.ents ++ [⟨k, n, what, i⟩] }) s
        let s := setEnt i { st := .cancelled } s
        let s :=
          if what = 3 ∨ what = 4 then armEnt i (placeFixed what n i s)
          else putEntry i 0 0 0 (kWord3 k) s
        allocGo t failed s

/-- Allocation where R766 asks for it. -/
def kernAlloc (s : State) : State :=
  if driving s && angSync s && s.kern.ents.isEmpty && !frozenBlock s 2 then allocGo (allocOrder s) [] s else s

/-- The KNOCK_WIN and ADC_TRIG entries armed again after a gain of synchronisation (R767). -/
def kernRearm (s : State) : State :=
  (s.kern.ents.filter (fun e => e.what == 3 || e.what == 4)).foldl
    (fun s e => if entLive (ent s e.idx) then s else armEnt e.idx s) s

/-- Every entry the Kernel owns becomes FREE (R773). -/
def kernFree (s : State) : State :=
  let s := s.kern.ents.foldl (fun s e => setEnt e.idx {} s) s
  setKern (fun q => { q with ents := [] }) s

/-- The angle of an event with lead `lam` before TDCn, after the clip of R769. -/
def placeAngle (n : Nat) (lam : Int) (s : State) : Nat × State :=
  let l := angL s
  let d : Int := angSub l (tdcOf s n) (angleNow s)
  let (lam, s) := if d - 64 < lam then (d - 64, hwCount Reg.kern_CLIP s) else (lam, s)
  (((tdcOf s n : Int) - lam).emod l |>.toNat, s)

/-- ceil(W × 65536 / RATE). -/
def auOf (s : State) (w : Nat) : Nat := if s.ang.rate = 0 then 0 else (w * 65536 + s.ang.rate - 1) / s.ang.rate

/-- WSH of R770. -/
def wshOf (w : Nat) : Nat := ((List.range 8).find? (fun k => decide (w / 2 ^ k ≤ 0xFFFF))).getD 7

/-- F0 places or cancels the pulse of cylinder `n` (R764, R770). -/
def placeFuel (n : Nat) (v : Nat) (s : State) : State :=
  match kEntry s 0 n 0 with
  | none => s
  | some i =>
    if v = 0 || fuelCut s || outOfService s n || outOfService s (n + 4) then kernCancel i s
    else
      let w := 160 * v
      let (a, s) := placeAngle n (192 * fld (kp1 s 0) 0 8 + auOf s w) s
      let k := wshOf w
      armEnt i (putEntry i a (0x3000 + k * 256 + 4 + n) (w / 2 ^ k) (kWord3 0) s)

/-- F1 places or cancels the dwell of cylinder `n` (R763, R770). -/
def placeSpark (n : Fin 4) (v1 : Int) (s : State) : State :=
  match kEntry s 1 n 1, kEntry s 1 n 2 with
  | some ic, some is =>
    if sparkCut s || outOfService s n then kernCancel is (kernCancel ic s)
    else
      let dw := fld (kp1 s 1) 8 8
      let (d, s) := if dw = 0 then (((kp0 s 1).toNat : Int), s) else kmap 1 dw (inVbat s) (inRpm s) s
      let ls := v1 - (if kEn s 2 then s.kern.v2[n] else 0)
      let ld := ls + min ((auOf s (1600 * d.toNat) : Nat) : Int) (((angL s / nCyl s : Nat) : Int) - 1280)
      let (a, s) := placeAngle n ls s
      let (b, s) := placeAngle n ld s
      let s := armEnt ic (putEntry ic a (0x2000 + n.val) 0 (kWord3 1) s)
      armEnt is (putEntry is b (0x1000 + n.val) 0 (kWord3 1) s)
  | _, _ => s

/-! ### Commits (R754-R757, R774-R785) -/

/-- A pigeonhole value as a number: F1, F5 and F7 are signed (R753). -/
def kNum (k : Nat) (w : Word) : Int := if k = 1 ∨ k = 5 ∨ k = 7 then sgn w else w.toNat

/-- The value of Fk's row of R216, from H value `h`. -/
def limpValue (k : Fin 8) (h : Int) (s : State) : Int × State :=
  match k.val with
  | 0 => fuelH (s.kern.maq[0]).toNat s
  | 1 => if s.kern.maq[1] = 0 then (((s.kern.maq[2]).toNat : Int), s)
    else kmap 1 (s.kern.maq[1]).toNat (inRpm s) (inLoad s) s
  | 2 => (((s.kern.maq[3]).toNat : Int), s)
  | 3 => (((s.kern.maq[5]).toNat : Int), s)
  | 5 => (0, s)
  | 6 => (min ((s.kern.maq[4]).toNat : Int) h, s)
  | _ => (h, s)

/-- The clamps of R775 on values of SRC 01b and 10b. -/
def clampV (k : Fin 8) (v : Int) (s : State) : Int :=
  match k.val with
  | 0 => min 52428 v
  | 1 => let m := fld (kp1 s 1) 0 8; min (64 * (if m = 0 then 60 else m : Nat)) v
  | 2 => min (128 * fld (kp1 s 2) 0 4 : Nat) v
  | 4 => min (dMax s) v
  | 5 => let m : Int := 256 * fld (kp1 s 5) 8 8; clampI (-m) m v
  | 6 => clampI 500 20000 v
  | _ => v

/-- The value chosen at a commit (R774): the value, its SRC, whether the commit is late, whether it came from H. -/
structure Chosen where
  v : Int
  src : Nat
  late : Bool := false
  fromH : Bool := false

def choose (k : Fin 8) (n : Fin 4) (h : Int) (s : State) : Chosen × State :=
  if inSetup s then (⟨clampV k h s, 1, false, true⟩, s)
  else if s.modes.mode == .limp || kFenced s k then
    let (v, s) := limpValue k h s
    (⟨v, 3, false, k == 4 || k == 7⟩, s)
  else if !kModeA s k then (⟨clampV k h s, 1, false, true⟩, s)
  else if (phWord s k n 6).getLsbD phFULL then (⟨clampV k (kNum k (phWord s k n 4)) s, 2, false, false⟩, s)
  else if k = 7 then (⟨s.kern.v7[n], 3, false, false⟩, s)
  else (⟨clampV k h s, 1, true, true⟩, s)

/-- The value stored and put in force (R771, R756 step 4). -/
def applyValue (k : Fin 8) (n : Fin 4) (v : Int) (s : State) : State :=
  match k.val with
  | 2 => setKern (fun q => { q with v2 := q.v2.set n v }) s
  | 3 =>
    let d := v.toNat
    let s := setKern (fun q => { q with v3 := d }) s
    let s := (List.range 4).foldl (fun s i => if stageLimit s (8 + i) / 4096 = 2 then setReg (Reg.out_PWMD i) (wd d) s else s) s
    if stageEnabled s 12 && stageEnabled s 13 then setRegF Reg.out_STEPTGT 0 14 (d * stageLimit s 12 / 65536) s else s
  | 4 => setReg Reg.plinth_CHGDUTY (wd v.toNat) (setKern (fun q => { q with v4 := v.toNat }) s)
  | 5 => setKern (fun q => { q with v5 := v }) s
  | 6 =>
    let s := setKern (fun q => { q with v6 := some v.toNat }) s
    setKern (fun q => { q with lim := limInForce s }) s
  | 7 => setKern (fun q => { q with v7 := q.v7.set n v }) s
  | _ => s

/-- The H state set as if H had produced `v` (R776). -/
def bumpless (k : Fin 8) (n : Fin 4) (r : HRes) (v : Int) (s : State) : State :=
  match k.val with
  | 2 => setKern (fun q => { q with retard := q.retard.set n v.toNat }) s
  | 3 =>
    let ff : Int := (s.kern.maq[5]).toNat
    let i := clampI (-32768) 32767 (v - ff - if r.act then fld (kp0 s 3) 8 8 * r.e else 0)
    setKern (fun q => { q with i3 := i }) s
  | 4 => setKern (fun q => { q with i4 := clampI 0 (dMax s) (v - fld (kp0 s 4) 8 8 * r.e) }) s
  | 5 => setKern (fun q => { q with trim := v }) s
  | _ => s

/-- A late commit of Fk for `n` (R784, R785), or an on-time one with an A value. -/
def lateness (k : Fin 8) (n : Fin 4) (c : Chosen) (s : State) : State :=
  if c.late then
    let s := signal 12 (hwCount (Reg.kern_LATE k) s)
    let s := if s.kern.lateNoted[k] then s
      else note clsKernel (wd (0x1000 + 0x100 * k.val + n.val)) (setKern (fun q => { q with lateNoted := q.lateNoted.set k true }) s)
    let lim := regF s Reg.kern_LATELIM 0 8
    if lim = 0 then s
    else
      let m := s.kern.lateRun[k] + 1
      if lim ≤ m then
        raise { cls := clsKernel, detail := wd (0x2000 + 0x100 * k.val), unit := some (.bit ⟨24 + k.val, by omega⟩) }
          (setKern (fun q => { q with lateRun := q.lateRun.set k 0 }) s)
      else setKern (fun q => { q with lateRun := q.lateRun.set k m }) s
  else if c.src = 2 then
    setKern (fun q => { q with lateRun := q.lateRun.set k 0, lateNoted := q.lateNoted.set k false }) s
  else s

/-- A word from a value; a value outside the format of its function is free. -/
def valWord (k : Nat) (v : Int) (s : State) : Word × State :=
  let ok := if k = 1 ∨ k = 5 ∨ k = 7 then decide (-32768 ≤ v ∧ v ≤ 32767) else decide (0 ≤ v ∧ v ≤ 65535)
  if ok then (BitVec.ofInt 16 v, s) else takeWord s

/-- The commit of (k, n) (R756, R780, R783). -/
def kernCommit (k : Fin 8) (n : Fin 4) (s : State) : State :=
  let (r, s) := hValue k n s
  let (c, s) := choose k n r.h s
  let (w, s) := valWord k c.v s
  let v := kNum k w
  let p := phWord s k n 6
  let full := p.getLsbD phFULL && c.src != 2
  let st := wd (full.toNat * 0x8000 + c.late.toNat * 0x2000 + (p.getLsbD phSTALE).toNat * 0x1000 + c.src * 0x400
    + (fld p 0 8 + 1) % 256)
  let s := setPhPend k n false (setPh k n 6 st (setPh k n 7 w s))
  let s := applyValue k n v s
  let s := if c.fromH then s else bumpless k n r v s
  let s := lateness k n c s
  if inSetup s then s
  else if k = 0 then placeFuel n v.toNat s
  else if k = 1 then placeSpark n v s
  else s

/-- Source 15 of a cycle boundary, once every commit that fell due before it is done (R757). -/
def calcSignal (s : State) : State :=
  if s.kern.calcDue && s.kern.owed.isEmpty then signal 15 (setKern (fun q => { q with calcDue := false }) s) else s

/-- The distance of angle `c` past the last tooth, modulo L. -/
def pastTooth (s : State) (c : Nat) : Nat := angSub (angL s) c s.ang.tang

/-- Angle `c` is reached within the interval under way, after the tooth. -/
def inInterval (s : State) (c : Nat) : Bool :=
  angSync s && decide (0 < pastTooth s c) && decide (pastTooth s c < s.ang.spanNext)

/-- The tick a commit falls due in (R754): now where it fell due at a tooth. -/
def commitTick (s : State) (k : Fin 8) (n : Fin 4) : Nat :=
  if s.kern.owed.contains (k.val, n.val) then s.now else tickReached s (pastTooth s (commitAngle s k n))

/-- A request for (k, n) may be posted or filled (R781). -/
def reqAllowed (s : State) (k : Fin 8) : Bool :=
  s.modes.mode == .run && angSync s && !kFenced s k && kEn s k &&
    (kModeA s k || (regBit s Reg.kern_MPEND (8 + k.val) && regBit s Reg.kern_MPEND k.val))

/-- A request is posted (R781). -/
def postRequest (k : Fin 8) (n : Fin 4) (s : State) : State :=
  if !reqAllowed s k then s
  else
    let (h, s) := hValueOnly k n s
    let (w, s) := valWord k h s
    let s := setPh k n 3 w (setPh k n 2 (inTemp s) (setPh k n 1 (inLoad s) (setPh k n 0 (inRpm s) s)))
    let s := setPh k n 6 (putBit (phWord s k n 6) phREQ true) (setPhPend k n true s)
    let o := fld (reg32 s Reg.kern_PHOWN) (4 * k.val) 4
    if 8 ≤ o then setEvent (thrIdx o) 11 s else s

/-- The commit of (k, n) runs, if it is due; a request with lead 0 follows it (R754, R781). -/
def commitDue (k : Fin 8) (n : Fin 4) (s : State) : State :=
  let p := (k.val, n.val)
  let owed := s.kern.owed.contains p
  let here := inInterval s (commitAngle s k n) && !s.kern.done.contains p &&
    decide (tickReached s (pastTooth s (commitAngle s k n)) ≤ s.now)
  if !kEn s k || !kPair s k n || !angSync s || frozenBlock s 2 || !(owed || here) then s
  else
    let s := setKern (fun q => { q with
      owed := q.owed.filter (· != p), done := if owed then q.done else p :: q.done }) s
    let s := kernCommit k n s
    calcSignal (if reqLead s k = 0 then postRequest k n s else s)

def reqAngle (s : State) (k : Fin 8) (n : Nat) : Nat := angSub (angL s) (commitAngle s k n) (reqLead s k)

def requestTick (s : State) (k : Fin 8) (n : Fin 4) : Nat :=
  if s.kern.owedReq.contains (k.val, n.val) then s.now else tickReached s (pastTooth s (reqAngle s k n))

/-- The request of (k, n) falls due (R781). -/
def requestDue (k : Fin 8) (n : Fin 4) (s : State) : State :=
  let p := (k.val, n.val)
  let owed := s.kern.owedReq.contains p
  let here := inInterval s (reqAngle s k n) && !s.kern.doneReq.contains p &&
    decide (tickReached s (pastTooth s (reqAngle s k n)) ≤ s.now)
  if !kEn s k || !kPair s k n || !angSync s || frozenBlock s 2 || reqLead s k = 0 || !(owed || here) then s
  else
    postRequest k n (setKern (fun q => { q with
      owedReq := q.owedReq.filter (· != p), doneReq := if owed then q.doneReq else p :: q.doneReq }) s)

/-- Angle `c` lies after `a` and at or before `b`, going forward (R754). -/
def passed (l a b c : Nat) : Bool := decide (0 < angSub l c a) && decide (angSub l c a ≤ angSub l b a)

def allPairs : List (Fin 8 × Fin 4) := (List.finRange 8).flatMap (fun k => (List.finRange 4).map (fun n => (k, n)))

/-- A tooth passes from `a` to its own angle: the commits and requests not yet done on the way are owed (R754, R781). -/
def kernPassed (a : Nat) (s : State) : State :=
  if frozenBlock s 2 then setKern (fun q => { q with done := [], doneReq := [] }) s else
  let l := angL s
  let b := s.ang.tang
  let live := allPairs.filter (fun p => kEn s p.1 && kPair s p.1 p.2)
  let c := live.filter (fun p => passed l a b (commitAngle s p.1 p.2) && !s.kern.done.contains (p.1.val, p.2.val)
    && !s.kern.owed.contains (p.1.val, p.2.val))
  let r := live.filter (fun p => reqLead s p.1 != 0 && passed l a b (reqAngle s p.1 p.2)
    && !s.kern.doneReq.contains (p.1.val, p.2.val) && !s.kern.owedReq.contains (p.1.val, p.2.val))
  setKern (fun q => { q with
    owed := q.owed ++ c.map (fun p => (p.1.val, p.2.val)), done := []
    owedReq := q.owedReq ++ r.map (fun p => (p.1.val, p.2.val)), doneReq := [] }) s

/-- What a sync loss ends: commits not begun, and windows of F7 (R754, R765, R790). -/
def kernSyncLost (s : State) : State :=
  setKern (fun q => { q with
    owed := [], done := [], owedReq := [], doneReq := []
    f7 := Vector.ofFn (fun n : Fin 4 => { e := (q.f7[n]).e }) }) s

/-! ### Torque (R765) -/

/-- The sums of the newest `n` intervals of the history, if there are so many. -/
def histSum (h : List (Nat × Nat)) (n : Nat) : Option (Nat × Nat) :=
  if h.length < n then none
  else some ((h.take n).foldl (fun a p => (a.1 + p.1, a.2 + p.2)) (0, 0))

/-- An accepted tooth for F7 of cylinder `n`: `a` is the angle of the tooth before it, and the history holds its interval
first (R765). -/
def torqueTooth (a : Nat) (n : Fin 4) (s : State) : State :=
  let l := angL s
  let b := s.ang.tang
  let nt := fld (kp0 s 7) 0 8
  let q := s.kern.f7[n]
  let tdc := tdcOf s n
  let q := if angSub l tdc a < angSub l b a then { q with b := histSum s.ang.hist.tail nt } else q
  let q := match q.left with
    | some 1 =>
      match q.b, histSum s.ang.hist nt with
      | some (pb, tb), some (pe, te) =>
        let rb : Int := pb * 65536 / max 1 tb
        let re : Int := pe * 65536 / max 1 te
        if rb + re = 0 then { q with left := none }
        else { q with left := none, e := clampI (-32768) 32767 ((rb - re) * 32768 / (rb + re)) }
      | _, _ => { q with left := none }
    | some (m + 1) => { q with left := some m }
    | _ => q
  let start := (tdc + 128 * fld (kp0 s 7) 8 8) % l
  let q := if passed l a b start then { q with left := some nt } else q
  setKern (fun k => { k with f7 := k.f7.set n q }) s

/-! ### Modes and loads (R752, R777, R778, R786) -/

/-- Step B10 and the re-application load the KERNEL and MAQUETTE sections and the set-point of CHARGE (R752, R761). -/
def kernLoad (s : State) : State :=
  let w (i : Nat) : Word := (wcSec s 5 i).getD 0
  let fn : Vector KFn 8 := Vector.ofFn (fun k : Fin 8 =>
    { armA := (w (4 * k)).getLsbD 14, map := fld (w (4 * k)) 0 8, deadline := (w (4 * k + 1)).toNat
      p0 := w (4 * k + 2), p1 := w (4 * k + 3) })
  let en := (List.range 8).foldl (fun m k => m + ((w (4 * k)).getLsbD 15).toNat * 2 ^ (8 + k)) 0
  let md := (List.range 8).foldl (fun m k => m + ((w (4 * k)).getLsbD 14).toNat * 2 ^ k) 0
  let s := setReg Reg.kern_MODE (wd (en + md)) s
  setKern (fun q => { q with
    fn := fn
    maq := Vector.ofFn (fun i : Fin 8 => (wcSec s 7 i).getD 0)
    sp := ((wcSec s 9 2).getD 0).toNat }) s

/-- The Armature modes in force, and no request pending (R778). -/
def kernArmModes (s : State) : State :=
  let md := (List.finRange 8).foldl (fun m (k : Fin 8) => m + ((kfn s k).armA).toNat * 2 ^ k.val) 0
  let s := setReg Reg.kern_MPEND 0 (setRegF Reg.kern_MODE 0 8 md s)
  setKern (fun q => { q with lateNoted := Vector.replicate 8 false }) s

/-- The pending mode requests take effect (R777). -/
def kernHandover (s : State) : State :=
  let p := reg s Reg.kern_MPEND
  let sel := fld p 8 8
  if sel = 0 then s
  else
    let old := fld (reg s Reg.kern_MODE) 0 8
    let md := (List.range 8).foldl (fun m k => m + (if sel.testBit k then p.getLsbD k else old.testBit k).toNat * 2 ^ k) 0
    let toA (k : Fin 8) : Bool := sel.testBit k && p.getLsbD k
    let s := setReg Reg.kern_MPEND 0 (setRegF Reg.kern_MODE 0 8 md s)
    signal 13 (setKern (fun q => { q with
      lateNoted := Vector.ofFn (fun k : Fin 8 => if toA k then false else q.lateNoted[k]) }) s)

/-- KERN.MREQ written (R777). -/
def mreqWrite (m : Master) (v : Word) (s : State) : State :=
  if !privileged m || s.modes.mode != .run then s
  else
    let sel := fld v 8 8
    let old := reg s Reg.kern_MPEND
    let pick (k : Nat) : Bool := if sel.testBit k then v.getLsbD k else old.getLsbD k
    let a := (List.range 8).foldl (fun x k => x + (pick k).toNat * 2 ^ k) 0
    let s := setReg Reg.kern_MPEND (wd (((fld old 8 8) ||| sel) * 256 + a)) s
    let s := setKern (fun q => { q with mreqTick := s.now }) s
    if angSync s then s else kernHandover s

/-- The cycle boundary for the Kernel: requests registered before this tick take effect; source 15 follows the commits
due before it (R757, R777, R789). -/
def kernBoundary (s : State) : State :=
  let s := if s.kern.mreqTick < s.now then kernHandover s else s
  calcSignal (setKern (fun q => { q with calcDue := true }) s)

/-- An accepted fill's writer (R782). -/
def phWriter (s : State) (m : Master) (k : Fin 8) : Bool :=
  let o := fld (reg32 s Reg.kern_PHOWN) (4 * k.val) 4
  match m with
  | .thread t => (t.val < 2 || (decide (8 ≤ o) && o % 8 == t.val)) && !(2 ≤ t.val && outOfService s (fbThread t))
  | .debug => true
  | .waili => true
  | _ => false

/-- A write to FILL, with VAL as it then stands (R782). -/
def phFill (m : Master) (k : Fin 8) (n : Fin 4) (seq : Nat) (s : State) : State :=
  let p := phWord s k n 6
  if phWriter s m k && reqAllowed s k && fld p 0 8 == seq % 256 then
    setPhPend k n false (setPh k n 6 (putBit (putBit p phFULL true) phREQ false) s)
  else hwSet (phAddr k n 6) (wd (2 ^ phSTALE)) s

/-- A write to a pigeonhole word (R779, R782). -/
def phWrite (m : Master) (a : Nat) (v : Word) (s : State) : State :=
  let o := a - 0x43100
  if h : o < 256 then
    let k : Fin 8 := ⟨o / 32, by omega⟩
    let n : Fin 4 := ⟨o / 8 % 4, by omega⟩
    if !kPair s k n then s
    else if o % 8 = 4 then (if phWriter s m k then setReg a v s else s)
    else if o % 8 = 5 then phFill m k n (fld v 0 8) s
    else if o % 8 = 6 then
      (if v.getLsbD phSTALE && !(hwSetBits s a).getLsbD phSTALE then setRegBit a phSTALE false s else s)
    else s
  else s

/-- A write of `v` to FILL, or of a pair to word 4, whose low word is VAL and whose high word FILL (R782). -/
def pigeonFill (m : Master) (k : Fin 8) (n : Fin 4) (pair : Bool) (v : Pair) (s : State) : State :=
  if pair then phWrite m (phAddr k n 5) (highWord v) (phWrite m (phAddr k n 4) (lowWord v) s)
  else phWrite m (phAddr k n 5) (lowWord v) s

/-- The value a KERN register shows. -/
def kernPeek (s : State) (a : Nat) : Word :=
  let o := a - 0x43000
  if o = 0x03 then
    wd ((!s.kern.owed.isEmpty).toNat * 0x8000 + (!s.kern.ents.isEmpty).toNat * 0x4000 + s.kern.cut.toNat * 0x2000
      + (s.modes.mode == .limp).toNat * 0x1000) ||| (reg s a &&& 0xFF)
  else if o = 0x04 then wd (s.kern.lim.getD 0)
  else if o = 0x23 then BitVec.ofInt 16 s.kern.i3
  else if o = 0x24 then BitVec.ofInt 16 s.kern.i4
  else if o = 0x25 then BitVec.ofInt 16 s.kern.trim
  else if 0x100 ≤ o ∧ o < 0x200 then
    (if kPair s ((o - 0x100) / 32) ((o - 0x100) / 8 % 4) && (o - 0x100) % 8 != 5 then reg s a else 0)
  else readWord s a

/-- A write to a KERN register. -/
def kernWrite (m : Master) (a : Nat) (v : Word) (s : State) : State :=
  let o := a - 0x43000
  if o = 0x01 then mreqWrite m v s
  else if o = 0x03 then regWriteBits a v s
  else if 0x100 ≤ o ∧ o < 0x200 then phWrite m a v s
  else if privileged m then regWriteBits a v s
  else s

end Sys2Proof.Machine
end

