-- ==== Sys2Proof/Machine/Modes.lean ====
section
/-!
DEFINITION. SETUP, RUN and LIMP: the application of the Armature, the mode requests, the transitions and the forced ones
(spec/05_modes_and_fencing.md, R197-R231; spec/04_start_up_image_armature.md, R170-R180).
-/

namespace Sys2Proof.Machine

def setModes (f : Modes → Modes) (s : State) : State := { s with modes := f s.modes }

/-! ### Application of the working copy (R174, R180, R170) -/

/-- A register set from word `i` of the section of type `ty`, where the section is there (R172). -/
def loadWord (ty i a : Nat) (f : Word → Word) (s : State) : State :=
  match wcSec s ty i with
  | some w => setReg a (f w) s
  | none => s

/-- SYSTEM words 0-7. -/
def loadSystem (s : State) : State :=
  match wcSec s 1 0 with
  | none => s
  | some w0 =>
    let w (i : Nat) : Word := (wcSec s 1 i).getD 0
    let s := setRegBit Reg.plinth_CORECFG 15 (w0.getLsbD 1) s
    let s := setReg Reg.plinth_AVSTGT (w 1) s
    let s := setReg Reg.plinth_HOLD (w 2 &&& 0xFF) s
    let s := setReg Reg.plinth_WAKEEN (w 3 &&& 0xF) s
    let s := setReg Reg.plinth_SREFCFG (w 4 &&& 0xC000) s
    let s := { s with plinth := { s.plinth with srefOn := (w 4).getLsbD 15 } }
    let s := setReg Reg.waili_DIV (w 5) s
    let s := setReg Reg.waili_CTL (w 6 &&& 3) s
    setReg Reg.fcol_WDCFG (w 7 &&& 0x3FF) s

/-- POLICY words 0-16 (R959). -/
def loadPolicy (s : State) : State :=
  match wcSec s 2 0 with
  | none => s
  | some _ =>
    let w (i : Nat) : Nat := fld ((wcSec s 2 i).getD 0) 0 3
    let s := (List.range 4).foldl (fun s k => setReg (Reg.fcol_POL0 + k)
      (wd (w (4 * k) + w (4 * k + 1) * 0x10 + w (4 * k + 2) * 0x100 + w (4 * k + 3) * 0x1000)) s) s
    setReg Reg.fcol_FLV (wd (w 16)) s

/-- The registers of R582 from the ANGLE section. -/
def loadAngleRegs (s : State) : State :=
  match wcSec s 4 0 with
  | none => s
  | some _ =>
    let w (i : Nat) : Nat := ((wcSec s 4 i).getD 0).toNat
    let h := w 6
    let wheel := w 0 % 64 * 1024 + w 1 % 4 * 256 + w 3 % 2 * 128 + w 4 % 2 * 64 + h % 2 * 32 + h / 2 % 2 * 16
      + h / 4 % 2 * 8 + (w 9 - 1) % 4
    let s := setReg Reg.ang_WHEEL (wd wheel) s
    let s := setReg Reg.ang_REFANG (wd (w 2)) s
    let s := setReg Reg.ang_CAMANG (wd (w 5)) s
    let s := setReg Reg.ang_MINPER (wd (w 7)) s
    let s := setReg Reg.ang_STALLT (wd (w 8)) s
    (List.range 4).foldl (fun s n => setReg (Reg.ang_TDC n) (wd (w (10 + n))) s) s

/-- Entries whose ANGLE is not below a changed L are cancelled (R653). -/
def cycleChanged (old : Nat) (s : State) : State :=
  if angL s = old then s else cancelWhere (fun n _ => decide (angL s ≤ entAngle s n)) s

/-- The angle registers take effect: at once while the engine is stopped, else at the next accepted edge (R620). -/
def angCfgWritten (s : State) : State :=
  if angTurning s then { s with ang := { s.ang with dirty := true } }
  else
    let l := angL s
    cycleChanged l { s with ang := { s.ang with cfg := cfgOfRegs s, dirty := false } }

/-- The ANGLE section applied; while the engine turns, only a change is. -/
def loadAngle (s : State) : State :=
  let s := loadAngleRegs s
  if angTurning s && cfgOfRegs s == s.ang.cfg then s else angCfgWritten s

/-- Step B10, and the re-application: every block of R170 from the working copy (R174, R180). -/
def applyArmature (s : State) : State :=
  let s := loadAngle (loadPolicy (loadSystem s))
  let s := (List.range 18).foldl (fun s i => loadWord 3 i (Reg.mon_WIN0 + i) id s) s
  let s := loadWord 3 18 Reg.mon_CFG (· &&& 0xF) s
  let s := (List.range 28).foldl (fun s i => loadWord 8 i (Reg.out_CFG 0 + i) id s) s
  let s := loadWord 9 0 Reg.plinth_CHGCFG id s
  let s := loadWord 9 1 Reg.plinth_CLAMP id s
  let s := loadWord 10 0 Reg.loop_PIN id s
  let s :=
    match wcSec s 10 1, wcSec s 10 2, wcSec s 10 3 with
    | some p, some q, some r => setReg Reg.loop_ARM (wd (fld r 0 8 * 256 + fld q 0 2 * 4 + fld p 0 2)) s
    | _, _, _ => s
  kernLoad s

/-! ### Conditions of R200 -/

/-- A class whose FSW bit is uncleared and was handled at `lvl` or above: the lowest. -/
def heldClass (s : State) (lvl : Nat) : Option Nat :=
  (List.range 16).find? (fun c => regBit s Reg.fcol_FSW c && decide (lvl ≤ lvOf s c))

/-- The Loop loss policy in force: 0 HOLD, 1 LIMP, 2 STOP (R212, R903). -/
def lossPolicy (s : State) : Nat :=
  let a := if regBit s Reg.loop_STAT 11 then regF s Reg.loop_ARM 0 2 else 0
  let b := if regBit s Reg.loop_STAT 12 then regF s Reg.loop_ARM 2 2 else 0
  max a b

/-- Codes 1 to 5 of R200. -/
def leaveRefused (s : State) : Nat :=
  if !regBit s Reg.sys_ARMSTAT 13 || regBit s Reg.sys_ARMSTAT 12 then 1
  else if s.modes.bootsu then 2
  else if (heldClass s 4).isSome then 3
  else if regBit s Reg.loop_STAT 9 then 4
  else if lossPolicy s = 2 then 5
  else 0

/-- Codes 6 to 8 of R200, with LSRC and LCAUSE of R202. -/
def runRefused (s : State) : Nat × Nat × Nat :=
  if onBackup s then (6, 1, 0)
  else
    match heldClass s 3 with
    | some c => (7, 1, c)
    | none => if lossPolicy s = 1 then (8, 3, 0) else (0, 0, 0)

def setRefuse (c : Nat) (s : State) : State := setRegF Reg.sys_MODESTAT 0 4 c s

/-! ### Transitions (R206, R208) -/

/-- A transition took effect: source 3 and a MODE packet (R539, R1033). -/
def modeSignal (code : Nat) (s : State) : State := traceMode code (signal 3 s)

/-- Entry to SETUP (R208, R773, R786): armed OUT entries cancelled, Kernel entries FREE, pigeonholes cleared, LIVE low. -/
def enterSetup (s : State) : State :=
  let s := cancelWhere (fun n _ => isOutAct (entAct s n)) s
  let s := clearPh (kernFree s)
  let s := setModes (fun m => { m with mode := .setup, pend := false }) s
  modeSignal 0 (evalCut { s with plinth := { s.plinth with livePin := false } })

/-- Entry to LIMP: its cause, and LIMPCNT (R202, R216, R227, R786). -/
def enterLimp (src cause : Nat) (s : State) : State :=
  let was := s.modes.mode
  let s := setModes (fun m => { m with mode := .limp, pend := false, lsrc := src, lcause := if src = 1 then cause else 0 }) s
  let s := hwCountF Reg.sys_MODESTAT 8 8 1 s
  let s := setReg Reg.kern_MPEND 0 (clearPh s)
  let s := if was = .setup then kernAlloc (firstHoming s) else s
  modeSignal 2 (evalCut s)

/-- Entry to RUN: Armature modes of the Kernel (R208, R778). -/
def enterRun (s : State) : State :=
  let was := s.modes.mode
  let s := setModes (fun m => { m with
    mode := .run, pend := false, runTick := if was = .limp then some s.now else none }) s
  let s := kernArmModes s
  let s := if was = .setup then kernAlloc (firstHoming s) else s
  modeSignal 1 (evalCut s)

/-! ### Requests (R198-R207) -/

/-- A request to leave SETUP, evaluated (R200, R201, R203); `w` as in modeRequest. -/
def leaveSetup (w : Bool) (r : ModeReq) (s : State) : State :=
  let c := leaveRefused s
  if c ≠ 0 then setRefuse c s
  else
    let start (t : Mode) (src cause : Nat) (s : State) : State :=
      setModes (fun m => { m with reapply := some { target := t, lsrc := src, lcause := cause, byW := w } }) s
    match r with
    | .limp => start .limp 2 0 (setRefuse 0 s)
    | _ =>
      let (k, src, cause) := runRefused s
      if k = 0 then start .run 0 0 (setRefuse 0 s) else start .limp src cause (setRefuse k s)

/-- A permitted request; `w` tells that it is the Waili command MODE's (R200-R207, R831, R1060). -/
def modeRequest (w : Bool) (r : ModeReq) (s : State) : State :=
  match s.modes.mode, r with
  | .setup, .setup => setRefuse 0 (setModes (fun m => { m with waitCommit := none, reapply := none }) s)
  | .setup, r =>
    match s.modes.reapply with
    | some p => setModes (fun m => { m with reapply := some { p with waiting := some r, waitW := w } }) s
    | none => if commitBusy s then setModes (fun m => { m with waitCommit := some r, waitW := w }) s else leaveSetup w r s
  | .run, .run => setRefuse 0 s
  | .run, .limp => enterLimp 2 0 (setRefuse 0 s)
  | .run, .setup => enterSetup (setRefuse 0 s)
  | .limp, .setup => enterSetup (setRefuse 0 s)
  | .limp, .limp => setRefuse 0 (setModes (fun m => { m with pend := false }) s)
  | .limp, .run =>
    let k := (runRefused s).1
    if k ≠ 0 then setRefuse k s
    else if angSync s then setRefuse 0 (setModes (fun m => { m with pend := true }) s)
    else enterRun (setRefuse 0 s)

/-- A request by a write to SYS.MODECMD; a master not permitted gets code 9 (R199). -/
def requestBy (m : Master) (r : ModeReq) (s : State) : State :=
  if privileged m then modeRequest false r s else setRefuse 9 s

/-- SYS.MODECMD written. -/
def modecmdWrite (m : Master) (v : Word) (s : State) : State :=
  if v = 0xA501 then requestBy m .run s
  else if v = 0xA502 then requestBy m .setup s
  else if v = 0xA503 then requestBy m .limp s
  else if privileged m then s
  else setRefuse 9 s

/-- The re-application completes: the transition takes effect, then a waiting request is evaluated (R206, R1060). -/
def reapplied (s : State) : State :=
  match s.modes.reapply with
  | none => s
  | some p =>
    let s := setModes (fun m => { m with reapply := none }) (applyArmature s)
    let s :=
      match p.l3, p.target with
      | some (src, c), _ => enterLimp src c s
      | none, .run => enterRun s
      | none, _ => enterLimp p.lsrc p.lcause s
    match p.waiting with
    | some r => modeRequest p.waitW r s
    | none => s

/-- The commit ends, and a request that waited is evaluated (R185, R205). -/
def commitEnded (s : State) : State :=
  match s.modes.waitCommit with
  | none => s
  | some r => modeRequest s.modes.waitW r (setModes (fun m => { m with waitCommit := none }) s)

/-! ### Forced transitions (R210-R212, R226) -/

/-- RUN is forced to LIMP; LIMP stays and loses a pending return; a transition out of SETUP under way ends in LIMP. -/
def forceLimp (src cause : Nat) (s : State) : State :=
  match s.modes.mode with
  | .run =>
    if s.modes.runTick = some s.now then
      let s := setModes (fun m => { m with mode := .limp, pend := false, runTick := none }) s
      modeSignal 2 (evalCut (setReg Reg.kern_MPEND 0 (clearPh s)))
    else enterLimp src cause s
  | .limp => setModes (fun m => { m with pend := false }) s
  | .setup =>
    match s.modes.reapply with
    | some p => if p.l3.isSome then s else setModes (fun m => { m with reapply := some { p with l3 := some (src, cause) } }) s
    | none => s

/-- SETUP is forced; it abandons a transition out of SETUP (R211, R1060). -/
def forceSetup (s : State) : State :=
  match s.modes.mode with
  | .setup => if s.modes.reapply.isSome then setRefuse 0 (setModes (fun m => { m with reapply := none }) s) else s
  | _ => enterSetup s

/-- The Loop loss policy in force acts (R212, R903). -/
def applyLossPolicy (s : State) : State :=
  match lossPolicy s with
  | 1 => forceLimp 3 0 s
  | 2 => forceSetup s
  | _ => s

/-! ### The boundary (R206, R222, R225) -/

/-- A pending return to RUN takes effect. -/
def pendTakesEffect (s : State) : State := if s.modes.pend then enterRun s else s

/-- The units lifted and waiting for the boundary return; the end of a remapping signals source 23 (R222, R696). -/
def unitsReturn (s : State) : State :=
  let back := s.modes.returning.filter (· != fbCam)
  let s := setModes (fun m => { m with returning := m.returning.filter (· == fbCam) }) s
  back.foldl (fun s i => if i = 32 ∨ i = 33 then signal 23 s else s) s

/-- SYS.MODE as it reads. -/
def modeWord (s : State) : Word :=
  let m := s.modes
  let c := match m.mode with
    | .setup => 0
    | .run => 1
    | .limp => 2
  wd (c * 0x4000 + m.bootsu.toNat * 0x2000 + m.pend.toNat * 0x1000 + m.lcause * 0x100 + m.lsrc * 0x40)

end Sys2Proof.Machine
end

