-- ==== Sys2Proof/Machine/Loop.lean ====
section
/-!
DEFINITION. The Linric Loop engine (spec/19_linric_loop.md, R863-R915).
-/

namespace Sys2Proof.Machine

def setLoop (f : Loop → Loop) (s : State) : State := { s with loop := f s.loop }

/-- SYS.STRAP.LHEAD: this unit is the head (R881). -/
def isHead (s : State) : Bool := regBit s Reg.sys_STRAP 15

/-- The engine transmits, relays and receives (R866). -/
def loopRuns (s : State) : Bool := s.loop.started && !onBackup s

/-- T(N) in ticks (R876). -/
def roundTicks (n : Nat) : Nat := 16 * (452 + 128 * n)

/-- The address held, none for NONE (STAT.AV, STAT.ADDR). -/
def loopAddr (s : State) : Option Nat := if regBit s Reg.loop_STAT 7 then some (regF s Reg.loop_STAT 0 6) else none

/-! ### Counters and flags -/

def loopDropw (s : State) : State := hwCountF Reg.loop_ERRA 0 8 1 s
def loopFolds (s : State) : State := hwCountF Reg.loop_ERRA 8 8 1 s
def loopRmiss (s : State) : State := hwCountF (Reg.loop_ERRA + 1) 0 8 1 s
def loopLerr (s : State) : State := hwCountF (Reg.loop_ERRA + 1) 8 8 1 s
def loopCmderr (s : State) : State := hwCountF Reg.loop_ERRB 8 8 1 s

def partnerRaise (d : Nat) (s : State) : State := raise { cls := clsPartner, detail := wd d } s

/-- STAT.PINMM follows PIN and the address; its rise raises PARTNER (R888). -/
def pinCheck (s : State) : State :=
  let pin := (reg s Reg.loop_PIN).toNat
  let mm := pin != 0xFFFF && loopAddr s != some pin
  let was := regBit s Reg.loop_STAT 9
  let s := setRegBit Reg.loop_STAT 9 mm s
  if mm && !was then partnerRaise 0x0300 s else s

/-- The address changes. -/
def setAddr (a : Option Nat) (s : State) : State :=
  pinCheck (match a with
    | some n => setRegF Reg.loop_STAT 0 8 (0x80 + n) s
    | none => setRegF Reg.loop_STAT 0 8 0 s)

/-- The engine starts at step B10, or at the refusal of R164 (R866, R880, R881, R884); one that runs on through a LOOPRST
goes on. -/
def loopStart (s : State) : State :=
  if s.loop.started then pinCheck s
  else
  let s := setLoop (fun l => { l with
    started := true, fold := true, enumPend := isHead s, nextStart := s.now, lastBack := s.now
    missDue := s.now + roundTicks 64 }) s
  if isHead s then setAddr (some 0) s else pinCheck s

/-- Entry to FOLD (R879, R880). -/
def enterFold (s : State) : State :=
  if s.loop.fold then s
  else loopFolds (setLoop (fun l => { l with fold := true, foldNext := false, dnGood := 0, badBacks := 0 }) s)

/-! ### Letters (R871, R892, R893, R897) -/

/-- Words W0 to W6 of the letter of unit `a`. -/
def letterBody (s : State) (a : Nat) : List Word :=
  let mode := if s.modes.bootsu then 3 else match s.modes.mode with
    | .setup => 0
    | .run => 1
    | .limp => 2
  let loss := regBit s Reg.loop_STAT 11 || regBit s Reg.loop_STAT 12
  let w0 := a * 1024 + mode * 256 + (angSync s).toNat * 128 + (faultPinLow s).toNat * 64 + loss.toNat * 32
    + s.loop.epv.toNat * 16 + s.loop.cseq % 8
  let sel := regF s Reg.loop_ARM 8 4
  let field (i : Nat) : Word := reg s (Reg.loop_FIELD ((sel + i) % 16))
  [wd w0, reg s Reg.loop_EANG, reg s Reg.loop_ERPM, field 0, field 1, field 2, s.loop.tx.headD 0 ++ s.loop.tx.getD 1 0]

/-- A letter with its CRC. -/
def letterWords (s : State) (a : Nat) : List Word :=
  let b := letterBody s a
  b ++ [crc16 b]

/-- The first bit of slot `a` is sent this many ticks after the start at the port (R868). -/
def slotTicks (a : Nat) : Nat := 16 * (64 + 128 * a)

/-- The unit whose slot this round carries its letter. -/
def letterUnit (s : State) : Option Nat := if s.loop.enum && !isHead s then s.loop.provis else loopAddr s

/-- The letter is composed in the tick before its first bit (R893, R908): CSEQ counts, and two stream bytes leave. -/
def letterTick (s : State) : State :=
  match s.loop.letterDue with
  | none => s
  | some d =>
    if s.now < d then s
    else
      match letterUnit s with
      | none => setLoop (fun l => { l with letterDue := none }) s
      | some a =>
        let ws := letterWords s a
        setLoop (fun l => { l with
          letterDue := none, letter := ws, cseq := (l.cseq + 1) % 8, epv := false, tx := l.tx.drop 2 }) s

/-- A line is queued in the stream: its start code, its characters and its end (R897). -/
def streamLine (code : Byte) (chars : List Byte) (s : State) : State :=
  setLoop (fun l => { l with tx := l.tx ++ code :: chars ++ [0x0D] }) s

/-! ### Turn times and the epoch (R889, R890) -/

def turnsSteady (ts : List Nat) : Bool :=
  match ts with
  | a :: b :: _ => decide (a ≤ b + 32 ∧ b ≤ a + 32)
  | _ => false

def noteTurn (t : Nat) (s : State) : State :=
  setReg Reg.loop_TURN (wd t) (setLoop (fun l => { l with turns := t :: l.turns.take 1 }) s)

/-- OFS of R890. -/
def ofsOf (turn0 turn : Nat) : Int := ((turn0 : Int) - turn) / 2

/-- The epoch of the round is set, where the unit takes one; without one the next letter carries EPV = 0 (R890). -/
def planEpoch (turn0 start : Nat) (s : State) : State :=
  let s := setLoop (fun l => { l with epochDue := none, epv := false }) s
  if turn0 ≠ 0 ∧ turnsSteady s.loop.turns then
    let ofs := ofsOf turn0 (s.loop.turns.headD 0)
    let due := ((start : Int) + (turn0 / 2 : Nat) + 160 - ofs).toNat
    setReg Reg.loop_OFS (BitVec.ofInt 16 ofs) (setLoop (fun l => { l with epochDue := some due }) s)
  else s

def epochTick (s : State) : Nat := s.loop.epochDue.getD s.now

/-- The epoch tick arrives (R890). -/
def loopEpoch (s : State) : State :=
  match s.loop.epochDue with
  | none => s
  | some _ =>
    let s := setReg32 Reg.loop_EPOST (stamp32 s) s
    let s := setReg Reg.loop_ERPM (wd s.ang.rpm) (setReg Reg.loop_EANG (wd (angleNow s)) s)
    setLoop (fun l => { l with epochDue := none, epv := angSync s }) s

/-! ### Starts of rounds (R875, R876, R883, R887, R904, R905) -/

def roundDue (s : State) : Nat := s.loop.nextStart

/-- TURN0 of the round the head starts (R889). -/
def headTurn0 (s : State) : Nat := if turnsSteady s.loop.turns then s.loop.turns.headD 0 else 0

/-- THROUGH or FOLD for the round that starts (R879, R880). -/
def foldAtStart (s : State) : State :=
  if s.loop.fold then
    if 2 ≤ s.loop.dnGood then setLoop (fun l => { l with fold := false, dnGood := 0, badBacks := 0, foldNext := false }) s else s
  else if s.loop.foldNext then enterFold s
  else s

/-- What the start of a round at this unit sets (R875, R878): a unit in FOLD turns the round in the same tick. -/
def roundAt (seq n turn0 : Nat) (enum : Bool) (relay : Nat) (s : State) : State :=
  let s := foldAtStart s
  let s := setLoop (fun l => { l with
    seq := seq, n := n, turn0 := turn0, enum := enum, provis := none, outStart := some s.now, backSeen := false
    dropMirror := false }) s
  let s := if s.loop.fold then noteTurn 0 s else s
  let s := planEpoch turn0 s.now s
  setLoop (fun l => { l with letterDue := (letterUnit s).map (fun a => s.now + relay + slotTicks a - 1) }) s

/-- The head starts a round on LDTX (R876, R883, R884, R904): the header words stand in `result`. -/
def roundStart (s : State) : State :=
  if !loopRuns s || !isHead s || s.loop.enumWait then s
  else
    let enum := s.loop.enumPend
    let n := if enum then 64 else s.loop.headN
    let turn0 := headTurn0 s
    let rst := decide (0 < s.loop.rstTx)
    let seq := (s.loop.seq + 1) % 65536
    let h1 := enum.toNat * 0x8000 + rst.toNat * 0x4000 + (if rst then regF s Reg.loop_RSTREQ 0 7 else 0) * 128 + n
    let h : List Word := [wd seq, wd h1, wd turn0]
    let s := { s with result := h ++ [crc16 h] }
    let s := setReg Reg.loop_TURN0 (wd turn0) (setRegF Reg.loop_RINFO 0 7 n s)
    let s := setLoop (fun l => { l with
      enumPend := false, enumWait := enum, nextStart := s.now + roundTicks n, rstTx := l.rstTx - 1, trailer := 0 }) s
    let s := if rst && s.loop.rstTx == 0 then setRegBit Reg.loop_RSTREQ 15 false s else s
    roundAt seq n turn0 enum 0 s

/-- The header of a round. -/
structure Header where
  h0 : Word
  h1 : Word
  h2 : Word
  h3 : Word
deriving DecidableEq, Repr

def headerOk (h : Header) : Bool := crc16 [h.h0, h.h1, h.h2] == h.h3
def hdrN (h : Header) : Nat := fld h.h1 0 7
def hdrEnum (h : Header) : Bool := h.h1.getLsbD 15

/-- The flags a unit ORs into the trailer (R873, R886). -/
def trailerFlags (s : State) : Word :=
  if (loopAddr s).isSome then 0 else if regBit s Reg.loop_STAT 10 then 0x4000 else 0x8000

/-- A reset request seen in a header (R905). -/
def resetSeen (h : Header) (s : State) : State :=
  let tgt := fld h.h1 7 7
  let mine := h.h1.getLsbD 14 && (tgt == 0x7F || loopAddr s == some tgt)
  let n := if !mine then 0 else if (s.loop.rstSeq + 1) % 65536 = h.h0.toNat then s.loop.rstSeen + 1 else 1
  setLoop (fun l => { l with rstSeen := n, rstSeq := h.h0.toNat }) s

/-- The SD of an out leg is registered on LURX of a unit that is not the head (R875, R883, R887). A header in error is
relayed, and gives neither a letter nor an epoch. -/
def outLegStart (h : Header) (s : State) : State :=
  if !loopRuns s || isHead s then s
  else if !headerOk h then
    setLoop (fun l => { l with outStart := none, letterDue := none, epochDue := none, epv := false, rstSeen := 0 }) (foldAtStart s)
  else
    let s := resetSeen h s
    let n := hdrN h
    let s := setReg Reg.loop_TURN0 h.h2 (setRegF Reg.loop_RINFO 0 7 n s)
    let s := match loopAddr s with
      | some a => if n ≤ a then setAddr none s else s
      | none => s
    let s := setLoop (fun l => { l with trailer := trailerFlags s }) s
    roundAt h.h0.toNat n h.h2.toNat (hdrEnum h) 64 s

/-- The unit comes to the first empty slot of an enumeration round, or to the round's end without one (R883). -/
def enumeration (slot : Option (Fin 64)) (s : State) : State :=
  if !loopRuns s || isHead s || !s.loop.enum || s.loop.provis.isSome then s
  else
    match s.loop.outStart, slot with
    | some t, some a =>
      setLoop (fun l => { l with provis := some a.val, letterDue := some (t + 64 + slotTicks a - 1) })
        (setRegBit Reg.loop_STAT 10 false s)
    | some _, none => setAddr none (setRegBit Reg.loop_STAT 10 true s)
    | none, _ => s

/-- TURN + 160 ticks after the out-leg start (R879). -/
def foldDue (s : State) : Nat := (s.loop.outStart.getD s.now) + s.loop.turns.headD 0 + 160

/-- No SD has arrived on LDRX (R879); beyond the 1024-bit buffer the round's back leg is lost. -/
def foldTimeout (s : State) : State :=
  match s.loop.outStart with
  | none => s
  | some t =>
    if !loopRuns s || s.loop.fold || s.loop.backSeen then s
    else
      let s := noteTurn (s.now - t) (enterFold s)
      if 1024 * 16 < s.now - t then setLoop (fun l => { l with outStart := none }) s else s

/-- An SD on LURX of the head (R882). -/
def secondHead (s : State) : State :=
  if !loopRuns s || !isHead s then s
  else
    let s := hwSet Reg.loop_STAT 0x0100 s
    if s.loop.hconf then s else partnerRaise 0x0400 (setLoop (fun l => { l with hconf := true }) s)

/-! ### Streams (R897, R898) -/

/-- The line in progress of unit `a` is discarded and counted. -/
def dropRx (a : Nat) (s : State) : State :=
  if s.loop.rx.any (·.unit == a) then
    loopCmderr (setLoop (fun l => { l with rx := l.rx.filter (·.unit != a) }) s)
  else s

/-- The start codes of lines for this unit. -/
def lineForMe (s : State) (c : Byte) : Bool :=
  match loopAddr s with
  | some a => c.toNat == 0x80 + a || c.toNat == 0xC0 + a || c == 0x7F
  | none => false

/-- A stream byte of unit `a`. -/
def streamByte (a : Nat) (b : Byte) (s : State) : State :=
  let start := b == 0x7F || decide (0x80 ≤ b.toNat)
  if start then
    setLoop (fun l => { l with rx := { unit := a, code := b, chars := [] } :: l.rx.filter (·.unit != a) }) s
  else
    match s.loop.rx.find? (·.unit == a) with
    | none => s
    | some ln =>
      if b = 0x0D then
        setLoop (fun l => { l with
          rx := l.rx.filter (·.unit != a), inbox := if lineForMe s ln.code then l.inbox ++ [ln] else l.inbox }) s
      else if 0x20 ≤ b.toNat ∧ b.toNat ≤ 0x7E then
        setLoop (fun l => { l with rx := { ln with chars := ln.chars ++ [b] } :: l.rx.filter (·.unit != a) }) s
      else s

/-- The stream of a valid letter of unit `a` (R898). -/
def streamLetter (a : Nat) (ws : Vector Word 8) (s : State) : State :=
  let c := fld ws[0] 0 3
  let s := match s.loop.rxCseq.find? (·.1 == a) with
    | some (_, last) => if c = (last + 1) % 8 then s else dropRx a s
    | none => s
  let s := setLoop (fun l => { l with rxCseq := (a, c) :: l.rxCseq.filter (·.1 != a) }) s
  streamByte a (ws[6].extractLsb' 0 8) (streamByte a (ws[6].extractLsb' 8 8) s)

/-! ### Back legs (R885, R889, R894-R901, R907) -/

/-- A slot of a back leg (R872). -/
def letterOk (a : Nat) (ws : Vector Word 8) : Bool := crc16 (ws.toList.take 7) == ws[7] && fld ws[0] 10 6 == a
def slotEmpty (ws : Vector Word 8) : Bool := ws[0] == 0xFFFF

/-- One mirror word (R894, R895). -/
def mirrorWord (a : Nat) (v : Word) (s : State) : State :=
  match refusal s .loop a 1 true with
  | some why => loopDropw (recordViol .loop a true why s)
  | none => if isSpad a then (spadWrite .loop a [v] s).2 else s

/-- The letter of unit `a` goes to the scratchpad (R894). -/
def mirrorLetter (a seq : Nat) (ws : Vector Word 8) (s : State) : State :=
  let mb := reg32 s Reg.loop_MBASE
  if mb.getLsbD 31 && !s.loop.dropMirror then
    let base := fld mb 3 17 * 8 + 8 * a
    let vs := ws.toList.take 7 ++ [wd seq]
    (List.range 8).foldl (fun s i => mirrorWord (base + i) (vs.getD i 0) s) s
  else s

def lostBit (s : State) (a : Nat) : Bool := regBit s (Reg.loop_LOST (a / 16)) (a % 16)
def watchBit (s : State) (a : Nat) : Bool := regBit s (Reg.loop_WATCH (a / 16)) (a % 16)
def setLost (a : Nat) (b : Bool) (s : State) : State := setRegBit (Reg.loop_LOST (a / 16)) (a % 16) b s
def setWatch (a : Nat) (b : Bool) (s : State) : State := setRegBit (Reg.loop_WATCH (a / 16)) (a % 16) b s

/-- Partner `a` in a back leg with a valid header (R899, R900). -/
def judge (a : Fin 64) (present : Bool) (s : State) : State :=
  let s := setLoop (fun l => { l with
    miss := l.miss.set a (if present then 0 else l.miss[a] + 1)
    seen := l.seen.set a (if present then l.seen[a] + 1 else 0) }) s
  if loopAddr s = some a.val then s
  else if !watchBit s a then (if present && !s.loop.enum then setWatch a true s else s)
  else if lostBit s a then (if 2 ≤ s.loop.seen[a] then setLost a false s else s)
  else if 3 ≤ s.loop.miss[a] then dropRx a (partnerRaise (0x0100 + a) (signal 38 (setLost a true s)))
  else s

/-- STAT.LOST follows the watched partners; a loss policy that comes into force acts (R212, R903). -/
def lossUpdate (s : State) : State :=
  let before := lossPolicy s
  let lost := (List.range 64).any (fun a => watchBit s a && lostBit s a)
  let s := setRegBit Reg.loop_STAT 11 lost s
  if before < lossPolicy s then applyLossPolicy s else s

/-- The highest index holding a valid letter, plus 1 (R883). -/
def newN (slots : List (Vector Word 8)) : Nat :=
  (slots.zipIdx.foldl (fun n p => if letterOk p.2 p.1 then p.2 + 1 else n) 0)

/-- The back leg of an enumeration round is processed (R883, R885, R899). -/
def enumDone (slots : List (Vector Word 8)) (s : State) : State :=
  let n := max 1 (newN slots)
  let s := if isHead s then s
    else
      match s.loop.provis with
      | some a => setAddr (if (slots[a]?.map (letterOk a)).getD false then some a else none) s
      | none => setAddr none s
  let s := (List.range 64).foldl (fun s a => if n ≤ a then setLost a false (setWatch a false s) else s) s
  signal 40 (setLoop (fun l => { l with
    headN := n, enumWait := false, nextStart := max l.nextStart s.now, enum := false, provis := none }) s)

/-- The letters of a back leg. -/
def backLetters (seq : Nat) (slots : List (Vector Word 8)) (s : State) : State :=
  let s := slots.zipIdx.foldl (fun s p =>
    if letterOk p.2 p.1 then
      let s := mirrorLetter p.2 seq p.1 s
      if loopAddr s = some p.2 then s else streamLetter p.2 p.1 s
    else s) s
  (List.finRange 64).foldl (fun s (a : Fin 64) => judge a ((slots[a.val]?.map (letterOk a)).getD false) s) s

/-- A back leg with a valid header is fully registered. -/
def backValid (turn : Nat) (h : Header) (slots : List (Vector Word 8)) (trailer : Word × Word) (s : State) : State :=
  let n := hdrN h
  let slots := slots.take n
  let seq := h.h0.toNat
  let s := setReg Reg.loop_SEQ h.h0 (setRegF Reg.loop_RINFO 0 7 n s)
  let s := if s.loop.fold then s else noteTurn turn s
  let s := setLoop (fun l => { l with
    lastBack := s.now, missDue := s.now + roundTicks n, everBack := true, headN := if hdrEnum h then l.headN else n
    goodBacks := l.goodBacks + 1, badBacks := 0 }) s
  let s := if 2 ≤ s.loop.goodBacks then setRegBit Reg.loop_STAT 12 false s else s
  let s := signal 36 s
  let s := (List.finRange 8).foldl (fun s (t : Fin 8) => if regBit s Reg.loop_NOTIFY t then setEvent t 14 s else s) s
  let bad := slots.zipIdx.any (fun p => !slotEmpty p.1 && !letterOk p.2 p.1)
  let s := if bad then signal 37 (loopLerr s) else s
  let s := lossUpdate (backLetters seq slots s)
  let s := if hdrEnum h then lossUpdate (enumDone slots s) else s
  if isHead s && trailer.1.getLsbD 15 && crc16 [trailer.1] == trailer.2 && regBit s Reg.loop_CFG 15 then
    setLoop (fun l => { l with enumPend := true }) s
  else s

/-- A back leg is fully registered. `ldrx` says that it came on LDRX; in FOLD that only shows a link repaired (R880), and
the round itself is the one the unit turned. A header in error, or of another round, counts towards a fold (R879). -/
def backLeg (ldrx : Bool) (turn : Nat) (h : Header) (slots : List (Vector Word 8)) (trailer : Word × Word) (s : State) : State :=
  if !loopRuns s then s
  else
    let ok := headerOk h
    let good := ok && h.h0.toNat == s.loop.seq
    if s.loop.fold && ldrx then
      setLoop (fun l => { l with dnGood := if good then l.dnGood + 1 else 0 }) s
    else if s.loop.outStart.isNone then s
    else
      let s := setLoop (fun l => { l with backSeen := true }) s
      let s := if good || s.loop.fold then s
        else setLoop (fun l => { l with badBacks := l.badBacks + 1, foldNext := decide (1 ≤ l.badBacks) }) s
      if ok then backValid turn h slots trailer s
      else setLoop (fun l => { l with goodBacks := 0 }) s

/-! ### Silence (R901, R912) -/

/-- N for the time-outs of R901. -/
def silenceN (s : State) : Nat := if s.loop.everBack then max 1 (regF s Reg.loop_RINFO 0 7) else 64

def silentDue (s : State) : Nat := s.loop.lastBack + 3 * roundTicks (silenceN s)

/-- 3 × T(N) have passed without a back leg with a valid header. -/
def loopSilent (s : State) : State :=
  if !s.loop.started || regBit s Reg.loop_STAT 12 || decide (s.now < silentDue s) then s
  else
    let before := lossPolicy s
    let s := partnerRaise 0x0200 (signal 39 (setRegBit Reg.loop_STAT 12 true s))
    let s := setLoop (fun l => { l with goodBacks := 0 }) s
    if before < lossPolicy s then applyLossPolicy s else s

def rmissDue (s : State) : Nat := s.loop.missDue

/-- A period of T(N) has passed without a valid back leg. -/
def rmissPeriod (s : State) : State :=
  if !s.loop.started || decide (s.now < s.loop.missDue) then s
  else loopRmiss (setLoop (fun l => { l with missDue := s.now + roundTicks (silenceN s), goodBacks := 0 }) s)

/-! ### Abort (R906) -/

/-- The unit's own letter is being inserted: from its first bit to its last (R969, R914). -/
def letterGoes (s : State) : Bool :=
  match s.loop.outStart, letterUnit s with
  | some t, some a =>
    let b := t + (if isHead s then 0 else 64) + slotTicks a
    decide (b ≤ s.now + 1) && decide (s.now < b + 2048)
  | _, _ => false

/-- The engine is at rest for an abort (R969). -/
def loopAtRest (s : State) : Bool :=
  !loopRuns s || (!letterGoes s && s.loop.tx.isEmpty && s.loop.rx.isEmpty && s.loop.inbox.isEmpty)

/-- The Loop engine is aborted: the letter under way ends with a CRC that fails, and its streams and mirror writes are
dropped. -/
def loopAbort (s : State) : State :=
  let letter := if letterGoes s then s.loop.letter.dropLast ++ (s.loop.letter.getLast?.map (~~~ ·)).toList else s.loop.letter
  setLoop (fun l => { l with letter := letter, dropMirror := true, tx := [], rx := [], inbox := [] }) s

/-! ### Registers -/

/-- LOOP.CMD written 0001h (R884). -/
def loopEnumerate (m : Master) (s : State) : State :=
  if privileged m && isHead s then setLoop (fun l => { l with enumPend := true }) s else s

/-- LOOP.RSTREQ written (R904). -/
def rstreqWrite (m : Master) (v : Word) (s : State) : State :=
  if privileged m && isHead s then
    let s := regWriteBits Reg.loop_RSTREQ v s
    if v.getLsbD 15 then setLoop (fun l => { l with rstTx := 2 }) s else s
  else s

/-- A write to a LOOP register. -/
def loopWrite (m : Master) (a : Nat) (v : Word) (s : State) : State :=
  if a = Reg.loop_CMD then (if v = 1 then loopEnumerate m s else s)
  else if a = Reg.loop_RSTREQ then rstreqWrite m v s
  else if a = Reg.loop_ARM then
    if privileged m && inSetup s then
      let v := if fld v 2 2 = 3 then putFld v 2 2 (regF s a 2 2) else v
      let v := if fld v 0 2 = 3 then putFld v 0 2 (regF s a 0 2) else v
      regWriteBits a v s
    else s
  else if a = Reg.loop_PIN then
    if privileged m && inSetup s && (decide (v.toNat < 64) || v == 0xFFFF) then pinCheck (setReg a v s) else s
  else if Reg.loop_FIELD 0 ≤ a then (if threadOrHost m then regWriteBits a v s else s)
  else if privileged m then regWriteBits a v s
  else s

/-- The value a LOOP register shows. -/
def loopPeek (s : State) (a : Nat) : Word :=
  if a = Reg.loop_STAT then
    putBit (putBit (putBit (reg s a) 15 (isHead s)) 14 (loopRuns s)) 13 s.loop.fold
  else if a = Reg.loop_RINFO then putBit (reg s a) 15 (isHead s && (s.loop.enumPend || s.loop.enumWait))
  else reg s a

end Sys2Proof.Machine
end

