-- ==== Sys2Proof/Machine/Flash.lean ====
section
/-!
DEFINITION. The external flash and the flash master (spec/04_start_up_image_armature.md, R150-R154, R184, R191;
spec/11_scratchpad_masters_courier.md, R522-R525).
-/

namespace Sys2Proof.Machine

/-! ### Contents -/

/-- A flash byte; a flash that does not answer reads all ones (R191). -/
def flashByte (s : State) (a : Nat) : Byte := if s.flash.answers then cget flashDefault s.flash.cells a else 0xFF

def flashBytes (s : State) (a n : Nat) : List Byte := (List.range n).map (fun i => flashByte s (a + i))

/-- A little-endian field of `n` bytes (R154). -/
def flashNum (s : State) (a n : Nat) : Nat := (flashBytes s a n).foldr (fun b v => b.toNat + 256 * v) 0

/-- The word of flash bytes `a` and `a + 1` (R154). -/
def flashWord (s : State) (a : Nat) : Word := flashByte s (a + 1) ++ flashByte s a

/-- A programmed byte loses the bits programmed 0; an erased byte is FFh. PRESUMED of the flash, log entry 6. -/
def programByte (s : State) (a : Nat) (b : Byte) : List Host.Cell → List Host.Cell :=
  fun m => cset flashDefault m a (cget flashDefault s.flash.cells a &&& b)

/-- Bytes programmed from `a` on. -/
def flashProgram (a : Nat) (bs : List Byte) (s : State) : State :=
  let m := (List.range bs.length).foldl (fun m i => programByte s (a + i) (bs.getD i 0xFF) m) s.flash.cells
  { s with flash := { s.flash with cells := m } }

/-- Bytes `a` to `a + n - 1` erased. -/
def flashErase (a n : Nat) (s : State) : State :=
  { s with flash := { s.flash with cells := s.flash.cells.filter (fun c => !(decide (a ≤ c.1) && decide (c.1 < a + n))) } }

/-- Bytes `a` to `a + n - 1` with undefined contents (R525): free values. -/
def flashUndefined (a : Nat) : Nat → State → State
  | 0, s => s
  | n + 1, s =>
    let b := Config.freeByte s.free
    flashUndefined (a + 1) n
      { s with flash := { s.flash with cells := cset flashDefault s.flash.cells a b }, free := s.free + 1 }

/-! ### Geometry and timeouts -/

/-- The smallest erase size and the capacity in bytes (FLASH.GEOM). -/
def eraseSize (s : State) : Nat := 2 ^ (regF s Reg.flash_GEOM 4 4 + 8)
def flashCap (s : State) : Nat := 2 ^ regF s Reg.flash_GEOM 8 8

/-- The start of the erase unit that holds byte `a`. -/
def eraseBase (s : State) (a : Nat) : Nat := a / eraseSize s * eraseSize s

/-- The ticks a busy poll may last (COUR.FTMO). -/
def busyTicks (s : State) : FlashBusy → Nat
  | .page => max 1 (regF s Reg.cour_FTMO 0 8) * (msTicks / 10)
  | .erase => max 1 (regF s Reg.cour_FTMO 8 8) * (10 * msTicks)

/-- The tick the poll of a command begun now times out: of the command cut before it, where one was (R525). -/
def pollDue (s : State) (k : FlashBusy) : Nat := s.now + busyTicks s (s.flash.cut.getD k)

/-! ### The flash master (R522) -/

def setCommit (f : Commit → Commit) (s : State) : State :=
  { s with flash := { s.flash with commit := s.flash.commit.map f } }

/-- A commit takes the flash master and begins step C3. -/
def commitTake (s : State) : State :=
  { setCommit (fun c => { c with
      step := 3, waitFlash := false, poll := some .erase, due := pollDue s .erase, pre := s.flash.cut.isSome }) s with
    flash.owner := .commit }

/-- The client that holds the flash master is done; a waiting commit takes it (R522). -/
def flashRelease (s : State) : State :=
  let s := { s with flash := { s.flash with owner := .none } }
  match s.flash.commit with
  | some c => if c.waitFlash then commitTake s else s
  | none => s

/-- Client `o` starts waiting for the flash master. -/
def flashWait (o : FlashOwner) (s : State) : State :=
  if s.flash.waiters.contains o then s else { s with flash := { s.flash with waiters := s.flash.waiters ++ [o] } }

/-- Client `o` waits no more. -/
def flashLeave (o : FlashOwner) (s : State) : State :=
  { s with flash := { s.flash with waiters := s.flash.waiters.filter (· != o) } }

/-- Client `o` may take the flash master: it is free, and no client waits longer. -/
def flashFree (s : State) (o : FlashOwner) : Bool :=
  s.flash.owner == .none && (s.flash.waiters.head? == none || s.flash.waiters.head? == some o)

def flashTake (o : FlashOwner) (s : State) : State :=
  let s := flashLeave o s
  { s with flash := { s.flash with owner := o } }

/-- FLASH.STAT as it reads: the client, and QUAD, ADDR4 and SFDP as the boot microcode left them. -/
def flashStatWord (s : State) : Word :=
  let c := match s.flash.owner with
    | .none => 0
    | .boot => 0x9000
    | .commit => 0xA000
    | .courier c => 0xB000 + c.val * 0x200
    | .waili => 0xC000
  wd (c + regF s Reg.flash_STAT 6 3 * 0x40)

end Sys2Proof.Machine
end

