-- ==== Sys2Proof/Machine/Cour.lean ====
section
/-!
DEFINITION. The Courier's channels and descriptors but for the moves of units, which Moves.lean holds
(spec/11_scratchpad_masters_courier.md, R510-R537).
-/

namespace Sys2Proof.Machine

def chan (s : State) (c : Fin 8) : Chan := s.cour.chans[c]

def setChan (c : Fin 8) (f : Chan → Chan) (s : State) : State :=
  { s with cour := { s.cour with chans := s.cour.chans.set c (f s.cour.chans[c]) } }

def chanOwner (s : State) (c : Fin 8) : Fin 8 := thrIdx (regF s (Reg.cour_CHCFG c) 0 3)

/-- Fields of CTL (R510). -/
def chanKind (h : Chan) : Nat := fld h.ctl 12 3
def chanPair (h : Chan) : Bool := h.ctl.getLsbD 5
def chanFlash (h : Chan) : Bool := 2 ≤ chanKind h && chanKind h ≤ 4
/-- Words of a unit. -/
def unitWords (h : Chan) : Nat := if chanPair h then 2 else 1

/-- The Courier's registers stand still under a freeze (R1022). -/
def courFrozen (s : State) : Bool := frozenBlock s 4

/-- COUR.REMc: the units not moved. -/
def setRem (c : Fin 8) (s : State) : State :=
  let h := chan s c
  setReg (Reg.cour_REM c) (wd (h.count - h.moved)) s

/-- STAT of the descriptor in progress written; a discarded write is made once more with COLLIDED set (R502, R515). -/
def writeStat (c : Fin 8) (code : Nat) (s : State) : State :=
  let a := (reg s (Reg.cour_CUR c)).toNat * 8 + 1
  let h := chan s c
  let v := wd (code + h.collided.toNat * 0x800)
  match refusal s (.courier c) a 1 true with
  | some w => recordViol (.courier c) a true w s
  | none =>
    match spadWrite (.courier c) a [v] s with
    | (true, s) => s
    | (false, s) => spadWriteBy 2 a [v ||| 0x800] s

/-- The channel goes IDLE (R513, R517, R525). -/
def chanIdle (c : Fin 8) (s : State) : State :=
  let s := flashLeave (.courier c) s
  let s := if s.flash.owner == .courier c then flashRelease s else s
  setReg (Reg.cour_CUR c) 0xFFFF (setChan c (fun _ => {}) s)

/-- An error of channel `c` recorded: LERR, STAT.ERR and the channel's source (R513, R515, R518). -/
def chanError (c : Fin 8) (code : Nat) (s : State) : State :=
  let s := setRegF (Reg.cour_CSTAT c) 0 8 code s
  signalNat (64 + c.val) (hwSet Reg.cour_STAT (wd (2 ^ c.val)) s)

/-- The failing check of R513 on a descriptor that was read and has V at 1: 0 for none. -/
def descCheck (s : State) (h : Chan) : Nat :=
  let k := chanKind h
  let n := 2 * h.count
  let lo := (reg32 s Reg.cour_FWIN).toNat
  let hi := (reg32 s Reg.cour_FWLIM).toNat
  let inWin (a b : Nat) : Bool := decide (lo ≤ a) && decide (b ≤ hi)
  if 4 < k ∨ fld h.ctl 0 3 ≠ 0 ∨ (chanPair h ∧ chanFlash h) ∨ (0x2FFF < h.next.toNat ∧ h.next ≠ 0xFFFF) then 7
  else if (chanPair h ∧ (h.dst % 2 = 1 ∨ (k = 0 ∧ h.src % 2 = 1))) ∨ (k = 2 ∧ h.src % 2 = 1)
      ∨ ((k = 3 ∨ k = 4) ∧ h.dst % 2 = 1) then 4
  else if n ≠ 0 ∧ ((k = 3 ∧ !inWin h.dst (h.dst + n - 1))
      ∨ (k = 4 ∧ !inWin (eraseBase s h.dst) (eraseBase s (h.dst + n - 1) + eraseSize s - 1))) then 9
  else 0

/-- A descriptor fetch (R513-R515, R522). -/
def courFetch (c : Fin 8) (s : State) : State :=
  let h := chan s c
  let idx := (reg s (Reg.cour_CUR c)).toNat
  let a := 8 * idx
  if h.st != .run || !h.fetch || courFrozen s then s
  else if 0x2FFF < idx then chanIdle c (chanError c 8 s)
  else
    match (List.range 8).find? (fun i => (refusal s (.courier c) (a + i) 1 false).isSome) with
    | some i =>
      chanIdle c (chanError c 8
        (recordViol (.courier c) (a + i) false ((refusal s (.courier c) (a + i) 1 false).getD .region) s))
    | none =>
      match spadRead (readerOf (.courier c)) a 8 s with
      | (none, s) => chanIdle c (chanError c 8 s)
      | (some ws, s) =>
        let w (i : Nat) : Word := ws.getD i 0
        if !(w 0).getLsbD 15 then chanIdle c s
        else
          let h : Chan :=
            { st := .run, ctl := w 0, src := (mkPair (w 2) (w 3)).toNat, dst := (mkPair (w 4) (w 5)).toNat
              count := (w 6).toNat, next := w 7 }
          let e := descCheck s h
          let s := setRem c (setChan c (fun _ => { h with err := e, done := decide (e ≠ 0 ∨ h.count = 0) }) s)
          if e ≠ 0 then s
          else
            let s := writeStat c 0x1000 s
            if h.count ≠ 0 ∧ chanFlash h then flashWait (.courier c) (setChan c (fun h => { h with st := .waitfl }) s)
            else s

/-- The end of a descriptor (R515-R518). -/
def courEnd (c : Fin 8) (s : State) : State :=
  let h := chan s c
  if !h.done then s
  else
    let s := writeStat c (if h.err = 0 then 0x2000 else 0x3000 + h.err) s
    let s := if h.err ≠ 0 then chanError c h.err s
      else if h.ctl.getLsbD 7 then signalNat (64 + c.val) s else s
    let s := if h.ctl.getLsbD 11 then setEvent (thrIdx (fld h.ctl 8 3)) 13 s else s
    let s := chanIdle c s
    if h.err = 0 ∧ h.ctl.getLsbD 6 ∧ h.next ≠ 0xFFFF then
      setReg (Reg.cour_CUR c) h.next (setChan c (fun _ => { st := .run, fetch := true }) s)
    else s

/-- The page or erase unit at byte `a` of a flash command that did not end as asked holds undefined contents (R525). -/
def flashHalf (k : FlashBusy) (a : Nat) (s : State) : State :=
  match k with
  | .page => flashUndefined (a / 256 * 256) 256 s
  | .erase => flashUndefined (eraseBase s a) (eraseSize s) s

/-- The flash page or erase unit a cut command concerned holds undefined contents; the next command polls first (R525). -/
def cutFlash (k : FlashBusy) (a : Nat) (s : State) : State :=
  let s := flashHalf k a s
  { s with flash := { s.flash with cut := some k } }

/-- The flash byte the channel's flash work has come to. -/
def chanFlashAt (h : Chan) : Nat := h.dst + 2 * h.moved

/-- A channel that is not IDLE is aborted (R525). -/
def chanAbort (c : Fin 8) (s : State) : State :=
  let h := chan s c
  if h.st == .idle then s
  else
    let s := if h.fetch then s else writeStat c 0x4000 (setRem c s)
    let s := match h.poll with
      | some k => if h.pre then s else cutFlash k (chanFlashAt h) s
      | none => s
    abortDone 2 c.val (chanIdle c s)

/-- A start of channel `c` by a master (R519, R520). -/
def courStart (m : Master) (c : Fin 8) (s : State) : State :=
  let may := privileged m || m == .thread (chanOwner s c)
  if !may then s
  else if fenceBit s (fbCour c) then hwSet Reg.cour_STAT (wd (2 ^ c.val)) s
  else if (chan s c).st != .idle then s
  else
    setReg (Reg.cour_CUR c) (reg s (Reg.cour_HEAD c)) (setChan c (fun _ => { st := .run, fetch := true }) s)

/-! ### Flash work (R522, R523) -/

/-- The channel's program or erase command starts, after the poll that ends a cut command (R525). -/
def chanPoll (c : Fin 8) (k : FlashBusy) (s : State) : State :=
  setChan c (fun h => { h with poll := some k, due := pollDue s k, pre := s.flash.cut.isSome }) s

/-- A channel in WAITFL takes the flash master; an erase starts at once (R522, R523). -/
def courGrant (c : Fin 8) (s : State) : State :=
  if (chan s c).st != .waitfl || !flashFree s (.courier c) || courFrozen s then s
  else
    let s := flashTake (.courier c) (setChan c (fun h => { h with st := .run }) s)
    if chanKind (chan s c) = 4 then chanPoll c .erase s else s

/-- A busy poll of the channel reads 0 (R523): the erase unit is erased, or the page programmed, and the transfer goes on. -/
def courPollDone (c : Fin 8) (s : State) : State :=
  let h := chan s c
  match h.poll with
  | none => s
  | some k =>
    if h.due < s.now ∨ !s.flash.answers then s
    else if h.pre then chanPoll c k { s with flash := { s.flash with cut := none } }
    else
      match k with
      | .erase =>
        let b := eraseBase s (chanFlashAt h)
        let s := flashErase b (eraseSize s) s
        let moved := min h.count ((b + eraseSize s - h.dst) / 2)
        let s := setRem c (setChan c (fun h =>
          { h with moved := moved, poll := none, done := decide (moved = h.count) }) s)
        if moved < h.count then chanPoll c .erase s else s
      | .page =>
        let s := flashProgram (chanFlashAt h) (h.page.flatMap (fun (w : Word) => [w.setWidth 8, (w >>> 8).setWidth 8])) s
        let moved := h.moved + h.page.length
        setRem c (setChan c (fun h =>
          { h with moved := moved, page := [], poll := none, done := decide (moved = h.count) }) s)

def courPollDue (s : State) (c : Fin 8) : Nat := (chan s c).due

/-- The poll exceeds FTMO: code 0Ah (R523). What the command was writing holds undefined contents. -/
def courTimeout (c : Fin 8) (s : State) : State :=
  let h := chan s c
  match h.poll with
  | none => s
  | some k =>
    let s := if h.pre then s else flashHalf k (chanFlashAt h) s
    setChan c (fun h => { h with poll := none, err := 0x0A, done := true }) s

/-! ### Registers -/

def courOp (m : Master) (a : Nat) (v : Word) (s : State) : State :=
  let o := a - 0x41800
  if o = 0 then
    (List.finRange 8).foldl (fun s (c : Fin 8) => if v.getLsbD (8 + c.val) then courStart m c s else s) s
  else if 0x04 ≤ o ∧ o < 0x08 then (if privileged m then regWriteBits a v s else s)
  else if 0x10 ≤ o ∧ o < 0x18 then (if privileged m then regWriteBits a v s else s)
  else if h : 0x18 ≤ o ∧ o < 0x20 then
    (if privileged m || m == .thread (chanOwner s ⟨o - 0x18, by omega⟩) then regWriteBits a v s else s)
  else regWriteBits a v s

def courPeek (s : State) (a : Nat) : Word :=
  let o := a - 0x41800
  if o = 0x01 then
    reg s a ||| wd ((List.finRange 8).foldl (fun w (c : Fin 8) => w + (decide ((chan s c).st ≠ .idle)).toNat * 2 ^ (8 + c.val)) 0)
  else if o = 0x02 then
    match s.flash.owner with
    | .courier c => wd (0x8000 + c.val)
    | .boot => 0x4000
    | .commit => 0x4000
    | _ => 0
  else if h : 0x30 ≤ o ∧ o < 0x38 then
    let c : Fin 8 := ⟨o - 0x30, by omega⟩
    let st := if fenceBit s (fbCour c) then 3 else match (chan s c).st with
      | .idle => 0
      | .run => 1
      | .waitfl => 2
    putFld (reg s a) 14 2 st
  else reg s a

end Sys2Proof.Machine
end

