-- ==== Sys2Proof/Machine/Commit.lean ====
section
/-!
DEFINITION. Checking and committing the working copy (spec/04_start_up_image_armature.md, R177-R187, R194, R196).
-/

namespace Sys2Proof.Machine

/-- SYS.ARMSTAT bits. -/
abbrev armWCV : Nat := 13
abbrev armDIRTY : Nat := 12
abbrev armCBUSY : Nat := 11
abbrev armCERR : Nat := 10

/-- The CRC pair of the working copy recomputed and stored, where LEN is in its range (R179). -/
def storeCrc (s : State) : State :=
  let f := wcWord s
  if lenOk f s.flash.slotSz then
    let n := armLen f
    let c := armCrc f n
    spadPut (0x16000 + n - 1) (highWord c) (spadPut (0x16000 + n - 2) (lowWord c) s)
  else s

/-- The working-copy check (R179): the result, and the state after it. -/
def wcCheck (s : State) : Nat × State :=
  let r := copyCheck (wcWord s) s.flash.slotSz
  let s := storeCrc s
  let s := setRegBit Reg.sys_ARMSTAT armDIRTY false (setRegBit Reg.sys_ARMSTAT armWCV (r == 0) s)
  (r, setReg Reg.sys_ARMRSN (wd r) s)

/-- ARMCMD and CFG CHECK act in SETUP and while no commit runs (R179, R182). -/
def armMayRun (s : State) : Bool := inSetup s && !commitBusy s

def armCheck (s : State) : State := if armMayRun s then (wcCheck s).2 else s

/-- A commit stops or completes: it ends in the tick COMMIT_END names (R185). -/
def commitStop (ok tmo : Bool) (s : State) : State :=
  let s := if ok then s else hwSet Reg.sys_ARMSTAT 0x0400 s
  setCommit (fun c => { c with ended := some (ok, tmo), poll := none }) s

/-- The start of the target slot in flash. -/
def slotBase (s : State) (slot : Nat) : Nat := if slot = 0 then s.flash.slotA else s.flash.slotB

/-- 1 + the highest GEN among the slots valid at the last selection (R181). -/
def nextGen (s : State) : Nat :=
  let ga := if regF s Reg.sys_ARMSTAT 4 4 = 0 then (reg32 s Reg.sys_GENA).toNat else 0
  let gb := if regF s Reg.sys_ARMSTAT 0 4 = 0 then (reg32 s Reg.sys_GENB).toNat else 0
  1 + max ga gb

/-- Steps C1 and C2, and the request for the flash master (R181, R183). -/
def armCommit (m : Master) (s : State) : State :=
  if !armMayRun s then s
  else
    let slot := if regF s Reg.sys_ARMSTAT 14 2 = 1 then 1 else 0
    let s := setRegBit Reg.sys_ARMSTAT armCBUSY true s
    let s := { s with flash := { s.flash with commit := some { slot := slot, waili := m == .waili } } }
    let (r, s) := wcCheck s
    if r ≠ 0 then commitStop false false s
    else
      let gen := nextGen s
      let s := setCommit (fun c => { c with step := 2, gen := gen }) s
      if 0xFFFFFFFE < gen then commitStop false false s
      else
        let g : Pair := BitVec.ofNat 32 gen
        let s := spadPut 0x16005 (highWord g) (spadPut 0x16004 (lowWord g) s)
        let s := storeCrc (spadPut 0x1600F 0xFFFF (spadPut 0x1600E 0xFFFF s))
        if s.flash.owner = .none then commitTake s else setCommit (fun c => { c with waitFlash := true }) s

/-- The bytes of the working copy that steps C4 and C6 program, from byte `p` to the end of its page. -/
def commitBytes (s : State) (base p stop : Nat) : List Byte :=
  let n := min (256 - (base + p) % 256) (stop - p)
  (List.range n).map (fun i =>
    let w := wcWord s ((p + i) / 2)
    if (p + i) % 2 = 0 then w.extractLsb' 0 8 else w.extractLsb' 8 8)

/-- The flash reads as the working copy does, from byte `a` to `b - 1` of the slot. -/
def commitMatches (s : State) (base a b : Nat) : Bool :=
  (List.range (b - a)).all (fun i => flashByte s (base + a + i) == ((commitBytes s 0 (a + i) (a + i + 1)).getD 0 0))

/-- The poll of the next command of the commit begins. -/
def commitPoll (k : FlashBusy) (s : State) : State :=
  setCommit (fun c => { c with poll := some k, due := s.now + busyTicks s k }) s

/-- Step C7. -/
def commitFinish (c : Commit) (s : State) : State :=
  let s := setCommit (fun c => { c with step := 7 }) s
  let s := setRegF Reg.sys_ARMSTAT 14 2 (c.slot + 1) s
  let s := setReg32 (if c.slot = 0 then Reg.sys_GENA else Reg.sys_GENB) (BitVec.ofNat 32 c.gen) s
  commitStop true false s

/-- The busy poll of the commit's command reads bit 0 as 0 (R181, R184). A poll that only ends a command cut before
starts the commit's own command (R525). -/
def commitPollDone (s : State) : State :=
  match s.flash.commit with
  | none => s
  | some c =>
    if c.poll.isNone || !s.flash.answers || decide (c.due < s.now) then s
    else if c.pre then
      let s := { s with flash := { s.flash with cut := none } }
      commitPoll .erase (setCommit (fun c => { c with pre := false }) s)
    else
      let base := slotBase s c.slot
      let size := s.flash.slotSz * 1024
      let stop := 2 * armLen (wcWord s)
      if c.step = 3 then
        let s := flashErase (base + c.pos) (eraseSize s) s
        let p := c.pos + eraseSize s
        if p < size then commitPoll .erase (setCommit (fun c => { c with pos := p }) s)
        else commitPoll .page (setCommit (fun c => { c with step := 4, pos := 0 }) s)
      else if c.step = 4 then
        let bs := commitBytes s base c.pos stop
        let s := flashProgram (base + c.pos) bs s
        let p := c.pos + bs.length
        if p < stop then commitPoll .page (setCommit (fun c => { c with pos := p }) s)
        else
          let s := setCommit (fun c => { c with step := 5, pos := 28 }) s
          if commitMatches s base 0 stop then commitPoll .page (setCommit (fun c => { c with step := 6 }) s)
          else commitStop false false s
      else
        let s := flashProgram (base + 28) [0xC3, 0x5A, 0xA5, 0x3C] s
        if flashBytes s (base + 28) 4 = [0xC3, 0x5A, 0xA5, 0x3C] then
          commitFinish c (spadPut 0x1600F 0x3CA5 (spadPut 0x1600E 0x5AC3 s))
        else commitStop false false s

def commitTimeoutDue (s : State) : Nat :=
  match s.flash.commit with
  | some c => if c.poll.isSome then c.due else s.now
  | none => s.now

/-- The command under way of a commit is cut: what it was writing is left undefined (R525). -/
def commitCut (s : State) : State :=
  match s.flash.commit with
  | some c =>
    match c.poll with
    | some k => if c.pre then s else cutFlash k (slotBase s c.slot + c.pos) s
    | none => s
  | none => s

/-- The busy poll runs past its time (R184). -/
def commitTimeout (s : State) : State :=
  match s.flash.commit with
  | some c => if c.poll.isSome && decide (c.due ≤ s.now) then commitStop false true (commitCut s) else s
  | none => s

/-- The commit ends (R185). -/
def commitEnd (s : State) : State :=
  match s.flash.commit with
  | none => s
  | some c =>
    match c.ended with
    | none => s
    | some (ok, tmo) =>
      let s := setRegBit Reg.sys_ARMSTAT armCBUSY false s
      let s := setReg Reg.flash_CMT (wd (0x8000 + ok.toNat * 0x4000 + tmo.toNat * 0x2000 + c.step)) s
      let s := hwSet Reg.flash_CMT 0x8000 s
      let s := { s with flash := { s.flash with commit := none } }
      let s := if s.flash.owner = .commit then flashRelease s else s
      commitEnded (signal 60 s)

/-- A write of 0001h or 0002h to SYS.ARMCMD (R179, R181). -/
def armcmdWrite (m : Master) (v : Word) (s : State) : State :=
  if v = 1 then armCheck s else if v = 2 then armCommit m s else s

end Sys2Proof.Machine
end

