-- ==== Sys2Proof/Machine/Flags.lean ====
section
/-!
DEFINITION. The results and flags of the arithmetic, logic, shift and accumulator instructions (R288-R290, R360,
R363-R365, R374, R375), at width 16, or 32 with PAIR (R359). The PSW holds C, V, Z, N and S in bits 0 to 4.
-/

namespace Sys2Proof.Machine

/-- The PSW with C, V, Z and N replaced (R283). -/
def withCVZN (psw : Word) (c v z n : Bool) : Word := putBit (putBit (putBit (putBit psw 0 c) 1 v) 2 z) 3 n

/-- The PSW with C replaced. -/
def withC (psw : Word) (c : Bool) : Word := putBit psw 0 c

/-- S is set where a result saturated (R284). -/
def withSat (psw : Word) (sat : Bool) : Word := if sat then putBit psw 4 true else psw

/-- Whether a condition code holds on a PSW (R360). -/
def condHolds (psw : Word) (cc : Fin 16) : Bool :=
  let c := psw.getLsbD 0
  let v := psw.getLsbD 1
  let z := psw.getLsbD 2
  let n := psw.getLsbD 3
  match cc.val with
  | 0 => true
  | 1 => z
  | 2 => !z
  | 3 => c
  | 4 => !c
  | 5 => n
  | 6 => !n
  | 7 => v
  | 8 => !v
  | 9 => !c && !z
  | 10 => c || z
  | 11 => n == v
  | 12 => n != v
  | 13 => !z && n == v
  | 14 => z || n != v
  | _ => psw.getLsbD 4

/-! ### Addition and subtraction (R363) -/

/-- A sum or difference before finish(): the result modulo 2^width, C and V. -/
structure Sum (w : Nat) where
  res : BitVec w
  c : Bool
  v : Bool

def addR {w : Nat} (a b : BitVec w) (cin : Bool) : Sum w :=
  let r := a.toNat + b.toNat + cin.toNat
  let res := BitVec.ofNat w r
  { res := res, c := decide (2 ^ w ≤ r), v := a.msb == b.msb && res.msb != a.msb }

def subR {w : Nat} (a b : BitVec w) (bin : Bool) : Sum w :=
  let res := a - b - BitVec.ofNat w bin.toNat
  { res := res, c := decide (a.toNat < b.toNat + bin.toNat), v := a.msb != b.msb && res.msb != a.msb }

/-- The largest value of the sign of `a`. -/
def satOf {w : Nat} (neg : Bool) : BitVec w := if neg then BitVec.intMin w else BitVec.intMax w

/-- finish(): the result and the PSW; `chain` keeps Z clear, as ADC and SBC do. -/
def finishR {w : Nat} (sat chain : Bool) (a : BitVec w) (x : Sum w) (psw : Word) : BitVec w × Word :=
  let clip := sat && x.v
  let res := if clip then satOf a.msb else x.res
  let z := res == 0 && (!chain || psw.getLsbD 2)
  (res, withSat (withCVZN psw x.c x.v z res.msb) clip)

/-! ### Logic (R364) -/

def logicR {w : Nat} (res : BitVec w) (psw : Word) : BitVec w × Word :=
  (res, withCVZN psw false false (res == 0) res.msb)

/-- The arithmetic and logic instructions on two operands (R372): the result and the PSW. -/
def aluR {w : Nat} (o : AluOp) (sat : Bool) (a b : BitVec w) (psw : Word) : BitVec w × Word :=
  match o with
  | .add => finishR sat false a (addR a b false) psw
  | .adc => finishR sat true a (addR a b (psw.getLsbD 0)) psw
  | .sub => finishR sat false a (subR a b false) psw
  | .sbc => finishR sat true a (subR a b (psw.getLsbD 0)) psw
  | .cmp => finishR false false a (subR a b false) psw
  | .and => logicR (a &&& b) psw
  | .or => logicR (a ||| b) psw
  | .xor => logicR (a ^^^ b) psw
  | .tst => logicR (a &&& b) psw

/-- CMP and TST write no register. -/
def aluWrites : AluOp → Bool
  | .cmp => false
  | .tst => false
  | _ => true

/-- NEG is sub(0, Rd, 0). -/
def negR {w : Nat} (sat : Bool) (b : BitVec w) (psw : Word) : BitVec w × Word :=
  finishR sat false 0 (subR 0 b false) psw

/-! ### Shifts (R365) -/

/-- Bit `k - 1` of `x` for 1 ≤ k ≤ W. -/
def outBit {w : Nat} (x : BitVec w) (k : Nat) : Bool := 1 ≤ k && k ≤ w && x.getLsbD (k - 1)

def shiftR {w : Nat} (o : ShOp) (sat : Bool) (x : BitVec w) (k : Nat) (psw : Word) : BitVec w × Word :=
  match o with
  | .shl =>
    let res := x <<< k
    let c := 1 ≤ k && k ≤ w && x.getLsbD (w - k)
    let v := decide (res.toInt ≠ x.toInt * 2 ^ k)
    let clip := sat && v
    let out := if clip then satOf x.msb else res
    (out, withSat (withCVZN psw c v (out == 0) out.msb) clip)
  | .shr =>
    let res := x >>> k
    (res, withCVZN psw (outBit x k) false (res == 0) res.msb)
  | .sar =>
    let res := x.sshiftRight (min k w)
    let c := if w < k then x.msb else outBit x k
    (res, withCVZN psw c false (res == 0) res.msb)
  | .rol =>
    let res := x.rotateLeft (k % w)
    (res, withCVZN psw (k % w != 0 && res.getLsbD 0) false (res == 0) res.msb)

/-! ### Accumulators (R288-R290, R373-R375) -/

/-- The exact value of a 40-bit accumulator. -/
def accInt (a : BitVec 40) : Int := a.toInt

/-- AC + x: the new accumulator, V and whether it clamped (R289, R374). -/
def accAdd (sat : Bool) (a : BitVec 40) (x : Int) : BitVec 40 × Bool × Bool :=
  let v := accInt a + x
  if sat then
    let c := clampI (-(2 ^ 31)) (2 ^ 31 - 1) v
    (BitVec.ofInt 40 c, false, c != v)
  else (BitVec.ofInt 40 v, decide (v < -(2 ^ 39) ∨ 2 ^ 39 ≤ v), false)

/-- The exact product of two registers. -/
def prodInt (a b : Word) : Int := sgn a * sgn b

/-- The PSW after MUL, MAC, MSU or TMAC with accumulator `a` (R374). -/
def accFlags (a : BitVec 40) (v clip : Bool) (psw : Word) : Word :=
  withSat (withCVZN psw false v (a == 0) a.msb) clip

/-- ACLD: a pair in bits 31-0, sign-extended (R290). -/
def accLoad (p : Pair) : BitVec 40 := p.signExtend 40

/-- What ACST and ACST.R store: the value in 32 bits, and whether it clamped (R290, R375). -/
def accStore (round sat pair : Bool) (a : BitVec 40) : Pair × Bool :=
  let v := accInt a + (if round then 0x8000 else 0)
  let x := if pair then v else v / 65536
  let c := if pair then clampI (-(2 ^ 31)) (2 ^ 31 - 1) x else clampI (-0x8000) 0x7FFF x
  if sat then (BitVec.ofInt 32 c, c != x) else (BitVec.ofInt 32 x, false)

end Sys2Proof.Machine
end

