-- ==== Sys2Proof/Machine/Tooth.lean ====
section
/-!
DEFINITION. Crank and cam edges, teeth, synchronisation, boundaries and stalls (spec/13_angle_tracker.md, R576-R627),
with what they do to the Event Table, the Kernel and the mode.
-/

namespace Sys2Proof.Machine

def setAng (f : Ang → Ang) (s : State) : State := { s with ang := f s.ang }

/-! ### Loss and gain of synchronisation (R592, R595, R596) -/

/-- CRANK, HALF or SYNC is left for HUNT or STOP: RATE and RPM go to 0, ANGLE holds; a loss counts where it is one (R595),
the Event Table and the Kernel cancel (R651, R754), and a pending return to RUN takes effect (R225). -/
def angDrop (dst : AngState) (s : State) : State :=
  let was := s.ang.st
  let sync := angSync s
  let counts := sync || (was == .crank && dst == .hunt)
  let a := angleNow s
  let s := setAng (fun g => { g with
    st := dst, frozen := a, rate := 0, rpm := 0, phcmd := none, wrapPend := false, wrapOwed := false, rPrev := none
    cand := false, hist := [], huntTeeth := 0, camRef := false, crankTeeth := 0, camOut := 0, camCycles := 0 }) s
  let s := if counts then hwCountF Reg.ang_LOSS 8 8 1 s else s
  let s := if sync then signal 4 s else s
  let s := if was == .crank || sync then kernSyncLost (syncCancel s) else s
  if sync then unitsReturn (pendTakesEffect s) else s

/-- Angle 0 lies after the tooth, up to the next one. -/
def wrapAhead (s : State) : Bool :=
  let l := angL s
  angSync s && decide (l ≤ s.ang.tang + s.ang.spanNext)

/-- The angle, counted modulo 23040 in CRANK, is counted modulo L from here on (R591, R601). -/
def countModL (s : State) : State :=
  let s := setAng (fun g => { g with tang := toothAngle s g.tidx }) s
  setAng (fun g => { g with wrapPend := wrapAhead s && decide (angleNow s != 0) }) s

/-- HALF or SYNC is entered from another state: source 4; the entries that become timed take REF; the Kernel allocates at
the next tooth processed (R596, R638, R766). -/
def angGain (dst : AngState) (s : State) : State :=
  let was := s.ang.st
  let s := setAng (fun g => { g with st := dst, camOut := 0, camCycles := 0, crankTeeth := 0 }) s
  let s := if was == .crank then countModL s else s
  let s := signal 4 s
  let s := refAll (fun n => was != .crank || entCyc s n != 2) s
  setKern (fun k => { k with allocDue := true, owed := [], done := [], owedReq := [], doneReq := [] }) s

/-- CRANK is entered: REV entries become timed. -/
def enterCrank (s : State) : State :=
  refAll (fun n => entCyc s n == 2) (setAng (fun g => { g with st := .crank, crankTeeth := 0 }) s)

/-- The cam stops being in use in CRANK (R592). -/
def camLeft (s : State) : State :=
  if s.ang.st == .crank && !camInUse s then retimeAll (angGain .half s) else s

/-! ### Patterns (R593, R594) -/

/-- The candidate test of R593: 2 × P2 ≥ (2M + 1) × P1. -/
def gapTest (s : State) (p1 p2 : Nat) : Bool := decide ((2 * s.ang.cfg.missing + 1) * p1 ≤ 2 * p2)

/-- The confirmation of R593: (2M + 1) × P3 ≤ 2 × P2. -/
def gapConfirm (s : State) (p2 p3 : Nat) : Bool := decide ((2 * s.ang.cfg.missing + 1) * p3 ≤ 2 * p2)

/-! ### Rate and speed (R606, R611) -/

/-- RATE of R606. -/
def rateOf (s : State) (r : Nat) (gapNear : Bool) : Nat :=
  let g := min 8 (regF s Reg.ang_TUNE 0 4)
  let acc : Int := match s.ang.rPrev with
    | some rp => if gapNear then 0 else ((g : Int) * (r - rp)) / 8
    | none => 0
  (min (max (r + acc) (r / 2 : Nat)) (2 * r : Nat)).toNat

/-- RPM of R611: over the intervals of the last revolution, scaled while fewer are known. -/
def rpmOf (s : State) : Nat :=
  let h := if s.ang.cfg.teeth = 1 then s.ang.hist.take 1 else s.ang.hist.take (teethPresent s.ang.cfg)
  let p := h.foldl (fun a x => a + x.1) 0
  let t := h.foldl (fun a x => a + x.2) 0
  if t = 0 ∨ p = 0 then 0 else min 65535 (9600000000 * t / (p * revAu))

def addHist (p t : Nat) (s : State) : State := setAng (fun g => { g with hist := (p, t) :: g.hist.take 79 }) s

/-- The tooth data of R607 for tooth `idx` that ended an interval of `p` ticks and `th` au at tick `t`. -/
def publish (idx p th t : Nat) (isGap : Bool) (s : State) : State :=
  let r := p * 65536 / max 1 th
  let rate := rateOf s r (isGap || s.ang.prevGap)
  let s := addHist p th s
  let s := setAng (fun g => { g with
    tidx := idx, tang := toothAngle s idx, rate := rate, tper := p, tk := t, stampTk := t, edge := true
    rPrev := some r, prevGap := isGap, pPrev := some p, spanNext := toothSpan s (idx + 1) }) s
  let s := setAng (fun g => { g with rpm := rpmOf s }) s
  setAng (fun g => { g with wrapPend := wrapAhead s }) s

/-! ### What a tooth does in each state -/

/-- HUNT is entered with the tooth at tick `t` as its first. -/
def huntStart (t : Nat) (p : Option Nat) (cand : Bool) (s : State) : State :=
  setAng (fun g => { g with
    st := .hunt, edge := true, tk := t, stampTk := t, huntTeeth := 1, rPrev := none, pPrev := p, cand := cand, prevGap := false
    hist := [], camRef := false }) s

/-- A reference is found at the tooth that ends an interval of `p` ticks: the tooth has index `idx`, and the state follows
R592; `cam` says that the reference came from the cam. -/
def reference (idx p th t : Nat) (cam : Bool) (s : State) : State :=
  if s.ang.cfg.cycle4 && camInUse s && !cam then enterCrank (publish idx p th t false (setAng (fun g => { g with st := .crank }) s))
  else
    let dst := if s.ang.cfg.cycle4 && !camInUse s then AngState.half else .sync
    let s := publish idx p th t false (setAng (fun g => { g with st := dst }) s)
    angGain dst (setAng (fun g => { g with st := .hunt }) s)

/-- The first index and phase of R585 that lie after CAMANG: tooth 0 of a wheel without a gap. -/
def camBase (s : State) : Nat × Bool :=
  let n := max 1 s.ang.cfg.teeth
  let ca := s.ang.cfg.camang
  let all := (List.range n).flatMap (fun i => [(i, false), (i, true)])
  let dist (x : Nat × Bool) : Nat :=
    let a := s.ang.cfg.refang + x.1 * revAu / n + (if x.2 then revAu else 0)
    let d := angSub (2 * revAu) a ca
    if d = 0 then 2 * revAu else d
  all.foldl (fun b x => if dist x < dist b then x else b) (0, false)

/-- A tooth in HUNT at tick `t` (R592, R593, R606). -/
def huntTooth (t : Nat) (s : State) : State :=
  let c := s.ang.cfg
  let p := t - s.ang.tk
  let pitch := revAu / max 1 c.teeth
  let r := p * 65536 / max 1 pitch
  let step (cand : Bool) (s : State) : State :=
    setAng (fun g => { g with
      tk := t, stampTk := t, huntTeeth := g.huntTeeth + 1, rPrev := some r, pPrev := some p, cand := cand }) s
  if c.missing = 0 then
    if camInUse s then
      if s.ang.camRef then
        let (b, ph) := camBase s
        let s := setAng (fun g => { g with base := b, ph := ph, camRef := false, camTaken := false }) s
        reference 0 p (if c.teeth = 1 then revAu else pitch) t true s
      else addHist p pitch (step false s)
    else if c.teeth = 1 then reference 0 p revAu t false (setAng (fun g => { g with base := 0 }) s)
    else addHist p pitch (step false s)
  else
    match s.ang.cand, s.ang.pPrev with
    | true, some p2 =>
      if gapConfirm s p2 p then
        let s := setAng (fun g => { g with base := 0, prevGap := true }) s
        reference 1 p (toothSpan s 1) t false s
      else
        let c2 := gapTest s p2 p
        let s := setAng (fun g => { g with hist := [] }) (step c2 s)
        if c2 then addHist p (toothSpan s 0) s else s
    | _, some p1 =>
      let c2 := gapTest s p1 p
      let s := if c2 then setAng (fun g => { g with camTaken := false }) s else s
      addHist p (if c2 then toothSpan s 0 else pitch) (step c2 s)
    | _, none => addHist p pitch (step false s)

/-- The ARMED, timed entries whose target the angle passes going from `a` to the tooth fall due (R641, R661). -/
def toothPasses (a : Nat) (s : State) : State :=
  let hit (x : Nat × Ent) : Bool :=
    x.2.st == .armed && timed s x.1 && decide (x.2.ref < s.now) &&
      passed (entLap s x.1) a s.ang.tang (targetAngle s x.1 x.2)
  (s.evt.ents.filter hit).foldl (fun s x => setEnt x.1 { (ent s x.1) with st := .due, fell := s.now, due := none } s) s

/-- Angle `c` = 0 lay in the interval that ended, and its boundary was not signalled (R612). -/
def noteWrap (s : State) : State :=
  if s.ang.wrapPend then setAng (fun g => { g with wrapOwed := true, wrapPend := false }) s else s

/-- A pattern error with detail `d` at the tooth of tick `t`; it may itself end a gap (R592, R594, R616). -/
def patternError (d p t : Nat) (cand : Bool) (s : State) : State :=
  let s := raise { cls := clsAngle, detail := wd d } s
  huntStart t (some p) cand (angDrop .hunt s)

/-- CONFIRM or FLIP takes effect at this tooth (R592, R598, R605). -/
def phaseCommand (s : State) : State :=
  match s.ang.st, s.ang.phcmd with
  | .half, some true => setAng (fun g => { g with st := .sync, phcmd := none, camOut := 0, camCycles := 0 }) s
  | .half, some false =>
    let keep := s.ang
    let s := angDrop .hunt s
    let s := setAng (fun _ => { keep with st := .hunt, ph := !keep.ph, phcmd := none, wrapPend := false }) s
    angGain .sync s
  | _, _ => setAng (fun g => { g with phcmd := none }) s

/-- PH after tooth `idx`: it inverts at tooth 0 of a four-stroke, but for CRANK (R584, R591). -/
def phaseStep (idx : Nat) (s : State) : State :=
  if idx = 0 && s.ang.cfg.cycle4 && angSync s then setAng (fun g => { g with ph := !g.ph }) s else s

/-- The Event Table's and the Kernel's part of an accepted tooth, the angle before it being `a` and the tooth before it at
`a0` (R641, R642, R754, R765, R766, R772). -/
def afterTooth (a a0 : Nat) (wasSync : Bool) (s : State) : State :=
  let s := toothPasses a s
  let s := retimeAll s
  let s := if wasSync && angSync s then
      (List.finRange 4).foldl (fun s n => if kEn s 7 && decide (n.val < nCyl s) then torqueTooth a0 n s else s) (kernPassed a s)
    else s
  let s := evalCut s
  if s.kern.allocDue && angSync s && !frozenBlock s 2 then
    setKern (fun k => { k with allocDue := false }) (kernRearm (kernAlloc s))
  else s

/-- A tooth in CRANK, HALF or SYNC at tick `t` (R594, R598, R606). -/
def syncTooth (t : Nat) (s : State) : State :=
  let c := s.ang.cfg
  let p := t - s.ang.tk
  let k := max 1 (teethPresent c)
  let idx := (s.ang.tidx + 1) % k
  let gap := c.missing != 0 && idx == 0
  let test := match s.ang.pPrev with
    | some p1 => gapTest s p1 p
    | none => gap
  let a := angleAt s (s.now - clkTicks s)
  let a0 := s.ang.tang
  let wasSync := angSync s && s.ang.phcmd != some false
  if c.missing != 0 && gap && !test then patternError 2 p t false s
  else if c.missing != 0 && !gap && test then patternError 1 p t true s
  else
    let s := noteWrap s
    let s := phaseStep idx s
    let s := phaseCommand s
    let s := camLeft s
    let s := if idx = 0 then setAng (fun g => { g with camTaken := false }) s else s
    let s := publish idx p (toothSpan s idx) t gap s
    let s :=
      if s.ang.st == .crank then
        let s := setAng (fun g => { g with crankTeeth := g.crankTeeth + 1 }) s
        if 4 * k ≤ s.ang.crankTeeth then
          angGain .half (raise { cls := clsAngle, detail := 4, unit := some (.bit 34) } s)
        else s
      else s
    afterTooth a a0 wasSync s

/-- The registers of R582 written while the engine turned take effect (R620, R653). -/
def applyDirty (s : State) : State :=
  let l := angL s
  let s := if s.ang.st == .hunt then s else angDrop .hunt s
  cycleChanged l (setAng (fun g => { g with cfg := cfgOfRegs s, dirty := false, base := 0 }) s)

/-- The accepted tooth of tick `t` (R606, R607, R615). -/
def tooth (t : Nat) (s : State) : State :=
  let s := setAng (fun g => { g with pendTooth := none }) s
  match s.ang.st with
  | .stop => huntStart t none false s
  | _ =>
    let s := signal 7 s
    if s.ang.dirty then
      let s := applyDirty s
      if s.ang.cfg.teeth = 0 then setAng (fun g => { g with st := .stop, edge := false }) s
      else huntStart t none false s
    else if s.ang.st == .hunt then
      let s := huntTooth t s
      if s.ang.st == .hunt then evalCut s else afterTooth s.ang.tang s.ang.tang false s
    else syncTooth t s

/-! ### Crank edges (R576, R577, R587) -/

/-- An edge of the crank input: `peak` is the VR peak before it, in 20 mV (R577, R578, R587). -/
def crankEdge (peak : Byte) (s : State) : State :=
  if s.ang.cfg.teeth = 0 && !s.ang.dirty then s
  else if !s.ang.cfg.crkHall && decide (peak.toNat < max s.ang.thrCrank (vrThreshold s 0)) then s
  else
    let s :=
      if s.ang.cfg.crkHall then setRegF Reg.ang_VRPK 8 8 0 s
      else setAng (fun g => { g with thrCrank := vrThreshold s peak.toNat }) (setRegF Reg.ang_VRPK 8 8 peak.toNat s)
    let p := s.now - s.ang.tk
    let rel := regF s Reg.ang_TUNE 8 4
    let okMin := decide (s.ang.cfg.minper * 16 ≤ p)
    let okRel := rel = 0 || !angPublishes s || decide (rel * s.ang.spanNext * s.ang.rate ≤ 16 * p * 65536)
    if s.ang.edge && !(okMin && okRel) then signal 8 (hwCount Reg.ang_REJCNT s)
    else setAng (fun g => { g with pendTooth := some s.now }) s

/-- The accepted tooth under way, if any. -/
def toothNow (s : State) : State :=
  match s.ang.pendTooth with
  | some t => tooth t s
  | none => s

/-! ### The cam (R588-R604) -/

/-- The signed distance d(h) of R600 for an angle. -/
def camDist (s : State) (a : Nat) : Int := (((a : Int) - s.ang.cfg.camang + revAu) % (2 * revAu)) - revAu

def camTol (s : State) : Nat := min 11519 (reg s Reg.ang_CAMTOL).toNat

def camErr (s : State) : State := hwCountF Reg.ang_LOSS 0 8 1 s

/-- An accepted cam edge (R585, R601-R603). -/
def camAccepted (s : State) : State :=
  let a := angleNow s
  let tol : Int := camTol s
  let near (x : Int) : Bool := decide (-tol ≤ x ∧ x ≤ tol)
  let s := setAng (fun g => { g with camTaken := true, camCycles := 0 }) s
  match s.ang.st with
  | .stop => s
  | .hunt => if s.ang.cfg.missing = 0 then setAng (fun g => { g with camRef := true }) s else s
  | .crank =>
    let ok (h : Nat) : Bool := near (camDist s (a + revAu * h))
    if ok 0 || ok 1 then
      let s := setAng (fun g => { g with ph := !ok 0 }) s
      retimeAll (angGain .sync s)
    else camErr s
  | .half =>
    if near (camDist s a) then setAng (fun g => { g with st := .sync, camOut := 0 }) s
    else if near (camDist s (a + revAu)) then setAng (fun g => { g with phcmd := some false }) s
    else camErr s
  | .sync =>
    if near (camDist s a) then setAng (fun g => { g with camOut := 0 }) s
    else
      let s := camErr s
      if 1 ≤ s.ang.camOut then
        let t := s.ang.tk
        huntStart t none false (angDrop .hunt (raise { cls := clsAngle, detail := 3, unit := some (.bit 34) } s))
      else setAng (fun g => { g with camOut := g.camOut + 1 }) s

/-- A cam edge; a cam lifted from its fence is in use again from this edge on (R577, R588, R589, R625). -/
def camEdge (peak : Byte) (s : State) : State :=
  let s := setModes (fun m => { m with returning := m.returning.filter (· != fbCam) }) s
  if s.ang.cfg.teeth = 0 || !camInUse s || (!s.ang.cfg.camHall && decide (peak.toNat < max s.ang.thrCam (vrThreshold s 0))) then s
  else
    let s :=
      if s.ang.cfg.camHall then s
      else setAng (fun g => { g with thrCam := vrThreshold s peak.toNat }) (setRegF Reg.ang_VRPK 0 8 peak.toNat s)
    let far := match s.ang.camLast with
      | some t => decide (t + 32 ≤ s.now)
      | none => true
    let s := setAng (fun g => { g with camLast := some s.now }) s
    if far && !s.ang.camTaken then camAccepted s else camErr s

/-! ### Boundaries and stalls (R612, R613) -/

/-- The tick of the next cycle boundary: now, where a tooth passed angle 0. -/
def boundaryTick (s : State) : Nat :=
  if s.ang.wrapOwed then s.now else tickReached s (angL s - s.ang.tang)

/-- The cam has been missing for two cycles (R602). -/
def camMissing (s : State) : State :=
  if s.ang.st == .sync && camInUse s then
    let n := s.ang.camCycles + 1
    let s := setAng (fun g => { g with camCycles := n }) s
    if n = 2 then raise { cls := clsAngle, detail := 4, unit := some (.bit 34) } s else s
  else s

/-- A cycle boundary: source 6, CYCCNT, the pending return to RUN, the lifted units, the Kernel's handover (R612). -/
def cycleBoundary (s : State) : State :=
  let tick := decide (tickReached s (angL s - s.ang.tang) ≤ s.now) && s.ang.wrapPend &&
    decide (angL s < s.ang.tang + s.ang.spanNext)
  if angSync s && (s.ang.wrapOwed || tick) then
    let s := setAng (fun g => { g with wrapOwed := false, wrapPend := if g.wrapOwed then g.wrapPend else false }) s
    let n := (reg32 s Reg.ang_CYCCNT).toNat
    let s := setReg32 Reg.ang_CYCCNT (BitVec.ofNat 32 (min 0xFFFFFFFF (n + 1))) s
    kernBoundary (unitsReturn (pendTakesEffect (camMissing (signal 6 s))))
  else s

def stallTick (s : State) : Nat := s.ang.tk + s.ang.cfg.stallt * msTicks

/-- No accepted edge for STALLT ms: STOP, source 5 (R577, R613, R618). -/
def stall (s : State) : State :=
  if s.ang.st == .stop || s.ang.pendTooth.isSome || decide (s.now < stallTick s) then s
  else
    let s := angDrop .stop s
    let s := setAng (fun g => { g with edge := false, pPrev := none, tper := 0, thrCrank := vrThreshold s 0, thrCam := vrThreshold s 0 }) s
    signal 5 s

/-! ### Register writes (R582, R583, R598) -/

/-- A write to an ANG register. -/
def angWrite (m : Master) (a : Nat) (v : Word) (s : State) : State :=
  let o := a - 0x42000
  if !privileged m then s
  else if o < 0x05 ∨ (0x08 ≤ o ∧ o < 0x0C) then
    if !inSetup s || (a == Reg.ang_WHEEL && wheelRefused v) then s else angCfgWritten (regWriteBits a v s)
  else if o = 0x20 then phcmdWrite m v s
  else regWriteBits a v s

end Sys2Proof.Machine
end

