-- ==== Sys2Proof/Machine/Tile.lean ====
section
/-!
DEFINITION. The Tile Unit (spec/10_tiles_and_maps.md, R447-R483): its tiles, checks, room, and the operations by rows.
What an operation does to the thread that asked for it stands in Cpu.lean.
-/

namespace Sys2Proof.Machine

def tileAt (s : State) (n : Fin 8) : Tile := s.tile.tl[n]

def setTile (n : Fin 8) (f : Tile → Tile) (s : State) : State :=
  { s with tile := { s.tile with tl := s.tile.tl.set n (f s.tile.tl[n]) } }

def blocksOf (words : Nat) : Nat := (words + 63) / 64
def tileWords (t : Tile) : Nat := t.rows * t.cols
def footprint (t : Tile) : Nat := 64 * blocksOf (tileWords t)

/-- TILE.USED (R447). -/
def tileUsed (s : State) : Nat :=
  (List.finRange 8).foldl (fun a n => if (tileAt s n).st == .resident then a + footprint (tileAt s n) else a) 0

/-- TSR of tile `n`; a value of ROWS or above counts as 0. -/
def tsrOf (s : State) (n : Fin 8) : Nat :=
  let r := regF s (Reg.tile_TSR n) 0 4
  if (tileAt s n).rows ≤ r then 0 else r

def setTsr (n : Fin 8) (r : Nat) (s : State) : State := setReg (Reg.tile_TSR n) (wd (r % 16)) s

/-- The tile is used now (R457). -/
def touchTile (n : Fin 8) (s : State) : State := setTile n (fun t => { t with use := s.now }) s

/-! ### TCFG (R451, R452) -/

/-- The shape, owner and address a TCFG pair names (R383). -/
structure TileCfg where
  rows : Nat
  cols : Nat
  owner : Fin 8
  base : Nat

def cfgOfPair (p : Pair) : TileCfg :=
  { rows := fld p 12 4 + 1, cols := fld p 7 5 + 1, owner := thrIdx (fld p 4 3), base := fld p 0 4 * 65536 + fld p 16 16 }

/-- TILE.CFGn of a tile that is not FREE. -/
def cfgPair (t : Tile) : Pair :=
  BitVec.ofNat 32 (t.base % 65536 * 65536 + (t.rows - 1) * 4096 + (t.cols - 1) * 128 + t.owner.val * 16 + t.base / 65536)

/-- The area lies inside one segment of the thread with EN and WR (R451). -/
def segHolds (h : Thread) (a n : Nat) : Bool :=
  (List.finRange 8).any (fun k =>
    let g := h.sg[k]
    g.en && g.wr && decide (g.base.toNat ≤ a) && decide (a + n - 1 ≤ g.base.toNat + g.limit.toNat))

/-- The first failing check of a TCFG by thread `t` on tile `n` (R451). -/
def tcfgFails (s : State) (t n : Fin 8) (p : Pair) : Option Nat :=
  let c := cfgOfPair p
  let w := c.rows * c.cols
  let old := tileAt s n
  let others := (List.finRange 8).filter (fun k => k != n && (tileAt s k).st != .free && (tileAt s k).owner == c.owner)
  let quota := others.foldl (fun a k => a + footprint (tileAt s k)) (64 * blocksOf w)
  let placed := decide (c.base + w ≤ 0x16000) || (decide (0x17000 ≤ c.base) && decide (c.base + w ≤ 0x17C00))
  let region := (List.range 8).any (fun r => regionOk s .tile r c.base w true && regionOk s .tile r c.base w false)
  let overlap := others.any (fun k =>
    let o := tileAt s k
    decide (c.base < o.base + tileWords o) && decide (o.base < c.base + w))
  if 2 ≤ t.val ∧ (c.owner ≠ t ∨ (old.st ≠ .free ∧ old.owner ≠ t)) then some 4
  else if 256 < w then some 1
  else if 1024 < quota then some 5
  else if !placed || !region || (decide (2 ≤ c.owner.val) && !segHolds (thread s c.owner) c.base w) then some 3
  else if overlap then some 2
  else none

/-! ### Rows -/

/-- The Tile Unit's error is recorded: TILE.ERR, source 62 and the TILE class (R473, R474). -/
def tileError (kind : Nat) (n : Fin 8) (unit : Option FUnit) (s : State) : State :=
  let v := wd (kind * 0x4000 + n.val)
  let s := hwSet Reg.tile_ERR (v &&& 0xC000) (setReg Reg.tile_ERR v s)
  raise { cls := clsTile, detail := v, unit := unit } (signal 62 s)

/-- The words of a row read from the backing area: none, with the code of R473, on a parity error or a refusal. -/
def readRow (a n : Nat) (s : State) : (Nat ⊕ List Word) × State :=
  match (List.range n).find? (fun i => (refusal s .tile (a + i) 1 false).isSome) with
  | some i => (.inl 0x0A, recordViol .tile (a + i) false .region s)
  | none =>
    match spadRead (readerOf .tile) a n s with
    | (some ws, s) => (.inr ws, s)
    | (none, s) => (.inl 0x09, s)

/-- A row written to the backing area: false on a refusal (R474). -/
def writeRow (a : Nat) (ws : List Word) (s : State) : Bool × State :=
  match (List.range ws.length).find? (fun i => (refusal s .tile (a + i) 1 true).isSome) with
  | some i => (false, recordViol .tile (a + i) true ((refusal s .tile (a + i) 1 true).getD .region) s)
  | none =>
    (true, (List.range ws.length).foldl (fun s i => (spadWrite .tile (a + i) [ws.getD i 0] s).2) s)

/-- Rows `r` to `r + k - 1` loaded: the code of an error, if one ended it. -/
def loadRows (n : Fin 8) : Nat → Nat → State → Option Nat × State
  | 0, _, s => (none, s)
  | k + 1, r, s =>
    let t := tileAt s n
    match readRow (t.base + r * t.cols) t.cols s with
    | (.inl c, s) => (some c, s)
    | (.inr ws, s) =>
      let s := setTile n (fun t =>
        { t with data := t.data.take (r * t.cols) ++ ws ++ t.data.drop ((r + 1) * t.cols) }) s
      loadRows n k (r + 1) s

/-- Rows `r` to `r + k - 1` saved: false where a refusal ended it. -/
def saveRows (n : Fin 8) : Nat → Nat → State → Bool × State
  | 0, _, s => (true, s)
  | k + 1, r, s =>
    let t := tileAt s n
    match writeRow (t.base + r * t.cols) ((t.data.drop (r * t.cols)).take t.cols) s with
    | (false, s) => (false, s)
    | (true, s) => saveRows n k (r + 1) s

/-- The contents of a tile whose rows are not loaded yet: undefined words (R453). -/
def freeWords : Nat → State → List Word × State
  | 0, s => ([], s)
  | n + 1, s =>
    let (w, s) := takeWord s
    let (ws, s) := freeWords n s
    (w :: ws, s)

/-- A tile becomes EMPTY (R457, R473, R474). -/
def emptyTile (n : Fin 8) (s : State) : State := setTile n (fun t => { t with st := .empty, data := [] }) s

/-! ### Room (R458, R474) -/

/-- The victim of a make-room for a tile of thread `t`. -/
def victim (s : State) (t : Fin 8) : Option (Fin 8) :=
  (List.finRange 8).foldl (fun b k =>
    let x := tileAt s k
    if x.st == .resident && x.owner != t then
      match b with
      | none => some k
      | some j => if x.use < (tileAt s j).use then some k else b
    else b) (none : Option (Fin 8))

/-- One victim is spilled (R458, R460, R474). -/
def spill (n : Fin 8) (s : State) : State :=
  let t := tileAt s n
  match saveRows n t.rows 0 s with
  | (true, s) => hwCount Reg.tile_SPILLS (setTile n (fun t => { t with st := .spilled, data := [] }) s)
  | (false, s) => tileError 3 n none (emptyTile n s)

/-- Room for `need` words for a tile of thread `t`; at most the other seven tiles are spilled. -/
def makeRoom (t : Fin 8) (need : Nat) : Nat → State → State
  | 0, s => s
  | k + 1, s =>
    if tileUsed s + need ≤ 1024 then s
    else
      match victim s t with
      | none => s
      | some v => makeRoom t need k (spill v s)

/-- The tile is allocated, its rows undefined. -/
def makeResident (n : Fin 8) (s : State) : State :=
  let t := tileAt s n
  let s := makeRoom t.owner (footprint t) 8 s
  let (ws, s) := freeWords (tileWords t) s
  setTile n (fun t => { t with st := .resident, data := ws }) s

/-! ### TREL, TILE.FREE and the fence of a thread (R454, R457, R219) -/

/-- TREL on tile `n` that is not FREE. -/
def tileRel (n : Fin 8) (s : State) : State :=
  if (tileAt s n).st == .resident || (tileAt s n).st == .spilled then setTsr n 0 (emptyTile n s) else s

/-- The tile becomes FREE (R454, R477). -/
def tileFree (n : Fin 8) (s : State) : State := setTsr n 0 (setTile n (fun _ => {}) s)

/-- The tiles of a fenced thread are released as by TREL (R219). -/
def releaseTiles (t : Fin 8) (s : State) : State :=
  (List.finRange 8).foldl (fun s n => if (tileAt s n).owner == t then tileRel n s else s) s

/-! ### Operations -/

/-- How an operation ended: done, a lookup result, an exception of a tile with its code, or stopped at a row boundary;
`acc` is the accumulator a TMAC leaves, `v` and `clip` its V and whether it clamped. -/
inductive TRes where
  | done
  | value (w : Word) (c : Bool)
  | acc (a : BitVec 40) (v clip : Bool)
  | exc (code : Nat) (n : Fin 8)
  | stopped
deriving DecidableEq, Repr

/-- The access checks of R456 on the tiles an instruction names; `reads` says that it reads them. -/
def tileAccess (s : State) (t : Fin 8) (reads : Bool) : List (Fin 8) → Option (Nat × Fin 8)
  | [] => none
  | n :: l =>
    let x := tileAt s n
    if x.st == .free then some (6, n)
    else if x.owner != t then some (4, n)
    else if reads && x.st == .empty then some (6, n)
    else tileAccess s t reads l

/-- The unit a load error names: the issuing thread (R947). -/
def reqUnit (t : Fin 8) : Option FUnit := some (.bit ⟨16 + t.val, by omega⟩)

/-- A load or reload error ends the operation (R473). -/
def loadError (t n : Fin 8) (code : Nat) (s : State) : TRes × State :=
  (.exc code n, tileError (if code = 9 then 1 else 2) n (reqUnit t) (emptyTile n s))

/-- The rows of a load from TSR, up to row `upto` (all of them: none), and what R452, R453 and R466 record. -/
def loadFrom (t n : Fin 8) (upto : Option Nat) (s : State) : TRes × State :=
  let x := tileAt s n
  let r := tsrOf s n
  let stop := max r (min x.rows (upto.getD x.rows))
  match loadRows n (stop - r) r s with
  | (some c, s) => loadError t n c s
  | (none, s) => if stop < x.rows then (.stopped, touchTile n (setTsr n stop s)) else (.done, touchTile n (setTsr n 0 s))

/-- A SPILLED tile is reloaded whole (R457). -/
def reload (t n : Fin 8) (s : State) : Option (TRes × State) × State :=
  if (tileAt s n).st != .spilled then (none, s)
  else
    let s := makeResident n s
    match loadRows n (tileAt s n).rows 0 s with
    | (some c, s) => (some (loadError t n c s), s)
    | (none, s) => (none, s)

/-- TCFG (R451-R453). -/
def tcfgRun (t n : Fin 8) (p : Pair) (upto : Option Nat) (s : State) : TRes × State :=
  let x := tileAt s n
  if x.st == .resident && tsrOf s n != 0 && cfgPair x == p then loadFrom t n upto s
  else
    match tcfgFails s t n p with
    | some c => (.exc c n, s)
    | none =>
      let c := cfgOfPair p
      let s := setTsr n 0 (setTile n (fun x =>
        { st := .empty, rows := c.rows, cols := c.cols, owner := c.owner, base := c.base, data := [], use := x.use }) s)
      loadFrom t n upto (makeResident n s)

def tldrRun (t n : Fin 8) (upto : Option Nat) (s : State) : TRes × State :=
  match tileAccess s t false [n] with
  | some (c, k) => (.exc c k, s)
  | none => loadFrom t n upto (if (tileAt s n).st == .resident then s else makeResident n s)

def tstrRun (t n : Fin 8) (upto : Option Nat) (s : State) : TRes × State :=
  match tileAccess s t true [n] with
  | some (c, k) => (.exc c k, s)
  | none =>
    let x := tileAt s n
    if x.st == .spilled then (.done, touchTile n (setTsr n 0 s))
    else
      let r := tsrOf s n
      let stop := max r (min x.rows (upto.getD x.rows))
      match saveRows n (stop - r) r s with
      | (false, s) => loadError t n 0x0A s
      | (true, s) =>
        if stop < x.rows then (.stopped, touchTile n (setTsr n stop s)) else (.done, touchTile n (setTsr n 0 s))

def tmapRun (t n : Fin 8) (x y : Word) (s : State) : TRes × State :=
  match tileAccess s t true [n] with
  | some (c, k) => (.exc c k, s)
  | none =>
    match reload t n s with
    | (some r, _) => r
    | (none, s) =>
      let q := tileAt s n
      if q.rows < 2 ∨ q.cols < 2 then (.exc 0x0B n, s)
      else
        match mapLookup (fun r c => q.data.getD (r * q.cols + c) 0) q.rows q.cols x y with
        | none => (.exc 8 n, touchTile n (setTsr n 0 s))
        | some (w, c) => (.value w c, touchTile n (setTsr n 0 s))

/-- The products of TMAC in order (R470). -/
def macList (sat : Bool) : List (Word × Word) → BitVec 40 × Bool × Bool → BitVec 40 × Bool × Bool
  | [], a => a
  | (x, y) :: l, (a, v, c) =>
    let (a', v', c') := accAdd sat a (sgn x * sgn y)
    macList sat l (a', v || v', c || c')

def tmacRun (t n m : Fin 8) (sat : Bool) (a : BitVec 40) (upto : Option Nat) (s : State) : TRes × State × BitVec 40 :=
  match tileAccess s t true [n, m] with
  | some (c, k) => (.exc c k, s, a)
  | none =>
    if (tileAt s n).rows ≠ (tileAt s m).rows ∨ (tileAt s n).cols ≠ (tileAt s m).cols then (.exc 7 n, s, a)
    else
      match reload t n s with
      | (some r, _) => (r.1, r.2, a)
      | (none, s) =>
        match reload t m s with
        | (some r, _) => (r.1, r.2, a)
        | (none, s) =>
          let x := tileAt s n
          let r := tsrOf s n
          let stop := max r (min x.rows (upto.getD x.rows))
          let part (q : Tile) : List Word := (q.data.drop (r * q.cols)).take ((stop - r) * q.cols)
          let (a', v, c) := macList sat ((part x).zip (part (tileAt s m))) (a, false, false)
          let s := touchTile m (touchTile n (setTsr n (if stop < x.rows then stop else 0) s))
          if stop < x.rows then (.stopped, s, a') else (.acc a' v c, s, a')

def trelRun (t n : Fin 8) (s : State) : TRes × State :=
  match tileAccess s t false [n] with
  | some (c, k) => (.exc c k, s)
  | none => (.done, touchTile n (tileRel n s))

/-! ### Order of requests (R461-R466) -/

def prioOf (s : State) (t : Fin 8) : Nat := regF s Reg.tile_PRIO (2 * t.val) 2

/-- The waiting request served next (R462). -/
def nextTile (s : State) : Option TileReq :=
  s.tile.wait.foldl (fun b q =>
    match b with
    | none => some q
    | some p =>
      if prioOf s p.t < prioOf s q.t ∨ (prioOf s p.t = prioOf s q.t ∧ q.order < p.order) then some q else b)
    (none : Option TileReq)

/-- The unit, if free, takes the next request. -/
def tileStart (s : State) : State :=
  if s.tile.run.isSome then s
  else
    match nextTile s with
    | none => s
    | some q => { s with tile := { s.tile with run := some q, wait := s.tile.wait.filter (fun x => x.t != q.t) } }

/-- A request is registered (R462, R481). -/
def tileRequest (q : TileReq) (s : State) : State :=
  let n := s.tile.order + 1
  tileStart { s with tile := { s.tile with wait := s.tile.wait ++ [{ q with order := n }], order := n } }

/-- A thread leaves its tile instruction: a waiting request is withdrawn (R465). -/
def tileLeave (t : Fin 8) (s : State) : State :=
  let s := setThread t (fun h => { h with inTile := false }) s
  { s with tile := { s.tile with wait := s.tile.wait.filter (fun x => x.t != t) } }

/-! ### Registers -/

def tileNamed (q : TileReq) : Nat :=
  match q.op with
  | .tcfg n _ => n.val
  | .tldr n => n.val
  | .tstr n => n.val
  | .tmap _ n _ _ => n.val
  | .tmac n _ => n.val
  | .trel n => n.val
  | _ => 0

def tileStCode : TileSt → Nat
  | .free => 0
  | .empty => 1
  | .resident => 2
  | .spilled => 3

/-- The value a TILE register shows. -/
def tilePeek (s : State) (a : Nat) : Word :=
  let o := a - 0x41C00
  if o = 0x00 then wd ((List.finRange 8).foldl (fun w n => w + tileStCode (tileAt s n).st * 4 ^ n.val) 0)
  else if o = 0x01 then
    match s.tile.run with
    | some q => wd (0x8000 + q.t.val * 0x100 + 0x80 + tileNamed q)
    | none => 0
  else if o = 0x02 then wd (tileUsed s)
  else if h : 0x10 ≤ o ∧ o < 0x20 then
    let t := tileAt s ⟨(o - 0x10) / 2, by omega⟩
    if t.st == .free then 0 else (if o % 2 = 0 then lowWord (cfgPair t) else highWord (cfgPair t))
  else reg s a

/-- A write to a TILE register (R454, R455, R475). -/
def tileWrite (m : Master) (a : Nat) (v : Word) (s : State) : State :=
  let o := a - 0x41C00
  if o = 0x04 then
    (if privileged m then (List.finRange 8).foldl (fun s (n : Fin 8) => if v.getLsbD n then tileFree n s else s) s else s)
  else if h : 0x20 ≤ o ∧ o < 0x28 then
    let n : Fin 8 := ⟨o - 0x20, by omega⟩
    let mine := match m with
      | .thread t => (tileAt s n).st != .free && (tileAt s n).owner == t
      | _ => false
    if privileged m || mine then regWriteBits a v s else s
  else if o = 0x03 then (if privileged m then regWriteBits a v s else s)
  else regWriteBits a v s

end Sys2Proof.Machine
end

