-- ==== Sys2Proof/Machine/Fence.lean ====
section
/-!
DEFINITION. Fencing a unit and lifting a fence (spec/05_modes_and_fencing.md, R219-R222, R228, R229).
-/

namespace Sys2Proof.Machine

/-- Fence bit `i` set or cleared. -/
def putFence (i : Nat) (b : Bool) (s : State) : State :=
  if i < 16 then setRegBit Reg.sys_FENCEA i b s
  else if i < 32 then setRegBit (Reg.sys_FENCEA + 1) (i - 16) b s
  else setRegBit Reg.sys_FENCEB (i - 32) b s

/-- A fenced thread (R219). -/
def fenceThread (t : Fin 8) (s : State) : State :=
  let s := stopThread t s
  let s := cancelWhere (fun n _ => decide (kpart s ≤ n) && entOwn s n == t.val) s
  let s := releaseTiles t s
  (List.finRange 8).foldl (fun s (c : Fin 8) => if chanOwner s c == t then chanAbort c s else s) s

/-- The effect of R219 on the unit of fence bit `i`; the fence bit is set. -/
def fenceEffect (i : Fin 48) (s : State) : State :=
  if i.val < 12 then
    targetSafe i.val (cancelWhere (fun n _ => isOutAct (entAct s n) && entTarget s n == i.val) s)
  else if h : 18 ≤ i.val ∧ i.val < 24 then fenceThread ⟨i.val - 16, by omega⟩ s
  else if i.val = 34 then camLeft s
  else if h : 40 ≤ i.val then chanAbort ⟨i.val - 40, by have := i.isLt; omega⟩ s
  else s

/-- The unit of a fault is fenced by class `cls` (R219). A converter's work is dropped before its requests move on. -/
def fenceUnit (cls : Nat) (u : FUnit) (s : State) : State :=
  match u with
  | .entry e => cancelEnt e.val s
  | .bit i =>
    let s := if h : i.val = 32 ∨ i.val = 33 then adcFence ⟨i.val - 32, by omega⟩ s else s
    let s := putFence i.val true s
    let s := setModes (fun m => { m with
      fenceCls := (i.val, cls) :: m.fenceCls.filter (·.1 != i.val), returning := m.returning.filter (· != i.val) }) s
    fenceEffect i s

/-- The unit of fence bit `i` is in service again, at once or from the next cycle boundary or cam edge (R222, R625). -/
def returnUnit (i : Nat) (s : State) : State :=
  let wait := i == fbCam || ((i < 16 || (24 ≤ i && i < 34)) && angSync s)
  if wait then setModes (fun m => { m with returning := m.returning ++ [i] }) s
  else if i = 32 ∨ i = 33 then signal 23 s
  else s

/-- The class that set fence bit `i`. -/
def fenceClass (s : State) (i : Nat) : Nat := ((s.modes.fenceCls.find? (·.1 == i)).map (·.2)).getD 0

/-- A 1 written to fence bit `i` by a permitted master (R222, R229). -/
def liftBit (i : Nat) (s : State) : State :=
  let c := fenceClass s i
  if fenceBit s i && !regBit s Reg.fcol_FSW c && !(hwSetBits s Reg.fcol_FSW).getLsbD c then
    returnUnit i (setModes (fun m => { m with fenceCls := m.fenceCls.filter (·.1 != i) }) (putFence i false s))
  else s

/-- A write of `v` to the fence word whose bit 0 is fence bit `lo` (R222). -/
def liftWrite (m : Master) (lo : Nat) (v : Word) (s : State) : State :=
  if privileged m then
    (List.range 16).foldl (fun s b => if v.getLsbD b then liftBit (lo + b) s else s) s
  else s

end Sys2Proof.Machine
end

