-- ==== Sys2Proof/Machine/Fcol.lean ====
section
/-!
DEFINITION. The Fault Collector, the watchdog's service and the abort of a target (spec/21_faults_abort_dead_letter.md,
R945-R972, R978-R987, R990).
-/

namespace Sys2Proof.Machine

/-! ### Handling a raise (R950-R953) -/

def setFcol (f : Fcol → Fcol) (s : State) : State := { s with fcol := f s.fcol }

/-- POL[c] (R959). -/
def polOf (s : State) (c : Fin 16) : Nat := regF s (Reg.fcol_POL0 + c.val / 4) (4 * (c.val % 4)) 3

/-- The unit is TH0 or TH1 (R220). -/
def isTh01 (u : Option FUnit) : Bool :=
  match u with
  | some (.bit i) => i.val == 16 || i.val == 17
  | _ => false

/-- The unit is a converter and the other one is fenced (R221). -/
def secondConv (s : State) (u : Option FUnit) : Bool :=
  match u with
  | some (.bit i) => (i.val == 32 && fenceBit s 33) || (i.val == 33 && fenceBit s 32)
  | _ => false

/-- A fence of the unit is in force (R228). -/
def unitFenced (s : State) (u : FUnit) : Bool :=
  match u with
  | .bit i => fenceBit s i.val
  | .entry _ => false

/-- The level and ESC of a raise (R951). -/
def levelOf (s : State) (r : Raise) : Nat × Bool :=
  if r.note then (0, false)
  else
    let b := max (polOf s r.cls) r.bmin
    let f := regBit s Reg.fcol_FSW r.cls && !regBit s Reg.fcol_ACK r.cls
    let h := if f then min 4 (max b (lvOf s r.cls) + 1) else b
    (if decide (2 ≤ h) && (isTh01 r.unit || secondConv s r.unit) then max h 3 else h, f)

/-- The unit the raise fences, if any (R951). -/
def fences (s : State) (r : Raise) (h : Nat) : Option FUnit :=
  match r.unit with
  | none => none
  | some u => if 2 ≤ h ∧ !unitFenced s u ∧ !isTh01 r.unit ∧ !secondConv s r.unit then some u else none

/-- Word 3 of a history entry (R960). -/
def histWord3 (e : HistEntry) : Word :=
  wd (e.cls.val * 0x1000 + e.esc.toNat * 0x800 + e.level * 0x100 + e.fen.toNat * 0x80)

/-- An entry written to the history queue (R961). -/
def histPut (e : HistEntry) (s : State) : State :=
  let full := decide (16 ≤ s.fcol.hist.length)
  let s := if full then setRegF Reg.fcol_HSTAT 8 8 (satAdd 255 (regF s Reg.fcol_HSTAT 8 8) 1) s else s
  let s := setReg Reg.fcol_HGEN (reg s Reg.fcol_HGEN + 1) s
  setFcol (fun f => { f with hist := (if full then f.hist.drop 1 else f.hist) ++ [e] }) s

/-- LV[c] written. -/
def setLv (c : Fin 16) (h : Nat) (s : State) : State := setRegF (Reg.fcol_LV (c.val / 4)) (4 * (c.val % 4)) 3 h s

/-- One raise handled, but for its mode forcing: the level, and the state (R951). -/
def handleOne (r : Raise) (s : State) : Nat × State :=
  let (h, esc) := levelOf s r
  let u := fences s r h
  let e : HistEntry :=
    { stamp := postmark s, cls := r.cls, esc := esc, level := h, fen := u.isSome, detail := r.detail }
  let s := signal 1 (traceFault r.cls (histWord3 e) r.detail (histPut e s))
  let s := if 1 ≤ h then
      signal 0 (setLv r.cls (max (lvOf s r.cls) h) (hwSet Reg.fcol_FSW (wd (2 ^ r.cls.val)) s))
    else s
  (h, match u with
    | some u => fenceUnit r.cls u s
    | none => s)

/-- A raise before another of the same tick: lower class, then lower detail (R953). -/
def raiseBefore (a b : Raise) : Bool :=
  decide (a.cls < b.cls) || (a.cls == b.cls && decide (a.detail.toNat ≤ b.detail.toNat))

/-- The raises in the order of their handling. -/
def raiseInsert (r : Raise) : List Raise → List Raise
  | [] => [r]
  | x :: t => if raiseBefore x r then x :: raiseInsert r t else r :: x :: t
def raiseSort (l : List Raise) : List Raise := l.foldl (fun acc r => raiseInsert r acc) []

/-- The mode forcings of one tick combined: STOP wins, else the first class at L3 forces LIMP (R224, R953). -/
def forceModes (hs : List (Nat × Fin 16)) (s : State) : State :=
  if hs.any (fun x => x.1 == 4) then forceSetup s
  else
    match hs.find? (fun x => x.1 == 3) with
    | some (_, c) => forceLimp 1 c s
    | none => s

/-- Every raise registered is handled (R951-R953). -/
def faultHandle (s : State) : State :=
  let rs := raiseSort s.fcol.raises
  let s := setFcol (fun f => { f with raises := [] }) s
  let (hs, s) := rs.foldl (fun (acc : List (Nat × Fin 16) × State) r =>
    let (h, s) := handleOne r acc.2
    (acc.1 ++ [(h, r.cls)], s)) ([], s)
  forceModes hs s

/-! ### Acknowledging and clearing (R954-R957, R962, R978) -/

/-- A raise of class `c` was handled in this tick (R978). -/
def handledNow (s : State) (c : Nat) : Bool := (hwSetBits s Reg.fcol_FSW).getLsbD c

def ackClass (c : Nat) (s : State) : State :=
  if regBit s Reg.fcol_FSW c && !handledNow s c then setRegBit Reg.fcol_ACK c true s else s

def clearClass (c : Fin 16) (s : State) : State :=
  if handledNow s c then s
  else setLv c 0 (setRegBit Reg.fcol_ACK c false (setRegBit Reg.fcol_FSW c false s))

def ackWrite (m : Master) (v : Word) (s : State) : State :=
  if privileged m then (List.range 16).foldl (fun s c => if v.getLsbD c then ackClass c s else s) s else s

def fswWrite (m : Master) (v : Word) (s : State) : State :=
  if privileged m then (List.finRange 16).foldl (fun s (c : Fin 16) => if v.getLsbD c then clearClass c s else s) s else s

def hclrWrite (m : Master) (s : State) : State :=
  if privileged m then setFcol (fun f => { f with hist := [] }) (setRegF Reg.fcol_HSTAT 8 8 0 s) else s

/-! ### Watchdog (R964-R966, R983) -/

def wdPeriod (s : State) : Nat := regF s Reg.fcol_WDCFG 0 10 * msTicks

/-- The watchdog is armed (R146). -/
def wdArm (s : State) : State := setFcol (fun f => { f with wdDue := some (s.now + wdPeriod s), wdEarly := false }) s

/-- WDSVC written A5C3h by TH0 or TH1; in the tick of expiry the restart loses (R983). -/
def wdService (m : Master) (s : State) : State :=
  let mine := m == .thread 0 || m == .thread 1
  if !mine then s
  else
    match s.fcol.wdDue, s.chisel.wdLeft with
    | some d, _ => if s.now < d then wdArm s else s
    | none, some _ =>
      { setFcol (fun f => { f with wdEarly := false }) s with chisel.wdLeft := some (wdPeriod s) }
    | none, none => s

def wdEarlyDue (s : State) : Nat := (s.fcol.wdDue.getD s.now) - wdPeriod s / 2

/-- Half the period has passed since the last restart (R965). -/
def wdEarly (s : State) : State :=
  match s.fcol.wdDue with
  | some _ =>
    if s.fcol.wdEarly || decide (s.now < wdEarlyDue s) then s else signal 2 (setFcol (fun f => { f with wdEarly := true }) s)
  | none => s

def wdExpiryDue (s : State) : Nat := s.fcol.wdDue.getD s.now

/-- The raise of an expiry is handled with those registered before it (R966). -/
def wdRaise (s : State) : State := faultHandle (raise { cls := clsWatchdog, detail := 1 } s)

/-! ### Abort (R967-R972, R984-R987) -/

/-- The requester of ABRSLTt or ABRSLTX; other masters request nothing. -/
def requester : Master → Option Nat
  | .thread t => some t.val
  | .debug => some 8
  | .waili => some 8
  | _ => none

/-- KIND and IDX lie in range. -/
def abortTargetOk (kind idx : Nat) : Bool :=
  match kind with
  | 1 => decide (idx < 8)
  | 2 => decide (idx < 8)
  | 3 => idx == 0
  | 4 => decide (idx < 2)
  | 5 => decide (idx < 512)
  | 6 => idx == 0
  | 7 => decide (idx < 2)
  | _ => false

/-- The target is one of the requester's own (R967). -/
def abortOwn (s : State) (r kind idx : Nat) : Bool :=
  match kind with
  | 1 => idx == r
  | 2 => (chanOwner s (thrIdx idx)).val == r
  | 5 => decide (kpart s ≤ idx) && entOwn s idx == r
  | _ => false

def abortRefused (s : State) (r kind idx : Nat) : Bool :=
  !abortTargetOk kind idx || (kind == 1 && (thread s (thrIdx idx)).st == .halted)
    || (decide (2 ≤ r ∧ r < 8) && !abortOwn s r kind idx)

/-- The target is at rest (R969). -/
def abortAtRest (s : State) (kind idx : Nat) : Bool :=
  match kind with
  | 1 => isStopped s (thrIdx idx)
  | 2 => (chan s (thrIdx idx)).st == .idle
  | 3 => s.tile.run.isNone && s.tile.wait.isEmpty
  | 4 => adcAtRest s ⟨idx % 2, by omega⟩
  | 5 => !entLive (ent s idx)
  | 6 => loopAtRest s
  | _ =>
    let k : Fin 2 := ⟨idx % 2, by omega⟩
    canMode s k == 0 || (reg32 s (canAt k cTXREQ) == 0 && (canRec s k).cur.isNone)

/-- The waiting requests are withdrawn, and a running operation other than a TMAP is to stop (R969). -/
def tileAbort (s : State) : State :=
  let s := s.tile.wait.foldl (fun s q => tileLeave q.t s) s
  match s.tile.run with
  | some q =>
    match q.op with
    | .tmap _ _ _ _ => s
    | _ => setThread q.t (fun h => { h with inTile := false }) s
  | none => s

/-- What the abort does from the tick of the request on; an entry and a thread go to their post-abort state later
(R968, R969). -/
def abortBegin (kind idx : Nat) (s : State) : State :=
  match kind with
  | 1 =>
    let t := thrIdx idx
    let s := if (thread s t).inTile then tileLeave t s else s
    setThread t (fun h => { h with abortDue := true }) s
  | 2 => chanAbort (thrIdx idx) s
  | 3 => tileAbort s
  | 4 => adcAbort ⟨idx % 2, by omega⟩ s
  | 6 => loopAbort s
  | 7 => canOff ⟨idx % 2, by omega⟩ s
  | _ => s

def abortPending (s : State) (r : Nat) : Bool := regF s (Reg.fcol_ABRSLT r) 9 3 == 1

/-- A request is registered and decided (R968, R972). -/
def abortDecide (r kind idx : Nat) (s : State) : State :=
  match s.fcol.aborts.find? (fun a => a.kind == kind && a.idx == idx) with
  | some _ =>
    writeResultReg r kind 1 idx (setFcol (fun f => { f with aborts := f.aborts.map (fun a =>
      if a.kind = kind ∧ a.idx = idx then { a with reqs := a.reqs ++ [r] } else a) }) s)
  | none =>
    if abortAtRest s kind idx then
      let s := writeResultReg r kind 2 idx s
      if r < 8 then setEvent (thrIdx r) 15 s else s
    else
      let s := abortBegin kind idx s
      setFcol (fun f => { f with aborts := f.aborts ++ [{ kind := kind, idx := idx, reqs := [r] }] })
        (writeResultReg r kind 1 idx s)

/-- A request of requester `r` (R967, R986). -/
def abortRequest (r kind idx : Nat) (s : State) : State :=
  if abortPending s r then s
  else if abortRefused s r kind idx then writeResultReg r kind 4 idx s
  else if kind = 1 ∧ idx = 0 ∧ s.fcol.dump.isSome then
    setFcol (fun f => { f with abortWait := f.abortWait ++ [{ kind := 1, idx := 0, reqs := [r] }] })
      (writeResultReg r 1 1 0 s)
  else abortDecide r kind idx s

def abcmdWrite (m : Master) (v : Word) (s : State) : State :=
  match requester m with
  | some r => abortRequest r (fld v 12 4) (fld v 0 9) s
  | none => s

/-- A target has reached its post-abort state (R969-R971). -/
def abortReached (kind : Fin 8) (idx : Fin 512) (s : State) : State :=
  if !s.fcol.aborts.any (fun a => a.kind == kind.val && a.idx == idx.val) then s
  else
    match kind.val with
    | 1 => if isStopped s (thrIdx idx) then abortDone 1 idx s else s
    | 3 => if s.tile.run.all (fun q => (thread s q.t).inTile) then abortDone 3 idx s else s
    | 5 => abortDone 5 idx (abortEnt idx s)
    | k => abortDone k idx s

/-- The abort requests for TH0 that waited for the end of DUMP are registered (R986). -/
def abortResume (s : State) : State :=
  let w := s.fcol.abortWait
  w.foldl (fun s a => a.reqs.foldl (fun s r => abortDecide r a.kind a.idx s) s) (setFcol (fun f => { f with abortWait := [] }) s)

/-! ### Registers -/

/-- The value an FCOL register shows (R960, R961, R964). -/
def fcolPeek (s : State) (a : Nat) : Word :=
  if a = Reg.fcol_HSTAT then putFld (reg s a) 0 5 s.fcol.hist.length
  else if a = Reg.fcol_WDCNT then
    wd (((match s.fcol.wdDue, s.chisel.wdLeft with
      | some d, _ => d - s.now
      | none, some k => k
      | none, none => 0)) / msTicks)
  else if a = Reg.fcol_DSTAT then putBit (reg s a) 15 s.fcol.dump.isSome
  else if Reg.fcol_H 0 ≤ a ∧ a < Reg.fcol_H 16 then
    match s.fcol.hist[(a - Reg.fcol_H 0) / 8]? with
    | some e =>
      match (a - Reg.fcol_H 0) % 8 with
      | 0 => e.stamp.extractLsb' 0 16
      | 1 => e.stamp.extractLsb' 16 16
      | 2 => e.stamp.extractLsb' 32 16
      | 3 => histWord3 e
      | 4 => e.detail
      | _ => 0
    | none => 0
  else reg s a

end Sys2Proof.Machine
end

