-- ==== Sys2Proof/Machine/WOut.lean ====
section
/-!
DEFINITION. The characters Waili sends: lines, suffixes and the forms of numbers (spec/18_waili_command_line.md,
R808, R813-R822, R847).
-/

namespace Sys2Proof.Machine

def setWaili (f : Waili → Waili) (s : State) : State := { s with waili := f s.waili }

/-- The character codes of a text. -/
def codes (t : String) : List Byte := t.toList.map (fun c => BitVec.ofNat 8 c.toNat)

/-! ### CRC-8 (R814) -/

def crc8Bit (c : Byte) : Byte := if c.getLsbD 7 then (c <<< 1) ^^^ 7 else c <<< 1
def crc8Byte (c b : Byte) : Byte :=
  crc8Bit (crc8Bit (crc8Bit (crc8Bit (crc8Bit (crc8Bit (crc8Bit (crc8Bit (c ^^^ b))))))))
def crc8 (l : List Byte) : Byte := l.foldl crc8Byte 0

/-! ### Numbers (R821) -/

def hexDigit (n : Nat) : Byte := if n % 16 < 10 then BitVec.ofNat 8 (48 + n % 16) else BitVec.ofNat 8 (55 + n % 16)

/-- `k` hex digits, the highest first. -/
def hexDigits : Nat → Nat → List Byte
  | 0, _ => []
  | k + 1, n => hexDigit (n / 16 ^ k) :: hexDigits k n

/-- A hex value of `k` digits with its suffix; a 0 comes first where the first digit is a letter. -/
def hexH (k n : Nat) : List Byte :=
  let d := hexDigits k n
  (if 10 ≤ n / 16 ^ (k - 1) % 16 then [0x30] else []) ++ d ++ [0x68]

/-- A decimal number. -/
def decGo : Nat → Nat → List Byte
  | 0, _ => []
  | k + 1, n => (if n < 10 then [] else decGo k (n / 10)) ++ [BitVec.ofNat 8 (48 + n % 10)]
def dec (n : Nat) : List Byte := decGo 20 n

/-! ### Lines (R816, R817, R819, R847) -/

/-- The session is STRICT (R817). -/
def strict (s : State) : Bool := regBit s Reg.waili_CTL 1

/-- Characters go out on WTX, after a data line of firmware that has begun (R808). -/
def wchars (l : List Byte) (s : State) : State :=
  setWaili (fun w => if w.ubegun then { w with uwait := w.uwait ++ l } else { w with out := w.out ++ l }) s

/-- A line goes out on WTX, with its suffix where asked for or in a STRICT session. -/
def wline (sfx : Bool) (l : List Byte) (s : State) : State :=
  let tail := if sfx || strict s then 0x7E :: hexDigits 2 (crc8 l).toNat else []
  wchars (l ++ tail ++ [0x0D, 0x0A]) s

/-- A response line of a command in its context (R816, R846, R847). -/
def respond (c : WCtx) (l : List Byte) (s : State) : State :=
  match c.remote with
  | some u => streamLine (BitVec.ofNat 8 (0xC0 + u)) l s
  | none =>
    match c.own with
    | some a => wline c.suffix (0x23 :: dec a ++ 0x20 :: l) s
    | none => wline c.suffix l s

/-! ### Lines of firmware (R839-R842) -/

/-- A USR line awaits firmware: the context of its command. -/
def usrRun (s : State) : Option WCtx :=
  match s.waili.run with
  | some (.usr, c) => some c
  | _ => none

/-- A firmware line awaits its answer, and takes it (WAILI.USRC.V). -/
def usrHeld (s : State) : Bool := regBit s Reg.waili_USRC 15

/-- The first character of a local data line of firmware is sent: its prefix goes before it. -/
def usrBegin (c : WCtx) (s : State) : State :=
  let pre := match c.own with
    | some a => 0x23 :: dec a ++ [0x20]
    | none => []
  setWaili (fun w => { w with ubegun := true, ucrc := crc8 pre, out := w.out ++ pre }) s

/-- A local data line of firmware ends; what waited for its end follows. -/
def usrLineEnd (c : WCtx) (s : State) : State :=
  let tail := if c.suffix || strict s then 0x7E :: hexDigits 2 s.waili.ucrc.toNat else []
  setWaili (fun w => { w with ubegun := false, uwait := [], out := w.out ++ tail ++ [0x0D, 0x0A] ++ w.uwait }) s

/-- The final line of a USR command. -/
def usrFinal (c : WCtx) (code : Nat) (s : State) : State :=
  let l := if code = 0 then codes "OK" else codes "ER " ++ hexDigits 1 (code / 10) ++ hexDigits 1 (code % 10) ++ codes " FW"
  setWaili (fun w => { w with run := none, uend := none }) (respond c l s)

/-- One character of UTX goes to WTX; with the buffer empty and UEND written, the command ends. -/
def usrMove (c : WCtx) (s : State) : State :=
  match s.waili.utx with
  | ch :: rest =>
    let s := if s.waili.ubegun then s else usrBegin c s
    let s := setWaili (fun w => { w with utx := rest }) s
    let s := if ch = 0x0A then usrLineEnd c s
      else setWaili (fun w => { w with out := w.out ++ [ch], ucrc := crc8Byte w.ucrc ch }) s
    if rest.isEmpty then signal 55 s else s
  | [] =>
    match s.waili.uend with
    | some code => usrFinal c code (if s.waili.ubegun then usrLineEnd c s else s)
    | none => s

/-- The data lines of UTX that are complete go to another unit, whole (R847, R897). -/
def usrRemote (c : WCtx) : Nat → State → State
  | 0, s => s
  | n + 1, s =>
    if s.waili.utx.contains 0x0A then
      let l := s.waili.utx.takeWhile (· != 0x0A)
      let rest := s.waili.utx.drop (l.length + 1)
      let s := setWaili (fun w => { w with utx := rest }) (respond c l s)
      usrRemote c n (if rest.isEmpty then signal 55 s else s)
    else
      match s.waili.uend with
      | some code =>
        let s := if s.waili.utx.isEmpty then s
          else signal 55 (setWaili (fun w => { w with utx := [] }) (respond c s.waili.utx s))
        usrFinal c code s
      | none => s

/-- Firmware's answer moves on while WTX is free, or as whole lines over the Loop. -/
def usrPump (s : State) : State :=
  match usrRun s with
  | none => s
  | some c =>
    if c.remote.isSome then usrRemote c (s.waili.utx.length + 1) s
    else if s.waili.out.isEmpty then usrMove c s
    else s

/-- A write of WAILI.UTX (R840, R842). -/
def utxWrite (m : Master) (c : Byte) (s : State) : State :=
  match m with
  | .thread _ =>
    if !usrHeld s || decide (128 ≤ s.waili.utx.length) then s
    else usrPump (setWaili (fun w => { w with utx := w.utx ++ [c] }) s)
  | _ => s

/-- A write of WAILI.UEND (R840, R841). -/
def uendWrite (m : Master) (v : Word) (s : State) : State :=
  match m with
  | .thread _ =>
    if usrHeld s && (v == 0 || decide (70 ≤ v.toNat ∧ v.toNat ≤ 99)) then
      usrPump (setRegBit Reg.waili_USRC 15 false (setWaili (fun w => { w with uend := some v.toNat }) s))
    else s
  | _ => s

/-! ### Registers -/

/-- The rate of WAILI.DIV takes effect after the character in progress. -/
def divWrite (v : Word) (s : State) : State :=
  let s := setReg Reg.waili_DIV v s
  setWaili (fun w => if w.out.isEmpty then { w with divEff := v.toNat, divPend := none }
    else { w with divPend := some (v.toNat, 1) }) s

def wailiWrite (m : Master) (a : Nat) (v : Word) (s : State) : State :=
  if a = Reg.waili_UTX then utxWrite m (v.setWidth 8) s
  else if a = Reg.waili_UEND then uendWrite m v s
  else if !privileged m then s
  else if a = Reg.waili_DIV then divWrite v s
  else regWriteBits a v s

def wailiPeek (s : State) (a : Nat) : Word :=
  let w := s.waili
  if a = Reg.waili_STAT then
    wd ((w.run.isSome || !w.targets.isEmpty).toNat * 0x8000 + w.hold.isSome.toNat * 0x4000 + w.rhold.isSome.toNat * 0x2000
      + (onBackup s).toNat * 0x1000 + (usrHeld s).toNat * 0x800 + (decide (128 ≤ w.utx.length)).toNat * 0x400 + w.edit.length)
  else if Reg.waili_ULINE 0 ≤ a ∧ a < Reg.waili_ULINE 60 then
    let i := a - Reg.waili_ULINE 0
    (w.uline.getD (2 * i + 1) 0) ++ (w.uline.getD (2 * i) 0)
  else readWord s a

end Sys2Proof.Machine
end

