-- ==== Sys2Proof/Machine/Waili.lean ====
section
/-!
DEFINITION. The Waili engine: how a line is received and cut, which command runs next, and how a command that waits
ends (spec/18_waili_command_line.md, R802-R818, R830-R834, R838, R850).
-/

namespace Sys2Proof.Machine

/-! ### Errors (R850) -/

def erName (n : Nat) : String :=
  match n with
  | 1 => "SYNTAX"
  | 2 => "LONG"
  | 3 => "CRC"
  | 4 => "UNKNOWN"
  | 5 => "BUSY"
  | 6 => "RANGE"
  | 7 => "MODE"
  | 8 => "BOOT"
  | 9 => "FRAMING"
  | 10 => "REFUSED"
  | 20 => "ACCESS"
  | 21 => "COLLISION"
  | 22 => "PARITY"
  | 23 => "WINDOW"
  | 24 => "FLASH"
  | 30 => "CHECK"
  | 31 => "COMMIT"
  | 32 => "CFGBUSY"
  | 40 => "LOCKED"
  | 50 => "NOUNIT"
  | 51 => "NOADDR"
  | 52 => "LOCAL"
  | 60 => "NOFW"
  | _ => "FW"

/-- "ER nn name", and what an error adds after its name (R820). -/
def erText (n : Nat) (extra : List Byte) : List Byte :=
  codes "ER " ++ hexDigits 1 (n / 10) ++ hexDigits 1 (n % 10) ++ codes " " ++ codes (erName n) ++ extra

def wErrX (c : WCtx) (n : Nat) (extra : List Byte) (s : State) : State := respond c (erText n extra) s
def wErr (c : WCtx) (n : Nat) (s : State) : State := wErrX c n [] s
def wOk (c : WCtx) (s : State) : State := respond c (codes "OK") s

/-! ### Tokens (R809) -/

abbrev Tok := List Byte

def splitGo : List Byte → Tok → List Tok
  | [], cur => if cur.isEmpty then [] else [cur.reverse]
  | c :: t, cur =>
    if c = 0x20 then (if cur.isEmpty then splitGo t [] else cur.reverse :: splitGo t []) else splitGo t (c :: cur)

def upper (c : Byte) : Byte := if 0x61 ≤ c.toNat ∧ c.toNat ≤ 0x7A then c - 0x20 else c

/-- The tokens of a line, in upper case. -/
def tokens (l : List Byte) : List Tok := splitGo (l.map upper) []

/-- The keywords with the sub-keywords that make commands of their own, one per row. -/
inductive Kw where
  | id | ping | help | echo | strict | baud | boot | stat | rd | rdx | rd32 | wr | wr32
  | mode | modeRun | modeSetup | modeLimp | cfgStat | cfgGet | cfgSet | cfgCheck | cfgCommit
  | fault | faultClr | abort | flId | flRd | flEr | flPg | usr
deriving DecidableEq, Repr

/-- One-word commands. -/
def kwOne : List (String × Kw) :=
  [("ID", .id), ("PING", .ping), ("HELP", .help), ("ECHO", .echo), ("STRICT", .strict), ("BAUD", .baud), ("BOOT", .boot),
   ("STAT", .stat), ("RD", .rd), ("RDX", .rdx), ("RD32", .rd32), ("WR", .wr), ("WR32", .wr32), ("MODE", .mode),
   ("FAULT", .fault), ("ABORT", .abort), ("USR", .usr)]

/-- Two-word commands. -/
def kwTwo : List (String × String × Kw) :=
  [("MODE", "RUN", .modeRun), ("MODE", "SETUP", .modeSetup), ("MODE", "LIMP", .modeLimp), ("CFG", "STAT", .cfgStat),
   ("CFG", "GET", .cfgGet), ("CFG", "SET", .cfgSet), ("CFG", "CHECK", .cfgCheck), ("CFG", "COMMIT", .cfgCommit),
   ("FAULT", "CLR", .faultClr), ("FL", "ID", .flId), ("FL", "RD", .flRd), ("FL", "ER", .flEr), ("FL", "PG", .flPg)]

/-- The command of a line, with its argument tokens. -/
def kwOf (ts : List Tok) : Option (Kw × List Tok) :=
  match ts with
  | [] => none
  | a :: t =>
    match (match t with
      | b :: _ => kwTwo.find? (fun (e : String × String × Kw) => codes e.1 == a && codes e.2.1 == b)
      | [] => none) with
    | some e => some (e.2.2, t.drop 1)
    | none => (kwOne.find? (fun (e : String × Kw) => codes e.1 == a)).map (fun e => (e.2, t))

/-! ### The suffix (R813-R818) -/

def hexVal (c : Byte) : Option Nat :=
  let n := (upper c).toNat
  if 48 ≤ n ∧ n ≤ 57 then some (n - 48) else if 65 ≤ n ∧ n ≤ 70 then some (n - 55) else none

/-- What a line's end says: no "~"; a suffix, with the line before it and whether its CRC is right; or neither. -/
inductive Sfx where
  | none
  | crc (body : List Byte) (ok : Bool)
  | bad
deriving DecidableEq, Repr

def sfxOf (l : List Byte) : Sfx :=
  if !l.contains 0x7E then .none
  else
    match l.drop (l.length - 3) with
    | [t, a, b] =>
      let body := l.take (l.length - 3)
      match hexVal a, hexVal b with
      | some x, some y =>
        if t = 0x7E ∧ !body.contains 0x7E then .crc body ((crc8 body).toNat == 16 * x + y) else .bad
      | _, _ => .bad
    | _ => .bad

/-- The line carries a correct suffix. -/
def sfxRight (l : List Byte) : Bool :=
  match sfxOf l with
  | .crc _ ok => ok
  | _ => false

/-- The line without its suffix, where it may execute; else its error. -/
def wChecked (s : State) (l : List Byte) : Except Nat (List Byte) :=
  match sfxOf l with
  | .bad => .error 1
  | .crc body ok => if ok then .ok body else .error 3
  | .none => if strict s && !(tokens l == [codes "STRICT", codes "1"]) then .error 3 else .ok l

/-! ### Which line is next (R804, R846, R860) -/

/-- A command is executing (WAILI.STAT.RUN). -/
def wBusy (s : State) : Bool := s.waili.run.isSome || !s.waili.targets.isEmpty || s.waili.inner.isSome

/-- Where the next line lies. -/
inductive WSlot where
  | inner | hold | rhold
deriving DecidableEq, Repr

/-- The next line: from which buffer, its characters, and its context but for the suffix. -/
def wFront (s : State) : Option (WSlot × List Byte × WCtx) :=
  if !s.waili.on || s.waili.run.isSome then none
  else
    match s.waili.inner with
    | some (l, c) => some (.inner, l, c)
    | none =>
      if !s.waili.targets.isEmpty then none
      else
        match s.waili.hold, s.waili.rhold with
        | some l, _ => some (.hold, l, { suffix := sfxRight l })
        | none, some (u, l) => some (.rhold, l, { remote := some u })
        | none, none => none

def wDrop (k : WSlot) (s : State) : State :=
  setWaili (fun w =>
    match k with
    | .inner => { w with inner := none }
    | .hold => { w with hold := none }
    | .rhold => { w with rhold := none }) s

/-- The text of a next line: checked where it came from this unit's UART, as it is where it came through routing. -/
def wText (s : State) (k : WSlot) (l : List Byte) : Except Nat (List Byte) :=
  if k = .hold then wChecked s l else .ok l

/-- A routed line begins with "@" (R844). -/
def isRouted (t : Tok) : Bool := t.head? == some 0x40

/-- What a line that no command executes is answered: none where it is a command's or empty without a suffix. -/
inductive WScan where
  /-- Left for its command. -/
  | stay
  | empty
  | err (n : Nat)
deriving DecidableEq, Repr

def wScanOf (s : State) (k : WSlot) (l : List Byte) : WScan :=
  match wText s k l with
  | .error n => .err n
  | .ok body =>
    match tokens body with
    | [] => .empty
    | t :: ts =>
      if isRouted t then (if s.modes.bootsu then .err 8 else if k = .hold then .stay else .err 1)
      else if (kwOf (t :: ts)).isSome then .stay
      else .err (if s.modes.bootsu then 8 else 4)

/-- A CRC refusal counts (R815, R817). -/
def wCount (n : Nat) (s : State) : State := if n = 3 then hwCountF Reg.waili_ERR 8 8 1 s else s

/-- The engine answers the lines that no command executes. -/
def wScan : Nat → State → State
  | 0, s => s
  | n + 1, s =>
    match wFront s with
    | none => s
    | some (k, l, c) =>
      match wScanOf s k l with
      | .stay => s
      | .empty => wScan n (if k = .hold ∧ !c.suffix then wDrop k s else wOk c (wDrop k s))
      | .err e => wScan n (wErr c e (wCount e (wDrop k s)))

/-! ### Commands that wait -/

/-- A command in progress ends. -/
def wEnd (s : State) : State := setWaili (fun w => { w with run := none, polling := false }) s

def modeName (m : Mode) : String :=
  match m with
  | .setup => "SETUP"
  | .run => "RUN"
  | .limp => "LIMP"

/-- "MODE m [PEND] REFUSE n" (R830). -/
def modeText (s : State) : List Byte :=
  codes "MODE " ++ codes (modeName s.modes.mode) ++ (if s.modes.pend then codes " PEND" else []) ++ codes " REFUSE "
    ++ dec (regF s Reg.sys_MODESTAT 0 4)

/-- The Waili request of a mode still waits for its outcome (R831). -/
def wModeWaits (s : State) : Bool :=
  (s.modes.waitCommit.isSome && s.modes.waitW) ||
    (match s.modes.reapply with
    | some p => p.byW || (p.waiting.isSome && p.waitW)
    | none => false)

/-- The Waili request has begun to leave SETUP. -/
def wModeEnters (s : State) : Bool :=
  match s.modes.reapply with
  | some p => p.byW
  | none => false

def wModeAnswer (entering : Bool) (c : WCtx) (s : State) : State :=
  let n := regF s Reg.sys_MODESTAT 0 4
  let s := respond c (modeText s) s
  if n = 0 ∨ (entering ∧ s.modes.mode = .limp) then wOk c s else wErrX c 10 (codes " " ++ dec n) s

/-- The answer of CFG COMMIT (R834). -/
def wCommitAnswer (c : WCtx) (s : State) : State :=
  if regBit s Reg.flash_CMT 14 then wOk c s else wErrX c 31 (codes " C" ++ dec (regF s Reg.flash_CMT 0 4)) s

/-- The answer of ABORT from ABRSLTX (R835, R971). -/
def wAbortAnswer (c : WCtx) (s : State) : State :=
  let r := regF s (Reg.fcol_ABRSLT 8) 9 3
  if r = 2 then wOk c (respond c (codes "COMPLETED") s)
  else if r = 3 then wOk c (respond c (codes "ABORTED") s)
  else wErr c 6 s

/-- Lines of FL RD from byte `f` on, 16 bytes each. -/
def flLines (c : WCtx) (f : Nat) : Nat → Nat → State → State
  | 0, _, s => s
  | k + 1, n, s =>
    if n = 0 then s
    else
      let m := min 16 n
      let l := codes "F " ++ hexH 8 f ++ (flashBytes s f m).flatMap (fun (b : Byte) => 0x20 :: hexDigits 2 b.toNat)
      flLines c (f + m) k (n - m) (respond c l s)

/-- The busy kind of an FL command. -/
def flKind (page : Bool) : FlashBusy := if page then .page else .erase

/-- An FL command takes the flash master; a read ends at once, after the poll of a command that was cut (R525, R838). -/
def wFlash (s : State) : State :=
  match s.waili.run with
  | some (.flashRead f n, c) =>
    if s.flash.owner = .waili ∨ !flashFree s .waili then s
    else
      let s := flashTake .waili s
      if !s.flash.answers then wErr c 24 (wEnd (flashRelease s))
      else if s.flash.cut.isSome then
        let due := pollDue s .page
        setWaili (fun w => { w with polling := true, pollPre := true, pollDue := due }) s
      else wOk c (flLines c f 5 n (wEnd (flashRelease s)))
  | some (.flash page _ _, _) =>
    if s.flash.owner = .waili ∨ !flashFree s .waili then s
    else
      let s := flashTake .waili s
      let due := pollDue s (flKind page)
      setWaili (fun w => { w with polling := true, pollPre := s.flash.cut.isSome, pollDue := due }) s
  | _ => s

/-- The command that waits, where its outcome is known. -/
def wPoll (s : State) : State :=
  match s.waili.run with
  | some (.mode e, c) =>
    if wModeWaits s then setWaili (fun w => { w with run := some (.mode (e || wModeEnters s), c) }) s
    else wModeAnswer e c (wEnd s)
  | some (.commit, c) => if s.flash.commit.isSome then s else wCommitAnswer c (wEnd s)
  | some (.abort _ _, c) => if abortPending s 8 then s else wAbortAnswer c (wEnd s)
  | some (.flash _ _ _, _) => wFlash s
  | some (.flashRead _ _, _) => wFlash s
  | _ => s

/-- The answers that waited for the running command follow it (R807). -/
def wLater (s : State) : State :=
  if wBusy s then s
  else s.waili.later.foldl (fun s (p : Bool × List Byte) => wline p.1 p.2 s) (setWaili (fun w => { w with later := [] }) s)

/-- What the engine does by itself after every command of the part. -/
def wailiPump (s : State) : State := if s.waili.on then wScan 4 (wLater (wPoll s)) else s

/-! ### The poll of FL ER and FL PG (R838) -/

/-- The poll reads bit 0 as 0. A poll that ended a cut command starts the command itself. -/
def wPollDone (s : State) : State :=
  if !s.waili.polling || !s.flash.answers || decide (s.waili.pollDue < s.now) then s
  else
    match s.waili.run with
    | some (.flashRead f n, c) =>
      let s := { s with flash := { s.flash with cut := none } }
      wOk c (flLines c f 5 n (wEnd (flashRelease s)))
    | some (.flash page a data, c) =>
      if s.waili.pollPre then
        let s := { s with flash := { s.flash with cut := none } }
        setWaili (fun w => { w with pollPre := false, pollDue := s.now + busyTicks s (flKind page) }) s
      else
        let s := if page then flashProgram a data s else flashErase a (eraseSize s) s
        wOk c (wEnd (flashRelease s))
    | _ => s

/-- The poll exceeds COUR.FTMO: ER 24; what the command was writing holds undefined contents. -/
def wPollTimeout (s : State) : State :=
  if !s.waili.polling || decide (s.now ≤ s.waili.pollDue) then s
  else
    match s.waili.run with
    | some (.flash page a _, c) =>
      let s := if s.waili.pollPre then s else flashHalf (flKind page) a s
      wErr c 24 (wEnd (flashRelease s))
    | some (_, c) => wErr c 24 (wEnd (flashRelease s))
    | none => s

/-! ### Receiving (R803-R808) -/

/-- Echo is on. -/
def echoOn (s : State) : Bool := regBit s Reg.waili_CTL 0 && !strict s

def wEcho (l : List Byte) (s : State) : State := if echoOn s then wchars l s else s

/-- An answer of R807: it waits behind the responses of the command running. -/
def wAnswer (sfx : Bool) (n : Nat) (s : State) : State :=
  if wBusy s then setWaili (fun w => { w with later := w.later ++ [(sfx, erText n [])] }) s
  else wline sfx (erText n []) s

/-- The edit buffer is emptied, and its marks are cleared. -/
def wClear (s : State) : State := setWaili (fun w => { w with edit := [], long := false, framing := false }) s

/-- A line ends (R807). -/
def wLineEnd (s : State) : State :=
  let w := s.waili
  let s := wClear s
  if w.long then wAnswer false 2 (signal 56 (hwCountF (Reg.waili_ERR + 1) 0 8 1 s))
  else if w.framing then wAnswer false 9 (signal 56 s)
  else if w.edit.isEmpty then s
  else
    match w.hold with
    | none => setWaili (fun w' => { w' with hold := some w.edit }) s
    | some _ => wAnswer (sfxRight w.edit) 5 (hwCountF Reg.waili_ERR 0 8 1 s)

/-- A framing error or a break counts (R806). -/
def wFrameCount (s : State) : State := signal 56 (hwCountF (Reg.waili_ERR + 1) 8 8 1 s)

/-- A character of the edit buffer (R805). -/
def wType (c : Byte) (s : State) : State :=
  if s.waili.edit.length < 120 then wEcho [c] (setWaili (fun w => { w with edit := w.edit ++ [c] }) s)
  else setWaili (fun w => { w with long := true }) s

/-- A character received with its stop bit (R805, R806). -/
def wReceive (c : Byte) (stopOk : Bool) (s : State) : State :=
  if !s.waili.on then s
  else
    let cr := s.waili.lastCr
    let s := setWaili (fun w => { w with lastCr := stopOk && c == 0x0D }) s
    if !stopOk then wFrameCount (setWaili (fun w => { w with framing := true }) s)
    else if (0x20 ≤ c.toNat ∧ c.toNat ≤ 0x7E) then wType c s
    else if c = 0x09 then wType 0x20 s
    else if c = 0x08 ∨ c = 0x7F then
      if s.waili.edit.isEmpty then s else wEcho [0x08, 0x20, 0x08] (setWaili (fun w => { w with edit := w.edit.dropLast }) s)
    else if c = 0x15 then wEcho [0x0D, 0x0A] (wClear s)
    else if c = 0x0D then wLineEnd (wEcho [0x0D, 0x0A] s)
    else if c = 0x0A then (if cr then s else wLineEnd (wEcho [0x0D, 0x0A] s))
    else s

/-- WRX low for 20 bit times or more (R806). -/
def wBreak (s : State) : State :=
  if !s.waili.on then s
  else wFrameCount (wEcho [0x0D, 0x0A] (wClear (setWaili (fun w => { w with lastCr := false }) s)))

end Sys2Proof.Machine
end

