-- ==== Sys2Proof/Machine/Act.lean ====
section
/-!
DEFINITION. The outcome of a command: time passes, what falls due of itself happens, the command has its effect, the freeze
condition acts on its edges (R1022), and the lines settle.
-/

namespace Sys2Proof.Machine

/-- The watchdog's count stops at the start of a freeze and goes on at its end (R1022). -/
def watchdogFreeze (s : State) : State :=
  match frozenBlock s 0, s.fcol.wdDue, s.chisel.wdLeft with
  | true, some d, _ =>
    { s with fcol := { s.fcol with wdDue := none }, chisel := { s.chisel with wdLeft := some (d - s.now) } }
  | false, _, some k =>
    { s with fcol := { s.fcol with wdDue := some (s.now + k) }, chisel := { s.chisel with wdLeft := none } }
  | _, _, _ => s

/-- The Event Table acts as on a sync loss at the start of a freeze, and times its entries again at the end (R1022). -/
def eventFreeze (s : State) : State :=
  let f := frozenBlock s 1
  if f = s.chisel.evtFrozen then s
  else
    let s := { s with chisel := { s.chisel with evtFrozen := f } }
    if f then syncCancel s else refAll (fun _ => true) s

/-- The edges of a freeze, and the transmissions that a freeze held back (R1022). -/
def freezeEdge (s : State) : State := canPick 1 (canPick 0 (eventFreeze (watchdogFreeze s)))

/-- The state a command acts on, `dt` ticks after the command before it: what falls due of itself has happened. -/
def ready (dt : Nat) (s : State) : State := letterTick (elapse dt s)

/-- What follows a command of itself: the edges of a freeze, the answers Waili owes, and the combinational lines. -/
def follow (s : State) : State := settle (wailiPump (freezeEdge s))

/-- A command of a block whose rails are up, `dt` ticks after the command before it. In sleep, or with the rails below
the POR thresholds, nothing but the Plinth's AON part acts, and the state stays. -/
def perform (dt : Nat) (f : State → State) (s : State) : State :=
  if s.power = .up then follow (f (ready dt s)) else s

/-- A command one CLK period after the command before it (log entry 1). -/
def act (f : State → State) (s : State) : Host.Outcome State Fault Refusal := .next (perform (clkTicks s) f s)

/-- A command that carries the ticks passed since the command before it. -/
def actAfter (dt : Nat) (f : State → State) (s : State) : Host.Outcome State Fault Refusal := .next (perform dt f s)

/-- The ticks to `due`, in whole CLK periods (R38, R1057). -/
def ticksTo (due : Nat) (s : State) : Nat := (due - s.now + clkTicks s - 1) / clkTicks s * clkTicks s

/-- A command whose tick the state holds: time passes to that tick, if it lies ahead. -/
def actDue (due : State → Nat) (f : State → State) (s : State) : Host.Outcome State Fault Refusal :=
  .next (perform (ticksTo (due s) s) f s)

/-- A command that leaves words behind, as a read does. -/
def actRead (f : State → Word × State) (s : State) : Host.Outcome State Fault Refusal :=
  act (fun s => let r := f s; { r.2 with result := [r.1] }) s

end Sys2Proof.Machine
end

