-- ==== Sys2Proof/Machine/ExecAdc.lean ====
section
/-!
DEFINITION. The meanings of the commands of the Measurement Unit (spec/15).
-/

namespace Sys2Proof.Machine

/-- A conversion of converter `k` ends with `code` (R671). -/
def execConversionEnd (k : Fin 2) (code : BitVec 14) (s : State) : Host.Outcome State Fault Refusal :=
  actDue (fun s => conversionDue s k) (conversionEnd k code.toNat) s

/-- Converter `k` starts its next conversion (R674). -/
def execConversionStart (dt : Nat) (k : Fin 2) (s : State) : Host.Outcome State Fault Refusal :=
  actAfter dt (conversionStart k) s

/-- A time trigger of converter `k` (R680). -/
def execTimeTrigger (k : Fin 2) (s : State) : Host.Outcome State Fault Refusal :=
  actDue (fun s => timeTriggerDue s k) (timeTrigger k) s

/-- ADC.SWSEQk written (R681). -/
def execSwseqWrite (m : Master) (k : Fin 2) (mask : BitVec 24) (s : State) : Host.Outcome State Fault Refusal :=
  act (swseqWrite m k mask) s

/-- A knock sample of code `x` (R684). -/
def execKnockSample (n : Fin 2) (x : Word) (s : State) : Host.Outcome State Fault Refusal :=
  actDue (fun s => knockDue s n) (knockSample n x) s

/-- A further ion sample falls due (R688). -/
def execIonSample (n : Fin 4) (s : State) : Host.Outcome State Fault Refusal :=
  actDue (fun s => ionDue s n) (ionSample n) s

/-- Converter `k` starts a self-test round (R692). -/
def execSelftestRoundStart (dt : Nat) (k : Fin 2) (s : State) : Host.Outcome State Fault Refusal :=
  actAfter dt (selftestRoundStart k) s

/-- No self-test round completed for 1 s (R695). -/
def execSelftestStarved (k : Fin 2) (s : State) : Host.Outcome State Fault Refusal :=
  actDue (fun s => starvedDue s k) (selftestStarved k) s

end Sys2Proof.Machine
end

