-- ==== Sys2Proof/Machine/ExecAng.lean ====
section
/-!
DEFINITION. The meanings of the commands of the Angle Tracker and the Control Kernel (spec/13, 17).
-/

namespace Sys2Proof.Machine

/-- A crank edge with the sensor peak `peak` (R587). -/
def execCrankEdge (dt : Nat) (peak : Byte) (s : State) : Host.Outcome State Fault Refusal :=
  actAfter dt (crankEdge peak) s

/-- The accepted edge is taken as a tooth (R606). -/
def execTooth (s : State) : Host.Outcome State Fault Refusal :=
  actAfter 0 toothNow s

/-- A cam edge with the sensor peak `peak` (R600). -/
def execCamEdge (dt : Nat) (peak : Byte) (s : State) : Host.Outcome State Fault Refusal :=
  actAfter dt (camEdge peak) s

/-- No edge for STALLT ms (R613). -/
def execStallTimeout (s : State) : Host.Outcome State Fault Refusal :=
  actDue stallTick stall s

/-- The published angle passes 0 (R612). -/
def execCycleBoundary (s : State) : Host.Outcome State Fault Refusal :=
  actDue boundaryTick cycleBoundary s

/-- ANG.PHCMD written 0001h (R598). -/
def execPhcmdConfirm (m : Master) (s : State) : Host.Outcome State Fault Refusal :=
  act (phcmdWrite m 1) s

/-- ANG.PHCMD written 0002h (R598). -/
def execPhcmdFlip (m : Master) (s : State) : Host.Outcome State Fault Refusal :=
  act (phcmdWrite m 2) s

/-- ANG.WHEEL written (R583). -/
def execWheelWrite (m : Master) (v : Word) (s : State) : Host.Outcome State Fault Refusal :=
  act (angWrite m Reg.ang_WHEEL v) s

/-- The commit of function `k` for cylinder `n` (R756). -/
def execKernelCommit (k : Fin 8) (n : Fin 4) (s : State) : Host.Outcome State Fault Refusal :=
  actDue (fun s => commitTick s k n) (commitDue k n) s

/-- The request of function `k` for cylinder `n` (R781). -/
def execPigeonholeRequest (k : Fin 8) (n : Fin 4) (s : State) : Host.Outcome State Fault Refusal :=
  actDue (fun s => requestTick s k n) (requestDue k n) s

/-- A write to FILL, or of word 4 and FILL as a pair (R782). -/
def execPigeonholeFill (m : Master) (k : Fin 8) (n : Fin 4) (pair : Bool) (v : Pair) (s : State) : Host.Outcome State Fault Refusal :=
  act (pigeonFill m k n pair v) s

/-- KERN.MREQ written (R777). -/
def execMreq (m : Master) (v : Word) (s : State) : Host.Outcome State Fault Refusal :=
  act (kernWrite m Reg.kern_MREQ v) s

end Sys2Proof.Machine
end

