-- ==== Sys2Proof/Machine/ThrReg.lean ====
section
/-!
DEFINITION. The THR registers but for a start, which BusWrite.lean holds (spec/06_threads_waits_seals.md, R234-R242,
R249; registers of the chapter).
-/

namespace Sys2Proof.Machine

/-- TMRn written: a countdown in µs, or its cancel (R249); a HALTED thread's does not count (R1014). -/
def setTimer (t : Fin 8) (v : Word) (s : State) : State :=
  setThread t (fun h =>
    if h.st == .halted then { h with tmrLeft := if v = 0 then none else some (v.toNat * usTicks) }
    else { h with tmr := if v = 0 then none else some (s.now + v.toNat * usTicks) }) s

/-- A write of `v` to THR.TMRn (R242, R249). -/
def timerWrite (m : Master) (t : Fin 8) (v : Word) (s : State) : State :=
  if privileged m || m == .thread t then setTimer t v s else s

def timerDue (s : State) (t : Fin 8) : Nat := (thread s t).tmr.getD s.now

/-- THR.TMRn reaches 0: event bit 10 (R249). -/
def timerExpiry (t : Fin 8) (s : State) : State :=
  if (thread s t).tmr.isSome then setEvent t 10 (setThread t (fun h => { h with tmr := none }) s) else s

/-- The count THR.TMRn shows. -/
def timerCount (s : State) (t : Fin 8) : Word :=
  let h := thread s t
  let left := match h.tmr, h.tmrLeft with
    | some d, _ => d - s.now
    | none, some k => k
    | none, none => 0
  wd ((left + usTicks - 1) / usTicks)

/-- THR.WCMT written (R241). -/
def wcmtWrite (m : Master) (v : Word) (s : State) : State :=
  if privileged m && v == 1 then { s with thr := { s.thr with wpend := true } } else s

/-- The next tick in which the slot pointer stands at slot 0. -/
def wheelDue (s : State) : Nat := s.now + (16 - slotNow s) * clkTicks s

/-- The pending wheel commit takes effect (R241). -/
def wheelCommit (s : State) : State := if s.thr.wpend && slotNow s == 0 then applyWheel s else s

/-- The slot pointer brought to the present tick, before CLK changes its rate (R271). -/
def slotSync (s : State) : State := { s with thr := { s.thr with slot := slotNow s, slotTick := s.now } }

/-- A write to a THR register other than THR.CTL and the microstore registers. -/
def thrWrite (m : Master) (a : Nat) (v : Word) (s : State) : State :=
  let o := a - 0x40C00
  if h : 0x04 ≤ o ∧ o < 0x08 then
    (if privileged m then { s with thr := { s.thr with shadow := s.thr.shadow.set (o - 0x04) v (by omega) } } else s)
  else if o = 0x08 then wcmtWrite m v s
  else if h : 0x28 ≤ o ∧ o < 0x30 then timerWrite m ⟨o - 0x28, by omega⟩ v s
  else if privileged m then regWriteBits a v s
  else s

/-- A seal's four bits in THR.SEALOWNw. -/
def sealBits (s : State) (n : Nat) : Nat :=
  if h : n < 32 then (match s.thr.owner[n] with
    | some u => 8 + u.val
    | none => 0) else 0

/-- A thread's byte in THR.WANTw. -/
def wantBits (s : State) (t : Nat) : Nat :=
  match s.thr.want[thrIdx t] with
  | some n => 0x80 + n.val
  | none => 0

/-- The value a THR register shows. -/
def thrPeek (s : State) (a : Nat) : Word :=
  let o := a - 0x40C00
  if o = 0x01 then wd ((List.finRange 8).foldl (fun w (t : Fin 8) => w + stateCode (shownState (thread s t)) * 4 ^ t.val) 0)
  else if o = 0x09 then wd (s.thr.wpend.toNat * 0x8000 + slotNow s * 0x10 + s.thr.donee.val)
  else if 0x18 ≤ o ∧ o < 0x20 then latchOf s (thrIdx (o - 0x18))
  else if 0x20 ≤ o ∧ o < 0x28 then
    let h := thread s (thrIdx (o - 0x20))
    if h.st == .waiting then h.mask else 0
  else if 0x28 ≤ o ∧ o < 0x30 then timerCount s (thrIdx (o - 0x28))
  else if 0x40 ≤ o ∧ o < 0x48 then
    wd ((List.range 4).foldl (fun w i => w + sealBits s (4 * (o - 0x40) + i) * 16 ^ i) 0)
  else if 0x48 ≤ o ∧ o < 0x4C then wd (wantBits s (2 * (o - 0x48)) + wantBits s (2 * (o - 0x48) + 1) * 256)
  else readWord s a

/-! ### The all-waiting stall (R251-R253) -/

/-- The stall condition: every thread that is not STOPPED is WAITING, on software signals alone, with none of them
pending; it is not evaluated while DUMP runs (R973). -/
def stallHolds (s : State) : Bool :=
  s.fcol.dump.isNone &&
  (List.finRange 8).any (fun t : Fin 8 => !isStopped s t) &&
  (List.finRange 8).all (fun t : Fin 8 =>
    let h := thread s t
    isStopped s t || (h.st == .waiting && (h.mask &&& 0xEF00) == 0 && (latchOf s t &&& h.mask) == 0))

/-- A stall is declared (R252); an abort due at the same boundary is taken in its place (R344). -/
def stallDeclare (s : State) : State :=
  if !stallHolds s then s
  else
    let wset := (List.finRange 8).foldl
      (fun w (t : Fin 8) => w + ((thread s t).st == .waiting).toNat * 2 ^ t.val) 0
    let s := setReg Reg.thr_STALL (wd (wset * 256 + satAdd 255 (regF s Reg.thr_STALL 0 8) 1)) s
    let s := raise { cls := clsSequencer, bmin := 2, detail := 1 } s
    if (thread s 0).abortDue then s
    else
    let s := cancelWait 0 s
    let h := thread s 0
    enterExc 0 8 0 none (excPoint h).1 (excPoint h).2 (setThread 0 (fun h => { h with st := .ready }) s)

end Sys2Proof.Machine
end

