-- ==== Sys2Proof/Machine/Clock.lean ====
section
/-!
DEFINITION. The clock source after the boot switch (spec/01_stolu_in_one_piece.md, R31-R39, R43-R47; R802, R928).
-/

namespace Sys2Proof.Machine

/-- SYS.CLKSTAT bits. -/
abbrev clkBKUP : Nat := 15
abbrev clkPLLLK : Nat := 14
abbrev clkXTAL : Nat := 13

/-- A clock failure: SWCNT counts, and CLOCK is raised, at least at L3 (R36, R45, R948). -/
def clockFailure (detail : Nat) (s : State) : State :=
  let s := setRegF Reg.sys_CLKSTAT 0 8 (satAdd 255 (regF s Reg.sys_CLKSTAT 0 8) 1) s
  raise { cls := clsClock, bmin := 3, detail := wd detail } s

/-- The Waili line being received is discarded (R802). -/
def wailiDiscard (s : State) : State :=
  { s with waili := { s.waili with edit := [], long := false, framing := false } }

/-- Lock loss: CLK runs from the backup oscillator (R33-R36, R190, R802, R928). `xtalStopped` tells that the crystal
monitor saw no edge. -/
def lockLoss (xtalStopped : Bool) (s : State) : State :=
  if onBackup s then s
  else
    let s := setRegBit Reg.sys_CLKSTAT clkBKUP true (slotSync s)
    let s := setRegBit Reg.sys_CLKSTAT clkPLLLK false (setRegBit Reg.sys_CLKSTAT clkXTAL (!xtalStopped) s)
    let s := clockFailure 1 s
    let s := if s.boot.stage == .finished then s
      else setRegBit Reg.sys_BOOTSTAT 11 true (setRegF Reg.flash_RDCFG 0 4 0 s)
    wailiDiscard (canOff 1 (canOff 0 s))

/-- The crystal monitor sees edges again (R44). -/
def crystalReturn (s : State) : State := if onBackup s then setRegBit Reg.sys_CLKSTAT clkXTAL true s else s

/-- The PLL has locked to the returned crystal; CLK is not switched back (R44). -/
def pllRelock (s : State) : State :=
  if onBackup s && regBit s Reg.sys_CLKSTAT clkXTAL then setRegBit Reg.sys_CLKSTAT clkPLLLK true s else s

/-- The PLL unlocks, or the crystal stops, while CLK runs from the backup oscillator (R44). -/
def crystalLost (xtalStopped : Bool) (s : State) : State :=
  if onBackup s then
    let s := setRegBit Reg.sys_CLKSTAT clkPLLLK false s
    if xtalStopped then setRegBit Reg.sys_CLKSTAT clkXTAL false s else s
  else s

end Sys2Proof.Machine
end

