-- ==== Sys2Proof/Machine/Boot.lean ====
section
/-!
DEFINITION. The boot microcode: the boot timeline, the boot directory, the code image and the choice of the Armature
(spec/04_start_up_image_armature.md, R143-R176, R186-R195).
-/

namespace Sys2Proof.Machine

/-- Boot step `n` is the last one completed. -/
def bootStep (n : Nat) (s : State) : State :=
  { setRegF Reg.sys_BOOTSTAT 4 4 n s with boot.step := n }

/-! ### Steps B1-B4 -/

/-- Step B2 (R144): the OTP status, and the dead letter. -/
def stepB2 (s : State) : State :=
  let s := if s.boot.kind = .por then
      { s with mem := { s.mem with
          spad := s.mem.spad.filter (fun e => !(decide (0x17C00 ≤ e.1) && decide (e.1 < 0x18000)))
          parBad := s.mem.parBad.filter (fun a => !(decide (0x17C00 ≤ a) && decide (a < 0x18000))) } }
    else s
  setRegBit Reg.sys_BOOTSTAT 12 (spadGet s 0x17C00 == 0x444C) s

/-- The flash answers the SFDP read with a usable table (R150, R151). -/
def sfdpOf (s : State) : Option Sfdp := if s.flash.answers then s.flash.sfdp else none

/-- Step B4: the flash found, read single-line at FCK 4 MHz (R150-R153). -/
def stepB4 (s : State) : State :=
  let s := { s with flash := { s.flash with owner := .boot } }
  match sfdpOf s with
  | some f =>
    let s := setReg Reg.flash_GEOM (wd (f.capL2 * 256 + (f.erL2 - 8) * 16)) s
    let s := setReg Reg.flash_ERINS (wd f.erIns.toNat) s
    let s := setRegF Reg.flash_STAT 6 3 (1 + 2 * f.addr4.toNat) s
    setRegBit Reg.sys_BOOTSTAT 10 true (setReg Reg.flash_RDCFG 0x0300 s)
  | none => setReg Reg.flash_RDCFG 0x0300 (setReg Reg.flash_ERINS 0x20 (setReg Reg.flash_GEOM 0x1840 s))

/-! ### Step B6 (R145, R150, R151) -/

/-- The flash reconfigured: quad at FCK 80 MHz, or single-line at 20 MHz without SFDP; 4 MHz on the backup clock (R148). -/
def flashSpeed (s : State) : State :=
  match sfdpOf s with
  | some f =>
    setRegF Reg.flash_STAT 6 3 (5 + 2 * f.addr4.toNat)
      (setReg Reg.flash_RDCFG (wd (f.rdIns.toNat * 256 + f.dummy % 16 * 16)) s)
  | none => setReg Reg.flash_RDCFG (if onBackup s then 0x0300 else 0x0303) s

def stepB6 (s : State) : State :=
  flashSpeed { s with mem := { s.mem with
    spad := s.mem.spad.filter (fun e => decide (0x17C00 ≤ e.1))
    parBad := s.mem.parBad.filter (fun a => decide (0x17C00 ≤ a)) } }

/-! ### Step B7: the boot directory (R155, R156, R191) -/

/-- LC and LW as the image header holds them (R158). -/
def imgLens (s : State) : Nat × Nat :=
  let a := flashNum s 8 4
  (flashNum s (a + 8) 4, flashNum s (a + 12) 4)

/-- The extents [start, length) of the directory's regions and the image (R156, R159). -/
def dirExtents (s : State) : List (Nat × Nat) :=
  let (lc, lw) := imgLens s
  let sz := flashNum s 24 2 * 1024
  [(flashNum s 12 4, sz), (flashNum s 16 4, sz), (flashNum s 20 4, 2048), (flashNum s 8 4, 64 + lc + 16 * lw)]

/-- No two extents overlap. -/
def disjoint : List (Nat × Nat) → Bool
  | [] => true
  | (a, n) :: t => t.all (fun x => decide (a + n ≤ x.1) || decide (x.1 + x.2 ≤ a)) && disjoint t

def dirOk (s : State) : Bool :=
  let er := eraseSize s
  flashBytes s 0 4 == [0x46, 0x4A, 0x42, 0x44] && flashNum s 4 2 == 1 &&
    flashNum s 28 4 == (crc32 (flashBytes s 0 28)).toNat &&
    flashNum s 12 4 % er == 0 && flashNum s 16 4 % er == 0 && flashNum s 20 4 % er == 0 &&
    flashNum s 24 2 * 1024 % er == 0 && disjoint (dirExtents s) &&
    (dirExtents s).all (fun x => decide (x.1 + x.2 ≤ flashCap s))

/-- IMGERR of step B7: 0, 1, or 6 where the flash gave no answer at all. -/
def dirError (s : State) : Nat :=
  if dirOk s then 0
  else if (sfdpOf s).isNone && flashBytes s 0 32 == List.replicate 32 0xFF then 6
  else 1

/-- SLOTA, SLOTB, DLADR and SLOTSZ taken from the directory, and the Courier's flash window (R524). -/
def takeDir (s : State) : State :=
  let dl := flashNum s 20 4
  let s := setReg32 Reg.cour_FWLIM (BitVec.ofNat 32 (dl + max 2048 (eraseSize s) - 1))
    (setReg32 Reg.cour_FWIN (BitVec.ofNat 32 dl) s)
  { s with flash := { s.flash with
    slotA := flashNum s 12 4, slotB := flashNum s 16 4, dlAdr := dl, slotSz := flashNum s 24 2 } }

/-! ### Step B8: the code image (R158-R163, R193) -/

def imgKey (s : State) : List Byte :=
  if regBit s Reg.sys_OTPSTAT 15 then (List.range 16).map (fun i => s.otp.key.extractLsb' (8 * i) 8)
  else List.replicate 16 0

/-- The 16-byte record of a WCS word (R159). -/
def wcsRecord (m : Sys2Proof.Micro) : List Byte := (List.range 14).map (fun i => m.extractLsb' (8 * i) 8) ++ [0, 0]

/-- IMGERR of the image at IMGADR (R162). A record whose bytes 14-15 are not 0 counts with the reserved header bytes. -/
def imgError (s : State) : Nat :=
  let a := flashNum s 8 4
  let (lc, lw) := imgLens s
  let zero (o n : Nat) : Bool := (flashBytes s (a + o) n).all (· == 0)
  if flashBytes s a 4 != [0x46, 0x4A, 0x43, 0x49] || flashNum s (a + 4) 2 != 1 || !zero 16 16 || !zero 48 16 then 2
  else if siliconRev < flashNum s (a + 6) 2 then 3
  else if !(decide (16 ≤ lc ∧ lc ≤ 131072) && lc % 16 == 0 && decide (lw ≤ 2048)) then 4
  else if (List.range lw).any (fun i => !zero (64 + lc + 16 * i + 14) 2) then 2
  else if cmac (imgKey s) (flashBytes s a 32 ++ flashBytes s (a + 64) (lc + 16 * lw)) != flashBytes s (a + 32) 16 then 5
  else 0

/-- A microword from its record. -/
def microOf (bs : List Byte) : Sys2Proof.Micro := BitVec.ofNat 112 ((bs.take 14).foldr (fun b v => b.toNat + 256 * v) 0)

/-- The image loaded to the code store and the WCS (R159, R163). -/
def loadImage (s : State) : State :=
  let a := flashNum s 8 4
  let (lc, lw) := imgLens s
  let code := ((flashBytes s (a + 64) lc).zipIdx.filter (fun p => p.1 != 0xFF)).map (fun p => (p.2, p.1))
  let wcs := ((List.range lw).map (fun i => (0x800 + i, microOf (flashBytes s (a + 64 + lc + 16 * i) 16)))).filter
    (fun p => p.2 != microUnloaded)
  { s with flash := { s.flash with
    code := code, wcs := wcs, imgLC := lc, imgLW := lw, imgHdr := flashBytes s a 32, imgTag := flashBytes s (a + 32) 16 } }

/-- The verify of a LOOPRST: the CMAC over the code store and the WCS as they stand (R143, R193). -/
def verifyImage (s : State) : Nat :=
  let code := cread codeDefault s.flash.code 0 s.flash.imgLC
  let wcs := (cread (fun _ => microUnloaded) s.flash.wcs 0x800 s.flash.imgLW).flatMap wcsRecord
  if !s.flash.imgHdr.isEmpty && cmac (imgKey s) (s.flash.imgHdr ++ code ++ wcs) == s.flash.imgTag then 0 else 5

/-- The refusal of R164: boot SETUP. -/
def bootRefuse (err : Nat) (s : State) : State :=
  let s := setRegF Reg.sys_BOOTSTAT 0 4 err s
  let s := { s with
    flash := { s.flash with code := [], wcs := [], imgHdr := [], imgTag := [] }
    modes := { s.modes with bootsu := true }
    boot := { s.boot with stage := .finished } }
  let s := flashRelease (raise { cls := clsSecurity, detail := wd err } s)
  loopStart (wline false (codes "IMG?") (setWaili (fun w => { w with on := true }) s))

/-! ### Step B9: the Armature's slot (R174-R176, R186-R188) -/

def slotWord (s : State) (slot i : Nat) : Word := flashWord s (slotBase s slot + 2 * i)

/-- GEN of a slot as read; 0 where MAGIC is absent. -/
def slotGen (s : State) (slot : Nat) : Pair :=
  let f := slotWord s slot
  if magicOk f then mkPair (f 4) (f 5) else 0

/-- The header of a working copy where no slot is valid (R176). -/
def emptyHeader : List Word :=
  [0x4A46, 0x5241, 1, 0x10, 0, 0, 0, 0x4816, 0, 0, 0, 0, 0, 0, 0xFFFF, 0xFFFF]

/-- The slots checked, and the chosen one copied to the working copy (R174). -/
def stepB9 (s : State) : State :=
  let ra := slotCheck (slotWord s 0) s.flash.slotSz
  let rb := slotCheck (slotWord s 1) s.flash.slotSz
  let ga := slotGen s 0
  let gb := slotGen s 1
  let s := setReg32 Reg.sys_GENB gb (setReg32 Reg.sys_GENA ga s)
  let chosen : Option Nat :=
    if ra = 0 ∧ rb = 0 then (if gb ≤ ga then some 0 else some 1)
    else if ra = 0 then some 0
    else if rb = 0 then some 1
    else none
  let s := setReg Reg.sys_ARMSTAT (wd (ra * 16 + rb)) s
  match chosen with
  | some k =>
    let f := slotWord s k
    let s := spadPuts 0x16000 (wordsFrom f 0 (armLen f)) s
    let s := setRegBit Reg.sys_ARMSTAT armWCV true (setRegF Reg.sys_ARMSTAT 14 2 (k + 1) s)
    if ra ≠ 0 ∧ ra ≠ 1 then note clsArmature (wd ra) s
    else if rb ≠ 0 ∧ rb ≠ 1 then note clsArmature (wd (0x100 + rb)) s
    else s
  | none =>
    let s := spadPuts 0x16000 (emptyHeader ++ List.replicate 0xFF0 0) s
    raise { cls := clsArmature, detail := wd (0x300 + ra * 16 + rb) } s

/-! ### Steps B10-B12 -/

/-- A valid Armature was chosen (SYS.BOOTSTAT.ARMOK). -/
def armChosen (s : State) : Bool := regF s Reg.sys_ARMSTAT 14 2 != 0

/-- What follows an application of the Armature: the pinned address and Waili's rate take effect. -/
def applied (s : State) : State :=
  pinCheck (setWaili (fun w => { w with divEff := (reg s Reg.waili_DIV).toNat }) s)

def stepB10 (s : State) : State :=
  let s := if armChosen s then setRegBit Reg.sys_BOOTSTAT 13 true (applied (applyArmature s)) else s
  loopStart s

def stepB11 (s : State) : State := wdArm (beginThread 0 0 [] s)

def stepB12 (s : State) : State :=
  let s := setWaili (fun w => { w with on := true }) s
  let s := { s with boot := { s.boot with stage := .finished } }
  if !armChosen s then wline false (codes "CFG?") s
  else if ((wcSec s 1 0).getD 0).getLsbD 0 then modeRequest false .run s
  else s

/-- Steps B6 to B12. -/
def bootRest (s : State) : State :=
  let s := bootStep 6 (stepB6 s)
  let e := dirError s
  if e ≠ 0 then bootRefuse e s
  else
    let s := bootStep 7 (takeDir s)
    let e := if s.boot.kind = .looprst then verifyImage s else imgError s
    if e ≠ 0 then bootRefuse e s
    else
      let s := if s.boot.kind = .looprst then s else loadImage s
      let s := bootStep 8 (setRegBit Reg.sys_BOOTSTAT 14 true s)
      let s := flashRelease (bootStep 9 (stepB9 s))
      let s := bootStep 11 (stepB11 (bootStep 10 (stepB10 s)))
      setRegBit Reg.sys_BOOTSTAT 15 true (bootStep 12 (stepB12 s))

/-- The boot microcode starts (R143): a LOOPRST runs to its end, a POR or WARM waits at step B5 for the PLL. A part whose
TESTEN was sampled high does not boot (R58). -/
def bootStart (s : State) : State :=
  if s.boot.stage ≠ .notStarted ∨ regBit s Reg.sys_STRAP 14 then s
  else
    let s := bootStep 4 (stepB4 (stepB2 s))
    if s.boot.kind = .looprst then bootRest s
    else { s with boot := { s.boot with stage := .waitLock, lockDue := s.now + 8 * msTicks } }

/-- The PLL reports lock, and CLK runs from it (R32, R148). -/
def pllLockSwitch (s : State) : State :=
  if s.boot.stage ≠ .waitLock then s
  else
    let s := setRegBit Reg.sys_CLKSTAT clkBKUP false (slotSync s)
    let s := setRegBit Reg.sys_CLKSTAT clkPLLLK true (setRegBit Reg.sys_CLKSTAT clkXTAL true s)
    bootRest (bootStep 5 s)

def bootLockDue (s : State) : Nat := if s.boot.stage = .waitLock then s.boot.lockDue else s.now

/-- The boot lock timeout ends, and boot goes on on the backup clock (R45, R148). -/
def bootLockTimeout (s : State) : State :=
  if s.boot.stage ≠ .waitLock then s
  else bootRest (bootStep 5 (clockFailure 2 (setRegBit Reg.sys_BOOTSTAT 11 true s)))

end Sys2Proof.Machine
end

