-- ==== Sys2Proof/Machine/Dbg.lean ====
section
/-!
DEFINITION. The virtual terminal's queues and the DBG registers (spec/22_chisel_debug_trace.md, R1030, R1031).
-/

namespace Sys2Proof.Machine

def setChisel (f : Chisel → Chisel) (s : State) : State := { s with chisel := f s.chisel }

/-- The word a pop shows: V and the oldest character. -/
def vtWord (q : List Byte) : Word :=
  match q with
  | c :: _ => wd (0x8000 + c.toNat)
  | [] => 0

/-- A host write of VTIN into a queue with room (R1030). -/
def vtinPut (c : Byte) (s : State) : State := signal 57 (setChisel (fun x => { x with vtIn := x.vtIn ++ [c] }) s)

def vtinFull (s : State) : Bool := decide (16 ≤ s.chisel.vtIn.length)

/-- A host read of VTOUT (R1030). -/
def vtoutPop (s : State) : Word × State :=
  let s' := setChisel (fun x => { x with vtOut := x.vtOut.tail }) s
  (vtWord s.chisel.vtOut, if s.chisel.vtOut.length = 1 then signal 58 s' else s')

/-- A read of DBG.VTRX: a thread's pops the oldest character (R1030). -/
def vtrxRead (m : Master) (s : State) : Word × State :=
  match m with
  | .thread _ => (vtWord s.chisel.vtIn, setChisel (fun x => { x with vtIn := x.vtIn.tail }) s)
  | _ => (vtWord s.chisel.vtIn, s)

/-- A write of DBG.VTTX (R1030). -/
def vttxWrite (m : Master) (c : Byte) (s : State) : State :=
  match m with
  | .thread _ =>
    if 16 ≤ s.chisel.vtOut.length then hwSet Reg.dbg_VTSTAT 0x8000 s
    else setChisel (fun x => { x with vtOut := x.vtOut ++ [c] }) s
  | _ => s

/-- A write of DBG.STAMPp (R1031). -/
def stampRegWrite (m : Master) (p : Nat) (v : Word) (s : State) : State :=
  match m with
  | .thread t => stampWrite t p v s
  | _ => s

def dbgWrite (m : Master) (a : Nat) (v : Word) (s : State) : State :=
  let o := a - 0x44C00
  if o = 0x01 then vttxWrite m (v.setWidth 8) s
  else if 0x10 ≤ o ∧ o < 0x20 then stampRegWrite m (o - 0x10) v s
  else regWriteBits a v s

def dbgPeek (s : State) (a : Nat) : Word :=
  let o := a - 0x44C00
  if o = 0 then vtWord s.chisel.vtIn
  else if o = 0x02 then reg s a ||| wd (16 - s.chisel.vtOut.length)
  else readWord s a

end Sys2Proof.Machine
end

