-- ==== Sys2Proof/Machine/Kline.lean ====
section
/-!
DEFINITION. The K-line (spec/20_can_and_kline.md, R934-R936, R942-R944).
-/

namespace Sys2Proof.Machine

def setKline (f : Kline → Kline) (s : State) : State := { s with kline := f s.kline }

def klineOn (s : State) : Bool := regBit s Reg.kline_CTL 15
def klineTester (s : State) : Bool := regBit s Reg.kline_CTL 14
def klineEchoSup (s : State) : Bool := regBit s Reg.kline_CTL 13

/-- TXD written: the byte enters the FIFO; a helper that runs ignores it, and a full FIFO discards it (R935, R936). -/
def txdWrite (m : Master) (b : Byte) (s : State) : State :=
  if threadOrHost m && s.kline.helper.isNone && decide (s.kline.tx.length < 16) then
    setKline (fun k => { k with tx := k.tx ++ [b] }) s
  else s

/-- The TX FIFO takes a new content; source 51 when it empties. -/
def klineTx (q : List Byte) (s : State) : State :=
  let emptied := q.isEmpty && !s.kline.tx.isEmpty
  let s := setKline (fun k => { k with tx := q }) s
  if emptied then signal 51 s else s

/-- A byte enters the RX FIFO, or is lost (R935). -/
def klineReceive (b : Byte) (fe : Bool) (s : State) : State :=
  let w : Word := wd (0x8000 + fe.toNat * 0x4000 + b.toNat)
  let s := if fe then signal 53 (hwCountF Reg.kline_ERRC 0 8 1 s) else s
  if s.kline.rx.length < 16 then signal 50 (setKline (fun k => { k with rx := k.rx ++ [w] }) s)
  else
    let was := regBit s Reg.kline_STAT 7
    let s := hwSet Reg.kline_STAT 0x80 s
    if was then s else setKline (fun k => { k with lostAt := some (s.now, w) }) s

/-- The oldest byte of the TX FIFO was sent and `echo` came back (R935). -/
def klineByteSent (echo : Byte) (fe : Bool) (s : State) : State :=
  match s.kline.tx with
  | [] => s
  | b :: q =>
    if !klineOn s || s.kline.helper.isSome then s
    else if klineEchoSup s then
      if echo = b ∧ !fe then klineTx q s else signal 53 (hwCountF Reg.kline_ERRC 8 8 1 (klineTx [] s))
    else klineReceive echo fe (klineTx q s)

/-- A byte of the tester or the ECU arrives. -/
def klineByteReceived (b : Byte) (fe : Bool) (s : State) : State :=
  if klineOn s && s.kline.helper.isNone then klineReceive b fe s else s

/-- RXD read: the oldest byte leaves the FIFO; a byte lost to the full FIFO in this tick is stored (R935, R943). -/
def rxdRead (side : Bool) (s : State) : Word × State :=
  match s.kline.rx with
  | [] => (0, s)
  | w :: q =>
    if !side then (w, s)
    else
      match s.kline.lostAt with
      | some (t, l) =>
        if t = s.now ∧ s.kline.rx.length = 16 then
          (w, signal 50 (setRegBit Reg.kline_STAT 7 false (setKline (fun k => { k with rx := q ++ [l], lostAt := none }) s)))
        else (w, setKline (fun k => { k with rx := q }) s)
      | none => (w, setKline (fun k => { k with rx := q }) s)

/-- A helper starts (R936). -/
def klineStart (m : Master) (fiveBaud : Bool) (s : State) : State :=
  if threadOrHost m && klineOn s && s.kline.helper.isNone then setKline (fun k => { k with helper := some fiveBaud }) s
  else s

/-- A helper ends with its result (R936). -/
def klineResult (r : Nat) (s : State) : State :=
  signal 52 (setRegF Reg.kline_ISTAT 0 8 r (setKline (fun k => { k with helper := none }) s))

/-- CMD written 0003h (R936). -/
def klineCancel (m : Master) (s : State) : State :=
  if threadOrHost m && s.kline.helper.isSome then
    let five := s.kline.helper
    let s := klineResult 6 s
    setKline (fun k => { k with cancelAt := some s.now, helper := if five.isSome then none else k.helper }) s
  else s

/-- What a helper leaves in DIV, ADDR, KB and ISTAT.KIND (R936). -/
def klineLeaves (fiveBaud : Bool) (result bitTime : Nat) (kb1 kb2 adr : Byte) (s : State) : State :=
  if klineTester s then
    if fiveBaud then
      let s := if result = 1 ∨ result = 2 ∨ result = 5 then s else setReg Reg.kline_DIV (wd ((bitTime + 8) / 16)) s
      if result = 0 ∨ result = 4 then setReg Reg.kline_KB (kb2 ++ kb1) s else s
    else s
  else
    let s := setRegF Reg.kline_ISTAT 13 2 (if fiveBaud then 2 else 1) s
    if fiveBaud then setRegF Reg.kline_ADDR 0 8 adr.toNat s else s

/-- A helper ends; one cancelled in this tick ends with its own result all the same (R936, R942). -/
def klineInitEnd (fiveBaud : Bool) (result : Byte) (bitTime : Nat) (kb1 kb2 adr : Byte) (s : State) : State :=
  let leaves := klineLeaves fiveBaud result.toNat bitTime kb1 kb2 adr
  match s.kline.helper with
  | some five => if klineTester s && (five != fiveBaud) then s else klineResult result.toNat (leaves s)
  | none =>
    if s.kline.cancelAt = some s.now then
      leaves (setRegF Reg.kline_ISTAT 0 8 result.toNat (setKline (fun k => { k with cancelAt := none }) s))
    else s

/-- A write to a KLINE register. -/
def klineWrite (m : Master) (a : Nat) (v : Word) (s : State) : State :=
  if a = Reg.kline_TXD then txdWrite m (v.setWidth 8) s
  else if a = Reg.kline_CMD then
    if v = 1 then klineStart m false s
    else if v = 2 then klineStart m true s
    else if v = 3 then klineCancel m s
    else s
  else if threadOrHost m then regWriteBits a v s
  else s

/-- The value a KLINE register shows without side effects. -/
def klinePeek (s : State) (a : Nat) : Word :=
  if a = Reg.kline_ISTAT then putBit (reg s a) 15 s.kline.helper.isSome
  else if a = Reg.kline_RXD then s.kline.rx.headD 0
  else if a = Reg.kline_STAT then
    (reg s a &&& 0x80) ||| wd (s.kline.tx.length * 256 + s.kline.rx.length)
  else reg s a

end Sys2Proof.Machine
end

