-- ==== Sys2Proof/Machine/Mc.lean ====
section
/-!
DEFINITION. The microstore and its registers: reads and writes of the writable control store, and the patch comparators
(spec/09_microcode_control_store.md, R396, R400, R432-R436, R443).
-/

namespace Sys2Proof.Machine

/-- The word of the microstore at `a` in 800h-FFFh; an unlisted one is unloaded (R396, R400). -/
def wcsGet (s : State) (a : Nat) : Sys2Proof.Micro := cget (fun _ => microUnloaded) s.flash.wcs (a % 4096)

def wcsPut (a : Nat) (v : Sys2Proof.Micro) (s : State) : State :=
  { s with flash := { s.flash with wcs := cset (fun _ => microUnloaded) s.flash.wcs a v } }

/-- A write of R432 or R436 is refused. -/
def mcRefused (s : State) : State := hwSet Reg.thr_MCCTL 0x0002 s

def mcLocked (s : State) : Bool := regBit s Reg.thr_MCCTL 15

/-- The microword in MCDAT0-6. -/
def mcData (s : State) : Sys2Proof.Micro :=
  BitVec.ofNat 112 ((List.range 7).foldl (fun v w => v + (reg s (Reg.thr_MCDAT w)).toNat * 2 ^ (16 * w)) 0)

/-- MCADR moves on after a command while AINC is 1. -/
def mcNext (s : State) : State :=
  if regBit s Reg.thr_MCCTL 14 then setRegF Reg.thr_MCADR 0 12 (regF s Reg.thr_MCADR 0 12 + 1) s else s

/-- The write command of MCCMD (R432, R433). -/
def mcStore (s : State) : State :=
  let a := regF s Reg.thr_MCADR 0 12
  if a < 0x800 ∨ mcLocked s then mcRefused s else mcNext (wcsPut a (mcData s) s)

/-- The read command of MCCMD (R396, R443). -/
def mcLoad (s : State) : State :=
  let a := regF s Reg.thr_MCADR 0 12
  let v : Sys2Proof.Micro := if a < 0x800 then 0 else wcsGet s a
  mcNext ((List.range 7).foldl (fun s w => setReg (Reg.thr_MCDAT w) (v.extractLsb' (16 * w) 16) s) s)

/-- A write to THR.MCCMD: another master than those of R432 is refused. -/
def mccmdWrite (m : Master) (v : Word) (s : State) : State :=
  if !privileged m then mcRefused s
  else if v = 1 then mcStore s
  else if v = 2 then mcLoad s
  else s

/-- A write to a register of the microstore (R432, R436). -/
def mcWrite (m : Master) (a : Nat) (v : Word) (s : State) : State :=
  let o := a - 0x40C00
  if o = 0x68 then mccmdWrite m v s
  else if o = 0x69 then (if privileged m then regWriteBits a v s else s)
  else if o = 0x6A then s
  else if o < 0x68 then (if privileged m then regWriteBits a v s else mcRefused s)
  else if privileged m && !mcLocked s then regWriteBits a v s
  else mcRefused s

/-- THR.UINS as it reads (R398). -/
def uinsWord (s : State) : Word :=
  wd ((List.finRange 8).foldl (fun w (t : Fin 8) => w + (thread s t).micro.isSome.toNat * 2 ^ t.val) 0)

end Sys2Proof.Machine
end

