-- ==== Sys2Proof/Machine/Plinth.lean ====
section
/-!
DEFINITION. The Plinth, the Monitors and the GPIO pins (spec/03_plinth_power_monitors.md, R91-R142;
spec/02_package_pins_electrical.md, R60, R61, R82-R86).
-/

namespace Sys2Proof.Machine

def setPlinth (f : Plinth → Plinth) (s : State) : State := { s with plinth := f s.plinth }

/-- A POWER raise with a detail of R124's table. -/
def powerRaise (d : Nat) (s : State) : State := raise { cls := clsPower, detail := wd d } s

/-! ### Supply (R91-R96, R103) -/

abbrev pstSRC : Nat := 15
abbrev pstBFEED : Nat := 14
abbrev pstAONV : Nat := 13
abbrev pstLDUMP : Nat := 12
abbrev pstCLAMP : Nat := 11
abbrev pstSRLIM : Nat := 10
abbrev pstSLPPND : Nat := 9
abbrev pstSLPREF : Nat := 8
abbrev pstKWSTK : Nat := 7
abbrev pstPRTH : Nat := 6

def pstat (s : State) (i : Nat) : Bool := regBit s Reg.plinth_STAT i
def setPstat (i : Nat) (b : Bool) (s : State) : State := setRegBit Reg.plinth_STAT i b s

/-- VB changes its source (R91, R139). -/
def vbSourceChange (fromStat : Bool) (s : State) : State := setPstat pstSRC fromStat s

/-- Back-feed starts, once per POR (R94). -/
def backFeedStart (s : State) : State := if s.plinth.bfeedDone then s else setPstat pstBFEED true s

def backFeedEnd (s : State) : State :=
  if pstat s pstBFEED then setPstat pstBFEED false (setPlinth (fun p => { p with bfeedDone := true }) s) else s

/-- VBAT exceeds 30 V (R96). -/
def loadDumpStart (s : State) : State :=
  if pstat s pstLDUMP then s else signal 32 (powerRaise 0x22 (setPstat pstLDUMP true s))

def loadDumpEnd (s : State) : State := if pstat s pstLDUMP then signal 32 (setPstat pstLDUMP false s) else s

/-- VBAT falls below LO of channel 3 (R103). -/
def vbatDipStart (s : State) : State :=
  if s.plinth.holdDue.isSome then s
  else setPlinth (fun p => { p with holdDue := some (s.now + max 1 (regF s Reg.plinth_HOLD 0 8) * msTicks) }) s

/-- VBAT is back before the holdup timer reached TIME (R103, R132). -/
def vbatDipEnd (s : State) : State :=
  if s.plinth.holdDue.isSome then
    signal 30 (hwCount Reg.plinth_DIPS (setPlinth (fun p => { p with holdDue := none }) s))
  else s

def holdupDue (s : State) : Nat := s.plinth.holdDue.getD s.now

/-- The holdup timer reaches TIME (R103). -/
def holdupExpiry (s : State) : State :=
  if s.plinth.holdDue.isSome then powerRaise 0x20 (setPlinth (fun p => { p with holdDue := none }) s) else s

/-- Shutdown and restart of the stator pre-regulator (R92, R128). -/
def preregShutdown (s : State) : State :=
  if pstat s pstPRTH then s else powerRaise 0x24 (setPstat pstPRTH true s)

def preregRestart (s : State) : State := setPstat pstPRTH false s

/-! ### Sleep (R108-R111) -/

/-- PLINTH.SLEEP written 5A5Ah, at the level KEYWAKE has (R108, R110, R137, R182). -/
def sleepRequest (m : Master) (s : State) : State :=
  if !privileged m || commitBusy s || pstat s pstSLPPND || s.plinth.sleepGo then s
  else if !(inSetup s && s.ang.st == .stop) then hwSet Reg.plinth_STAT (wd (2 ^ pstSLPREF)) s
  else if s.plinth.keywake then
    setPstat pstSLPPND true (setPlinth (fun p => { p with sleepDue := some (s.now + 10000 * msTicks) }) s)
  else setPlinth (fun p => { p with sleepGo := true }) s

/-- PLINTH.SLEEP written 0000h (R110). -/
def sleepWithdraw (m : Master) (s : State) : State :=
  if privileged m then setPstat pstSLPPND false (setPlinth (fun p => { p with sleepDue := none }) s) else s

/-- KEYWAKE goes low (R110). -/
def keywakeRelease (s : State) : State :=
  let s := setPlinth (fun p => { p with keywake := false }) s
  if pstat s pstSLPPND then
    setPstat pstSLPPND false (setPlinth (fun p => { p with sleepDue := none, sleepGo := true }) s)
  else s

def keywakeStuckDue (s : State) : Nat := s.plinth.sleepDue.getD s.now

/-- KEYWAKE held a pending request for 10 s (R110). -/
def keywakeStuck (s : State) : State :=
  if s.plinth.sleepDue.isSome then
    let s := hwSet Reg.plinth_STAT (wd (2 ^ pstKWSTK)) (setPlinth (fun p => { p with sleepDue := none }) s)
    if s.plinth.keyStuckLogged then s
    else note clsPower 0x21 (setPlinth (fun p => { p with keyStuckLogged := true }) s)
  else s

/-- The steps of R109: only AON runs. A wake condition met meanwhile makes the part start again at once (R135). -/
def sleepEntry (s : State) : State :=
  if s.plinth.sleepGo then
    let en : BitVec 4 := BitVec.ofNat 4 (regF s Reg.plinth_WAKEEN 0 4)
    let s := setPlinth (fun p => { p with
      sleepGo := false, wakeLatch := en, cstby := true, srefOn := false, livePin := false }) s
    { s with power := if s.plinth.wakeMet = 0 then .asleep else .down }
  else s

/-- A wake source meets its condition (R111, R112, R135, R136): the part leaves sleep, and START_EVENT brings it up. -/
def wakeMeets (src : Fin 4) (s : State) : State :=
  let s := if src = 0 then setPlinth (fun p => { p with keywake := true }) s else s
  let met (on : Bool) : State :=
    if on then setPlinth (fun p => { p with wakeMet := putBit p.wakeMet src true }) s else s
  match s.power with
  | .up => met (s.plinth.sleepGo && regBit s Reg.plinth_WAKEEN src)
  | .asleep => if s.plinth.wakeLatch.getLsbD src then { met true with power := .down } else s
  | .down => met (s.plinth.wakeMet != 0 && s.plinth.wakeLatch.getLsbD src)

/-! ### Charging (R114-R117, R134) -/

def chgTopo (s : State) : Nat := regF s Reg.plinth_CHGCFG 14 2

/-- A CHG period in ticks (CHGCFG.FREQ). -/
def chgPeriodTicks (s : State) : Nat := msTicks / (regF s Reg.plinth_CHGCFG 8 4 + 1)

/-- The on-time of a period (R115). -/
def chgOnTicks (s : State) : Nat :=
  let p := chgPeriodTicks s
  let on := (reg s Reg.plinth_CHGDUTY).toNat * p / 65536
  let least := regF s Reg.plinth_CHGCFG 0 8 * 80
  if on < least then 0 else if p - on < least then p else on

def chgDue (s : State) (g : Fin 2) : Nat := (stageAt s (14 + g.val)).periodDue

/-- The gate forced by the clamp: on in shunt topology, off in series topology (R116). -/
def chgForce (i : Nat) (s : State) : State :=
  if stageBlocked s i then s
  else
    let on := chgTopo s == 1
    setStage i (fun g => { g with
      on := on, offAt := none, onSince := if g.on then g.onSince else s.now
      offSince := if g.on && !on then s.now else g.offSince }) s

/-- A PWM period of CHG gate `g` starts (R115-R117); CHG1's follows half a period behind. `openG` and `gateG` are the edge
checks of R734. -/
def chgPeriodStart (g : Fin 2) (openG gateG : BitVec 2) (s : State) : State :=
  let i := 14 + g.val
  let p := chgPeriodTicks s
  let s := setStage i (fun x => { x with periodDue := s.now + p }) s
  let s := if g = 0 then setStage 15 (fun x => { x with periodDue := s.now + p / 2 }) s else s
  if stageBlocked s i then s
  else
    let s :=
      if pstat s pstCLAMP then chgForce i s
      else
        let on := chgOnTicks s
        setStage i (fun x => { x with
          on := decide (0 < on)
          onSince := if x.on then x.onSince else s.now
          offSince := if x.on && on == 0 then s.now else x.offSince
          offAt := if on = p then none else some (s.now + on) }) s
    let own : BitVec 2 := BitVec.ofNat 2 (2 ^ g.val)
    chgChecks (openG &&& own) (gateG &&& own) s

/-- The clamp of R116 on a scan's voltages. -/
def clampScan (s : State) : State :=
  let v := (reg s (Reg.mon_VAL (if chgTopo s = 1 then 4 else 3))).toNat
  let lvl := (reg s Reg.plinth_CLAMP).toNat * 10
  let live := chgTopo s == 1 || chgTopo s == 2
  if pstat s pstCLAMP then
    if !live || v + 200 ≤ lvl then setPstat pstCLAMP false s else s
  else if live && lvl < v then
    chgForce 15 (chgForce 14 (signal 31 (hwCount (Reg.plinth_CLAMP + 1) (setPstat pstCLAMP true s))))
  else s

/-! ### SREF (R118, R119) -/

/-- SREF enters or leaves its current limit. -/
def srefLimit (entered : Bool) (s : State) : State :=
  if pstat s pstSRLIM == entered then s
  else
    signal 33 (setPstat pstSRLIM entered
      (setPlinth (fun p => { p with srefDue := if entered then some (s.now + 10 * msTicks) else none }) s))

def srefShortDue (s : State) : Nat := s.plinth.srefDue.getD s.now

/-- SREF has been in current limit for 10 ms: once per excursion. -/
def srefShort (s : State) : State :=
  if s.plinth.srefDue.isSome then
    let off := regBit s Reg.plinth_SREFCFG 14
    powerRaise 0x23 (setPlinth (fun p => { p with srefDue := none, srefOn := p.srefOn && !off }) s)
  else s

/-- SREFCFG written: EN turns SREF off or restarts it. -/
def srefWrite (m : Master) (v : Word) (s : State) : State :=
  if privileged m then
    let s := regWriteBits Reg.plinth_SREFCFG v s
    setPlinth (fun p => { p with srefOn := v.getLsbD 15 }) s
  else s

/-! ### AVS (R120-R122) -/

def avsDue (s : State) : Nat := s.plinth.avsDue

def avsStep (s : State) : State :=
  let s := setPlinth (fun p => { p with avsDue := s.now + msTicks }) s
  if !regBit s Reg.plinth_CORECFG 15 || onBackup s then s
  else
    let v := (reg s (Reg.mon_VAL 8)).toNat
    let t := (reg s Reg.plinth_AVSTGT).toNat
    let k := min 30 (regF s Reg.plinth_CORECFG 0 5)
    let limit (s : State) : State :=
      if s.plinth.avsLogged then s else note clsPower 0x25 (setPlinth (fun p => { p with avsLogged := true }) s)
    if v + 32 < t then (if k = 30 then limit s else setRegF Reg.plinth_CORECFG 0 5 (k + 1) s)
    else if t + 32 < v then (if k = 0 then limit s else setRegF Reg.plinth_CORECFG 0 5 (k - 1) s)
    else s

/-! ### Monitors (R123-R127, R133, R142) -/

/-- A value lies below LO, or above HI, of its channel; channels 0 to 2 are signed. -/
def monBelow (s : State) (n : Nat) (v : Word) : Bool :=
  let lo := reg s (Reg.mon_WIN0 + 2 * n)
  if n < 3 then v.slt lo else v.ult lo
def monAbove (s : State) (n : Nat) (v : Word) : Bool :=
  let hi := reg s (Reg.mon_WIN0 + 2 * n + 1)
  if n < 3 then hi.slt v else hi.ult v

def filt (s : State) : Nat := max 1 (regF s Reg.mon_CFG 0 4)

/-- Channel `n`'s new value judged; `noLo` suspends its LO check. -/
def monChannel (n : Fin 9) (v : Word) (noLo : Bool) (s : State) : State :=
  let lo := !noLo && monBelow s n v
  let hi := monAbove s n v
  let s := setReg (Reg.mon_VAL n) v s
  let s := setRegBit Reg.mon_OUT n (lo || hi) s
  let r := s.plinth.mon[n]
  let put (r : MonRun) (s : State) : State := setPlinth (fun p => { p with mon := p.mon.set n r }) s
  if lo && n == 3 then put { r with outRun := 0, inRun := 0 } s
  else if lo || hi then
    let k := r.outRun + 1
    if filt s ≤ k ∧ !r.raised then
      raise { cls := if n < 3 then clsThermal else clsPower, detail := wd (n.val + if lo then 0 else 0x10) }
        (put { outRun := k, inRun := 0, raised := true } s)
    else put { r with outRun := k, inRun := 0 } s
  else
    let k := r.inRun + 1
    put { outRun := 0, inRun := k, raised := r.raised && decide (k < filt s) } s

def scanDue (s : State) : Nat := s.plinth.scanDue

/-- A scan completes with the nine channels' values; `vbLow` says that VB is below 5.8 V (R123, R126). Channel 8 is not
measured on the backup clock (R122). -/
def monitorScan (vals : Vector Word 9) (vbLow : Bool) (s : State) : State :=
  let out := reg s Reg.mon_OUT
  let s := (List.finRange 9).foldl
    (fun s (n : Fin 9) =>
      if n = 8 ∧ onBackup s then s else monChannel n vals[n] (n == 7 && vbLow || n == 4 && reg s (Reg.mon_WIN0 + 8) == 0) s) s
  let s := clampScan (setPlinth (fun p => { p with scanDue := s.now + 250 * usTicks }) s)
  let s := if reg s Reg.mon_OUT = out then s else signal 34 s
  signal 35 s

/-! ### Engine hours (R129, R130) -/

def engineSecondDue (s : State) : Nat := if s.ang.st = .stop then s.now else s.now + (160000000 - s.plinth.turnTicks)

def engineSecond (s : State) : State :=
  if 160000000 ≤ s.plinth.turnTicks then
    let h := (reg32 s Reg.plinth_EHOURS).toNat
    setReg32 Reg.plinth_EHOURS (BitVec.ofNat 32 (min (2 ^ 32 - 1) (h + 1)))
      (setPlinth (fun p => { p with turnTicks := p.turnTicks - 160000000 }) s)
  else s

/-- One word of EHOURS written: in SETUP; the first write sets AONV. -/
def ehoursWrite (m : Master) (a : Nat) (v : Word) (s : State) : State :=
  if privileged m && inSetup s then setPstat pstAONV true (regWriteBits a v s) else s

/-! ### LIVE (R60, R61) -/

def liveDue (s : State) : Nat := s.plinth.liveLast + 500 * usTicks

def liveToggle (s : State) : State :=
  if driving s then setPlinth (fun p => { p with livePin := !p.livePin, liveLast := s.now }) s else s

/-! ### GPIO (R82-R86) -/

/-- The last accepted edge of a pin lies fewer than 32 ticks back (R83). -/
def edgeNear (s : State) (pin : Fin 17) : Bool :=
  match s.plinth.gpioEdge[pin] with
  | some t => decide (s.now < t + 32)
  | none => false

/-- An edge on pin `pin`. -/
def gpioEdge (pin : Fin 17) (rising : Bool) (s : State) : State :=
  let s := setPlinth (fun p => { p with gpioIn := putBit p.gpioIn pin rising }) s
  let a := Reg.gpio_PCFG pin
  let sel := regF s a 8 2
  if regF s a 10 2 ≠ 2 ∨ !(if rising then sel.testBit 0 else sel.testBit 1) then s
  else
    if edgeNear s pin then hwCount Reg.gpio_DROP s
    else
      let s := setPlinth (fun p => { p with gpioEdge := p.gpioEdge.set pin (some s.now) }) s
      let v := stamp32 s
      signalNat (72 + pin.val)
        (hwWrite (Reg.gpio_CAP pin + 1) (highWord v) (hwWrite (Reg.gpio_CAP pin) (lowWord v) s))

/-- PCFGn written: a reserved FUNC or PULL keeps the field (R19, R82). -/
def pcfgWrite (m : Master) (a : Nat) (v : Word) (s : State) : State :=
  if threadOrHost m then
    let v := if fld v 10 2 = 3 then putFld v 10 2 (regF s a 10 2) else v
    let v := if fld v 6 2 = 3 then putFld v 6 2 (regF s a 6 2) else v
    regWriteBits a v s
  else s

def gpioOp (m : Master) (a : Nat) (v : Word) (s : State) : State :=
  if a - 0x45400 < 17 then pcfgWrite m a v s else s

def gpioPeek (s : State) (a : Nat) : Word :=
  let n := a - 0x45400
  if n < 17 then
    let w := reg s a
    putBit w 15 (if fld w 10 2 = 1 then w.getLsbD 0 else s.plinth.gpioIn.getLsbD n)
  else reg s a

/-! ### PLINTH and MON registers (R131) -/

/-- A write to a PLINTH register. -/
def plinthOp (m : Master) (a : Nat) (v : Word) (s : State) : State :=
  let o := a - 0x40400
  if o = 0x04 then
    (if v = 0x5A5A then sleepRequest m s else if v = 0 then sleepWithdraw m s else s)
  else if o = 0x08 then srefWrite m v s
  else if o = 0x0C then
    (if privileged m then regWriteBits a (if fld v 14 2 = 3 then putFld v 14 2 (chgTopo s) else v) s else s)
  else if o = 0x10 ∨ o = 0x11 then ehoursWrite m a v s
  else if privileged m then regWriteBits a v s
  else s

def monOp (m : Master) (a : Nat) (v : Word) (s : State) : State := if privileged m then regWriteBits a v s else s

end Sys2Proof.Machine
end

