-- ==== Sys2Proof/Machine/Post.lean ====
section
/-!
DEFINITION. The Postmark compares (spec/23_long_run_and_systems.md, R1045-R1057).
-/

namespace Sys2Proof.Machine

/-- CMPn, 48 bits. -/
def postCmp (s : State) (n : Fin 4) : Nat :=
  (reg32 s (Reg.post_CMPL n)).toNat + (reg s (Reg.post_CMPH n)).toNat * 2 ^ 32

/-- (Postmark − CMPn) modulo 2^48 is below 2^47 in tick `t` (R1048). -/
def postMet (s : State) (n : Fin 4) (t : Nat) : Bool :=
  decide ((t + (2 ^ 48 - postCmp s n)) % 2 ^ 48 < 2 ^ 47)

/-- The first tick in which an armed compare fires (R1048). -/
def postDue (s : State) (n : Fin 4) : Nat :=
  let t := max s.now s.post.from_[n]
  if postMet s n t then t else t + (2 ^ 48 - (t + (2 ^ 48 - postCmp s n)) % 2 ^ 48)

/-- Compare `n` fires where it is armed and its condition holds (R1048). -/
def postFire (n : Fin 4) (s : State) : State :=
  if regBit s Reg.post_CMPCTL n && decide (s.post.from_[n] ≤ s.now) && postMet s n s.now then
    signal ⟨89 + n.val, by omega⟩ (setRegBit Reg.post_CMPCTL n false s)
  else s

/-- A write to a POST register: a compare whose condition first holds in this tick fires first; a compare newly armed,
and a changed CMP, count from the next tick (R1048, R1052). -/
def postWrite (m : Master) (a : Nat) (v : Word) (s : State) : State :=
  if threadOrHost m then
    let s := (List.finRange 4).foldl (fun s (n : Fin 4) => postFire n s) s
    let was := reg s Reg.post_CMPCTL
    let s := regWriteBits a v s
    let arm (n : Fin 4) : Bool :=
      if a = Reg.post_CMPCTL then v.getLsbD n && !was.getLsbD n
      else a == Reg.post_CMPL n || a == Reg.post_CMPL n + 1 || a == Reg.post_CMPH n
    { s with post := { s.post with
        from_ := Vector.ofFn (fun n : Fin 4 => if arm n then s.now + clkTicks s else s.post.from_[n]) } }
  else s

/-- The value a POST register shows (R1046). -/
def postPeek (s : State) (a : Nat) : Word :=
  if a = Reg.post_NOWL then lowWord (stamp32 s)
  else if a = Reg.post_NOWL + 1 then highWord (stamp32 s)
  else if a = Reg.post_NOWH then wd (s.now / 2 ^ 32)
  else reg s a

end Sys2Proof.Machine
end

