-- ==== Sys2Proof/Machine/BusPeek.lean ====
section
/-!
DEFINITION. What every address of the data space shows, without side effects (R20, R484).
-/

namespace Sys2Proof.Machine

/-- A thread held by the store buffer, or whose start block waits for it (R505, R506). -/
def sbHeld (s : State) (t : Fin 8) : Bool := (thread s t).held.isSome || (thread s t).starting.isSome

/-- MEMC.SBSTAT as it reads; of several held threads HTH names the lowest (log entry 20). -/
def sbstatWord (s : State) : Word :=
  match (List.finRange 8).find? (sbHeld s) with
  | some t => wd (0x8000 + t.val * 0x100 + s.mem.sbuf.length)
  | none => wd s.mem.sbuf.length

/-- The value the register at `a` shows. -/
def regPeek (s : State) (a : Nat) : Word :=
  match (a - 0x40000) / 0x400 with
  | 0 => if a = Reg.sys_MODE then modeWord s else reg s a
  | 3 => if a = Reg.thr_UINS then uinsWord s else thrPeek s a
  | 4 => intcPeek s a
  | 5 => if a = Reg.memc_SBSTAT then sbstatWord s else readWord s a
  | 6 => courPeek s a
  | 7 => tilePeek s a
  | 8 => angPeek s a
  | 9 => evtPeek s a
  | 10 => adcPeek s a
  | 11 => outPeek s a
  | 12 => kernPeek s a
  | 13 => wailiPeek s a
  | 14 => loopPeek s a
  | 15 => canPeek s 0 a
  | 16 => canPeek s 1 a
  | 17 => klinePeek s a
  | 18 => fcolPeek s a
  | 19 => dbgPeek s a
  | 20 => if a = Reg.flash_STAT then flashStatWord s else reg s a
  | 21 => gpioPeek s a
  | 22 => postPeek s a
  | _ => readWord s a

/-- The value the word at `a` shows; an unmapped address shows nothing. -/
def peek (s : State) (a : Nat) : Word :=
  if isSpad a then spadGet s a
  else if isPeriph a then regPeek s a
  else if isEvtWord a then entWord s ((a - 0x50000) / 4) ((a - 0x50000) % 4)
  else 0

end Sys2Proof.Machine
end

