-- ==== Sys2Proof/Machine/Dump.lean ====
section
/-!
DEFINITION. The DUMP routine of the dead letter (spec/21_faults_abort_dead_letter.md, R973-R977, R986).
-/

namespace Sys2Proof.Machine

/-- The dead-letter area. -/
def dlBase : Nat := 0x17C00

/-- The block of thread `t` (R976). -/
def dumpThread (s : State) (t : Fin 8) : List Word :=
  let h := thread s t
  let lo (v : BitVec 17) : Word := v.setWidth 16
  let hi (v : BitVec 17) : Nat := (v.getLsbD 16).toNat
  let top := hi h.pc + 2 * hi h.lr + 4 * hi h.epc
    + (List.finRange 3).foldl (fun w (i : Fin 3) => w + 2 ^ (3 + i.val) * hi h.ls[i] + 2 ^ (6 + i.val) * hi h.le[i]) 0
  let acc (a : BitVec 40) : List Word :=
    [a.extractLsb' 0 16, a.extractLsb' 16 16, (a.extractLsb' 32 8).signExtend 16]
  let seals := (List.finRange 32).foldl (fun w (n : Fin 32) => w + (ownsSeal s t n).toNat * 2 ^ n.val) 0
  [h.psw, lo h.pc, wd top] ++ h.r.toList ++ acc h.ac[0] ++ acc h.ac[1] ++ [lo h.lr]
    ++ h.ls.toList.map lo ++ h.le.toList.map lo ++ h.lc.toList
    ++ [wd (h.ctxid.toNat * 256 + h.bk.toNat), h.vbase, lo h.epc, h.epsw, h.ecause
      , h.eaddr.setWidth 16, wd (fld h.eaddr 16 4), h.estat
      , latchOf s t, thrPeek s (Reg.thr_MASK t), intcPeek s (Reg.intc_HELD t), wd (seals % 65536), wd (seals / 65536)]

/-- The words of a list of registers. -/
def peeks (s : State) (l : List Nat) : List Word := l.map (peek s)

/-- `n` registers from `a` on. -/
def peekRun (s : State) (a n : Nat) : List Word := (List.range n).map (fun i => peek s (a + i))

/-- Words 8 to 31 (R975). -/
def dumpHead (s : State) : List Word :=
  peeks s [Reg.sys_MODE, Reg.sys_MODESTAT, Reg.sys_RSTCAUSE, Reg.sys_CLKSTAT, Reg.fcol_FSW, Reg.fcol_ACK]
    ++ peekRun s (Reg.fcol_LV 0) 4
    ++ peeks s [Reg.fcol_HSTAT, Reg.fcol_HGEN, Reg.thr_STATE, Reg.thr_STALL, Reg.thr_SEALSTAT, Reg.sys_FENCEA
      , Reg.sys_FENCEA + 1, Reg.sys_FENCEB, Reg.kern_MODE, Reg.kern_STAT]
    ++ List.replicate 4 0

/-- Words 32 to 127. -/
def dumpHistory (s : State) : List Word :=
  (List.range 16).flatMap (fun j => peekRun s (Reg.fcol_H j) 5 ++ [0])

/-- Words 512 to 767. -/
def dumpBlocks (s : State) : List Word :=
  peekRun s (Reg.mon_VAL 0) 9
    ++ peeks s [Reg.mon_OUT, Reg.plinth_STAT, Reg.plinth_CORECFG, Reg.plinth_EHOURS, Reg.plinth_EHOURS + 1]
    ++ List.replicate 18 0
    ++ peekRun s (Reg.evt_ST 0) 128
    ++ peeks s [Reg.evt_STAT, Reg.evt_SLIPCNT, Reg.evt_SLIPMAX, Reg.evt_LCAN, Reg.evt_KPART
      , Reg.ang_STAT, Reg.ang_ANGLE, Reg.ang_RPM, Reg.ang_CYCCNT, Reg.ang_CYCCNT + 1, Reg.ang_LOSS]
    ++ List.replicate 21 0
    ++ peeks s [Reg.tile_STATE, Reg.tile_STAT, Reg.tile_USED, Reg.tile_PRIO, Reg.tile_ERR]
    ++ [0] ++ peekRun s (Reg.tile_CFG 0) 16 ++ peekRun s (Reg.tile_TSR 0) 8 ++ List.replicate 2 0
    ++ peeks s [Reg.loop_STAT, Reg.loop_RINFO, Reg.loop_SEQ, Reg.loop_TURN]
    ++ peekRun s (Reg.loop_LOST 0) 4 ++ peekRun s (Reg.loop_WATCH 0) 4
    ++ peeks s [Reg.loop_ERRA, Reg.loop_ERRA + 1, Reg.loop_ERRB, Reg.loop_ARM]
    ++ List.replicate 16 0

/-- The SEQ of the dump that starts (word 3 of R975). -/
def dumpSeq (s : State) : Word :=
  if spadGet s dlBase = 0x444C then
    let q := spadGet s (dlBase + 3) + 1
    if q = 0 then 1 else q
  else 1

/-- Words 1 to 767 of the dead letter (R975). -/
def dumpWords (s : State) (seq : Word) : List Word :=
  let p := postmark s
  [1, 0x400, seq, p.extractLsb' 0 16, p.extractLsb' 16 16, p.extractLsb' 32 16, (thread s 0).r[0]]
    ++ dumpHead s ++ dumpHistory s ++ (List.finRange 8).flatMap (dumpThread s) ++ dumpBlocks s

/-- Words written by DUMP, as the sequencer's. -/
def dumpPut (i : Nat) (ws : List Word) (s : State) : State := spadWriteBy 0 (dlBase + i) ws s

/-- FCOL.DUMP written 0D0Dh by TH0: steps 1 and 2 (R973, R974). -/
def dumpStart (m : Master) (s : State) : State :=
  if m ≠ .thread 0 ∨ s.fcol.dump.isSome then s
  else
    let q := dumpSeq s
    let ws := dumpWords s q
    setFcol (fun f => { f with dump := some q }) (dumpPut 1 ws (dumpPut 0 [0] s))

/-- Steps 3 to 5, and the end of DUMP (R974, R977, R986). -/
def dumpEnd (s : State) : State :=
  match s.fcol.dump with
  | none => s
  | some q =>
    let body := 0x444C :: (List.range 1021).map (fun i => spadGet s (dlBase + 1 + i))
    let c := crc32 (body.flatMap wordBytes)
    let s := dumpPut 0 [0x444C] (dumpPut 1022 [lowWord c, highWord c] s)
    abortResume (setFcol (fun f => { f with dump := none }) (setRegF Reg.fcol_DSTAT 0 15 q.toNat s))

end Sys2Proof.Machine
end

