-- ==== Sys2Proof/Machine/BusWrite.lean ====
section
/-!
DEFINITION. Accesses of the data space: reads with their side effects and writes, of every master (R16-R20, R498, R499,
R507), and the start of a thread, which reads its start block from it (R234, R279-R282).
-/

namespace Sys2Proof.Machine

/-! ### Reads -/

/-- A read of the register at `a` with the effect its access code gives: RC bits clear, RA registers act (R16, R20). -/
def regReadSide (m : Master) (a : Nat) (s : State) : Word × State :=
  if h : 0x41080 ≤ a ∧ a < 0x41088 then claimAccess m ⟨a - 0x41080, by omega⟩ true s
  else if h : 0x4284A ≤ a ∧ a < 0x4284C then kfifoPop ⟨a - 0x4284A, by omega⟩ s
  else if a = Reg.kline_RXD then rxdRead true s
  else if a = Reg.dbg_VTRX then vtrxRead m s
  else
    let rc := regMask RegRow.rc a
    if rc = 0 then (regPeek s a, s)
    else
      let r := rcRead a s
      ((regPeek s a &&& ~~~rc) ||| (r.1 &&& rc), r.2)

/-- A read of the register at `a`: a host's acts only where it asks for the side effect (R20, R828). -/
def regRead (m : Master) (side : Bool) (a : Nat) (s : State) : Word × State :=
  if isHost m && !side then (regPeek s a, s) else regReadSide m a s

/-- What a read answers (R498, R499). -/
inductive RdAns where
  | refused (why : Why)
  | parity
  | ok (ws : List Word)

/-- Words `a` to `a + n - 1` outside the scratchpad, one after the other. -/
def readRegs (m : Master) (side : Bool) (a : Nat) : Nat → State → List Word × State
  | 0, s => ([], s)
  | n + 1, s =>
    let r := if isPeriph a then regRead m side a s else (peek s a, s)
    let rest := readRegs m side (a + 1) n r.2
    (r.1 :: rest.1, rest.2)

/-- A read whose checks have passed: `w` words at `a`. -/
def readUnchecked (m : Master) (side : Bool) (a w : Nat) (s : State) : RdAns × State :=
  if isSpad a then
    match spadRead (readerOf m) a w s with
    | (some ws, s) => (.ok ws, s)
    | (none, s) => (.parity, s)
  else
    let r := readRegs m side a w s
    (.ok r.1, r.2)

/-- A read of a word (`w` 1) or a pair (`w` 2) by master `m`; a refusal is recorded (R498). -/
def memRead (m : Master) (side : Bool) (a w : Nat) (s : State) : RdAns × State :=
  match refusal s m a w false with
  | some why => (.refused why, recordViol m a false why s)
  | none => readUnchecked m side a w s

/-! ### Thread starts (R234, R279-R282) -/

/-- A start is in progress (R234). -/
def startInProgress (h : Thread) : Bool := h.starting.isSome || (h.st == .ready && !h.begun)

/-- The word of the start block at `a` as the sequencer reads it: from the store buffer where it is held there. -/
def startWord (t : Fin 8) (a : Nat) (s : State) : RdAns × State :=
  match sbAsk s t a 1 false with
  | .forward v =>
    (match refusal s (.thread t) a 1 false with
    | some why => .refused why
    | none => .ok [lowWord v], s)
  | _ => memRead (.thread t) true a 1 s

/-- `n` words of a start block, or none where one cannot be read. -/
def startWords (t : Fin 8) (a : Nat) : Nat → State → Option (List Word) × State
  | 0, s => (some [], s)
  | n + 1, s =>
    match startWord t (a % 0x100000) s with
    | (.ok ws, s) =>
      match startWords t (a + 1) n s with
      | (some l, s) => (some (ws ++ l), s)
      | (none, s) => (none, s)
    | (_, s) => (none, s)

/-- The start block must wait for the store buffer (R505, R506). -/
def startHolds (t : Fin 8) (s : State) : Bool :=
  let a := fld (reg32 s (Reg.thr_SBASE t)) 0 20
  sbHas s t || (List.range 29).any (fun i => match sbAsk s t (a + i) 1 false with
    | .hold _ => true
    | _ => false)

/-- The start of thread `t` with argument `arg` goes on: its start block is read, and the thread begins (R279-R282). -/
def startRun (t : Fin 8) (arg : Word) (s : State) : State :=
  if startHolds t s then setThread t (fun h => { h with starting := some arg }) s
  else
    let s := setThread t (fun h => { h with starting := none }) s
    match startWords t (fld (reg32 s (Reg.thr_SBASE t)) 0 20) 29 s with
    | (some blk, s) => beginThread t arg blk s
    | (none, s) => note clsSequencer 3 s

/-- A start of thread `t` (R234). -/
def startThread (t : Fin 8) (s : State) : State :=
  let h := thread s t
  if h.st != .stopped || startInProgress h || fenceBit s (fbThread t) then s
  else startRun t (reg s (Reg.thr_ARG t)) s

/-- The START and STOP bits of thread `t` in one write (R234, R235). -/
def startStop (t : Fin 8) (start stop : Bool) (s : State) : State :=
  let h := thread s t
  let idle := h.st == .stopped && !startInProgress h
  if start && (idle || !stop) then startThread t s else if stop then requestStop t s else s

/-- THR.CTL written (R234-R237). -/
def ctlWrite (m : Master) (v : Word) (s : State) : State :=
  if privileged m then
    (List.finRange 8).foldl (fun s (t : Fin 8) => startStop t (v.getLsbD (8 + t.val)) (v.getLsbD t) s) s
  else s

/-! ### Writes -/

/-- A write to an FCOL register. -/
def fcolWrite (m : Master) (a : Nat) (v : Word) (s : State) : State :=
  if a = Reg.fcol_FSW then fswWrite m v s
  else if a = Reg.fcol_ACK then ackWrite m v s
  else if a = Reg.fcol_HCLR then (if v = 1 then hclrWrite m s else s)
  else if a = Reg.fcol_WDSVC then (if v = 0xA5C3 then wdService m s else s)
  else if a = Reg.fcol_DUMP then (if v = 0x0D0D then dumpStart m s else s)
  else if a = Reg.fcol_ABCMD then abcmdWrite m v s
  else if privileged m then regWriteBits a v s
  else s

/-- A write to a SYS register. -/
def sysWrite (m : Master) (a : Nat) (v : Word) (s : State) : State :=
  if a = Reg.sys_FENCEA then liftWrite m 0 v s
  else if a = Reg.sys_FENCEA + 1 then liftWrite m 16 v s
  else if a = Reg.sys_FENCEB then liftWrite m 32 v s
  else if a = Reg.sys_ARMCMD then armcmdWrite m v s
  else if a = Reg.sys_MODECMD then modecmdWrite m v s
  else regWriteBits a v s

/-- A write of `v` to the register at `a` by master `m`. -/
def regWrite (m : Master) (a : Nat) (v : Word) (s : State) : State :=
  match (a - 0x40000) / 0x400 with
  | 0 => sysWrite m a v s
  | 1 => plinthOp m a v s
  | 2 => monOp m a v s
  | 3 =>
    if a = Reg.thr_CTL then ctlWrite m v s
    else if Reg.thr_MCADR ≤ a then mcWrite m a v s
    else thrWrite m a v s
  | 4 => intcWrite m a v s
  | 5 => if privileged m then regWriteBits a v s else s
  | 6 => courOp m a v s
  | 7 => tileWrite m a v s
  | 8 => angWrite m a v s
  | 9 => evtWrite m a v s
  | 10 => adcWrite m a v s
  | 11 => outWrite m a v s
  | 12 => kernWrite m a v s
  | 13 => wailiWrite m a v s
  | 14 => loopWrite m a v s
  | 15 => canWrite m 0 a v s
  | 16 => canWrite m 1 a v s
  | 17 => klineWrite m a v s
  | 18 => fcolWrite m a v s
  | 19 => dbgWrite m a v s
  | 21 => gpioOp m a v s
  | 22 => postWrite m a v s
  | _ => regWriteBits a v s

/-- A word written outside the scratchpad. -/
def writeReg (m : Master) (a : Nat) (v : Word) (s : State) : State :=
  if isPeriph a then regWrite m a v s
  else if isEvtWord a then
    entryWrite m ((a - 0x50000) / 4) ((a - 0x50000) % 4) v s
  else s

/-- Words written from `a` on outside the scratchpad. -/
def writeRegs (m : Master) (a : Nat) : List Word → State → State
  | [], s => s
  | v :: t, s => writeRegs m (a + 1) t (writeReg m a v s)

/-- What a write answers (R498, R499, R502). -/
inductive WrAns where
  | refused (why : Why)
  | collision
  | ok
deriving DecidableEq, Repr

/-- A write of `ws` at `a` whose checks have passed. -/
def writeUnchecked (m : Master) (a : Nat) (ws : List Word) (s : State) : WrAns × State :=
  if isSpad a then
    match spadWrite m a ws s with
    | (true, s) => (.ok, s)
    | (false, s) => (.collision, s)
  else (.ok, writeRegs m a ws s)

/-- A write of a word or a pair by master `m`; a refusal is recorded (R498). -/
def memWrite (m : Master) (a : Nat) (ws : List Word) (s : State) : WrAns × State :=
  match refusal s m a ws.length true with
  | some why => (.refused why, recordViol m a true why s)
  | none => writeUnchecked m a ws s

/-! ### The drain of the store buffer (R504) -/

/-- The words of a buffered store. -/
def sbData (e : SbEntry) : List Word := if e.pair then [lowWord e.data, highWord e.data] else [lowWord e.data]

/-- The oldest entry drains, with no further check. -/
def sbDrain (s : State) : State :=
  match s.mem.sbuf with
  | [] => s
  | e :: rest =>
    (writeUnchecked (.thread e.thread) e.addr (sbData e) { s with mem := { s.mem with sbuf := rest } }).2

/-- `n` entries drain, one per CLK period. -/
def sbDrains : Nat → State → State
  | 0, s => s
  | n + 1, s => sbDrains n (sbDrain s)

/-- Words written one by one, each a write of its own; the first failure ends it with its address (R829). -/
def memWrites (m : Master) (a : Nat) : List Word → State → Option (Nat × WrAns) × State
  | [], s => (none, s)
  | v :: t, s =>
    match memWrite m a [v] s with
    | (.ok, s) => memWrites m (a + 1) t s
    | (r, s) => (some (a, r), s)

end Sys2Proof.Machine
end

