-- ==== Sys2Proof/Machine/Codec.lean ====
section
/-!
DEFINITION. The bytes of a macro instruction and the checks of its decoding (spec/08_instruction_encoding_reference.md,
R350-R354, R357-R362, R367-R371, R376-R382; spec/09_microcode_control_store.md, R422-R424).
-/

namespace Sys2Proof.Machine

/-! ### Encoding (R350, R352, R361, R362) -/

def loByte (v : Word) : Byte := v.setWidth 8
def hiByte (v : Word) : Byte := v.extractLsb' 8 8

/-- A byte of two 4-bit fields. -/
def nibbles (hi lo : Nat) : Byte := BitVec.ofNat 8 (hi % 16 * 16 + lo % 16)

/-- The byte of a prefix (R354). -/
def prefixCode : Prefix → Byte
  | .long => 0xF0
  | .pair => 0xF1
  | .ift _ => 0xF2
  | .iff _ => 0xF3
  | .far _ => 0xF4
  | .sat => 0xF5
  | .ac1 => 0xF6
  | .sealed _ => 0xF7

/-- A prefix with its argument byte. -/
def prefixBytes (p : Prefix) : List Byte :=
  prefixCode p :: (match p with
    | .ift c => [c]
    | .iff c => [c]
    | .far b => [b]
    | .sealed n => [n]
    | _ => [])

def hasLong (pre : List Prefix) : Bool := pre.contains .long
def hasPair (pre : List Prefix) : Bool := pre.contains .pair
def hasSat (pre : List Prefix) : Bool := pre.contains .sat
def hasAc1 (pre : List Prefix) : Bool := pre.contains .ac1

/-- The FAR byte, the SEALED number, and the guard: its condition and whether it must hold (R355). -/
def farOf (pre : List Prefix) : Option Byte :=
  pre.findSome? (fun p => match p with
    | .far b => some b
    | _ => none)
def sealedOf (pre : List Prefix) : Option Byte :=
  pre.findSome? (fun p => match p with
    | .sealed n => some n
    | _ => none)
def guardOf (pre : List Prefix) : Option (Fin 16 × Bool) :=
  pre.findSome? (fun p => match p with
    | .ift c => some (⟨c.toNat % 16, by omega⟩, true)
    | .iff c => some (⟨c.toNat % 16, by omega⟩, false)
    | _ => none)

/-- An immediate, displacement or loop end of 8 bits, or 16 with LONG. -/
def wide (long : Bool) (v : Word) : List Byte := if long then [loByte v, hiByte v] else [loByte v]

/-- The opcode of a memory instruction with its operand bytes, `r` in b1[7:4]. -/
def eaBytes (base : Nat) (r : Nat) (long : Bool) : Ea → List Byte
  | .ind n => [BitVec.ofNat 8 base, nibbles r n]
  | .postInc n => [BitVec.ofNat 8 (base + 1), nibbles r n]
  | .preDec n => [BitVec.ofNat 8 (base + 2), nibbles r n]
  | .disp n d => BitVec.ofNat 8 (base + 3) :: nibbles r n :: wide long d
  | .short a => [BitVec.ofNat 8 (base + 4), nibbles r (fld a 8 4), a.setWidth 8]

/-- Opcode and operand byte of a one-byte operand in its immediate or register form. -/
def src8Bytes (imm reg : Nat) : Src8 → List Byte
  | .imm v => [BitVec.ofNat 8 imm, v]
  | .reg r => [BitVec.ofNat 8 reg, nibbles r 0]

/-- Opcode and operand bytes of an instruction in form RR or RI. -/
def srcBytes (rr : Nat) (rd : Fin 16) (long : Bool) : Src → List Byte
  | .reg rs => [BitVec.ofNat 8 rr, nibbles rd rs]
  | .imm v => BitVec.ofNat 8 (rr + 1) :: nibbles rd 0 :: wide long v

def aluCode : AluOp → Nat
  | .add => 0x30
  | .adc => 0x32
  | .sub => 0x34
  | .sbc => 0x36
  | .cmp => 0x38
  | .and => 0x3A
  | .or => 0x3C
  | .xor => 0x3E
  | .tst => 0x40

def shCode : ShOp → Nat
  | .shl => 0x44
  | .shr => 0x46
  | .sar => 0x48
  | .rol => 0x4A

/-- The page of an instruction's opcode (R350). -/
def pageOf : Op → Nat
  | .setm _ => 2
  | .setbk _ => 2
  | .stop _ => 2
  | .eret => 2
  | .ldsg _ _ => 2
  | .tcfg _ _ => 1
  | .tldr _ => 1
  | .tstr _ => 1
  | .tmap _ _ _ _ => 1
  | .tmac _ _ => 1
  | .trel _ => 1
  | .user p _ _ => 3 + p.val
  | _ => 0

/-- The opcode and operand bytes (R367-R382). -/
def opBytes (long : Bool) : Op → List Byte
  | .nop => [0x00]
  | .brk => [0x01]
  | .rts => [0x02]
  | .retm => [0x03]
  | .trap n => [0x04, n]
  | .bsr d => 0x05 :: wide long d
  | .callm m d => 0x06 :: m :: wide long d
  | .loop (.reg r) e => 0x08 :: nibbles r 0 :: wide long e
  | .loop (.imm v) e => 0x09 :: loByte v :: hiByte v :: wide long e
  | .wait (.imm v) => [0x0A, loByte v, hiByte v]
  | .wait (.reg r) => [0x0B, nibbles r 0]
  | .signal a => src8Bytes 0x0C 0x0D a
  | .seal n => src8Bytes 0x0E 0x0F n
  | .unseal n => src8Bytes 0x20 0x21 n
  | .br cc d => BitVec.ofNat 8 (0x10 + cc.val) :: wide long d
  | .movRR rd rs => [0x28, nibbles rd rs]
  | .movRI rd v => 0x29 :: nibbles rd 0 :: wide long v
  | .movRC rd c => [0x2A, nibbles rd 0, BitVec.ofNat 8 c.val]
  | .movCR c rs => [0x2B, nibbles rs 0, BitVec.ofNat 8 c.val]
  | .push r => [0x2C, nibbles r 0]
  | .pop r => [0x2D, nibbles r 0]
  | .alu o rd s => srcBytes (aluCode o) rd long s
  | .not r => [0x42, nibbles r 0]
  | .neg r => [0x43, nibbles r 0]
  | .shift o rd (.reg rs) => [BitVec.ofNat 8 (shCode o), nibbles rd rs]
  | .shift o rd (.imm k) => [BitVec.ofNat 8 (shCode o + 1), nibbles rd 0, k]
  | .mul a b => [0x50, nibbles a b]
  | .mac a b => [0x51, nibbles a b]
  | .msu a b => [0x52, nibbles a b]
  | .acldR r => [0x53, nibbles r 0]
  | .acstR false r => [0x54, nibbles r 0]
  | .acstR true r => [0x55, nibbles r 0]
  | .ld r ea => eaBytes 0x60 r long ea
  | .st r ea => eaBytes 0x68 r long ea
  | .ldp r ea => eaBytes 0x70 r long ea
  | .stp r ea => eaBytes 0x78 r long ea
  | .acldM ea => eaBytes 0x80 0 long ea
  | .acstM false ea => eaBytes 0x88 0 long ea
  | .acstM true ea => eaBytes 0x90 0 long ea
  | .setm v => [0x00, v]
  | .setbk b => src8Bytes 0x01 0x02 b
  | .stop n => src8Bytes 0x03 0x04 n
  | .eret => [0x05]
  | .ldsg n ea => eaBytes 0x08 n long ea
  | .tcfg n rp => [0x00, nibbles rp n]
  | .tldr n => [0x01, nibbles 0 n]
  | .tstr n => [0x02, nibbles 0 n]
  | .tmap rd n rx ry => [0x03, nibbles rd n, nibbles rx ry]
  | .tmac n m => [0x04, nibbles m n]
  | .trel n => [0x05, nibbles 0 n]
  | .user _ o bs => o :: bs

/-- The bytes of an instruction: prefixes, page prefix, opcode and operands (R350). -/
def encodeInstr (pre : List Prefix) (op : Op) : List Byte :=
  pre.flatMap prefixBytes ++ (if pageOf op = 0 then [] else [BitVec.ofNat 8 (0xF7 + pageOf op)])
    ++ opBytes (hasLong pre) op

/-! ### Formats (R361, R362) -/

/-- The operand formats of R361, with the mixed ones of R376, R380 and R382. -/
inductive Fmt where
  | none_ | rr | r | ri | rn | rc | i8 | i16 | b | callm | loopR | loopI | m0 | md | ms | t | tcfg | tmap | tmac
deriving DecidableEq, Repr

/-- The format of a memory opcode by its low three bits. -/
def memFmt (m : Nat) : Option Fmt :=
  if m < 3 then some .m0 else if m = 3 then some .md else if m = 4 then some .ms else none

/-- The format of an opcode of page 0 (R367, R369-R378); none where it is undefined. -/
def fmt0 (o : Nat) : Option Fmt :=
  if o < 4 then some .none_
  else if o = 0x04 then some .i8
  else if o = 0x05 then some .b
  else if o = 0x06 then some .callm
  else if o = 0x07 then none
  else if o = 0x08 then some .loopR
  else if o = 0x09 then some .loopI
  else if o = 0x0A then some .i16
  else if o = 0x0C ∨ o = 0x0E ∨ o = 0x20 then some .i8
  else if o < 0x10 ∨ o = 0x21 then some .r
  else if o < 0x20 then some .b
  else if o < 0x28 then none
  else if o = 0x28 then some .rr
  else if o = 0x29 then some .ri
  else if o < 0x2C then some .rc
  else if o < 0x2E then some .r
  else if o < 0x30 then none
  else if o < 0x42 then some (if o % 2 = 0 then .rr else .ri)
  else if o < 0x44 then some .r
  else if o < 0x4C then some (if o % 2 = 0 then .rr else .rn)
  else if o < 0x50 then none
  else if o < 0x53 then some .rr
  else if o < 0x56 then some .r
  else if o < 0x60 then none
  else if o < 0x98 then memFmt (o % 8)
  else none

/-- The format of an opcode of page 1 or 2 (R368, R380, R382). -/
def fmtOf (page o : Nat) : Option Fmt :=
  match page with
  | 0 => fmt0 o
  | 1 =>
    match o with
    | 0 => some .tcfg
    | 3 => some .tmap
    | 4 => some .tmac
    | 1 => some .t
    | 2 => some .t
    | 5 => some .t
    | _ => none
  | _ =>
    match o with
    | 0 => some .i8
    | 1 => some .i8
    | 3 => some .i8
    | 2 => some .r
    | 4 => some .r
    | 5 => some .none_
    | _ => if 8 ≤ o ∧ o < 16 then memFmt (o % 8) else none

/-- The operand bytes of a format; LONG widens immediates, displacements and loop ends. -/
def fmtLen (long : Bool) : Fmt → Nat
  | .none_ => 0
  | .rr => 1
  | .r => 1
  | .ri => 2 + long.toNat
  | .rn => 2
  | .rc => 2
  | .i8 => 1
  | .i16 => 2
  | .b => 1 + long.toNat
  | .callm => 2 + long.toNat
  | .loopR => 2 + long.toNat
  | .loopI => 3 + long.toNat
  | .m0 => 1
  | .md => 2 + long.toNat
  | .ms => 2
  | .t => 1
  | .tcfg => 1
  | .tmap => 2
  | .tmac => 1

/-! ### Prefixes accepted (R357) -/

/-- A memory opcode of page 0. -/
def isMem (page o : Nat) : Bool := page == 0 && 0x60 ≤ o && o < 0x98

/-- Whether the instruction accepts a prefix; IFT and IFF always. -/
def accepts (page o : Nat) : Prefix → Bool
  | .ift _ => true
  | .iff _ => true
  | .long =>
    (page == 0 && (o == 5 || o == 6 || o == 8 || o == 9 || (0x10 ≤ o && o < 0x20) || o == 0x29
      || (0x30 ≤ o && o < 0x42 && o % 2 == 1) || (isMem page o && o % 8 == 3)))
      || (page == 2 && o == 0x0B)
  | .pair => page == 0 && ((0x28 ≤ o && o < 0x4C) || o == 0x54 || o == 0x55 || (0x88 ≤ o && o < 0x98))
  | .sat =>
    (page == 0 && ((0x30 ≤ o && o < 0x38) || o == 0x43 || o == 0x44 || o == 0x45 || o == 0x51 || o == 0x52
      || o == 0x54 || o == 0x55 || (0x88 ≤ o && o < 0x98))) || (page == 1 && o == 4)
  | .ac1 => (page == 0 && ((0x50 ≤ o && o < 0x56) || (0x80 ≤ o && o < 0x98))) || (page == 1 && o == 4)
  | .far _ => isMem page o || (page == 2 && 8 ≤ o)
  | .sealed _ => page == 0 && (o == 0x2C || o == 0x2D || isMem page o)

/-! ### Operand bytes (R353 step 5) -/

/-- The first failing check, as its ECAUSE detail. -/
def firstFail : List (Bool × Nat) → Option Nat
  | [] => none
  | (true, d) :: _ => some d
  | (false, _) :: t => firstFail t

/-- The control registers that a MOV with PAIR may name (R371). -/
def crPairOk (c : Nat) : Bool := c == 1 || (6 ≤ c && c < 12) || c == 15 || c == 18

/-- The operand in b1[7:4] must be a pair (R274, R359, R375). -/
def pairHigh (pair : Bool) (page o : Nat) : Bool :=
  if page = 0 then
    (pair && ((0x28 ≤ o && o < 0x4C) || o == 0x54)) || o == 0x53 || (0x70 ≤ o && o < 0x80)
  else page == 1 && o == 0

/-- The largest value of a one-byte operand (R254, R379, R381). -/
def i8Max (page o : Nat) : Nat :=
  if page = 0 then (if o = 0x0E ∨ o = 0x20 then 31 else 255)
  else if o = 0 then 1 else if o = 3 then 7 else 255

/-- The checks of the operand bytes, in byte order. -/
def operandFail (pair : Bool) (page o : Nat) (f : Fmt) (bs : List Byte) : Option Nat :=
  let b1 := (bs.getD 0 0xFF).toNat
  let b2 := (bs.getD 1 0xFF).toNat
  let oddHi := pairHigh pair page o && b1 / 16 % 2 == 1
  let resR := b1 % 16 != 0
  let acm := page == 0 && 0x80 ≤ o
  let ldsgHi := page == 2 && 7 < b1 / 16
  let accR := pair && page == 0 && (o == 0x55 || 0x90 ≤ o)
  firstFail (match f with
    | .none_ => []
    | .rr => [(oddHi, 6), (pair && b1 % 2 == 1, 6)]
    | .r => [(resR, 0), (oddHi, 6), (accR, 6)]
    | .ri => [(resR, 0), (oddHi, 6)]
    | .rn => [(resR, 0), (oddHi, 6), (decide ((if pair then 31 else 15) < b2), 6)]
    | .rc => [(resR, 0), (oddHi, 6), (decide (31 < b2), 0), (decide (19 < b2), 10), (pair && !crPairOk b2, 6)]
    | .i8 =>
      if page = 0 ∧ o = 0x0C then [(decide (7 < b1 / 16), 6), (decide (7 < b1 % 16), 6)]
      else [(decide (i8Max page o < b1), 6)]
    | .i16 => []
    | .b => []
    | .callm => []
    | .loopR => [(resR, 0)]
    | .loopI => []
    | .m0 => [(acm && 15 < b1, 0), (b1 / 8 % 2 == 1, 0), (oddHi, 6), (ldsgHi, 6), (accR, 6)]
    | .md => [(acm && 15 < b1, 0), (b1 / 8 % 2 == 1, 0), (oddHi, 6), (ldsgHi, 6), (accR, 6)]
    | .ms => [(acm && 15 < b1, 0), (oddHi, 6), (ldsgHi, 6), (accR, 6)]
    | .t => [(decide (7 < b1), 0)]
    | .tcfg => [(b1 / 8 % 2 == 1, 0), (oddHi, 6)]
    | .tmap => [(b1 / 8 % 2 == 1, 0)]
    | .tmac => [(decide (127 < b1) || b1 / 8 % 2 == 1, 0)])

/-! ### User dispatch entries (R422-R424) -/

/-- A dispatch entry that is not empty: operand bytes, accepted prefixes, first microword. -/
structure UserEntry where
  nopb : Nat
  pfx : Nat
  target : BitVec 12
deriving DecidableEq, Repr

/-- The entry of an opcode in its dispatch word, or none where it is empty (R422, R423). -/
def userEntry (w : Sys2Proof.Micro) (o : Nat) : Option UserEntry :=
  let e := fld w (28 * (o % 4)) 28
  let nopb := e / 2 ^ 24 % 8
  let pfx := e / 2 ^ 18 % 64
  let target := e % 4096
  if e / 2 ^ 27 = 0 ∨ 4 < nopb ∨ target < 0x800 ∨ 0xF80 ≤ target ∨ (32 ≤ pfx ∧ nopb = 0) then none
  else some { nopb := nopb, pfx := pfx, target := BitVec.ofNat 12 target }

/-- PFX accepts a prefix (R422). -/
def entryAccepts (e : UserEntry) : Prefix → Bool
  | .ift _ => true
  | .iff _ => true
  | .long => e.pfx.testBit 5
  | .pair => e.pfx.testBit 4
  | .sat => e.pfx.testBit 3
  | .ac1 => e.pfx.testBit 2
  | .far _ => e.pfx.testBit 1
  | .sealed _ => e.pfx.testBit 0

/-! ### Decoding (R353) -/

/-- The prefixes, in byte order: the prefixes found, the page and the opcode with what follows it, or the detail of the
first failure. `direct` tells the discipline the instruction runs under (R292). -/
def scanPrefixes (direct : Bool) : Nat → List Prefix → List Byte → Nat ⊕ (List Prefix × Nat × List Byte)
  | _, _, [] => .inl 0
  | 0, _, _ => .inl 1
  | fuel + 1, acc, b :: rest =>
    if 0xFC ≤ b then .inl 0
    else if b < 0xF0 then .inr (acc, 0, b :: rest)
    else if acc.length = 3 then .inl 1
    else if 0xF8 ≤ b then
      (match rest with
      | [] => .inl 0
      | o :: _ => if 0xFC ≤ o then .inl 0 else .inr (acc, b.toNat - 0xF7, rest))
    else if acc.any (fun p => prefixCode p == b || ((b == 0xF2 || b == 0xF3) && (prefixCode p == 0xF2 || prefixCode p == 0xF3)))
    then .inl 1
    else
      let a := rest.getD 0 0xFF
      if b = 0xF2 then (if 15 < a then .inl 1 else scanPrefixes direct fuel (acc ++ [.ift a]) rest.tail)
      else if b = 0xF3 then (if 15 < a then .inl 1 else scanPrefixes direct fuel (acc ++ [.iff a]) rest.tail)
      else if b = 0xF4 then (if !direct && 7 < a then .inl 1 else scanPrefixes direct fuel (acc ++ [.far a]) rest.tail)
      else if b = 0xF7 then (if 31 < a then .inl 1 else scanPrefixes direct fuel (acc ++ [.sealed a]) rest.tail)
      else scanPrefixes direct fuel (acc ++ [if b = 0xF0 then .long else if b = 0xF1 then .pair else if b = 0xF5 then .sat else .ac1]) rest

/-- A decoded instruction: its prefixes, page, opcode, operand bytes, length, and the routine of a user instruction. -/
structure Decoded where
  pre : List Prefix
  page : Nat
  opcode : Byte
  opnds : List Byte
  len : Nat
  target : BitVec 12 := 0
deriving DecidableEq, Repr

/-- The bytes of prefixes, page prefix and opcode. -/
def headLen (pre : List Prefix) (page : Nat) : Nat :=
  (pre.flatMap prefixBytes).length + (if page = 0 then 0 else 1) + 1

/-- The decoding of the bytes at a C: address: the instruction, or the detail of ILLEGAL (R353). `disp` gives the dispatch
word of a user page's opcode. -/
def decodeInstr (direct : Bool) (disp : Nat → Nat → Sys2Proof.Micro) (pc : Nat) (bytes : List Byte) : Nat ⊕ Decoded :=
  match scanPrefixes direct 5 [] bytes with
  | .inl d => .inl d
  | .inr (pre, page, rest) =>
    let o := (rest.getD 0 0xFF).toNat
    let ent := userEntry (disp page o) o
    let fmt := fmtOf page o
    if 3 ≤ page ∧ ent.isNone then .inl 7
    else if page < 3 ∧ fmt.isNone then .inl 0
    else
      let e := ent.getD { nopb := 0, pfx := 0, target := 0 }
      let f := fmt.getD .none_
      let ok (p : Prefix) : Bool := if 3 ≤ page then entryAccepts e p else accepts page o p
      let n := if 3 ≤ page then e.nopb + (hasLong pre).toNat else fmtLen (hasLong pre) f
      let len := headLen pre page + n
      let bs := (List.range n).map (fun i => rest.getD (i + 1) 0xFF)
      let bad := if 3 ≤ page then
          (let b1 := (bs.getD 0 0).toNat
           if hasPair pre && (b1 % 2 == 1 || b1 / 16 % 2 == 1) then some 6 else none)
        else operandFail (hasPair pre) page o f bs
      if !pre.all ok then .inl 1
      else if 8 < len then .inl 1
      else if 0x20000 < pc + len then .inl 0
      else
        match bad with
        | some d => .inl d
        | none => .inr { pre := pre, page := page, opcode := rest.getD 0 0xFF, opnds := bs, len := len, target := e.target }

end Sys2Proof.Machine
end

