-- ==== Sys2Proof/Machine/Operands.lean ====
section
/-!
DEFINITION. Registers, control registers and operands of macro instructions: pairs, immediates, effective addresses, and the
loads and stores of a thread (spec/07_programming_model.md, R274-R278, R287, R291-R299, R335; spec/11, R503-R506).
-/

namespace Sys2Proof.Machine

/-! ### Registers (R274, R299, R300) -/

/-- The code of the low and of the high word of a pair. -/
def pairLo (r : Fin 16) : Fin 16 := ⟨r.val / 2 * 2, by omega⟩
def pairHi (r : Fin 16) : Fin 16 := ⟨r.val / 2 * 2 + 1, by omega⟩

def getR (h : Thread) (r : Fin 16) : Word := h.r[r]
def getPair (h : Thread) (r : Fin 16) : Pair := mkPair h.r[pairLo r] h.r[pairHi r]

/-- A register written by the present instruction; a load that would write it next is discarded (R300). -/
def putR (r : Fin 16) (v : Word) (h : Thread) : Thread :=
  { h with r := h.r.set r v, load := h.load.filter (fun e => e.1 != r) }

def putPair (r : Fin 16) (v : Pair) (h : Thread) : Thread :=
  putR (pairHi r) (highWord v) (putR (pairLo r) (lowWord v) h)

/-- Address register n (R274). -/
def aReg (n : Fin 8) : Fin 16 := ⟨8 + n.val, by omega⟩

/-- A value of a thread's registers changed. -/
def setPsw (v : Word) (h : Thread) : Thread := { h with psw := v }

/-- An immediate: 8 bits sign-extended, or 16 with LONG. -/
def immWord (long : Bool) (v : Word) : Word := if long then v else (loByte v).signExtend 16
def immPair (long : Bool) (v : Word) : Pair := (immWord long v).signExtend 32

/-- The source operand of a word or of a pair instruction (R372). -/
def srcOp (h : Thread) (long : Bool) : Src → Word
  | .reg r => getR h r
  | .imm v => immWord long v
def srcOpPair (h : Thread) (long : Bool) : Src → Pair
  | .reg r => getPair h r
  | .imm v => immPair long v

/-- A one-byte operand: the byte, or the register. -/
def src8Word (h : Thread) : Src8 → Word
  | .reg r => getR h r
  | .imm v => v.setWidth 16

/-! ### Control registers (R275, R276, R287, R335) -/

/-- The value of control register `c` of thread `t`, in 32 bits. -/
def crRead (h : Thread) (t : Fin 8) (c : Nat) : Pair :=
  if c = 0 then (h.psw &&& 0x0FFF).setWidth 32
  else if c = 1 then h.lr.setWidth 32
  else if c = 2 then h.bk.setWidth 32
  else if c = 3 then h.vbase.setWidth 32
  else if c = 4 then h.ctxid.setWidth 32
  else if c = 5 then BitVec.ofNat 32 t.val
  else if hc : 6 ≤ c ∧ c < 9 then (h.ls[c - 6]'(by omega)).setWidth 32
  else if hc : 9 ≤ c ∧ c < 12 then (h.le[c - 9]'(by omega)).setWidth 32
  else if hc : 12 ≤ c ∧ c < 15 then (h.lc[c - 12]'(by omega)).setWidth 32
  else if c = 15 then h.epc.setWidth 32
  else if c = 16 then (putBit h.epsw pSYS (h.psw.getLsbD pSYS) &&& 0x0FFF).setWidth 32
  else if c = 17 then h.ecause.setWidth 32
  else if c = 18 then h.eaddr.setWidth 32
  else h.estat.setWidth 32

/-- A MOV to the PSW (R287): C, V, Z, N, S and IE, and LDEP where it falls. -/
def pswWrite (v : Word) (h : Thread) : Thread :=
  let p := (h.psw &&& ~~~0x041F) ||| (v &&& 0x041F)
  let d := fld v 8 2
  setPsw (if d < ldep h then putFld p 8 2 d else p) h

/-- Control register `c` written (R275, R276). -/
def crWrite (c : Nat) (v : Pair) (h : Thread) : Thread :=
  let w := lowWord v
  let a : BitVec 17 := v.setWidth 17
  if c = 0 then pswWrite w h
  else if c = 1 then { h with lr := a }
  else if c = 2 then { h with bk := w.setWidth 8 }
  else if c = 3 then { h with vbase := w &&& 0x3FF }
  else if c = 4 then { h with ctxid := w.setWidth 8 }
  else if c = 5 then h
  else if hc : 6 ≤ c ∧ c < 9 then { h with ls := h.ls.set (c - 6) a (by omega) }
  else if hc : 9 ≤ c ∧ c < 12 then { h with le := h.le.set (c - 9) a (by omega) }
  else if hc : 12 ≤ c ∧ c < 15 then { h with lc := h.lc.set (c - 12) w (by omega) }
  else if c = 15 then { h with epc := a }
  else if c = 16 then { h with epsw := putBit (w &&& 0x0FFF) pSYS (h.psw.getLsbD pSYS) }
  else if c = 17 then { h with ecause := w }
  else if c = 18 then { h with eaddr := v.setWidth 20 }
  else { h with estat := w &&& 0xF800 }

/-! ### Effective addresses (R291-R296, R317) -/

/-- An exception an access raises: its number, detail and EADDR. -/
structure Exc where
  num : Nat
  det : Nat
  ea : Option (BitVec 20) := none
deriving DecidableEq, Repr

/-- An access a thread may make: its address, its length in words, and the segment, write and pair bits of a SEGMENT detail. -/
structure Access where
  ea : Nat
  w : Nat
  det : Nat
deriving DecidableEq, Repr

def directDisc (h : Thread) : Bool := h.psw.getLsbD pDISC

/-- ALIGN of an odd pair (R294). -/
def alignFail (ea w : Nat) (wr : Bool) : Option Exc :=
  if w = 2 ∧ ea % 2 = 1 then some { num := 4, det := wr.toNat * 8, ea := some (BitVec.ofNat 20 ea) } else none

/-- An access checked for alignment. -/
def aligned (a : Access) (wr : Bool) : Exc ⊕ Access :=
  match alignFail a.ea a.w wr with
  | some e => .inl e
  | none => .inr a

/-- The reason a segment refuses, as bits 5-4 of the detail (R291). -/
def segFail (g : Seg) (off : Int) (w : Nat) (wr : Bool) : Option Nat :=
  if !g.en then some 0
  else if off < 0 ∨ (g.limit.toNat : Int) < off + w - 1 then some 1
  else if wr && !g.wr then some 2
  else none

/-- An access of `w` words at offset `off` of segment `n` under guarded discipline; FAR replaces the segment (R291, R292). -/
def guardedEa (h : Thread) (far : Option Byte) (n : Fin 8) (off : Int) (w : Nat) (wr : Bool) : Exc ⊕ Access :=
  let k : Fin 8 := match far with
    | some b => thrIdx (fld b 0 3)
    | none => n
  let g := h.sg[k]
  let ea := (((g.base.toNat : Int) + off) % 0x100000).toNat
  let det := k.val + wr.toNat * 8 + (decide (w = 2)).toNat * 64
  match alignFail ea w wr with
  | some e => .inl e
  | none =>
    match segFail g off w wr with
    | some r => .inl { num := 3, det := det + r * 16, ea := some (BitVec.ofNat 20 ea) }
    | none => .inr { ea := ea, w := w, det := det }

/-- An access at an offset from An: guarded by SGn, or in bank BK[7:4] (R291, R293, R317). -/
def regEa (h : Thread) (far : Option Byte) (n : Fin 8) (off : Int) (w : Nat) (wr : Bool) : Exc ⊕ Access :=
  if directDisc h then
    let b := far.getD h.bk
    aligned { ea := b.toNat / 16 * 0x10000 + (off % 0x10000).toNat, w := w
              det := n.val + wr.toNat * 8 + (decide (w = 2)).toNat * 64 } wr
  else guardedEa h far n off w wr

/-- An access at a short absolute address (R291, R293). -/
def shortEa (h : Thread) (far : Option Byte) (a : BitVec 12) (w : Nat) (wr : Bool) : Exc ⊕ Access :=
  if directDisc h then
    let b := far.getD h.bk
    aligned { ea := b.toNat * 0x1000 + a.toNat, w := w, det := wr.toNat * 8 + (decide (w = 2)).toNat * 64 } wr
  else guardedEa h far 0 a.toNat w wr

/-- The value of An as an offset. -/
def aOff (h : Thread) (n : Fin 8) : Int := (getR h (aReg n)).toNat

/-- The access of a memory operand (R362). -/
def eaAccess (h : Thread) (far : Option Byte) (long : Bool) (e : Ea) (w : Nat) (wr : Bool) : Exc ⊕ Access :=
  match e with
  | .ind n => regEa h far n (aOff h n) w wr
  | .postInc n => regEa h far n (aOff h n) w wr
  | .preDec n => regEa h far n (aOff h n - w) w wr
  | .disp n d => regEa h far n (aOff h n + sgn (immWord long d)) w wr
  | .short a => shortEa h far a w wr

/-- The step of An after an access that succeeded (R296), but for a register the instruction loads (R337). -/
def eaStep (e : Ea) (w : Nat) (dest : List (Fin 16)) (h : Thread) : Thread :=
  match e with
  | .postInc n => if dest.contains (aReg n) then h else putR (aReg n) (getR h (aReg n) + wd w) h
  | .preDec n => if dest.contains (aReg n) then h else putR (aReg n) (getR h (aReg n) - wd w) h
  | _ => h

/-! ### Loads and stores of a thread -/

/-- An access the sequencer made for a thread, as a data comparator sees it (R1025). -/
structure Seen where
  ea : Nat
  wr : Bool
  ws : List Word
deriving DecidableEq, Repr

/-- What a load or a store answers: done, an exception, or held by the store buffer. -/
inductive Mem1 where
  | ok (v : Pair) (s : State)
  | exc (e : Exc) (s : State)
  | hold (counts : Bool)

/-- SEGMENT with reason REGION (R295). -/
def regionExc (a : Access) : Exc := { num := 3, det := a.det + 0x30, ea := some (BitVec.ofNat 20 a.ea) }

/-- PARITY: the bank of the first bad word (R488). -/
def parityExc (s : State) (a : Access) : Exc :=
  let bad := ((List.range a.w).find? (fun i => parityBad s (a.ea + i))).getD 0
  { num := 10, det := (a.ea + bad) / 0x4000, ea := some (BitVec.ofNat 20 a.ea) }

def pairOf (ws : List Word) : Pair := mkPair (ws.getD 0 0) (ws.getD 1 0)

/-- A load by thread `t` at a checked address (R295, R505, R506). -/
def load1 (t : Fin 8) (sealed_ : Bool) (a : Access) (s : State) : Mem1 :=
  match refusal s (.thread t) a.ea a.w false with
  | some why => .exc (regionExc a) (recordViol (.thread t) a.ea false why s)
  | none =>
    match sbAsk s t a.ea a.w sealed_ with
    | .hold c => .hold c
    | .forward v => .ok v s
    | .memory =>
      match readUnchecked (.thread t) true a.ea a.w s with
      | (.ok ws, s') => .ok (pairOf ws) s'
      | (_, s') => .exc (parityExc s a) s'

/-- The whole buffer drains, one entry per CLK period (R356, R504). -/
def drainAll (s : State) : State := elapse (s.mem.sbuf.length * clkTicks s) (sbDrains s.mem.sbuf.length s)

/-- A store by thread `t` at a checked address; it holds while the buffer is full, and with SEALED it reaches its place
at once (R356, R503, R504). -/
def store1 (t : Fin 8) (sealed_ : Bool) (a : Access) (v : Pair) (s : State) : Mem1 :=
  match refusal s (.thread t) a.ea a.w true with
  | some why => .exc (regionExc a) (recordViol (.thread t) a.ea true why s)
  | none =>
    if sbFull s && !sealed_ then .hold false
    else
      let s := sbPush t a.ea a.w v s
      .ok v (if sealed_ then drainAll s else s)

/-- A load that waits in the step itself: entries drain until the buffer no longer holds it. -/
def loadWait (t : Fin 8) (sealed_ : Bool) (a : Access) : Nat → State → Mem1
  | 0, s => load1 t sealed_ a s
  | n + 1, s =>
    match load1 t sealed_ a s with
    | .hold c =>
      let s := elapse (clkTicks s) (sbDrain s)
      loadWait t sealed_ a n (if c then hwCount Reg.memc_SBHOLD s else s)
    | r => r

/-- A store that waits in the step itself for room. -/
def storeWait (t : Fin 8) (a : Access) (v : Pair) (s : State) : Mem1 :=
  match store1 t false a v s with
  | .hold _ => store1 t false a v (elapse (clkTicks s) (sbDrain s))
  | r => r

end Sys2Proof.Machine
end

