-- ==== Sys2Proof/Machine/Comp.lean ====
section
/-!
DEFINITION. Halts of threads and the comparators (spec/22_chisel_debug_trace.md, R1013-R1020, R1024-R1029).
-/

namespace Sys2Proof.Machine

/-! ### Halts (R1013, R1014, R1020) -/

/-- Thread `t` becomes HALTED: its state is kept and its timer stands still (R1014). -/
def haltThread (t : Fin 8) (c : HaltCause) (s : State) : State :=
  let h := thread s t
  let s := if h.inTile then tileLeave t s else s
  let s := setThread t (fun h => { h with
    st := .halted, kept := h.st, haltedBy := c, haltReq := none, stepping := false
    tmr := none, tmrLeft := h.tmr.map (fun d => d - s.now) }) s
  crossHalt t c (traceHalt t c.cause h.pc.toNat s)

/-! ### Comparators (R1024-R1028) -/

/-- The fields of comparator `c`. -/
def cmpReg (s : State) (c o : Nat) : Word := xreg s (X.cmp c o)
def cmpLo (s : State) (c : Nat) : Nat := (cmpReg s c 2).toNat + fld (cmpReg s c 3) 0 4 * 65536
def cmpHi (s : State) (c : Nat) : Nat := (cmpReg s c 4).toNat + fld (cmpReg s c 5) 0 4 * 65536
def cmpType (s : State) (c : Nat) : Nat := fld (cmpReg s c 0) 13 2
def cmpAct (s : State) (c : Nat) : Nat := fld (cmpReg s c 0) 6 2
def cmpCond (s : State) (c : Nat) : Nat := fld (cmpReg s c 0) 11 2

/-- EN, TMASK and CTXID let comparator `c` match for thread `t` (R1026). -/
def cmpFor (s : State) (t : Fin 8) (c : Nat) : Bool :=
  let l := cmpReg s c 0
  let sel := cmpReg s c 1
  l.getLsbD 15 && sel.getLsbD (8 + t.val) && (!l.getLsbD 9 || fld sel 0 8 == (thread s t).ctxid.toNat)

/-- The address at which execution comparator `c` sees the instruction at `pc`. -/
def execHit (s : State) (t : Fin 8) (pc : Nat) (c : Nat) : Option Nat :=
  if cmpFor s t c && cmpType s c == 0 && cmpLo s c ≤ pc && pc ≤ cmpHi s c then some pc else none

/-- The address at which data comparator `c` sees one of the accesses (R1025). -/
def dataHit (s : State) (t : Fin 8) (acc : List Seen) (c : Nat) : Option Nat :=
  let l := cmpReg s c 0
  let kind (wr : Bool) : Bool := if wr then 2 ≤ cmpType s c else cmpType s c == 1 || cmpType s c == 3
  let valueOk (w : Word) : Bool := !l.getLsbD 10 || ((w ^^^ cmpReg s c 6) &&& cmpReg s c 7) == 0
  if !cmpFor s t c then none
  else acc.findSome? (fun x => if kind x.wr then
    (x.ws.zipIdx.find? (fun p => cmpLo s c ≤ (x.ea + p.2) % 0x100000 && (x.ea + p.2) % 0x100000 ≤ cmpHi s c && valueOk p.1)).map
      (fun p => (x.ea + p.2) % 0x100000) else none)

/-- The comparators that match, in order, with their addresses: COND applied to what each one sees (R1026). -/
def matchSet (s : State) (t : Fin 8) (hit : Nat → Option Nat) : List (Nat × Nat) :=
  (List.range 8).foldl (fun ms c =>
    match hit c with
    | none => ms
    | some a =>
      let before := ms.any (fun m => m.1 + 1 == c)
      let ok := c == 0 || (match cmpCond s c with
        | 1 => (thread s t).seqArm.getLsbD c
        | 2 => before
        | _ => true)
      if ok then ms ++ [(c, a)] else ms) []

/-- A match counts, is traced, and arms the next comparator's sequence (R1026, R1027). -/
def countMatch (t : Fin 8) (m : Nat × Nat) (s : State) : State :=
  let s := setXreg (X.cmp m.1 8) (wd (satAdd 0xFFFF (cmpReg s m.1 8).toNat 1)) s
  let s := setThread t (fun h => { h with seqArm := putBit (putBit h.seqArm m.1 false) (m.1 + 1) true }) s
  if (cmpReg s m.1 0).getLsbD 8 then traceComp m.1 t m.2 s else s

/-- The strongest action of the matches, and the lowest comparator that has it. -/
def strongest (s : State) (ms : List (Nat × Nat)) : Nat × Nat :=
  ms.foldl (fun b m => if b.1 < cmpAct s m.1 then (cmpAct s m.1, m.1) else b) (0, 0)

/-- The halts of action 10b and 11b. -/
def compHalt (t : Fin 8) (act_ c : Nat) (s : State) : State :=
  let why : HaltCause := { cause := causeComp, cmp := c }
  if act_ = 2 then requestHalt why t s
  else if act_ = 3 then (List.finRange 8).foldl (fun s u => requestHalt why u s) s
  else s

/-- The execution comparators act as an instruction begins: the state, and the comparator that raises BREAK (R1028, R1029). -/
def execCompare (t : Fin 8) (s : State) : Option Nat × State :=
  let h := thread s t
  if h.unmatched then (none, s)
  else
    let ms := matchSet s t (execHit s t h.pc.toNat)
    let b := strongest s ms
    let s := compHalt t b.1 b.2 (ms.foldl (fun s m => countMatch t m s) s)
    (if b.1 = 1 ∧ !inException h then some b.2 else none, s)

/-- The data comparators act on an instruction's accesses; a BREAK waits for the boundary (R1028). -/
def dataCompare (t : Fin 8) (pc : Nat) (acc : List Seen) (s : State) : State :=
  let pre := matchSet s t (execHit s t pc)
  let all := matchSet s t (fun c => (execHit s t pc c).orElse (fun _ => dataHit s t acc c))
  let ms := all.filter (fun m => !pre.any (fun p => p.1 == m.1))
  let b := strongest s ms
  let s := compHalt t b.1 b.2 (ms.foldl (fun s m => countMatch t m s) s)
  let halting := ((thread s t).haltReq.map (·.cause)) == some causeComp
  if b.1 = 1 ∧ !halting then setThread t (fun h => { h with breakDue := some (h.breakDue.getD b.2) }) s else s

end Sys2Proof.Machine
end

