-- ==== Sys2Proof/Machine/Cpu.lean ====
section
/-!
DEFINITION. The flow of a thread's instructions: what an instruction's body leaves, its completion, delay slots, spans,
shadows, loop ends and boundaries (spec/07_programming_model.md, R299-R349; spec/08, R354-R356, R366, R376; spec/22,
R1016, R1028). The bodies stand in Bodies.lean.
-/

namespace Sys2Proof.Machine

/-! ### Bodies and their outcomes -/

/-- What a body that completes leaves: the state, the accesses it made, the loads it starts (R299), what acts after its
delay slot (R302), the address it transfers to, whether it set the shadow itself (SETM, ERET), whether it opens a span
without a load or a slot (SETM, R326), and the detail of a TRAP. -/
structure Done where
  s : State
  acc : List Seen := []
  loads : List (Fin 16 × Word) := []
  flow : Option Cont := none
  jump : Option (BitVec 17) := none
  keepShadow : Bool := false
  opens : Bool := false
  trap : Option Nat := none

/-- The outcome of a body: completion, a synchronous exception, a hold by the store buffer, or a thread that goes on with
no completion (it waits, halts, or has asked the Tile Unit). -/
inductive Res where
  | done (d : Done)
  | exc (e : Exc) (s : State)
  | hold (counts : Bool)
  | block (s : State)

/-! ### What may stand where (R304, R310, R320, R354) -/

/-- BR, BSR, RTS, CALLM and RETM (R302). -/
def isFlow : Op → Bool
  | .br _ _ => true
  | .bsr _ => true
  | .rts => true
  | .callm _ _ => true
  | .retm => true
  | _ => false

def isTileOp : Op → Bool
  | .tcfg _ _ => true
  | .tldr _ => true
  | .tstr _ => true
  | .tmap _ _ _ _ => true
  | .tmac _ _ => true
  | .trel _ => true
  | _ => false

def isLoop : Op → Bool
  | .loop _ _ => true
  | _ => false

def isSetm : Op → Bool
  | .setm _ => true
  | _ => false

/-- The instructions that raise ILLEGAL in a delay slot (R304). -/
def noSlot (op : Op) : Bool :=
  isFlow op || isLoop op || isSetm op || isTileOp op || (match op with
    | .trap _ => true
    | .eret => true
    | .stop _ => true
    | .wait _ => true
    | .seal _ => true
    | _ => false)

/-- The successor `next` is the end of the innermost active loop (R309). -/
def atLoopEnd (h : Thread) (next : BitVec 17) : Bool :=
  if hd : 0 < ldep h ∧ ldep h ≤ 3 then h.le[ldep h - 1]'(by omega) == next else false

/-- The detail of a placement failure, made whether or not a guard passes (R304, R310, R320, R354). -/
def placementFail (h : Thread) (next : BitVec 17) (op : Op) : Option Nat :=
  if h.slot.isSome && noSlot op then some 2
  else if h.shadow.isSome && isSetm op then some 3
  else if atLoopEnd h next && (isFlow op || h.slot.isSome || isLoop op) then some 5
  else none

/-- A condition code holds, or for IFF does not (R355). -/
def guardPasses (psw : Word) (pre : List Prefix) : Bool :=
  match guardOf pre with
  | none => true
  | some (c, want) => condHolds psw c == want

/-! ### Cost (R366) -/

/-- The microwords of an instruction without a guard, FAR or SEALED; those of CALLM and RETM before their slot. -/
def baseCost (pair : Bool) : Op → Nat
  | .nop => 1
  | .brk => 1
  | .loop _ _ => 3
  | .seal _ => 3
  | .movRR _ _ => 1 + pair.toNat
  | .movRI _ _ => 1 + pair.toNat
  | .movRC _ _ => 2 + pair.toNat
  | .movCR _ _ => 2 + pair.toNat
  | .alu _ _ _ => 1 + pair.toNat
  | .not _ => 1 + pair.toNat
  | .neg _ => 1 + pair.toNat
  | .shift _ _ _ => 1 + pair.toNat
  | .acldR _ => 1
  | .acstR round _ => 1 + round.toNat
  | .acstM round _ => 2 + round.toNat
  | .setbk _ => 1
  | .eret => 3
  | .ldsg _ _ => 4
  | .tcfg _ _ => 4
  | .tmap _ _ _ _ => 4
  | .tmac _ _ => 3
  | _ => 2

/-- The microwords that a guard, FAR and SEALED add. -/
def prefixCost (pre : List Prefix) : Nat :=
  (guardOf pre).isSome.toNat + (farOf pre).isSome.toNat + (sealedOf pre).isSome.toNat

def costOf (pre : List Prefix) (op : Op) : Nat := baseCost (hasPair pre) op + prefixCost pre

/-! ### Exceptions -/

/-- A synchronous exception of the present instruction. -/
def raiseExc (t : Fin 8) (e : Exc) (s : State) : State := syncExc t e.num e.det e.ea s

/-- A synchronous exception of a call or return after its slot: EPC is the call or return, with no slot (R306, R315,
R316). -/
def contExc (t : Fin 8) (pc : BitVec 17) (e : Exc) (s : State) : State :=
  if inException (thread s t) then doubleExc t e.num s else enterExc t e.num e.det e.ea pc false s

/-- An asynchronous exception at the present point (R323, R345). -/
def asyncExc (t : Fin 8) (num : Nat) (s : State) : State :=
  let p := excPoint (thread s t)
  enterExc t num 0 none p.1 p.2 s

/-! ### Loop ends (R309, R312, R343) -/

/-- The PC after an instruction whose successor is `next`, with the loop-end processing of at most `n` levels. -/
def loopEnd : Nat → BitVec 17 → Thread → Thread
  | 0, next, h => { h with pc := next }
  | n + 1, next, h =>
    if hd : 0 < ldep h ∧ ldep h ≤ 3 then
      let d := ldep h - 1
      if h.le[d]'(by omega) = next then
        if 1 < (h.lc[d]'(by omega)).toNat then
          { h with lc := h.lc.set d ((h.lc[d]'(by omega)) - 1) (by omega), pc := h.ls[d]'(by omega) }
        else loopEnd n next (setLdep d { h with lc := h.lc.set d 0 (by omega) })
      else { h with pc := next }
    else { h with pc := next }

/-! ### Calls and returns after their slot (R306, R313-R316, R376) -/

/-- The D registers a mask names, lowest first (R377). -/
def maskRegs (m : Byte) : List (Fin 16) :=
  (List.finRange 16).filter (fun i => decide (i.val < 8) && m.getLsbD i.val)

/-- The frame words of CALLM from A7 upward (R314). -/
def frameWords (h : Thread) (m : Byte) (ret : BitVec 17) : List Word :=
  [ret.setWidth 16, wd (m.toNat * 256 + (ret.getLsbD 16).toNat)] ++ (maskRegs m).map (getR h)

/-- The accesses of `n` stack words from offset `off`, or the first that fails (R315, R341). -/
def stackAccesses (h : Thread) (off : Int) (wr : Bool) : Nat → Exc ⊕ List Access
  | 0 => .inr []
  | n + 1 =>
    match regEa h none 7 off 1 wr with
    | .inl e => .inl e
    | .inr a =>
      match stackAccesses h (off + 1) wr n with
      | .inl e => .inl e
      | .inr l => .inr (a :: l)

/-- The words of a frame stored, one after the other. -/
def storeAll (t : Fin 8) : List (Access × Word) → State → State
  | [], s => s
  | (a, v) :: l, s =>
    match storeWait t a (v.setWidth 32) s with
    | .ok _ s => storeAll t l s
    | .exc _ s => storeAll t l s
    | .hold _ => storeAll t l s

/-- Words of a frame loaded, one after the other; each address is checked as its load comes (R316). -/
def loadAll (t : Fin 8) (off : Int) : Nat → State → List Word × List Seen × Option Exc × State
  | 0, s => ([], [], none, s)
  | n + 1, s =>
    match regEa (thread s t) none 7 off 1 false with
    | .inl e => ([], [], some e, s)
    | .inr a =>
      match loadWait t false a 4 s with
      | .ok v s =>
        let r := loadAll t (off + 1) n s
        (lowWord v :: r.1, { ea := a.ea, wr := false, ws := [lowWord v] } :: r.2.1, r.2.2.1, r.2.2.2)
      | .exc e s => ([], [], some e, s)
      | .hold _ => ([], [], none, s)

/-- The frame write, LR and PC of a CALLM at `pc` with `next` the address after its slot (R314, R315). -/
def callmEffect (t : Fin 8) (pc : BitVec 17) (m : Byte) (target next : BitVec 17) (s : State) : State :=
  let s := serve t (2 + (maskRegs m).length) s
  let h := thread s t
  let ws := frameWords h m next
  let base := aOff h 7 - ws.length
  match stackAccesses h base true ws.length with
  | .inl e => contExc t pc e s
  | .inr as =>
    match as.find? (fun a => (refusal s (.thread t) a.ea 1 true).isSome) with
    | some a =>
      contExc t pc (regionExc a)
        (recordViol (.thread t) a.ea true ((refusal s (.thread t) a.ea 1 true).getD .region) s)
    | none =>
      let s := storeAll t (as.zip ws) s
      let s := dataCompare t pc.toNat ((as.zip ws).map (fun p => { ea := p.1.ea, wr := true, ws := [p.2] })) s
      setThread t (fun h => { h with r := h.r.set 15 (wd ((base % 65536).toNat)), lr := next, pc := target }) s

/-- The registers after RETM from the frame's words (R316). -/
def retmRegs (w0 w1 : Word) (ds : List Word) (h : Thread) : Thread :=
  let regs := maskRegs (hiByte w1)
  let ret := mkPair w0 (w1 &&& 1)
  { h with
    r := (applyLoads (regs.zip ds) h.r).set 15 (h.r[15] + wd (regs.length + 2))
    lr := ret.setWidth 17
    pc := ret.setWidth 17 }

/-- A RETM at `pc` after its slot (R316). -/
def retmEffect (t : Fin 8) (pc : BitVec 17) (s : State) : State :=
  let s := serve t 2 s
  let off := aOff (thread s t) 7
  match loadAll t off 2 s with
  | (_, _, some e, s) => contExc t pc e s
  | (ws, acc, none, s) =>
    let w1 := ws.getD 1 0
    if fld w1 1 7 ≠ 0 then contExc t pc { num := 1, det := 9 } s
    else
      let p := (maskRegs (hiByte w1)).length
      let s := if p = 0 then s else serve t p s
      match loadAll t (off + 2) p s with
      | (_, _, some e, s) => contExc t pc e s
      | (ds, acc', none, s) =>
        setThread t (retmRegs (ws.getD 0 0) w1 ds) (dataCompare t pc.toNat (acc ++ acc') s)

/-- What acts after the slot of the branch, call or return at `pc` (R302-R306, R386). -/
def runCont (t : Fin 8) (pc : BitVec 17) (c : Cont) (next : BitVec 17) (s : State) : State :=
  match c with
  | .jump target => setThread t (fun h => { h with pc := target.getD next }) s
  | .bsr target => setThread t (fun h => { h with lr := next, pc := target }) s
  | .callm m target => callmEffect t pc m target next s
  | .retm => retmEffect t pc s

/-! ### Completion -/

/-- One instruction of a shadow is executed; the discipline changes with the last (R319). -/
def shadowStep (h : Thread) : Thread :=
  match h.shadow with
  | none => h
  | some sh =>
    if sh.left ≤ 1 then setPsw (putBit (putBit h.psw pMCP false) pDISC sh.disc) { h with shadow := none }
    else { h with shadow := some { sh with left := sh.left - 1 } }

/-- The instructions of the span after this one; 0 at a boundary (R326). -/
def spanAfter (opens pend : Bool) (span : Nat) : Nat :=
  let n := if 0 < span then span + 1 else if opens then 1 else 0
  if !pend || 3 ≤ n then 0 else n

/-- The thread after an instruction completes, but for its PC: loads, shadow and span. -/
def settleThread (d : Done) (h : Thread) : Thread :=
  let opensFlow := h.slot.isNone && d.flow.isSome
  let h := { h with r := applyLoads h.load h.r, load := d.loads }
  let h := if d.keepShadow then h else shadowStep h
  let pend := !h.load.isEmpty || h.shadow.isSome || opensFlow
  { h with span := spanAfter (!d.loads.isEmpty || opensFlow || d.opens) pend h.span }

/-- The PC after an instruction that stood in no slot. -/
def advancePc (next : BitVec 17) (d : Done) (h : Thread) : Thread :=
  match d.flow with
  | some c => { h with slot := some { pc := h.pc, cont := c }, pc := next }
  | none =>
    match d.jump with
    | some a => { h with pc := a }
    | none => loopEnd 3 next h

/-- The instruction at the thread's PC completes; its sequential successor is `next`. -/
def complete (t : Fin 8) (next : BitVec 17) (d : Done) : State :=
  let s := if d.acc.isEmpty then d.s else dataCompare t (thread d.s t).pc.toNat d.acc d.s
  let s := setThread t (settleThread d) s
  match (thread s t).slot with
  | some sl => runCont t sl.pc sl.cont next (setThread t (fun h => { h with slot := none }) s)
  | none =>
    let s := setThread t (advancePc next d) s
    match d.trap with
    | some n => raiseExc t { num := 7, det := n } s
    | none => s

/-! ### Boundaries -/

/-- The thread is between two instructions: none is held, in the Tile Unit or in a user routine. -/
def between (h : Thread) : Bool := h.st == .ready && h.held.isNone && !h.inTile && h.micro.isNone && h.starting.isNone

/-- A BREAK of a data comparator is taken at a boundary; none while EX is 1, and a halt comes first (R1028). -/
def takeBreak (t : Fin 8) (s : State) : State :=
  let h := thread s t
  match h.breakDue with
  | none => s
  | some c =>
    if between h && h.span == 0 && h.haltReq.isNone then
      let s := setThread t (fun h => { h with breakDue := none }) s
      if inException h then s
      else
        let p := excPoint h
        enterExc t 6 (0x10 + c) none p.1 p.2 s
    else s

/-- The end of a step (R1016): `stepping` tells that one was under way when the instruction began. -/
def endStep (t : Fin 8) (stepping : Bool) (s : State) : State :=
  let h := thread s t
  if stepping && h.span == 0 && (between h || h.st == .waiting) then haltThread t { cause := causeStep } s else s

/-- What happens at the point after an instruction. -/
def boundary (t : Fin 8) (stepping : Bool) (s : State) : State := endStep t stepping (takeBreak t s)

/-- No asynchronous exception is taken during a step while NOINT is 1 (R1016). -/
def noInt (s : State) (t : Fin 8) : Bool := (thread s t).stepping && xregBit s X.step 15

/-- INTERRUPT's conditions hold (R331). -/
def interruptDue (s : State) (t : Fin 8) : Bool :=
  let h := thread s t
  h.psw.getLsbD pIE && !inException h && irqLine s t

/-- An asynchronous exception is due at the next boundary (R325). -/
def asyncDue (s : State) (t : Fin 8) : Bool := !noInt s t && ((thread s t).abortDue || interruptDue s t)

/-- A boundary at which an exception, a halt or a stop is due. -/
def boundaryDue (s : State) (t : Fin 8) : Bool :=
  (thread s t).span == 0 && ((thread s t).haltReq.isSome || asyncDue s t)

/-- TH0's dump store is still in the buffer (R973). -/
def dumpWaits (s : State) (t : Fin 8) : Bool :=
  t == 0 && s.mem.sbuf.any (fun e => e.thread == 0 && e.addr == Reg.fcol_DUMP && lowWord e.data == 0x0D0D)

/-- Thread `t` may execute its next instruction now (R238, R325, R973). -/
def canIssue (s : State) (t : Fin 8) : Bool :=
  between (thread s t) && !(thread s t).stopReq && s.fcol.dump.isNone && !dumpWaits s t && !boundaryDue s t

/-- The dispatch word of an opcode of page 3 or 4 (R422). -/
def dispatchWord (s : State) (page o : Nat) : Sys2Proof.Micro := wcsGet s (0xF80 + 0x40 * (page - 3) + o / 4)

end Sys2Proof.Machine
end

