-- ==== Sys2Proof/Machine/Bodies.lean ====
section
/-!
DEFINITION. What each macro instruction does once its decoding, placement, guard and seal have passed
(spec/08_instruction_encoding_reference.md, R369-R382; spec/06, R244-R260; spec/07, R297, R307, R318, R333).
-/

namespace Sys2Proof.Machine

/-- A body that changes the thread and completes. -/
def thDone (t : Fin 8) (f : Thread → Thread) (s : State) : Res := .done { s := setThread t f s }

/-- ILLEGAL with detail 6: an operand out of range at execution (R379). -/
def badOperand (s : State) : Res := .exc { num := 1, det := 6 } s

/-- PRIVILEGE with a detail (R336). -/
def privFail (d : Nat) (s : State) : Res := .exc { num := 2, det := d } s

/-- The words of an access of `w`. -/
def wordsOf (w : Nat) (v : Pair) : List Word := if w = 2 then [lowWord v, highWord v] else [lowWord v]

/-- A load of one access, and what follows with its value. -/
def loadThen (t : Fin 8) (pre : List Prefix) (a : Exc ⊕ Access) (s : State) (k : Pair → Access → State → Done) : Res :=
  match a with
  | .inl e => .exc e s
  | .inr a =>
    match load1 t (sealedOf pre).isSome a s with
    | .ok v s =>
      let d := k v a s
      .done { d with acc := [{ ea := a.ea, wr := false, ws := wordsOf a.w v }] }
    | .exc e s => .exc e s
    | .hold c => .hold c

/-- A store of one access, and the change of the thread with it. -/
def storeThen (t : Fin 8) (pre : List Prefix) (a : Exc ⊕ Access) (v : Pair) (s : State) (f : Thread → Thread) : Res :=
  match a with
  | .inl e => .exc e s
  | .inr a =>
    match store1 t (sealedOf pre).isSome a v s with
    | .ok _ s => .done { s := setThread t f s, acc := [{ ea := a.ea, wr := true, ws := wordsOf a.w v }] }
    | .exc e s => .exc e s
    | .hold c => .hold c

/-! ### Moves and memory (R369-R371) -/

/-- A register, or a pair with PAIR, in 32 bits. -/
def regVal (h : Thread) (pair : Bool) (r : Fin 16) : Pair := if pair then getPair h r else (getR h r).setWidth 32

/-- A register, or a pair with PAIR, written. -/
def putVal (pair : Bool) (r : Fin 16) (v : Pair) (h : Thread) : Thread :=
  if pair then putPair r v h else putR r (lowWord v) h

/-- The registers of an operand, with the words a load gives them. -/
def loadRegs (pair : Bool) (r : Fin 16) (v : Pair) : List (Fin 16 × Word) :=
  if pair then [(pairLo r, lowWord v), (pairHi r, highWord v)] else [(r, lowWord v)]

def wordCount (pair : Bool) : Nat := if pair then 2 else 1

def movRRBody (t : Fin 8) (pre : List Prefix) (rd rs : Fin 16) (s : State) : Res :=
  thDone t (fun h => putVal (hasPair pre) rd (regVal h (hasPair pre) rs) h) s

def movRIBody (t : Fin 8) (pre : List Prefix) (rd : Fin 16) (v : Word) (s : State) : Res :=
  thDone t (putVal (hasPair pre) rd (immPair (hasLong pre) v)) s

def movRCBody (t : Fin 8) (pre : List Prefix) (rd : Fin 16) (c : Fin 32) (s : State) : Res :=
  thDone t (fun h => putVal (hasPair pre) rd (crRead h t c) h) s

/-- BK, VBASE and CTXID are protected in TH2-TH7 (R275, R371). -/
def movCRBody (t : Fin 8) (pre : List Prefix) (c : Fin 32) (rs : Fin 16) (s : State) : Res :=
  if 2 ≤ t.val ∧ 2 ≤ c.val ∧ c.val ≤ 4 then privFail 1 s
  else thDone t (fun h => crWrite c (regVal h (hasPair pre) rs) h) s

/-- PUSH stores the value from before the decrement (R370, R385). -/
def pushBody (t : Fin 8) (pre : List Prefix) (rs : Fin 16) (s : State) : Res :=
  let h := thread s t
  let w := wordCount (hasPair pre)
  storeThen t pre (regEa h none 7 (aOff h 7 - w) w true) (regVal h (hasPair pre) rs) s
    (fun h => putR 15 (getR h 15 - wd w) h)

/-- POP: the increment is discarded where the load names A7 (R370, R385). -/
def popBody (t : Fin 8) (pre : List Prefix) (rd : Fin 16) (s : State) : Res :=
  let h := thread s t
  let w := wordCount (hasPair pre)
  loadThen t pre (regEa h none 7 (aOff h 7) w false) s (fun v _ s =>
    let ls := loadRegs (hasPair pre) rd v
    { s := setThread t (eaStep (.postInc 7) w (ls.map (·.1))) s, loads := ls })

/-- LD, and LDP with `pair` (R369, R299, R337). -/
def ldBody (t : Fin 8) (pre : List Prefix) (pair : Bool) (rd : Fin 16) (ea : Ea) (s : State) : Res :=
  let w := wordCount pair
  loadThen t pre (eaAccess (thread s t) (farOf pre) (hasLong pre) ea w false) s (fun v _ s =>
    let ls := loadRegs pair rd v
    { s := setThread t (eaStep ea w (ls.map (·.1))) s, loads := ls })

/-- ST, and STP with `pair`: the value is that from before an update of An (R369, R385). -/
def stBody (t : Fin 8) (pre : List Prefix) (pair : Bool) (rs : Fin 16) (ea : Ea) (s : State) : Res :=
  let w := wordCount pair
  let h := thread s t
  storeThen t pre (eaAccess h (farOf pre) (hasLong pre) ea w true) (regVal h pair rs) s (eaStep ea w [])

/-! ### Arithmetic and logic (R365, R372) -/

def aluBody (t : Fin 8) (pre : List Prefix) (o : AluOp) (rd : Fin 16) (src : Src) (s : State) : Res :=
  thDone t (fun h =>
    if hasPair pre then
      let r := aluR o (hasSat pre) (getPair h rd) (srcOpPair h (hasLong pre) src) h.psw
      setPsw r.2 (if aluWrites o then putPair rd r.1 h else h)
    else
      let r := aluR o (hasSat pre) (getR h rd) (srcOp h (hasLong pre) src) h.psw
      setPsw r.2 (if aluWrites o then putR rd r.1 h else h)) s

def notBody (t : Fin 8) (pre : List Prefix) (rd : Fin 16) (s : State) : Res :=
  thDone t (fun h =>
    if hasPair pre then
      let r := logicR (~~~ getPair h rd) h.psw
      setPsw r.2 (putPair rd r.1 h)
    else
      let r := logicR (~~~ getR h rd) h.psw
      setPsw r.2 (putR rd r.1 h)) s

def negBody (t : Fin 8) (pre : List Prefix) (rd : Fin 16) (s : State) : Res :=
  thDone t (fun h =>
    if hasPair pre then
      let r := negR (hasSat pre) (getPair h rd) h.psw
      setPsw r.2 (putPair rd r.1 h)
    else
      let r := negR (hasSat pre) (getR h rd) h.psw
      setPsw r.2 (putR rd r.1 h)) s

/-- The count of a shift: the byte, or bits 4-0 of the register (R365). -/
def shiftCount (h : Thread) : Src8 → Nat
  | .reg r => fld (getR h r) 0 5
  | .imm k => k.toNat

def shiftBody (t : Fin 8) (pre : List Prefix) (o : ShOp) (rd : Fin 16) (k : Src8) (s : State) : Res :=
  thDone t (fun h =>
    if hasPair pre then
      let r := shiftR o (hasSat pre) (getPair h rd) (shiftCount h k) h.psw
      setPsw r.2 (putPair rd r.1 h)
    else
      let r := shiftR o (hasSat pre) (getR h rd) (shiftCount h k) h.psw
      setPsw r.2 (putR rd r.1 h)) s

/-! ### Accumulators (R288-R290, R373-R375) -/

/-- The accumulator that the prefixes name. -/
def accNo (pre : List Prefix) : Fin 2 := if hasAc1 pre then 1 else 0
def getAcc (h : Thread) (k : Fin 2) : BitVec 40 := h.ac[k]
def putAcc (k : Fin 2) (v : BitVec 40) (h : Thread) : Thread := { h with ac := h.ac.set k v }

def mulBody (t : Fin 8) (pre : List Prefix) (rs rt : Fin 16) (s : State) : Res :=
  thDone t (fun h =>
    let a : BitVec 40 := BitVec.ofInt 40 (prodInt (getR h rs) (getR h rt))
    setPsw (accFlags a false false h.psw) (putAcc (accNo pre) a h)) s

/-- MAC, and MSU with `minus`. -/
def macBody (t : Fin 8) (pre : List Prefix) (minus : Bool) (rs rt : Fin 16) (s : State) : Res :=
  thDone t (fun h =>
    let p := prodInt (getR h rs) (getR h rt)
    let r := accAdd (hasSat pre) (getAcc h (accNo pre)) (if minus then -p else p)
    setPsw (accFlags r.1 r.2.1 r.2.2 h.psw) (putAcc (accNo pre) r.1 h)) s

def acldRBody (t : Fin 8) (pre : List Prefix) (rp : Fin 16) (s : State) : Res :=
  thDone t (fun h => putAcc (accNo pre) (accLoad (getPair h rp)) h) s

def acldMBody (t : Fin 8) (pre : List Prefix) (ea : Ea) (s : State) : Res :=
  loadThen t pre (eaAccess (thread s t) (farOf pre) (hasLong pre) ea 2 false) s (fun v _ s =>
    { s := setThread t (fun h => putAcc (accNo pre) (accLoad v) (eaStep ea 2 [] h)) s })

def acstRBody (t : Fin 8) (pre : List Prefix) (round : Bool) (rd : Fin 16) (s : State) : Res :=
  thDone t (fun h =>
    let r := accStore round (hasSat pre) (hasPair pre) (getAcc h (accNo pre))
    setPsw (withSat h.psw r.2) (putVal (hasPair pre) rd r.1 h)) s

def acstMBody (t : Fin 8) (pre : List Prefix) (round : Bool) (ea : Ea) (s : State) : Res :=
  let h := thread s t
  let w := wordCount (hasPair pre)
  let r := accStore round (hasSat pre) (hasPair pre) (getAcc h (accNo pre))
  storeThen t pre (eaAccess h (farOf pre) (hasLong pre) ea w true) r.1 s
    (fun h => setPsw (withSat h.psw r.2) (eaStep ea w [] h))

/-! ### Flow (R302-R308, R376) -/

/-- A displacement, sign-extended to an address. -/
def dispOf (long : Bool) (d : Word) : BitVec 17 := (immWord long d).signExtend 17

def brBody (t : Fin 8) (pre : List Prefix) (next : BitVec 17) (cc : Fin 16) (d : Word) (s : State) : Res :=
  let taken := condHolds (thread s t).psw cc
  .done { s := s, flow := some (.jump (if taken then some (next + dispOf (hasLong pre) d) else none)) }

def bsrBody (pre : List Prefix) (next : BitVec 17) (d : Word) (s : State) : Res :=
  .done { s := s, flow := some (.bsr (next + dispOf (hasLong pre) d)) }

def rtsBody (t : Fin 8) (s : State) : Res := .done { s := s, flow := some (.jump (some (thread s t).lr)) }

def callmBody (pre : List Prefix) (next : BitVec 17) (m : Byte) (d : Word) (s : State) : Res :=
  .done { s := s, flow := some (.callm m (next + dispOf (hasLong pre) d)) }

def retmBody (s : State) : Res := .done { s := s, flow := some .retm }

/-- The loop end: one unsigned byte, or two with LONG, above the address after LOOP (R376, R387). -/
def loopTarget (pre : List Prefix) (next : BitVec 17) (e : Word) : BitVec 17 :=
  next + (if hasLong pre then e else e &&& 0xFF).setWidth 17

/-- LOOP (R307, R308). -/
def loopBody (t : Fin 8) (pre : List Prefix) (next : BitVec 17) (c : Src) (e : Word) (s : State) : Res :=
  let h := thread s t
  let n := srcOp h true c
  let stop := loopTarget pre next e
  if hd : ldep h < 3 then
    if stop ≤ next then .exc { num := 1, det := 4 } s
    else if n = 0 then .done { s := s, jump := some stop }
    else
      thDone t (fun h =>
        setLdep (ldep (thread s t) + 1) { h with ls := h.ls.set (ldep (thread s t)) next, le := h.le.set (ldep (thread s t)) stop
                                                 lc := h.lc.set (ldep (thread s t)) n }) s
  else .exc { num := 1, det := 4 } s

def trapBody (n : Byte) (s : State) : Res := .done { s := s, trap := some n.toNat }

/-- BRK raises BREAK, or halts its thread while BRKH is 1 (R376, R1019). -/
def brkBody (t : Fin 8) (s : State) : Res :=
  if xregBit s X.dctl 15 then .block (haltThread t { cause := causeBrk } s) else .exc { num := 6, det := 0 } s

/-! ### Thread and lock (R244-R260, R378, R379, R393) -/

/-- D0 written with a result. -/
def putD0 (v : Word) (h : Thread) : Thread := putR 0 v h

/-- The bits a WAIT returns leave the latch (R246). -/
def takeEvents (s : State) (t : Fin 8) (m : Word) (h : Thread) : Thread :=
  let got := latchOf s t &&& m
  putD0 got { h with latch := h.latch &&& ~~~got }

/-- WAIT completes at once, or the thread waits with PC at the WAIT (R244). -/
def waitBody (t : Fin 8) (next : BitVec 17) (m : Src) (s : State) : Res :=
  let mask := srcOp (thread s t) true m
  if mask = 0 ∨ latchOf s t &&& mask ≠ 0 then thDone t (takeEvents s t mask) s
  else .block (setThread t (fun h => { h with st := .waiting, mask := mask, wkind := .event, waitNext := next }) s)

/-- SIGNAL of bit `b` to thread `u` (R247). -/
def signalTo (t u : Fin 8) (b : Nat) (s : State) : Res :=
  let gone := isStopped s u
  thDone t (fun h => setPsw (withC h.psw gone) h) (setEvent u b s)

def signalBody (t : Fin 8) (a : Src8) (s : State) : Res :=
  let v := src8Word (thread s t) a
  let u := fld v 4 4
  let b := fld v 0 4
  if 7 < u ∨ 7 < b then badOperand s else signalTo t (thrIdx u) b s

/-- The result of SEAL and UNSEAL: D0 and C. -/
def sealResult (v : Word) (c : Bool) (h : Thread) : Thread := setPsw (withC h.psw c) (putD0 v h)

/-- SEAL of `n` (R256, R257). -/
def sealRequest (t : Fin 8) (next : BitVec 17) (n : Fin 32) (s : State) : Res :=
  match s.thr.owner[n] with
  | none => thDone t (sealResult 0 false) { s with thr := { s.thr with owner := s.thr.owner.set n (some t) } }
  | some u =>
    if u = t then thDone t (sealResult 2 true) s
    else if sealWalk s t 8 n then
      thDone t (sealResult 1 true)
        (hwCountF Reg.thr_SEALSTAT 0 8 1 (note clsSequencer (wd (0x100 + n.val)) s))
    else
      let s := { s with thr := { s.thr with want := s.thr.want.set t (some n) } }
      .block (setThread t (fun h => { h with st := .waiting, mask := 0x1000, wkind := .seal, waitNext := next }) s)

def sealBody (t : Fin 8) (next : BitVec 17) (n : Src8) (s : State) : Res :=
  let v := src8Word (thread s t) n
  if hv : v.toNat < 32 then sealRequest t next ⟨v.toNat, hv⟩ s else badOperand s

/-- UNSEAL of `n` (R259). -/
def unsealBody (t : Fin 8) (n : Src8) (s : State) : Res :=
  let v := src8Word (thread s t) n
  if hv : v.toNat < 32 then
    (if ownsSeal s t v.toNat then thDone t (sealResult 0 false) (releaseSeal ⟨v.toNat, hv⟩ t s)
     else thDone t (sealResult 3 true) s)
  else badOperand s

/-! ### System instructions (R297, R318-R320, R333, R336, R380, R381) -/

/-- SETM: a change opens its shadow; PSW.MCP reads 1 (R318, R319). -/
def setmBody (t : Fin 8) (v : Byte) (s : State) : Res :=
  let disc := v.getLsbD 0
  if disc && decide (2 ≤ t.val) then privFail 2 s
  else if directDisc (thread s t) == disc then .done { s := s }
  else
    .done { s := setThread t (fun h => setPsw (putBit h.psw pMCP true) { h with shadow := some { left := 2, disc := disc } }) s
            keepShadow := true, opens := true }

def setbkBody (t : Fin 8) (b : Src8) (s : State) : Res :=
  if 2 ≤ t.val then privFail 0 s
  else thDone t (fun h => { h with bk := (src8Word h b).setWidth 8 }) s

/-- STOP (R235, R236, R380). -/
def stopBody (t : Fin 8) (n : Src8) (s : State) : Res :=
  let u := thrIdx (src8Word (thread s t) n).toNat
  if 2 ≤ t.val ∧ u ≠ t then privFail 0 s
  else
    let s := setThread t (fun h => setPsw (withC h.psw (u == 0)) h) s
    .done { s := requestStop u s }

/-- The thread ERET leaves, but for its PC (R333, R335). -/
def eretThread (t : Fin 8) (h : Thread) : Thread :=
  let sys := decide (t.val < 2)
  let again := h.epsw.getLsbD pMCP
  let shd := fld h.estat 11 2
  let nmode := h.estat.getLsbD 13 && sys
  let psw := putBit (putBit (h.epsw &&& 0x0FFF) pDLY false) pSYS (h.psw.getLsbD pSYS)
  let psw := putBit psw pDISC (sys && psw.getLsbD pDISC)
  let h := { h with estat := putBit h.estat 15 false, unmatched := true }
  if again && shd != 0 then setPsw psw { h with shadow := some { left := min shd 2, disc := nmode } }
  else if again then setPsw (putBit (putBit psw pMCP false) pDISC (nmode)) { h with shadow := none }
  else setPsw psw { h with shadow := none }

def eretBody (t : Fin 8) (s : State) : Res :=
  let h := thread s t
  if !inException h then .exc { num := 1, det := 8 } s
  else .done { s := setThread t (eretThread t) s, jump := some h.epc, keepShadow := true }

/-- The three words of a descriptor, one load after the other; EADDR is the access's (R297, R341, R381). -/
def loadDesc (t : Fin 8) (a : Access) : Nat → Nat → State → List Word × Option Exc × State
  | 0, _, s => ([], none, s)
  | n + 1, i, s =>
    match loadWait t false { a with ea := (a.ea + i) % 0x100000, w := 1 } 4 s with
    | .ok v s =>
      let r := loadDesc t a n (i + 1) s
      (lowWord v :: r.1, r.2)
    | .exc e s => ([], some { e with ea := some (BitVec.ofNat 20 a.ea) }, s)
    | .hold _ => ([], none, s)

/-- LDSG (R297, R381). -/
def ldsgBody (t : Fin 8) (pre : List Prefix) (n : Fin 16) (ea : Ea) (s : State) : Res :=
  if 2 ≤ t.val then privFail 0 s
  else
    match eaAccess (thread s t) (farOf pre) (hasLong pre) ea 3 false with
    | .inl e => .exc e s
    | .inr a =>
      match loadDesc t a 3 0 s with
      | (_, some e, s) => .exc e s
      | (ws, none, s) =>
        let g := segOfWords (ws.getD 0 0) (ws.getD 1 0) (ws.getD 2 0)
        .done { s := setThread t (fun h => eaStep ea 3 [] { h with sg := h.sg.set (n.val % 8) g }) s
                acc := [{ ea := a.ea, wr := false, ws := ws }] }

/-! ### Tile instructions (R382, R462) -/

/-- The request of a tile instruction: its operands as they stand, and the address after it. -/
def tileReqOf (t : Fin 8) (pre : List Prefix) (len : Nat) (op : Op) (h : Thread) : TileReq :=
  let pair := match op with
    | .tcfg _ rp => getPair h rp
    | .tmap _ _ rx ry => mkPair (getR h rx) (getR h ry)
    | _ => 0
  { t := t, op := op, ac1 := hasAc1 pre, sat := hasSat pre, pair := pair, len := len }

/-- A tile instruction registers its request; the thread stays READY in it (R462, R466). -/
def tileBody (t : Fin 8) (pre : List Prefix) (len : Nat) (op : Op) (s : State) : Res :=
  let q := tileReqOf t pre len op (thread s t)
  .block (tileRequest q (setThread t (fun h => { h with inTile := true }) s))

/-! ### All of them -/

/-- The body of an instruction of pages 0-2 with `next` after it. -/
def bodyOf (t : Fin 8) (pre : List Prefix) (len : Nat) (next : BitVec 17) (op : Op) (s : State) : Res :=
  match op with
  | .nop => .done { s := s }
  | .brk => brkBody t s
  | .trap n => trapBody n s
  | .br cc d => brBody t pre next cc d s
  | .bsr d => bsrBody pre next d s
  | .rts => rtsBody t s
  | .callm m d => callmBody pre next m d s
  | .retm => retmBody s
  | .loop c e => loopBody t pre next c e s
  | .wait m => waitBody t next m s
  | .signal a => signalBody t a s
  | .seal n => sealBody t next n s
  | .unseal n => unsealBody t n s
  | .movRR rd rs => movRRBody t pre rd rs s
  | .movRI rd v => movRIBody t pre rd v s
  | .movRC rd c => movRCBody t pre rd c s
  | .movCR c rs => movCRBody t pre c rs s
  | .push rs => pushBody t pre rs s
  | .pop rd => popBody t pre rd s
  | .alu o rd src => aluBody t pre o rd src s
  | .not rd => notBody t pre rd s
  | .neg rd => negBody t pre rd s
  | .shift o rd k => shiftBody t pre o rd k s
  | .mul rs rt => mulBody t pre rs rt s
  | .mac rs rt => macBody t pre false rs rt s
  | .msu rs rt => macBody t pre true rs rt s
  | .acldR r => acldRBody t pre r s
  | .acldM ea => acldMBody t pre ea s
  | .acstR round r => acstRBody t pre round r s
  | .acstM round ea => acstMBody t pre round ea s
  | .ld rd ea => ldBody t pre false rd ea s
  | .st rs ea => stBody t pre false rs ea s
  | .ldp rd ea => ldBody t pre true rd ea s
  | .stp rs ea => stBody t pre true rs ea s
  | .setm v => setmBody t v s
  | .setbk b => setbkBody t b s
  | .stop n => stopBody t n s
  | .eret => eretBody t s
  | .ldsg n ea => ldsgBody t pre n ea s
  | .tcfg n rp => tileBody t pre len (.tcfg n rp) s
  | .tldr n => tileBody t pre len (.tldr n) s
  | .tstr n => tileBody t pre len (.tstr n) s
  | .tmap rd n rx ry => tileBody t pre len (.tmap rd n rx ry) s
  | .tmac n m => tileBody t pre len (.tmac n m) s
  | .trel n => tileBody t pre len (.trel n) s
  | .user _ _ _ => .exc { num := 1, det := 0 } s

end Sys2Proof.Machine
end

