-- ==== Sys2Proof/Machine/Run.lean ====
section
/-!
DEFINITION. The execution of one instruction by a thread, and what ends its holds, waits and tile operations
(spec/08, R353-R356, R366; spec/06, R234, R235, R245; spec/10, R462-R466, R473, R476; spec/22, R1013, R1015; spec/07,
R325, R331, R332).
-/

namespace Sys2Proof.Machine

/-! ### One instruction -/

/-- C after a SEALED instruction (R356). -/
def setC (t : Fin 8) (c : Bool) (s : State) : State := setThread t (fun h => setPsw (withC h.psw c) h) s

/-- A SEALED instruction that executed sets C := 0 (R356). -/
def sealedDone (t : Fin 8) (pre : List Prefix) (d : Done) : Done :=
  if (sealedOf pre).isSome then { d with s := setC t false d.s } else d

/-- The outcome of a body carried out; `s` is the state before it, in which a held access waits. -/
def applyRes (t : Fin 8) (pre : List Prefix) (op : Op) (next : BitVec 17) (r : Res) (s : State) : State :=
  match r with
  | .done d => complete t next (sealedDone t pre d)
  | .exc e s' => raiseExc t e s'
  | .hold c => setThread t (fun h => { h with held := some (pre, op), heldAt := s.now, heldCounts := c }) s
  | .block s' => s'

/-- An instruction whose guard fails: nothing but its slot (R355, R366). -/
def skipGuard (t : Fin 8) (pre : List Prefix) (flow : Bool) (next : BitVec 17) (s : State) : State :=
  complete t next
    { s := serve t (if (sealedOf pre).isSome then 3 else 2) s, flow := if flow then some (.jump none) else none }

/-- A SEALED instruction whose seal the thread does not own (R356, R366). -/
def skipSealed (t : Fin 8) (next : BitVec 17) (s : State) : State := complete t next { s := setC t true (serve t 3 s) }

/-- The thread owns the seal of a SEALED prefix, if there is one. -/
def sealHeld (s : State) (t : Fin 8) (pre : List Prefix) : Bool :=
  match sealedOf pre with
  | none => true
  | some n => ownsSeal s t n.toNat

/-- A decoded and placed instruction: its guard, its seal, and its body (R355, R356, R421). -/
def runDecoded (t : Fin 8) (pre : List Prefix) (len : Nat) (op : Op) (s : State) : State :=
  let h := thread s t
  let next := h.pc + BitVec.ofNat 17 len
  if !guardPasses h.psw pre then skipGuard t pre (isFlow op) next s
  else if !sealHeld s t pre then skipSealed t next s
  else
    let s := serve t (costOf pre op) s
    applyRes t pre op next (bodyOf t pre len next op s) s

/-- The instruction begins: the execution comparators see it first (R1024, R1028, R1029). -/
def beginInstr (t : Fin 8) (s : State) : Option Nat × State :=
  let r := execCompare t (setThread t (fun h => { h with begun := true }) s)
  (r.1, setThread t (fun h => { h with unmatched := false }) r.2)

/-- Thread `t` executes the instruction whose bytes are those of `pre` and `op`. -/
def issue (t : Fin 8) (pre : List Prefix) (op : Op) (s : State) : State :=
  match beginInstr t s with
  | (some c, s) => raiseExc t { num := 6, det := 0x10 + c } s
  | (none, s) =>
    let h := thread s t
    match decodeInstr (directDisc h) (dispatchWord s) h.pc.toNat (encodeInstr pre op) with
    | .inl d => raiseExc t { num := 1, det := d } (serve t 1 s)
    | .inr dec =>
      match placementFail h (h.pc + BitVec.ofNat 17 dec.len) op with
      | some d => raiseExc t { num := 1, det := d } (serve t 1 s)
      | none => runDecoded t pre dec.len op s

/-- The command of an instruction: the thread executes it if it may issue, and comes to the boundary after it. -/
def runInstr (t : Fin 8) (pre : List Prefix) (op : Op) (s : State) : State :=
  if canIssue s t then boundary t (thread s t).stepping (issue t pre op s) else s

/-! ### Holds (R504-R506, R512) -/

/-- The held access of thread `t` is made again: SBHOLD counts the ticks of a partial overlap (R506). -/
def releaseHeld (t : Fin 8) (pre : List Prefix) (op : Op) (s : State) : State :=
  let h := thread s t
  let next := h.pc + BitVec.ofNat 17 (encodeInstr pre op).length
  match bodyOf t pre (encodeInstr pre op).length next op s with
  | .hold c => setThread t (fun h => { h with heldCounts := h.heldCounts || c }) s
  | r =>
    let n := if h.heldCounts then (s.now - h.heldAt) / clkTicks s else 0
    let r' := match r with
      | .done d => Res.done { d with s := setThread t (fun h => { h with held := none }) (hwCountF Reg.memc_SBHOLD 0 16 n d.s) }
      | .exc e s => .exc e (setThread t (fun h => { h with held := none }) (hwCountF Reg.memc_SBHOLD 0 16 n s))
      | r => r
    boundary t h.stepping (applyRes t pre op next r' s)

/-- STORE_HOLD_RELEASE: a held load, store or start block goes on. -/
def holdRelease (t : Fin 8) (s : State) : State :=
  match (thread s t).held, (thread s t).starting with
  | some (pre, op), _ => releaseHeld t pre op s
  | none, some arg => startRun t arg s
  | none, none => s

/-! ### Tile operations -/

/-- An operation that goes row by row. -/
def hasRows : Op → Bool
  | .tcfg _ _ => true
  | .tldr _ => true
  | .tstr _ => true
  | .tmac _ _ => true
  | _ => false

/-- The thread of a running operation is no longer in it: it left, or registered it again (R465). -/
def tileGone (s : State) (q : TileReq) : Bool := !(thread s q.t).inTile || s.tile.wait.any (fun w => w.t == q.t)

/-- A stop, halt, abort or asynchronous exception of the operation's thread is due (R464, R1013). -/
def tileThreadDue (s : State) (t : Fin 8) : Bool := (thread s t).stopReq || boundaryDue s t

/-- A waiting request of a higher level, or a TCFG of a system thread on the tile in use (R463, R476). -/
def tilePreempts (s : State) (q w : TileReq) : Bool :=
  decide (prioOf s q.t < prioOf s w.t) || (match w.op with
    | .tcfg n _ => decide (w.t.val < 2) && n.val == tileNamed q
    | _ => false)

/-- The running operation is to stop at its next row boundary (R463-R465). -/
def tileStops (s : State) : Bool :=
  match s.tile.run with
  | none => false
  | some q =>
    tileGone s q || (hasRows q.op && (tileThreadDue s q.t || s.tile.wait.any (tilePreempts s q)))

/-- The operation of a request, to row `upto`: its result, and the accumulator a TMAC leaves. -/
def tileRun (q : TileReq) (upto : Option Nat) (s : State) : TRes × State × BitVec 40 :=
  let acc := getAcc (thread s q.t) (if q.ac1 then 1 else 0)
  match q.op with
  | .tcfg n _ => let r := tcfgRun q.t n q.pair upto s; (r.1, r.2, acc)
  | .tldr n => let r := tldrRun q.t n upto s; (r.1, r.2, acc)
  | .tstr n => let r := tstrRun q.t n upto s; (r.1, r.2, acc)
  | .tmap _ n _ _ => let r := tmapRun q.t n (lowWord q.pair) (highWord q.pair) s; (r.1, r.2, acc)
  | .tmac n m => tmacRun q.t n m q.sat acc upto s
  | .trel n => let r := trelRun q.t n s; (r.1, r.2, acc)
  | _ => (.done, s, acc)

/-- The unit takes the next request. -/
def tileNext (s : State) : State := tileStart { s with tile := { s.tile with run := none } }

/-- What a tile instruction leaves in its thread (R469, R470, R382). -/
def tileResult (q : TileReq) (r : TRes) (h : Thread) : Thread :=
  match r, q.op with
  | .value w c, .tmap rd _ _ _ => setPsw (withCVZN h.psw c false (w == 0) w.msb) (putR rd w h)
  | .acc a v clip, _ => setPsw (accFlags a v clip h.psw) (putAcc (if q.ac1 then 1 else 0) a h)
  | _, _ => h

/-- The thread of a completed operation goes on: it completes its instruction, or takes TILE (R442a, R473). -/
def tileDeliver (q : TileReq) (r : TRes) (s : State) : State :=
  let h := thread s q.t
  let s := setThread q.t (fun h => { h with inTile := false }) s
  let s := match r with
    | .exc c n => raiseExc q.t { num := 5, det := n.val * 256 + c } s
    | _ => complete q.t (h.pc + BitVec.ofNat 17 q.len) { s := setThread q.t (tileResult q r) s }
  boundary q.t h.stepping s

/-- TILE_OP_COMPLETE: the running operation ends (R466). -/
def tileComplete (s : State) : State :=
  match s.tile.run with
  | none => s
  | some q =>
    if tileStops s then s
    else
      let r := tileRun q none s
      tileDeliver q r.1 (tileNext r.2.1)

/-- A TMAC's products of the rows done stand in the accumulator (R464). -/
def keepAcc (q : TileReq) (acc : BitVec 40) (s : State) : State :=
  match q.op with
  | .tmac _ _ => setThread q.t (putAcc (if q.ac1 then 1 else 0) acc) s
  | _ => s

/-- TILE_ROW_STOP: an operation that is to stop reaches a row boundary; one that ends there ends as always (R464, R465). -/
def tileRowStop (row : Nat) (s : State) : State :=
  match s.tile.run with
  | none => s
  | some q =>
    if !tileStops s then s
    else if !hasRows q.op then tileNext s
    else
      let gone := tileGone s q
      let (r, s, acc) := tileRun q (some row) s
      let s := tileNext s
      if gone then keepAcc q acc s
      else
        match r with
        | .stopped => boundary q.t (thread s q.t).stepping (tileLeave q.t (keepAcc q acc s))
        | r => tileDeliver q r s

/-! ### Stops, wakes and halts -/

/-- THREAD_STOPPED: a requested stop takes effect at a boundary, or cuts a user routine (R235, R429). -/
def threadStopped (t : Fin 8) (s : State) : State :=
  let h := thread s t
  let inUnit := h.inTile && (match s.tile.run with
    | some q => q.t == t && hasRows q.op
    | none => false)
  if h.stopReq && h.st == .ready && h.held.isNone && !inUnit then stopThread t s else s

/-- A WAITING thread's wait is over: a bit of its mask is set (R245, R246, R258). -/
def wakeThread (t : Fin 8) (s : State) : State :=
  let h := thread s t
  let m := h.mask
  let next := h.waitNext
  let s := setThread t (fun h =>
    let h := { h with st := .ready, mask := 0, wkind := .event }
    match (thread s t).wkind with
    | .event => takeEvents s t m h
    | .seal => sealResult 0 false { h with latch := putBit h.latch 12 false }) s
  boundary t h.stepping (complete t next { s := s })

/-- A wait's bit is there. -/
def wakeDue (s : State) (t : Fin 8) : Bool := latchOf s t &&& (thread s t).mask != 0

/-- THREAD_WAKE (R245, R1014): a HALTED thread's kept state becomes READY, and it completes its wait when it resumes. -/
def threadWake (t : Fin 8) (s : State) : State :=
  let h := thread s t
  if !wakeDue s t then s
  else if h.st == .waiting then wakeThread t s
  else if h.st == .halted && h.kept == .waiting then setThread t (fun h => { h with kept := .ready }) s
  else s

/-- A HALTED thread runs on (R1015): its timer counts again, and a wait that ended meanwhile completes. -/
def leaveHalt (t : Fin 8) (s : State) : State :=
  let h := thread s t
  let ended := h.kept == .ready && h.mask != 0
  let s := setThread t (fun h => { h with
    st := if ended then .waiting else h.kept, kept := .ready, haltedBy := { cause := 0 }, unmatched := true
    tmr := h.tmrLeft.map (fun d => s.now + d), tmrLeft := none }) s
  if ended then wakeThread t s else s

/-- RESUME of thread `t` (R1015). -/
def resumeThread (t : Fin 8) (s : State) : State :=
  if (thread s t).st == .halted then takeBreak t (leaveHalt t s) else s

/-- A STEP.GO bit of thread `t` (R1016). -/
def stepGo (t : Fin 8) (s : State) : State :=
  let h := thread s t
  if h.st == .halted && h.kept == .ready then
    boundary t (h.mask != 0) (leaveHalt t (setThread t (fun h => { h with stepping := true }) s))
  else s

/-- The halt of thread `t` that was requested takes effect (R1013, R325, R326, R428). -/
def threadHalted (t : Fin 8) (s : State) : State :=
  let h := thread s t
  match h.haltReq with
  | none => s
  | some c =>
    if h.st == .waiting || (h.st == .ready && h.span == 0 && h.held.isNone && h.micro.isNone && h.starting.isNone) then
      haltThread t c s
    else s

/-! ### Asynchronous exceptions -/

/-- INTERRUPT_TAKEN (R325, R331, R345); a tile instruction is left (R465). -/
def interruptTaken (t : Fin 8) (s : State) : State :=
  let h := thread s t
  if h.st == .ready && h.span == 0 && h.held.isNone && h.micro.isNone && !h.stopReq && h.haltReq.isNone
      && !h.abortDue && h.breakDue.isNone && h.starting.isNone && s.fcol.dump.isNone && !noInt s t && interruptDue s t then
    boundary t h.stepping (asyncExc t 11 (if h.inTile then tileLeave t s else s))
  else s

/-- A user routine cut by an abort counts as completed: the next instruction follows, with no loop-end processing (R429). -/
def cutMicro (t : Fin 8) (s : State) : State :=
  match (thread s t).micro with
  | none => s
  | some m =>
    let s := setThread t (fun h => { settleThread { s := s } h with micro := none }) s
    match (thread s t).slot with
    | some sl => runCont t sl.pc sl.cont m.next (setThread t (fun h => { h with slot := none }) s)
    | none => setThread t (fun h => { h with pc := m.next }) s

/-- ABORT_EXCEPTION (R325, R332, R429, R971). -/
def abortTaken (t : Fin 8) (s : State) : State :=
  let h := thread s t
  let place := (h.st == .ready && (h.span == 0 || h.micro.isSome)) || h.st == .waiting
  if h.abortDue && place && h.haltReq.isNone && h.held.isNone && h.starting.isNone && !noInt s t then
    let s := setThread t (fun h => { h with abortDue := false }) (if h.inTile then tileLeave t s else s)
    let s := cancelWait t (cutMicro t s)
    boundary t h.stepping (abortDone 1 t.val (asyncExc t 9 (setThread t (fun h => { h with begun := true }) s)))
  else s

end Sys2Proof.Machine
end

