-- ==== Sys2Proof/Machine/ExecArith.lean ====
section
/-!
DEFINITION. The meanings of the arithmetic, logic, shift and accumulator instructions (spec/08, R363-R375): thread `t` executes
the instruction with the prefixes `pre`; the wheel serves its microwords in the step itself.
-/

namespace Sys2Proof.Machine

/-- Rd := Rd + src (R363, R372). -/
def execAddOp (t : Fin 8) (pre : List Prefix) (rd : Fin 16) (src : Src) (s : State) : Host.Outcome State Fault Refusal :=
  actAfter 0 (runInstr t pre (.alu .add rd src)) s

/-- Rd := Rd + src + C (R363, R372). -/
def execAdc (t : Fin 8) (pre : List Prefix) (rd : Fin 16) (src : Src) (s : State) : Host.Outcome State Fault Refusal :=
  actAfter 0 (runInstr t pre (.alu .adc rd src)) s

/-- Rd := Rd - src (R363, R372). -/
def execSubOp (t : Fin 8) (pre : List Prefix) (rd : Fin 16) (src : Src) (s : State) : Host.Outcome State Fault Refusal :=
  actAfter 0 (runInstr t pre (.alu .sub rd src)) s

/-- Rd := Rd - src - C (R363, R372). -/
def execSbc (t : Fin 8) (pre : List Prefix) (rd : Fin 16) (src : Src) (s : State) : Host.Outcome State Fault Refusal :=
  actAfter 0 (runInstr t pre (.alu .sbc rd src)) s

/-- The flags of Rd - src (R363, R372). -/
def execCmp (t : Fin 8) (pre : List Prefix) (rd : Fin 16) (src : Src) (s : State) : Host.Outcome State Fault Refusal :=
  actAfter 0 (runInstr t pre (.alu .cmp rd src)) s

/-- Rd := Rd AND src (R364, R372). -/
def execAndOp (t : Fin 8) (pre : List Prefix) (rd : Fin 16) (src : Src) (s : State) : Host.Outcome State Fault Refusal :=
  actAfter 0 (runInstr t pre (.alu .and rd src)) s

/-- Rd := Rd OR src (R364, R372). -/
def execOrOp (t : Fin 8) (pre : List Prefix) (rd : Fin 16) (src : Src) (s : State) : Host.Outcome State Fault Refusal :=
  actAfter 0 (runInstr t pre (.alu .or rd src)) s

/-- Rd := Rd XOR src (R364, R372). -/
def execXorOp (t : Fin 8) (pre : List Prefix) (rd : Fin 16) (src : Src) (s : State) : Host.Outcome State Fault Refusal :=
  actAfter 0 (runInstr t pre (.alu .xor rd src)) s

/-- The flags of Rd AND src (R364, R372). -/
def execTst (t : Fin 8) (pre : List Prefix) (rd : Fin 16) (src : Src) (s : State) : Host.Outcome State Fault Refusal :=
  actAfter 0 (runInstr t pre (.alu .tst rd src)) s

/-- Rd := NOT Rd (R364, R372). -/
def execNotOp (t : Fin 8) (pre : List Prefix) (rd : Fin 16) (s : State) : Host.Outcome State Fault Refusal :=
  actAfter 0 (runInstr t pre (.not rd)) s

/-- Rd := 0 - Rd (R363, R372). -/
def execNegOp (t : Fin 8) (pre : List Prefix) (rd : Fin 16) (s : State) : Host.Outcome State Fault Refusal :=
  actAfter 0 (runInstr t pre (.neg rd)) s

/-- Shift left (R365). -/
def execShl (t : Fin 8) (pre : List Prefix) (rd : Fin 16) (k : Src8) (s : State) : Host.Outcome State Fault Refusal :=
  actAfter 0 (runInstr t pre (.shift .shl rd k)) s

/-- Logical shift right (R365). -/
def execShr (t : Fin 8) (pre : List Prefix) (rd : Fin 16) (k : Src8) (s : State) : Host.Outcome State Fault Refusal :=
  actAfter 0 (runInstr t pre (.shift .shr rd k)) s

/-- Arithmetic shift right (R365). -/
def execSar (t : Fin 8) (pre : List Prefix) (rd : Fin 16) (k : Src8) (s : State) : Host.Outcome State Fault Refusal :=
  actAfter 0 (runInstr t pre (.shift .sar rd k)) s

/-- Rotate left (R365). -/
def execRol (t : Fin 8) (pre : List Prefix) (rd : Fin 16) (k : Src8) (s : State) : Host.Outcome State Fault Refusal :=
  actAfter 0 (runInstr t pre (.shift .rol rd k)) s

/-- AC := Rs x Rt (R288, R373, R392). -/
def execMulOp (t : Fin 8) (pre : List Prefix) (rs rt : Fin 16) (s : State) : Host.Outcome State Fault Refusal :=
  actAfter 0 (runInstr t pre (.mul rs rt)) s

/-- AC := AC + Rs x Rt (R288, R289, R374). -/
def execMac (t : Fin 8) (pre : List Prefix) (rs rt : Fin 16) (s : State) : Host.Outcome State Fault Refusal :=
  actAfter 0 (runInstr t pre (.mac rs rt)) s

/-- AC := AC - Rs x Rt (R288, R289, R374). -/
def execMsu (t : Fin 8) (pre : List Prefix) (rs rt : Fin 16) (s : State) : Host.Outcome State Fault Refusal :=
  actAfter 0 (runInstr t pre (.msu rs rt)) s

/-- AC := a pair of registers or of memory (R290, R373). -/
def execAcld (t : Fin 8) (pre : List Prefix) (x : RegOrEa) (s : State) : Host.Outcome State Fault Refusal :=
  actAfter 0 (runInstr t pre (match x with
    | .reg r => .acldR r
    | .mem ea => .acldM ea)) s

/-- AC bits to a register or to memory (R290, R373, R375). -/
def execAcst (t : Fin 8) (pre : List Prefix) (x : RegOrEa) (s : State) : Host.Outcome State Fault Refusal :=
  actAfter 0 (runInstr t pre (match x with
    | .reg r => .acstR false r
    | .mem ea => .acstM false ea)) s

/-- The rounded AC to a register or to memory (R290, R373, R375). -/
def execAcstR (t : Fin 8) (pre : List Prefix) (x : RegOrEa) (s : State) : Host.Outcome State Fault Refusal :=
  actAfter 0 (runInstr t pre (match x with
    | .reg r => .acstR true r
    | .mem ea => .acstM true ea)) s

end Sys2Proof.Machine
end

