-- ==== Sys2Proof/Machine/Moves.lean ====
section
/-!
DEFINITION. The accesses of the Courier's transfers (spec/11_scratchpad_masters_courier.md, R499, R502, R511, R512, R521-R523).
-/

namespace Sys2Proof.Machine

/-- Channel `c` may make an access: it runs a descriptor, waits for no fetch, flash command or word of flash, and is not
held by a freeze (R521, R1022). -/
def chanReady (s : State) (delivered : Bool) (c : Fin 8) : Bool :=
  let h := chan s c
  h.st == .run && !h.fetch && !h.done && h.poll.isNone && (chanKind h != 2 || delivered)
    && (!courFrozen s || s.flash.owner == .courier c)

/-- The channel served next in rotation (R521). -/
def nextChan (s : State) (delivered : Bool) : Option (Fin 8) :=
  ((List.range 8).map (fun k => thrIdx (s.cour.last + 1 + k))).find? (chanReady s delivered)

/-- The descriptor ends with code `e` (R515, R516). -/
def chanFail (c : Fin 8) (e : Nat) (s : State) : State := setChan c (fun h => { h with err := e, done := true, held := none }) s

/-- The code of a refusal of the source (`src`) or the destination (R499, R515). -/
def refusalCode (src : Bool) : Why → Nat
  | .unmapped => 3
  | .odd => 4
  | .region => if src then 1 else 2
  | .working => if src then 1 else 2

def srcAddr (h : Chan) (k : Nat) : Nat := if h.ctl.getLsbD 4 then h.src else h.src + k * unitWords h
def dstAddr (h : Chan) : Nat := if h.ctl.getLsbD 3 then h.dst else h.dst + h.moved * unitWords h

/-- The words of a unit's value. -/
def unitData (h : Chan) (v : Pair) : List Word := if chanPair h then [lowWord v, highWord v] else [lowWord v]

/-- The words of unit `k` read from the source; none, with the code set, where the read fails. -/
def chanRead (c : Fin 8) (k : Nat) (s : State) : Option (List Word) × State :=
  let h := chan s c
  match memRead (.courier c) true (srcAddr h k) (unitWords h) s with
  | (.ok ws, s) => (some ws, s)
  | (.parity, s) => (none, chanFail c 5 s)
  | (.refused why, s) => (none, chanFail c (refusalCode true why) s)

/-- A unit written to its destination: a discarded write is made once more (R502). -/
def chanPut (c : Fin 8) (v : Pair) (s : State) : State :=
  let h := chan s c
  match memWrite (.courier c) (dstAddr h) (unitData h v) s with
  | (.ok, s) =>
    setRem c (setChan c (fun h =>
      { h with moved := h.moved + 1, held := none, retried := false, done := decide (h.moved + 1 = h.count) }) s)
  | (.collision, s) =>
    if h.retried then setChan c (fun h => { h with collided := true }) (chanFail c 6 s)
    else setChan c (fun h => { h with collided := true, retried := true, held := some v }) s
  | (.refused why, s) => chanFail c (refusalCode false why) s

/-- The flash byte after the page buffer's contents. -/
def pageEnd (h : Chan) : Nat := h.dst + 2 * (h.moved + h.page.length)

/-- A word read into the page buffer; a full page, or the last word, is programmed (R521, R523). -/
def chanPage (c : Fin 8) (s : State) : State :=
  let h := chan s c
  match chanRead c (h.moved + h.page.length) s with
  | (some ws, s) =>
    let s := setChan c (fun h => { h with page := h.page ++ ws }) s
    let h := chan s c
    if pageEnd h % 256 = 0 ∨ h.moved + h.page.length = h.count then chanPoll c .page s else s
  | (none, s) => s

/-- One access of channel `c` (R521). -/
def chanAccess (c : Fin 8) (s : State) : State :=
  let h := chan s c
  match h.held with
  | some v => chanPut c v s
  | none =>
    match chanKind h with
    | 0 =>
      match chanRead c h.moved s with
      | (some ws, s) => setChan c (fun h => { h with held := some (mkPair (ws.getD 0 0) (ws.getD 1 0)) }) s
      | (none, s) => s
    | 1 => chanPut c (BitVec.ofNat 32 h.src) s
    | 2 => chanPut c (mkPair (flashWord s (h.src + 2 * h.moved)) 0) s
    | 3 => chanPage c s
    | _ => s

/-- The next channel in rotation makes its access; `delivered` tells that the flash has a word for a reading channel. -/
def courMove (delivered : Bool) (s : State) : State :=
  match nextChan s delivered with
  | some c => chanAccess c { s with cour := { s.cour with last := c.val } }
  | none => s

end Sys2Proof.Machine
end

