-- ==== Sys2Proof/Machine/ExecBus.lean ====
section
/-!
DEFINITION. The meanings of the register accesses that have rows of their own, of a register write, and of the Courier's and
the store buffer's accesses (R16, R20, R26, R178, R504, R521, and the rules of the registers).
-/

namespace Sys2Proof.Machine

/-- A read of the register at `a` by master `m`; a host's acts where `side` asks for it (R20). -/
def readCmd (m : Master) (side : Bool) (a : Nat) (s : State) : Host.Outcome State Fault Refusal :=
  actRead (regRead m side a) s

/-- GPIO.DROP read (R83). -/
def execGpioDropRead (m : Master) (side : Bool) (s : State) : Host.Outcome State Fault Refusal :=
  readCmd m side Reg.gpio_DROP s

/-- PLINTH.DIPS read (R103). -/
def execDipsRead (m : Master) (side : Bool) (s : State) : Host.Outcome State Fault Refusal :=
  readCmd m side Reg.plinth_DIPS s

/-- THR.WBITSt read (R243). -/
def execWbitsRead (m : Master) (t : Fin 8) (side : Bool) (s : State) : Host.Outcome State Fault Refusal :=
  readCmd m side (Reg.thr_WBITS t) s

/-- THR.SEALSTAT read (R257). -/
def execSealstatRead (m : Master) (side : Bool) (s : State) : Host.Outcome State Fault Refusal :=
  readCmd m side Reg.thr_SEALSTAT s

/-- TILE.SPILLS read (R460). -/
def execSpillsRead (m : Master) (side : Bool) (s : State) : Host.Outcome State Fault Refusal :=
  readCmd m side Reg.tile_SPILLS s

/-- A MEMC counter: CONF0-4, COLL0-4, PCNT, SBHOLD. -/
def memcCounter (i : Fin 12) : Nat :=
  if i.val < 5 then Reg.memc_CONF i else if i.val < 10 then Reg.memc_COLL (i - 5)
  else if i = 10 then Reg.memc_PCNT else Reg.memc_SBHOLD

/-- A MEMC counter read (R538). -/
def execMemcCounterRead (m : Master) (i : Fin 12) (side : Bool) (s : State) : Host.Outcome State Fault Refusal :=
  readCmd m side (memcCounter i) s

/-- INTC.SPUR read (R544). -/
def execSpurRead (m : Master) (side : Bool) (s : State) : Host.Outcome State Fault Refusal :=
  readCmd m side Reg.intc_SPUR s

/-- ANG.REJCNT or ANG.LOSS read (R587). -/
def execAngCounterRead (m : Master) (i : Fin 2) (side : Bool) (s : State) : Host.Outcome State Fault Refusal :=
  readCmd m side (Reg.ang_REJCNT + i.val) s

/-- An Event Table counter: offsets 04h-07h and 11h. -/
def evtCounter (i : Fin 5) : Nat := if i.val < 4 then 0x42404 + i.val else 0x42411

/-- An Event Table counter read (R643). -/
def execEvtCounterRead (m : Master) (i : Fin 5) (side : Bool) (s : State) : Host.Outcome State Fault Refusal :=
  readCmd m side (evtCounter i) s

/-- ADC.RESc read (R671). -/
def execResRead (m : Master) (c : Fin 24) (side : Bool) (s : State) : Host.Outcome State Fault Refusal :=
  readCmd m side (Reg.adc_RES c) s

/-- ADC.KFIFOn read (R687). -/
def execKfifoRead (m : Master) (n : Fin 2) (side : Bool) (s : State) : Host.Outcome State Fault Refusal :=
  readCmd m side (0x4284A + n.val) s

/-- An ADC counter: the words 08h-0Bh, then IMCNT0-3. -/
def adcCounter (i : Fin 8) : Nat := if i.val < 4 then 0x42808 + i.val else 0x428E0 + (i.val - 4)

/-- An ADC counter read (R679). -/
def execAdcCounterRead (m : Master) (i : Fin 8) (side : Bool) (s : State) : Host.Outcome State Fault Refusal :=
  readCmd m side (adcCounter i) s

/-- KERN.CLIP (8) or KERN.LATEk read (R784). -/
def execKernCounterRead (m : Master) (i : Fin 9) (side : Bool) (s : State) : Host.Outcome State Fault Refusal :=
  readCmd m side (if i.val < 8 then 0x43018 + i.val else 0x43009) s

/-- A word of WAILI.ERR read (R806). -/
def execWailiErrRead (m : Master) (hi side : Bool) (s : State) : Host.Outcome State Fault Refusal :=
  readCmd m side (Reg.waili_ERR + hi.toNat) s

/-- A word of LOOP.ERRA, or LOOP.ERRB, read (R896). -/
def execLoopErrRead (m : Master) (i : Fin 3) (side : Bool) (s : State) : Host.Outcome State Fault Refusal :=
  readCmd m side (Reg.loop_ERRA + i.val) s

/-- A CAN counter read (R927). -/
def execCanCounterRead (m : Master) (k : Fin 2) (i : Fin 3) (side : Bool) (s : State) : Host.Outcome State Fault Refusal :=
  readCmd m side (0x43C09 + 0x400 * k.val + i.val) s

/-- KLINE.RXD read (R935). -/
def execRxd (m : Master) (side : Bool) (s : State) : Host.Outcome State Fault Refusal :=
  readCmd m side Reg.kline_RXD s

/-- DBG.VTRX read (R1030). -/
def execVtrx (m : Master) (s : State) : Host.Outcome State Fault Refusal :=
  actRead (vtrxRead m) s

/-- DBG.VTTX written (R1030). -/
def execVttx (m : Master) (c : Byte) (s : State) : Host.Outcome State Fault Refusal :=
  act (vttxWrite m c) s

/-- DBG.STAMPp written (R1031). -/
def execStamp (m : Master) (p : Fin 16) (v : Word) (s : State) : Host.Outcome State Fault Refusal :=
  act (stampRegWrite m p v) s

/-- WAILI.UTX written (R840, R842). -/
def execUtx (m : Master) (c : Byte) (s : State) : Host.Outcome State Fault Refusal :=
  act (utxWrite m c) s

/-- WAILI.UEND written (R840). -/
def execUend (m : Master) (v : Word) (s : State) : Host.Outcome State Fault Refusal :=
  act (uendWrite m v) s

/-- A register written over the bus (R16, R498). -/
def execRegisterWrite (m : Master) (addr : Nat) (v : Word) (s : State) : Host.Outcome State Fault Refusal :=
  act (fun s => (memWrite m addr [v] s).2) s

/-- A word of the working copy written over the bus (R178); another address is not this command's. -/
def execWorkingCopyWrite (m : Master) (addr : Nat) (v : Word) (s : State) : Host.Outcome State Fault Refusal :=
  act (fun s => if isWorking addr then (memWrite m addr [v] s).2 else s) s

/-- THR.WCMT written 0001h (R241). -/
def execWcmt (m : Master) (s : State) : Host.Outcome State Fault Refusal :=
  act (wcmtWrite m 1) s

/-- The slot pointer reaches slot 0 with a commit pending (R241). -/
def execWheelCommitApply (s : State) : Host.Outcome State Fault Refusal :=
  actDue wheelDue wheelCommit s

/-- THR.TMRt written (R249). -/
def execThreadTimerWrite (m : Master) (t : Fin 8) (v : Word) (s : State) : Host.Outcome State Fault Refusal :=
  act (timerWrite m t v) s

/-- THR.TMRt reaches 0 (R249). -/
def execThreadTimerExpiry (t : Fin 8) (s : State) : Host.Outcome State Fault Refusal :=
  actDue (fun s => timerDue s t) (timerExpiry t) s

/-- THR.MCCMD written 0001h (R433). -/
def execMccmdWrite (m : Master) (s : State) : Host.Outcome State Fault Refusal :=
  act (mccmdWrite m 1) s

/-- THR.MCCMD written 0002h (R443). -/
def execMccmdRead (m : Master) (s : State) : Host.Outcome State Fault Refusal :=
  act (mccmdWrite m 2) s

/-- The DUMP routine starts (R973). -/
def execDumpWrite (m : Master) (s : State) : Host.Outcome State Fault Refusal :=
  act (dumpStart m) s

/-- The DUMP routine ends (R977). -/
def execDumpEnd (s : State) : Host.Outcome State Fault Refusal :=
  act dumpEnd s

/-- A Courier channel makes one access (R521). -/
def execCourierUnitMove (dt : Nat) (delivered : Bool) (s : State) : Host.Outcome State Fault Refusal :=
  actAfter dt (courMove delivered) s

/-- The oldest entry of the store buffer drains (R504). -/
def execStoreDrain (dt : Nat) (s : State) : Host.Outcome State Fault Refusal :=
  actAfter dt sbDrain s

/-- The all-waiting stall is declared (R252). -/
def execStallDeclared (s : State) : Host.Outcome State Fault Refusal :=
  act stallDeclare s

end Sys2Proof.Machine
end

