-- ==== Sys2Proof/Machine/Chisel.lean ====
section
/-!
DEFINITION. The Chisel port: its X: space, register access to halted threads, the lock, the OTP commands, and the
requests (spec/22_chisel_debug_trace.md, R991-R1021, R1030, R1036-R1044).
-/

namespace Sys2Proof.Machine

/-! ### Answers (R996, R999) -/

abbrev ackOK : Nat := 6
abbrev ackWAIT : Nat := 5
abbrev ackPARITY : Nat := 3
abbrev ackERROR : Nat := 4
abbrev ackCOLL : Nat := 2
abbrev ackLOCKED : Nat := 1
/-- Nothing drives DIO: its pull-up reads as ones. -/
abbrev ackNone : Nat := 7

def ansOk (d : Pair) : ChAns := { ack := ackOK, data := d }
def ansOnly (a : Nat) : ChAns := { ack := a, data := 0 }

/-- An ERROR writes its reason to DSTAT.ECODE. -/
def chErr (e : Nat) (s : State) : ChAns × State := (ansOnly ackERROR, setXregF X.dstat 0 4 e s)

/-- The words a packet leaves: ACK, then the data of an OK. -/
def chAnswer (r : ChAns × State) : State :=
  { r.2 with result :=
      if r.1.ack = ackOK then [wd r.1.ack, lowWord r.1.data, highWord r.1.data] else [wd r.1.ack] }

/-! ### Registers of a halted thread (R1017) -/

/-- The thread, the HI bit and the number of RSEL. -/
def rselThread (s : State) : Fin 8 := thrIdx (fld (xreg s X.rsel) 13 3)
def rselHigh (s : State) : Bool := xregBit s X.rsel 12
def rselNo (s : State) : Nat := fld (xreg s X.rsel) 0 8

/-- The number names a register. -/
def rdataOk (n : Nat) : Bool := decide (n < 0x24) || n == 0x24 || decide (0x25 ≤ n ∧ n < 0x2B) || decide (0x30 ≤ n ∧ n < 0x48)

/-- The three words of a descriptor (R278). -/
def segWords (g : Seg) : List Word :=
  [g.base.setWidth 16, wd (g.en.toNat * 0x8000 + g.wr.toNat * 0x4000 + fld g.base 16 4), g.limit]

/-- The register with number `n` of thread `t`, in 32 bits. -/
def rdataGet (t : Fin 8) (h : Thread) (n : Nat) : Pair :=
  if hn : n < 16 then (h.r[n]).setWidth 32
  else if n < 0x24 then crRead h t (n - 0x10)
  else if n = 0x24 then h.pc.setWidth 32
  else if n < 0x2B then
    let a := if n < 0x28 then h.ac[0] else h.ac[1]
    match (n - 0x25) % 3 with
    | 0 => (a.extractLsb' 0 16).setWidth 32
    | 1 => (a.extractLsb' 16 16).setWidth 32
    | _ => (a.extractLsb' 32 8).setWidth 32
  else ((segWords h.sg[(thrIdx ((n - 0x30) / 3))]).getD ((n - 0x30) % 3) 0).setWidth 32

/-- A PSW write of the port: every bit but SYS, and DISC for TH0 and TH1 only. -/
def rdataPsw (t : Fin 8) (v : Word) (h : Thread) : Thread :=
  let m : Word := if t.val < 2 then 0x07FF else 0x077F
  setPsw ((h.psw &&& ~~~m) ||| (v &&& m)) h

/-- Word `i` of an accumulator replaced. -/
def accWord (a : BitVec 40) (i : Nat) (v : Word) : BitVec 40 :=
  match i with
  | 0 => putFld a 0 16 v.toNat
  | 1 => putFld a 16 16 v.toNat
  | _ => putFld a 32 8 v.toNat

/-- The register with number `n` written with 32 bits. -/
def rdataPut (t : Fin 8) (n : Nat) (v : Pair) (h : Thread) : Thread :=
  let w := lowWord v
  if hn : n < 16 then putR ⟨n, hn⟩ w h
  else if n = 0x10 then rdataPsw t w h
  else if n < 0x24 then crWrite (n - 0x10) v h
  else if n = 0x24 then { h with pc := v.setWidth 17 }
  else if n < 0x2B then
    let k : Fin 2 := if n < 0x28 then 0 else 1
    { h with ac := h.ac.set k (accWord h.ac[k] ((n - 0x25) % 3) w) }
  else
    let k := thrIdx ((n - 0x30) / 3)
    let l := (segWords h.sg[k]).set ((n - 0x30) % 3) w
    { h with sg := h.sg.set k (segOfWords (l.getD 0 0) (l.getD 1 0) (l.getD 2 0)) }

/-- An RDATA access may be made: the thread is HALTED, and the number names a register. -/
def rdataMay (s : State) : Bool := (thread s (rselThread s)).st == .halted && rdataOk (rselNo s)

def rdataRead (s : State) : ChAns × State :=
  let t := rselThread s
  if rdataMay s then
    let v := rdataGet t (thread s t) (rselNo s)
    (ansOk ((if rselHigh s then highWord v else lowWord v).setWidth 32), s)
  else chErr 4 s

/-- A write replaces the half that HI names. -/
def rdataWrite (v : Word) (s : State) : ChAns × State :=
  let t := rselThread s
  if rdataMay s then
    let old := rdataGet t (thread s t) (rselNo s)
    let new := if rselHigh s then mkPair (lowWord old) v else mkPair v (highWord old)
    (ansOk 0, setThread t (rdataPut t (rselNo s) new) s)
  else chErr 4 s

/-! ### The code store (R1012) -/

def cadr (s : State) : Nat := (xreg s X.cadrl).toNat + fld (xreg s X.cadrh) 0 1 * 0x10000

def cadrNext (s : State) : State :=
  let a := (cadr s + 1) % 0x20000
  setXreg X.cadrh (wd (a / 0x10000)) (setXreg X.cadrl (wd a) s)

def cdatRead (s : State) : ChAns × State :=
  (ansOk ((cget codeDefault s.flash.code (cadr s)).setWidth 32), cadrNext s)

def cdatWrite (v : Word) (s : State) : ChAns × State :=
  (ansOk 0, cadrNext { s with flash := { s.flash with code := cset codeDefault s.flash.code (cadr s) (v.setWidth 8) } })

/-! ### Run control (R1013-R1016) -/

/-- HCTL written. -/
def hctlWrite (v : Word) (s : State) : State :=
  let s := (List.finRange 8).foldl (fun s (t : Fin 8) =>
    if v.getLsbD (8 + t.val) then requestHalt { cause := causeRequest } t s else s) s
  (List.finRange 8).foldl (fun s (t : Fin 8) => if v.getLsbD t.val then resumeThread t s else s) s

/-- STEP written. -/
def stepWrite (v : Word) (s : State) : State :=
  (List.finRange 8).foldl (fun s (t : Fin 8) => if v.getLsbD t.val then stepGo t s else s) (setXreg X.step (v &&& 0x8000) s)

def hstatWord (s : State) : Word :=
  wd ((List.finRange 8).foldl (fun w (t : Fin 8) =>
    w + (thread s t).haltReq.isSome.toNat * 2 ^ (8 + t.val) + ((thread s t).st == .halted).toNat * 2 ^ t.val) 0)

def hcauseWord (s : State) (t : Fin 8) : Word :=
  let h := thread s t
  if h.st == .halted then wd (h.haltedBy.cause * 0x1000 + stateCode h.kept * 0x400 + h.haltedBy.cmp) else 0

/-! ### The lock (R1002-R1006) -/

def lockoutOn (s : State) : Bool := s.chisel.lockout.isSome

/-- Byte `i` of a 128-bit value (R1004). -/
def bytes128 (v : BitVec 128) : List Byte := (List.range 16).map (fun i => v.extractLsb' (8 * i) 8)

/-- The words of RESP or OTPDATA as bytes. -/
def xBytes (s : State) (a : Nat) : List Byte :=
  (List.range 16).map (fun i => (xreg s (a + i / 2)).extractLsb' (8 * (i % 2)) 8)

/-- A new challenge: a free value, since the spec gives none. -/
def newChallenge (s : State) : State :=
  { setChisel (fun c => { c with chal := Config.freeChallenge s.free }) s with free := s.free + 1 }

/-- The response is right: DKEY is 1, and RESP holds the encrypted challenge. -/
def responseRight (s : State) : Bool :=
  xregBit s X.lstat 14 && aes128 (bytes128 s.otp.debugKey) (bytes128 s.chisel.chal) == xBytes s (X.resp 0)

/-- A failed attempt (R1005). -/
def unlockFail (s : State) : State :=
  let s := raise { cls := clsSecurity, detail := 0x0100 } s
  let s := setXregF X.lstat 0 8 (satAdd 255 (fld (xreg s X.lstat) 0 8) 1) s
  setChisel (fun c => { c with lockout := some (s.now + 1000 * msTicks) }) s

/-- An unlock attempt (R1004). -/
def unlockAttempt (s : State) : State :=
  newChallenge (if responseRight s then setChisel (fun c => { c with locked := false }) s else unlockFail s)

/-- An X: register of identification or of the lock, which a relock keeps. -/
def keptByRelock (a : Nat) : Bool := decide (a ≤ 2) || decide (0x400 ≤ a ∧ a < 0x418)

/-- A relock (R1006). -/
def relock (s : State) : State :=
  if regBit s Reg.sys_OTPSTAT 14 then
    let s := (List.finRange 8).foldl (fun s (t : Fin 8) =>
      resumeThread t (setThread t (fun h => { h with haltReq := none }) s)) s
    let test := xregBit s X.dstat 14
    let s := { s with xregs := s.xregs.filter (fun e => keptByRelock e.1), trace := {} }
    let s := setXreg X.dstat (wd (test.toNat * 0x4000)) s
    setChisel (fun c => { c with
      locked := true, held := none, drop := c.drop || c.prog.isSome, vtIn := [], vtOut := [] }) s
  else s

/-- LCTL written; ignored while LOCKOUT is 1. -/
def lctlWrite (v : Word) (s : State) : State :=
  if lockoutOn s then s else if v = 0x5A5A then unlockAttempt s else if v = 0xA5A5 then relock s else s

def lockoutDue (s : State) : Nat := s.chisel.lockout.getD s.now

def lockoutEnd (s : State) : State :=
  match s.chisel.lockout with
  | some d => if d ≤ s.now then setChisel (fun c => { c with lockout := none }) s else s
  | none => s

/-! ### OTP (R1007, R1008) -/

/-- The result of an OTP command that is refused, or none. -/
def otpRefused (s : State) (k : Nat) : Option Nat :=
  let v := (reg s (Reg.mon_VAL 3)).toNat
  if s.chisel.locked || !inSetup s || decide (v < 9000 ∨ 18000 < v) then some 1
  else
    let bad := match k with
      | 1 => s.otp.keyprg
      | 2 => s.otp.dkey
      | 3 => s.otp.authen || !s.otp.keyprg
      | _ => s.otp.dbglock || !s.otp.dkey
    if bad then some 2 else none

def otpResult (n : Nat) (s : State) : State := setXregF X.otpst 0 2 n s

/-- OTPCMD written; ignored while a command runs. A refused command leaves its result and is answered ERROR with code 8
(R999, R1007). -/
def otpCommand (k : Nat) (s : State) : ChAns × State :=
  if s.chisel.otp.isSome || decide (k = 0 ∨ 4 < k) then (ansOk 0, s)
  else
    match otpRefused s k with
    | some n => chErr 8 (otpResult n s)
    | none => (ansOk 0, setChisel (fun c => { c with otp := some k }) s)

/-- The bytes of OTPDATA as a key. -/
def otpDataKey (s : State) : BitVec 128 :=
  BitVec.ofNat 128 ((List.range 8).foldl (fun v w => v + (xreg s (X.otpdata w)).toNat * 2 ^ (16 * w)) 0)

/-- What command `k` programs. -/
def otpProgram (k : Nat) (key : BitVec 128) (flag : Bool) (s : State) : State :=
  { s with otp :=
      match k with
      | 1 => { s.otp with imageKey := key, keyprg := flag }
      | 2 => { s.otp with debugKey := key, dkey := flag }
      | 3 => { s.otp with authen := flag }
      | _ => { s.otp with dbglock := flag } }

/-- OTPDATA cleared. -/
def otpClear (s : State) : State := (List.range 8).foldl (fun s w => setXreg (X.otpdata w) 0 s) s

/-- An OTP command completes. What a failed one leaves in its field is a free value. -/
def otpEnd (ok : Bool) (s : State) : State :=
  match s.chisel.otp with
  | none => s
  | some k =>
    let s :=
      if ok then otpResult 0 (otpProgram k (otpDataKey s) true s)
      else otpResult 3 { otpProgram k (Config.freeChallenge s.free) (Config.freeBool s.free) s with free := s.free + 1 }
    otpClear (setChisel (fun c => { c with otp := none }) s)

def otpstWord (s : State) : Word :=
  let o := s.otp
  wd (s.chisel.otp.isSome.toNat * 0x8000 + o.keyprg.toNat * 0x800 + o.dkey.toNat * 0x400 + o.authen.toNat * 0x200
    + o.dbglock.toNat * 0x100 + fld (xreg s X.otpst) 0 2)

/-! ### The X: space (R1009) -/

def dstatWord (s : State) : Word :=
  let c := s.chisel
  wd (c.locked.toNat * 0x8000 + c.held.isSome.toNat * 0x2000 + c.prog.isSome.toNat * 0x1000) ||| (xreg s X.dstat &&& 0x400F)

def lstatWord (s : State) : Word :=
  wd (s.chisel.locked.toNat * 0x8000 + (lockoutOn s).toNat * 0x2000) ||| (xreg s X.lstat &&& 0x40FF)

/-- An XRD. -/
def xRead (a : Nat) (s : State) : ChAns × State :=
  let ok (w : Word) : ChAns × State := (ansOk (w.setWidth 32), s)
  if a = 0 then ok 0x4816
  else if a = 1 then ok (reg s Reg.sys_ID)
  else if a = 2 then ok 1
  else if a = X.dstat then ok (dstatWord s)
  else if a = X.hpol then ok (putBit (xreg s a) 15 (freezing s))
  else if a = 0x12 then ok (hstatWord s)
  else if a = 0x21 then rdataRead s
  else if 0x28 ≤ a ∧ a < 0x30 then ok (hcauseWord s (thrIdx (a - 0x28)))
  else if a = X.cdat then cdatRead s
  else if 0x100 ≤ a ∧ a < 0x180 then
    (if a % 16 = 8 then (ansOk ((xreg s a).setWidth 32), setXreg a 0 s) else ok (xreg s a))
  else if a = 0x201 then
    let r := vtoutPop s
    (ansOk (r.1.setWidth 32), r.2)
  else if a = 0x202 then ok (wd (s.chisel.vtIn.length * 0x100 + s.chisel.vtOut.length))
  else if a = X.trstat then
    let s := traceDrain s
    (ansOk ((wd (fld (xreg s a) 8 8 * 0x100 + s.trace.fifo.length)).setWidth 32), setXreg a 0 s)
  else if a = X.lstat then ok (lstatWord s)
  else if 0x408 ≤ a ∧ a < 0x410 then ok (s.chisel.chal.extractLsb' (16 * (a - 0x408)) 16)
  else if a = X.otpst then ok (otpstWord s)
  else if a = X.dctl ∨ a = X.step ∨ a = X.hstart ∨ a = X.rsel ∨ a = X.cadrl ∨ a = X.cadrh ∨ (0x300 ≤ a ∧ a < 0x303) then
    ok (xreg s a)
  else ok 0

/-- An XWR. -/
def xWrite (a : Nat) (v : Word) (s : State) : ChAns × State :=
  let ok (s : State) : ChAns × State := (ansOk 0, s)
  if a = X.dctl then ok (setXreg a (v &&& 0xE000) s)
  else if a = X.dstat then ok (setXregF a 0 4 v.toNat s)
  else if a = X.hpol then ok (setXreg a (v &&& 0x3F) s)
  else if a = 0x10 then ok (hctlWrite v s)
  else if a = X.step then ok (stepWrite v s)
  else if a = X.hstart then ok (setXreg a (v &&& 0xFF) s)
  else if a = X.rsel ∨ a = X.cadrl then ok (setXreg a v s)
  else if a = 0x21 then rdataWrite v s
  else if a = X.cadrh then ok (setXreg a (v &&& 1) s)
  else if a = X.cdat then cdatWrite v s
  else if 0x100 ≤ a ∧ a < 0x180 then
    (if a % 16 = 0 then ok (setXreg a (v &&& 0xFFC0) s) else if a % 16 < 8 then ok (setXreg a v s) else ok s)
  else if a = 0x200 then (if vtinFull s then (ansOnly ackWAIT, s) else ok (vtinPut (v.setWidth 8) s))
  else if a = X.trctl then ok (trctlWrite v s)
  else if a = X.trdiv then ok (setXreg a (v &&& 0xFF) (traceDrain s))
  else if a = X.trstm then ok (setXreg a v s)
  else if a = 0x400 then ok (lctlWrite v s)
  else if 0x410 ≤ a ∧ a < 0x418 then ok (setXreg a v s)
  else if a = 0x500 then otpCommand v.toNat s
  else if 0x508 ≤ a ∧ a < 0x510 then ok (setXreg a v s)
  else ok s

/-! ### Requests (R994-R1003) -/

/-- A request of operation `op` on address `a` while the lock or TESTEN is in force: its answer, or none. CDAT has an
answer of its own while locked (R1012). -/
def portRefused (op a : Nat) (s : State) : Option (ChAns × State) :=
  let ident := op == 0 && decide (a ≤ 2)
  if xregBit s X.dstat 14 && !ident then some (chErr 5 s)
  else if s.chisel.locked && decide (op < 2) && a == X.cdat then some (chErr 8 s)
  else if s.chisel.locked && !(ident || (op == 0 && decide (0x400 ≤ a ∧ a < 0x410))
      || (op == 1 && (a == 0x400 || decide (0x410 ≤ a ∧ a < 0x418)))) then some (ansOnly ackLOCKED, s)
  else none

/-- The fields of a request. -/
def reqOp (r : ChReq) : Nat := fld r.req 1 3
def reqAddr (r : ChReq) : Nat := fld r.req 4 20
def reqSize (r : ChReq) : Nat := fld r.req 24 2
def reqSE (r : ChReq) : Bool := r.req.getLsbD 26
def reqStop (r : ChReq) : Bool := r.req.getLsbD 28

/-- The number of ones in a value. -/
def ones {n : Nat} (v : BitVec n) : Nat := (List.range n).foldl (fun k i => k + (v.getLsbD i).toNat) 0

def parOk (r : ChReq) : Bool := ones (r.req.extractLsb' 1 27) % 2 == 1

/-- The data of a write as its SIZE says, and whether DPAR is right. -/
def reqData (r : ChReq) : Pair := if reqSize r = 2 then r.data else r.data &&& 0xFFFF
def dparOk (r : ChReq) (dpar : Bool) : Bool := (ones (reqData r) + dpar.toNat) % 2 == 1

/-- The fields are ones R997 allows: none, or the ECODE. -/
def reqBad (r : ChReq) : Option Nat :=
  let op := reqOp r
  if 4 ≤ op ∨ (op < 2 ∧ 0x10000 ≤ reqAddr r) then some 7
  else if reqSize r = 1 ∨ (reqSize r = 2 ∧ 2 ≤ op) then none
  else some 1

/-- The access of a request as the debug bus master (R1011), or to X:. -/
def reqAccess (r : ChReq) (s : State) : ChAns × State :=
  let a := reqAddr r
  let w := if reqSize r = 2 then 2 else 1
  match reqOp r with
  | 0 => xRead a s
  | 1 => xWrite a (lowWord r.data) s
  | 2 =>
    match memRead .debug (reqSE r) a w s with
    | (.ok ws, s) => (ansOk (mkPair (ws.getD 0 0) (ws.getD 1 0)), s)
    | (.refused _, s) => chErr 2 s
    | (.parity, s) => chErr 3 s
  | _ =>
    match memWrite .debug a (if w = 2 then [lowWord r.data, highWord r.data] else [lowWord r.data]) s with
    | (.ok, s) => (ansOk 0, s)
    | (.collision, s) => (ansOnly ackCOLL, s)
    | (.refused _, s) => chErr 2 s

/-- A request whose packet is whole: held outcomes, the checks, then the access, whose outcome may be late (R998). -/
def portServe (r : ChReq) (dpar late : Bool) (s : State) : ChAns × State :=
  if s.chisel.prog.isSome then (ansOnly ackWAIT, s)
  else
    let wr := reqOp r == 1 || reqOp r == 3
    let good := !wr || dparOk r dpar
    let held := s.chisel.held
    let s := setChisel (fun c => { c with held := none }) s
    if !parOk r then (ansOnly ackPARITY, s)
    else
      match portRefused (reqOp r) (reqAddr r) s with
      | some x => x
      | none =>
        match (if good then held.bind (fun p => if p.1 = r then some p.2 else none) else none) with
        | some a => (a, s)
        | none =>
          match reqBad r with
          | some e => chErr e s
          | none =>
            if !good then chErr 6 s
            else if late && decide (2 ≤ reqOp r) then
              (ansOnly ackWAIT, setChisel (fun c => { c with prog := some r, drop := false }) s)
            else reqAccess r s

/-- A packet on the wire (R994-R997): a request without its STOP makes the port ignore DIO until a line reset. -/
def portPacket (r : ChReq) (dpar late : Bool) (s : State) : ChAns × State :=
  if s.chisel.dead || r.req.getLsbD 0 then (ansOnly ackNone, s)
  else if !reqStop r then (ansOnly ackNone, setChisel (fun c => { c with dead := true }) s)
  else portServe r dpar late s

/-- A packet of one of the operations `ops`; any other is not this row's. -/
def portRow (ops : Nat → Bool) (r : ChReq) (dpar late : Bool) (s : State) : State :=
  if ops (reqOp r) then chAnswer (portPacket { r with data := reqData r } dpar late s) else s

/-- The request bits of a word access of X: `op` 0 reads, 1 writes. -/
def xReqBits (op a : Nat) : BitVec 29 :=
  let b : BitVec 29 := BitVec.ofNat 29 (op * 2 + a * 16 + 2 ^ 24 + 2 ^ 28)
  if ones (b.extractLsb' 1 27) % 2 = 1 then b else b ||| BitVec.ofNat 29 (2 ^ 27)

/-- A read of the X: register at `a` by the host, and a write. -/
def hostRead (a : Nat) (s : State) : State := chAnswer (portPacket { req := xReqBits 0 a, data := 0 } true false s)
def hostWrite (a : Nat) (v : Word) (s : State) : State :=
  chAnswer (portPacket { req := xReqBits 1 a, data := v.setWidth 32 } (ones v % 2 == 0) false s)

/-- A late access completes: its outcome is held, unless a line reset or a relock dropped it (R998, R1039). -/
def portDone (s : State) : State :=
  match s.chisel.prog with
  | none => s
  | some r =>
    let x := reqAccess r s
    setChisel (fun c => { c with
      prog := none, drop := false, held := if c.drop then none else some (r, x.1) }) x.2

/-- A line reset (R993, R1039). -/
def lineReset (s : State) : State :=
  setChisel (fun c => { c with dead := false, held := none, drop := c.drop || c.prog.isSome }) s

end Sys2Proof.Machine
end

