-- ==== Sys2Proof/Machine/ExecChisel.lean ====
section
/-!
DEFINITION. The rows of the Chisel port (spec/22_chisel_debug_trace.md).
-/

namespace Sys2Proof.Machine

/-- A line reset (R993). -/
def execLineReset (s : State) : Host.Outcome State Fault Refusal :=
  act lineReset s

/-- A request to read X:, as its 29 periods; a reserved OP comes here too (R994-R997, R1009). -/
def execXrd (req : BitVec 29) (s : State) : Host.Outcome State Fault Refusal :=
  act (portRow (fun op => decide (op = 0 ∨ 4 ≤ op)) { req := req, data := 0 } true false) s

/-- A request to write X:, with its data and DPAR (R995, R1009). -/
def execXwr (req : BitVec 29) (data : Pair) (dpar : Bool) (s : State) : Host.Outcome State Fault Refusal :=
  act (portRow (· == 1) { req := req, data := data } dpar false) s

/-- A request to read the data space; `late` tells that the outcome is not there one DCK period on (R998, R1011). -/
def execDrd (req : BitVec 29) (late : Bool) (s : State) : Host.Outcome State Fault Refusal :=
  act (portRow (· == 2) { req := req, data := 0 } true late) s

/-- A request to write the data space (R998, R1011). -/
def execDwr (req : BitVec 29) (data : Pair) (dpar late : Bool) (s : State) : Host.Outcome State Fault Refusal :=
  act (portRow (· == 3) { req := req, data := data } dpar late) s

/-- An access that answered WAIT completes (R998). -/
def execChiselAccessDone (dt : Nat) (s : State) : Host.Outcome State Fault Refusal :=
  actAfter dt portDone s

/-- HALT bit `n` of HCTL written (R1013). -/
def execHaltReq (n : Fin 8) (s : State) : Host.Outcome State Fault Refusal :=
  act (hostWrite 0x10 (wd (2 ^ (8 + n.val)))) s

/-- A requested halt takes effect (R1013). -/
def execThreadHalted (dt : Nat) (t : Fin 8) (s : State) : Host.Outcome State Fault Refusal :=
  actAfter dt (threadHalted t) s

/-- RESUME bit `n` of HCTL written (R1015). -/
def execResume (n : Fin 8) (s : State) : Host.Outcome State Fault Refusal :=
  act (hostWrite 0x10 (wd (2 ^ n.val))) s

/-- GO bit `n` of STEP written, with NOINT (R1016). -/
def execStepThread (n : Fin 8) (noint : Bool) (s : State) : Host.Outcome State Fault Refusal :=
  act (hostWrite 0x11 (wd (noint.toNat * 0x8000 + 2 ^ n.val))) s

/-- RDATA read or written (R1017). -/
def execRdata (wr : Bool) (v : Word) (s : State) : Host.Outcome State Fault Refusal :=
  act (if wr then hostWrite 0x21 v else hostRead 0x21) s

/-- CDAT read or written (R1012). -/
def execCdat (wr : Bool) (v : Word) (s : State) : Host.Outcome State Fault Refusal :=
  act (if wr then hostWrite 0x32 v else hostRead 0x32) s

/-- VTIN written (R1030). -/
def execVtin (c : Byte) (s : State) : Host.Outcome State Fault Refusal :=
  act (hostWrite 0x200 (c.setWidth 16)) s

/-- VTOUT read (R1030). -/
def execVtout (s : State) : Host.Outcome State Fault Refusal :=
  act (hostRead 0x201) s

/-- LCTL written 5A5Ah (R1004, R1005). -/
def execUnlockAttempt (s : State) : Host.Outcome State Fault Refusal :=
  act (hostWrite 0x400 0x5A5A) s

/-- LCTL written A5A5h (R1006). -/
def execRelock (s : State) : Host.Outcome State Fault Refusal :=
  act (hostWrite 0x400 0xA5A5) s

/-- The second after a failed attempt ends (R1005). -/
def execLockoutEnd (s : State) : Host.Outcome State Fault Refusal :=
  actDue lockoutDue lockoutEnd s

/-- OTPCMD written 0001h (R1007). -/
def execOtpProgramImageKey (s : State) : Host.Outcome State Fault Refusal :=
  act (hostWrite 0x500 1) s

/-- OTPCMD written 0002h (R1007). -/
def execOtpProgramDebugKey (s : State) : Host.Outcome State Fault Refusal :=
  act (hostWrite 0x500 2) s

/-- OTPCMD written 0003h (R1007). -/
def execOtpSetAuthen (s : State) : Host.Outcome State Fault Refusal :=
  act (hostWrite 0x500 3) s

/-- OTPCMD written 0004h (R1007). -/
def execOtpSetDbglock (s : State) : Host.Outcome State Fault Refusal :=
  act (hostWrite 0x500 4) s

/-- An OTP command completes, verified or not (R1008). -/
def execOtpCommandEnd (dt : Nat) (ok : Bool) (s : State) : Host.Outcome State Fault Refusal :=
  actAfter dt (otpEnd ok) s

end Sys2Proof.Machine
end

