-- ==== Sys2Proof/Machine/ExecComms.lean ====
section
/-!
DEFINITION. The meanings of the commands of the Loop, the CAN controllers, the K-line and the Postmark compares (spec/19, 20, 23).
-/

namespace Sys2Proof.Machine

/-- The head starts a round (R876). -/
def execRoundStart (s : State) : Host.Outcome State Fault Refusal :=
  actDue roundDue roundStart s

/-- An out leg reaches the unit with the header `h0` to `h3` (R875). -/
def execOutLegStart (dt : Nat) (h0 h1 h2 h3 : Word) (s : State) : Host.Outcome State Fault Refusal :=
  actAfter dt (outLegStart ⟨h0, h1, h2, h3⟩) s

/-- A back leg is received (R896). -/
def execBackLeg (dt : Nat) (ldrx : Bool) (turn : Nat) (h0 h1 h2 h3 : Word) (slots : List (Vector Word 8)) (t0 t1 : Word) (s : State) : Host.Outcome State Fault Refusal :=
  actAfter dt (backLeg ldrx turn ⟨h0, h1, h2, h3⟩ slots (t0, t1)) s

/-- The fold timeout passes (R879). -/
def execFoldTimeout (s : State) : Host.Outcome State Fault Refusal :=
  actDue foldDue foldTimeout s

/-- The unit finds the first empty slot of an enumeration round (R883). -/
def execEnumeration (dt : Nat) (slot : Option (Fin 64)) (s : State) : Host.Outcome State Fault Refusal :=
  actAfter dt (enumeration slot) s

/-- LOOP.CMD written 0001h (R884). -/
def execLoopEnumerate (m : Master) (s : State) : Host.Outcome State Fault Refusal :=
  act (loopEnumerate m) s

/-- A head registers an SD on LURX (R882). -/
def execSecondHead (dt : Nat) (s : State) : Host.Outcome State Fault Refusal :=
  actAfter dt secondHead s

/-- No valid back leg for 3 × T(N) (R901). -/
def execSilent (s : State) : Host.Outcome State Fault Refusal :=
  actDue silentDue loopSilent s

/-- The epoch tick arrives (R890). -/
def execLoopEpoch (s : State) : Host.Outcome State Fault Refusal :=
  actDue epochTick loopEpoch s

/-- LOOP.RSTREQ written (R904). -/
def execRstreq (m : Master) (v : Word) (s : State) : Host.Outcome State Fault Refusal :=
  act (rstreqWrite m v) s

/-- A period passes without a valid back leg (R901). -/
def execRmissPeriod (s : State) : Host.Outcome State Fault Refusal :=
  actDue rmissDue rmissPeriod s

/-- MCTL of controller `k` written (R918). -/
def execCanModeWrite (m : Master) (k : Fin 2) (v : Word) (s : State) : Host.Outcome State Fault Refusal :=
  act (mctlWrite m k v) s

/-- 11 recessive bits were seen (R918). -/
def execCanIntegrated (dt : Nat) (k : Fin 2) (s : State) : Host.Outcome State Fault Refusal :=
  actAfter dt (canIntegrated k) s

/-- A valid frame ends (R923). -/
def execCanFrameReceived (dt : Nat) (k : Fin 2) (id : BitVec 29) (ide rtr fdf brs esi : Bool) (dlc : BitVec 4) (data : List Byte) (s : State) : Host.Outcome State Fault Refusal :=
  actAfter dt (canReceived k ⟨id, ide, rtr, fdf, brs, esi, dlc, data⟩) s

/-- TXREQ of controller `k` written (R924). -/
def execTxreq (m : Master) (k : Fin 2) (v : Pair) (s : State) : Host.Outcome State Fault Refusal :=
  act (txreqWrite m k v) s

/-- A transmission succeeds; `delay` is the delay measured (R925). -/
def execCanTxDone (dt : Nat) (k : Fin 2) (delay : BitVec 7) (s : State) : Host.Outcome State Fault Refusal :=
  actAfter dt (canTxDone k delay) s

/-- TXCAN of controller `k` written (R926). -/
def execTxcan (m : Master) (k : Fin 2) (v : Pair) (s : State) : Host.Outcome State Fault Refusal :=
  act (txcanWrite m k v) s

/-- A protocol error is detected (R927). -/
def execCanError (dt : Nat) (k : Fin 2) (px dataPhase : Bool) (code : BitVec 3) (tx special : Bool) (s : State) : Host.Outcome State Fault Refusal :=
  actAfter dt (canErrorEvent k px dataPhase code tx special) s

/-- Bus-off recovery completes (R921). -/
def execBusOffRecovered (dt : Nat) (k : Fin 2) (s : State) : Host.Outcome State Fault Refusal :=
  actAfter dt (canRecovered k) s

/-- Controller `k` loses arbitration (R925). -/
def execCanArbitrationLost (dt : Nat) (k : Fin 2) (s : State) : Host.Outcome State Fault Refusal :=
  actAfter dt (canArbLost k) s

/-- KLINE.TXD written (R935). -/
def execTxd (m : Master) (b : Byte) (s : State) : Host.Outcome State Fault Refusal :=
  act (txdWrite m b) s

/-- A byte was sent and its echo read (R935). -/
def execKlineByteSent (dt : Nat) (echo : Byte) (fe : Bool) (s : State) : Host.Outcome State Fault Refusal :=
  actAfter dt (klineByteSent echo fe) s

/-- A byte is received (R935). -/
def execKlineByteReceived (dt : Nat) (b : Byte) (fe : Bool) (s : State) : Host.Outcome State Fault Refusal :=
  actAfter dt (klineByteReceived b fe) s

/-- KLINE.CMD written 0001h (R936). -/
def execKlineFast (m : Master) (s : State) : Host.Outcome State Fault Refusal :=
  act (klineStart m false) s

/-- KLINE.CMD written 0002h (R936). -/
def execKline5baud (m : Master) (s : State) : Host.Outcome State Fault Refusal :=
  act (klineStart m true) s

/-- KLINE.CMD written 0003h (R936). -/
def execKlineCancel (m : Master) (s : State) : Host.Outcome State Fault Refusal :=
  act (klineCancel m) s

/-- A helper ends (R936). -/
def execKlineInitEnd (dt : Nat) (fiveBaud : Bool) (result : Byte) (bitTime : Nat) (kb1 kb2 adr : Byte) (s : State) : Host.Outcome State Fault Refusal :=
  actAfter dt (klineInitEnd fiveBaud result bitTime kb1 kb2 adr) s

/-- A compare is reached (R1048). -/
def execPostmarkCompare (n : Fin 4) (s : State) : Host.Outcome State Fault Refusal :=
  actDue (fun s => postDue s n) (postFire n) s

end Sys2Proof.Machine
end

