-- ==== Sys2Proof/Machine/ExecCour.lean ====
section
/-!
DEFINITION. The meanings of the commands of the Courier but for its unit moves, and of TILE.FREE (spec/10, 11).
-/

namespace Sys2Proof.Machine

/-- TILE.FREE written (R454). -/
def execTileFree (m : Master) (v : Word) (s : State) : Host.Outcome State Fault Refusal :=
  act (tileWrite m Reg.tile_FREE v) s

/-- The START bit of channel `c` written (R519). -/
def execCourStart (m : Master) (c : Fin 8) (s : State) : Host.Outcome State Fault Refusal :=
  act (courStart m c) s

/-- Channel `c` fetches a descriptor (R513). -/
def execDescriptorFetch (c : Fin 8) (s : State) : Host.Outcome State Fault Refusal :=
  act (courFetch c) s

/-- Channel `c` takes the flash master (R522). -/
def execCourierFlashGrant (c : Fin 8) (s : State) : Host.Outcome State Fault Refusal :=
  act (courGrant c) s

/-- A poll of channel `c` reads the flash idle (R523). -/
def execCourierFlashPollDone (dt : Nat) (c : Fin 8) (s : State) : Host.Outcome State Fault Refusal :=
  actAfter dt (courPollDone c) s

/-- A busy poll of channel `c` exceeds FTMO (R523). -/
def execCourierFlashTimeout (c : Fin 8) (s : State) : Host.Outcome State Fault Refusal :=
  actDue (fun s => courPollDue s c) (courTimeout c) s

/-- The descriptor of channel `c` ends (R517). -/
def execDescriptorEnd (c : Fin 8) (s : State) : Host.Outcome State Fault Refusal :=
  act (courEnd c) s

end Sys2Proof.Machine
end

