-- ==== Sys2Proof/Machine/ExecEvt.lean ====
section
/-!
DEFINITION. The meanings of the commands of the Event Table (spec/14).
-/

namespace Sys2Proof.Machine

/-- EVT.CMD written with ALLOC (R635). -/
def execEvtAlloc (m : Master) (s : State) : Host.Outcome State Fault Refusal :=
  act (evtCommand m 0x1000) s

/-- EVT.CMD written with ARM (R636). -/
def execEvtArm (m : Master) (n : Fin 512) (s : State) : Host.Outcome State Fault Refusal :=
  act (evtCommand m (wd (0x2000 + n.val))) s

/-- EVT.CMD written with CANCEL (R635). -/
def execEvtCancel (m : Master) (n : Fin 512) (s : State) : Host.Outcome State Fault Refusal :=
  act (evtCommand m (wd (0x3000 + n.val))) s

/-- EVT.CMD written with RELEASE (R635). -/
def execEvtRelease (m : Master) (n : Fin 512) (s : State) : Host.Outcome State Fault Refusal :=
  act (evtCommand m (wd (0x4000 + n.val))) s

/-- EVT.CMD written with QUERY (R635). -/
def execEvtQuery (m : Master) (n : Fin 512) (s : State) : Host.Outcome State Fault Refusal :=
  act (evtCommand m (wd (0x5000 + n.val))) s

/-- A word of an entry written (R637). -/
def execEntryWrite (m : Master) (n : Fin 512) (i : Fin 4) (v : Word) (s : State) : Host.Outcome State Fault Refusal :=
  act (entryWrite m n i v) s

/-- EVT.KPART written (R633). -/
def execKpartWrite (m : Master) (v : Word) (s : State) : Host.Outcome State Fault Refusal :=
  act (kpartWrite m v) s

/-- Entry `n` falls due (R641). -/
def execEntryDue (n : Fin 512) (s : State) : Host.Outcome State Fault Refusal :=
  actDue (fun s => entryDueTick s n) (entryDue n) s

/-- The next due entry fires; `peak` is the shunt peak of a dwell it ends (R645). -/
def execEntryFire (dt : Nat) (peak : Byte) (s : State) : Host.Outcome State Fault Refusal :=
  actAfter dt (entryFire peak) s

/-- The open window of entry `n` closes (R644). -/
def execWindowClose (n : Fin 512) (peak : Byte) (s : State) : Host.Outcome State Fault Refusal :=
  actDue (fun s => entryDueTick s n) (windowClose n peak) s

/-- The pulse of a target ends (R647). -/
def execPulseEnd (target : BitVec 6) (peak : Byte) (s : State) : Host.Outcome State Fault Refusal :=
  actDue (fun s => pulseDue s target.toNat) (pulseEnd target.toNat peak) s

end Sys2Proof.Machine
end

