-- ==== Sys2Proof/Machine/ExecFlow.lean ====
section
/-!
DEFINITION. The meanings of the flow, thread and lock instructions (spec/08, R376-R379): thread `t` executes
the instruction with the prefixes `pre`; the wheel serves its microwords in the step itself.
-/

namespace Sys2Proof.Machine

/-- No effect (R376). -/
def execNop (t : Fin 8) (pre : List Prefix) (s : State) : Host.Outcome State Fault Refusal :=
  actAfter 0 (runInstr t pre .nop) s

/-- BREAK with detail 0, or a halt while BRKH is 1 (R376, R1019). -/
def execBrk (t : Fin 8) (pre : List Prefix) (s : State) : Host.Outcome State Fault Refusal :=
  actAfter 0 (runInstr t pre .brk) s

/-- After its slot, PC := LR (R305, R313). -/
def execRts (t : Fin 8) (pre : List Prefix) (s : State) : Host.Outcome State Fault Refusal :=
  actAfter 0 (runInstr t pre .rts) s

/-- After its slot, the frame at A7 is read and restored (R316, R342). -/
def execRetm (t : Fin 8) (pre : List Prefix) (s : State) : Host.Outcome State Fault Refusal :=
  actAfter 0 (runInstr t pre .retm) s

/-- TRAP with detail n, after the instruction completes (R330, R376). -/
def execTrap (t : Fin 8) (pre : List Prefix) (n : Byte) (s : State) : Host.Outcome State Fault Refusal :=
  actAfter 0 (runInstr t pre (.trap n)) s

/-- After its slot, LR := the address after it, and PC := slot + d (R306, R313). -/
def execBsr (t : Fin 8) (pre : List Prefix) (d : Word) (s : State) : Host.Outcome State Fault Refusal :=
  actAfter 0 (runInstr t pre (.bsr d)) s

/-- After its slot, the frame of R314 is written; LR and PC as BSR (R306, R314, R315). -/
def execCallm (t : Fin 8) (pre : List Prefix) (mask : Byte) (d : Word) (s : State) : Host.Outcome State Fault Refusal :=
  actAfter 0 (runInstr t pre (.callm mask d)) s

/-- A loop level, or a jump past the body with a count of 0 (R307, R308). -/
def execLoopOp (t : Fin 8) (pre : List Prefix) (count : Src) (e : Word) (s : State) : Host.Outcome State Fault Refusal :=
  actAfter 0 (runInstr t pre (.loop count e)) s

/-- After its slot, PC := slot + d if the condition held (R302-R305). -/
def execBr (t : Fin 8) (pre : List Prefix) (cc : Fin 16) (d : Word) (s : State) : Host.Outcome State Fault Refusal :=
  actAfter 0 (runInstr t pre (.br cc d)) s

/-- Completes at once, or the thread waits (R244, R246). -/
def execWait (t : Fin 8) (pre : List Prefix) (mask : Src) (s : State) : Host.Outcome State Fault Refusal :=
  actAfter 0 (runInstr t pre (.wait mask)) s

/-- A software event of a thread (R247, R379). -/
def execSignalOp (t : Fin 8) (pre : List Prefix) (a : Src8) (s : State) : Host.Outcome State Fault Refusal :=
  actAfter 0 (runInstr t pre (.signal a)) s

/-- A seal is requested (R256, R379). -/
def execSealOp (t : Fin 8) (pre : List Prefix) (n : Src8) (s : State) : Host.Outcome State Fault Refusal :=
  actAfter 0 (runInstr t pre (.seal n)) s

/-- A seal is released (R258, R259). -/
def execUnsealOp (t : Fin 8) (pre : List Prefix) (n : Src8) (s : State) : Host.Outcome State Fault Refusal :=
  actAfter 0 (runInstr t pre (.unseal n)) s

end Sys2Proof.Machine
end

