-- ==== Sys2Proof/Machine/ExecIntc.lean ====
section
/-!
DEFINITION. The meanings of the commands of the interrupt controller (spec/12).
-/

namespace Sys2Proof.Machine

/-- A block signals a source (R541). -/
def execIntcEvent (dt : Nat) (src : Fin 96) (s : State) : Host.Outcome State Fault Refusal :=
  actAfter dt (signal src) s

/-- A read of INTC.CLAIMt (R544). -/
def execClaim (m : Master) (t : Fin 8) (side : Bool) (s : State) : Host.Outcome State Fault Refusal :=
  actRead (claimAccess m t side) s

/-- INTC.COMPLt written (R547). -/
def execCompl (m : Master) (t : Fin 8) (v : Word) (s : State) : Host.Outcome State Fault Refusal :=
  act (intcWrite m (Reg.intc_COMPL t) v) s

/-- INTC.PENDSET written (R564). -/
def execPendset (m : Master) (w : Fin 6) (v : Word) (s : State) : Host.Outcome State Fault Refusal :=
  act (intcWrite m (Reg.intc_PENDSET w) v) s

/-- INTC.PENDCLR written (R564). -/
def execPendclr (m : Master) (w : Fin 6) (v : Word) (s : State) : Host.Outcome State Fault Refusal :=
  act (intcWrite m (Reg.intc_PENDCLR w) v) s

/-- INTC.MASKSET written (R562). -/
def execMaskset (m : Master) (w : Fin 6) (v : Word) (s : State) : Host.Outcome State Fault Refusal :=
  act (intcWrite m (Reg.intc_MASKSET w) v) s

/-- INTC.MASKCLR written (R569). -/
def execMaskclr (m : Master) (w : Fin 6) (v : Word) (s : State) : Host.Outcome State Fault Refusal :=
  act (intcWrite m (Reg.intc_MASKCLR w) v) s

/-- The timer of a group expires (R555). -/
def execModerationExpiry (g : Fin 12) (s : State) : Host.Outcome State Fault Refusal :=
  actDue (fun s => modDueTick s g) (modExpiry g) s

/-- A waiting thread ends the hold of a group (R555). -/
def execModerationBypass (g : Fin 12) (s : State) : Host.Outcome State Fault Refusal :=
  actAfter 0 (modBypass g) s

/-- A window of 1 ms ends (R558). -/
def execRunawayWindow (s : State) : Host.Outcome State Fault Refusal :=
  actDue windowDue runawayWindow s

end Sys2Proof.Machine
end

