-- ==== Sys2Proof/Machine/ExecModes.lean ====
section
/-!
DEFINITION. The meanings of the commands of the Armature, the modes, the fences and the Fault Collector (spec/04, 05, 21).
-/

namespace Sys2Proof.Machine

/-- SYS.ARMCMD written 0001h (R179). -/
def execArmcmdCheck (m : Master) (s : State) : Host.Outcome State Fault Refusal :=
  act (armcmdWrite m 1) s

/-- SYS.ARMCMD written 0002h (R181). -/
def execArmcmdCommit (m : Master) (s : State) : Host.Outcome State Fault Refusal :=
  act (armcmdWrite m 2) s

/-- A poll of the commit reads the flash idle (R184). -/
def execCommitFlashPollDone (dt : Nat) (s : State) : Host.Outcome State Fault Refusal :=
  actAfter dt commitPollDone s

/-- A busy poll of the commit runs past its limit (R184). -/
def execCommitFlashTimeout (s : State) : Host.Outcome State Fault Refusal :=
  actDue commitTimeoutDue commitTimeout s

/-- The commit ends (R185). -/
def execCommitEnd (s : State) : Host.Outcome State Fault Refusal :=
  actAfter 0 commitEnd s

/-- SYS.MODECMD written A501h (R200). -/
def execModeRunRequest (m : Master) (s : State) : Host.Outcome State Fault Refusal :=
  act (modecmdWrite m 0xA501) s

/-- SYS.MODECMD written A502h (R203). -/
def execModeSetupRequest (m : Master) (s : State) : Host.Outcome State Fault Refusal :=
  act (modecmdWrite m 0xA502) s

/-- SYS.MODECMD written A503h (R203). -/
def execModeLimpRequest (m : Master) (s : State) : Host.Outcome State Fault Refusal :=
  act (modecmdWrite m 0xA503) s

/-- The re-application ends (R206). -/
def execReapplicationComplete (s : State) : Host.Outcome State Fault Refusal :=
  act (fun s => if s.modes.reapply.isSome then applied (reapplied s) else s) s

/-- SYS.FENCEA written (R222). -/
def execFenceLiftA (m : Master) (v : Pair) (s : State) : Host.Outcome State Fault Refusal :=
  act (fun s => liftWrite m 16 (highWord v) (liftWrite m 0 (lowWord v) s)) s

/-- SYS.FENCEB written (R222). -/
def execFenceLiftB (m : Master) (v : Word) (s : State) : Host.Outcome State Fault Refusal :=
  act (liftWrite m 32 v) s

/-- The registered raises are handled (R951). -/
def execFaultHandle (s : State) : Host.Outcome State Fault Refusal :=
  act faultHandle s

/-- FCOL.ACK written (R955). -/
def execFswAck (m : Master) (v : Word) (s : State) : Host.Outcome State Fault Refusal :=
  act (ackWrite m v) s

/-- FCOL.FSW written (R956). -/
def execFswClear (m : Master) (v : Word) (s : State) : Host.Outcome State Fault Refusal :=
  act (fswWrite m v) s

/-- FCOL.HCLR written 0001h (R962). -/
def execHclr (m : Master) (s : State) : Host.Outcome State Fault Refusal :=
  act (hclrWrite m) s

/-- FCOL.WDSVC written A5C3h (R964). -/
def execWdsvc (m : Master) (s : State) : Host.Outcome State Fault Refusal :=
  act (wdService m) s

/-- Half the watchdog period has passed (R965). -/
def execWatchdogEarly (s : State) : Host.Outcome State Fault Refusal :=
  actDue wdEarlyDue wdEarly s

/-- FCOL.ABCMD written (R968). -/
def execAbcmd (m : Master) (v : Word) (s : State) : Host.Outcome State Fault Refusal :=
  act (abcmdWrite m v) s

/-- An aborted target is in its post-abort state (R971). -/
def execAbortReached (kind : Fin 8) (idx : Fin 512) (s : State) : Host.Outcome State Fault Refusal :=
  act (abortReached kind idx) s

end Sys2Proof.Machine
end

