-- ==== Sys2Proof/Machine/ExecMove.lean ====
section
/-!
DEFINITION. The meanings of the moves, loads, stores and the stack (spec/08, R369-R371): thread `t` executes
the instruction with the prefixes `pre`; the wheel serves its microwords in the step itself.
-/

namespace Sys2Proof.Machine

/-- Rd := Rs (R369). -/
def execMovRr (t : Fin 8) (pre : List Prefix) (rd rs : Fin 16) (s : State) : Host.Outcome State Fault Refusal :=
  actAfter 0 (runInstr t pre (.movRR rd rs)) s

/-- Rd := v, sign-extended (R369). -/
def execMovRi (t : Fin 8) (pre : List Prefix) (rd : Fin 16) (v : Word) (s : State) : Host.Outcome State Fault Refusal :=
  actAfter 0 (runInstr t pre (.movRI rd v)) s

/-- Rd := control register c (R276, R369). -/
def execMovRCr (t : Fin 8) (pre : List Prefix) (rd : Fin 16) (c : Fin 32) (s : State) : Host.Outcome State Fault Refusal :=
  actAfter 0 (runInstr t pre (.movRC rd c)) s

/-- Control register c := Rs (R275, R276, R287, R371). -/
def execMovCrR (t : Fin 8) (pre : List Prefix) (c : Fin 32) (rs : Fin 16) (s : State) : Host.Outcome State Fault Refusal :=
  actAfter 0 (runInstr t pre (.movCR c rs)) s

/-- A7 := A7 - w; the word or pair of Rs stored at A7 (R370, R385). -/
def execPush (t : Fin 8) (pre : List Prefix) (rs : Fin 16) (s : State) : Host.Outcome State Fault Refusal :=
  actAfter 0 (runInstr t pre (.push rs)) s

/-- Rd loaded from A7 one instruction late; A7 := A7 + w (R299, R370, R385). -/
def execPop (t : Fin 8) (pre : List Prefix) (rd : Fin 16) (s : State) : Host.Outcome State Fault Refusal :=
  actAfter 0 (runInstr t pre (.pop rd)) s

/-- Rd loaded from memory one instruction late (R299, R369). -/
def execLd (t : Fin 8) (pre : List Prefix) (rd : Fin 16) (ea : Ea) (s : State) : Host.Outcome State Fault Refusal :=
  actAfter 0 (runInstr t pre (.ld rd ea)) s

/-- Rs stored to memory (R369, R503). -/
def execSt (t : Fin 8) (pre : List Prefix) (rs : Fin 16) (ea : Ea) (s : State) : Host.Outcome State Fault Refusal :=
  actAfter 0 (runInstr t pre (.st rs ea)) s

/-- The pair Rd loaded from memory one instruction late (R299, R369). -/
def execLdp (t : Fin 8) (pre : List Prefix) (rd : Fin 16) (ea : Ea) (s : State) : Host.Outcome State Fault Refusal :=
  actAfter 0 (runInstr t pre (.ldp rd ea)) s

/-- The pair Rs stored to memory (R369, R503). -/
def execStp (t : Fin 8) (pre : List Prefix) (rs : Fin 16) (ea : Ea) (s : State) : Host.Outcome State Fault Refusal :=
  actAfter 0 (runInstr t pre (.stp rs ea)) s

end Sys2Proof.Machine
end

