-- ==== Sys2Proof/Machine/ExecOut.lean ====
section
/-!
DEFINITION. The meanings of the commands of the output stages (spec/16).
-/

namespace Sys2Proof.Machine

/-- OUT.SWCMD written with OP 01b (R713). -/
def execSwcmdOn (m : Master) (target : BitVec 6) (s : State) : Host.Outcome State Fault Refusal :=
  act (swcmdWrite m (wd (0x4000 + target.toNat)) 0) s

/-- OUT.SWCMD written with OP 10b (R713). -/
def execSwcmdOff (m : Master) (target : BitVec 6) (peak : Byte) (s : State) : Host.Outcome State Fault Refusal :=
  act (swcmdWrite m (wd (0x8000 + target.toNat)) peak) s

/-- The dwell of IGN stage `n` reaches its limit (R718). -/
def execMaxDwell (n : Fin 4) (s : State) : Host.Outcome State Fault Refusal :=
  actDue (fun s => maxDwellDue s n) (maxDwell n) s

/-- The shunt of IGN stage `n` reaches ILIM early (R719). -/
def execIgnShort (dt : Nat) (n : Fin 4) (s : State) : Host.Outcome State Fault Refusal :=
  actAfter dt (ignShort n) s

/-- A soft turn-off ends (R721). -/
def execSoftTurnoffEnd (n : Fin 4) (s : State) : Host.Outcome State Fault Refusal :=
  actDue (fun s => softEndDue s n) (softTurnoffEnd n) s

/-- The peak phase of injector `n` ends (R724). -/
def execInjPeakEnd (dt : Nat) (n : Fin 4) (timeout flows : Bool) (s : State) : Host.Outcome State Fault Refusal :=
  actAfter dt (injPeakEnd n timeout flows) s

/-- A PWM period of LS or HSD stage `n` starts (R727). -/
def execPwmPeriod (n : Fin 4) (s : State) : Host.Outcome State Fault Refusal :=
  actDue (fun s => pwmPeriodDue s n) (pwmPeriod n) s

/-- An HSD stage sees a short (R728). -/
def execHsdShort (dt : Nat) (n : Fin 2) (s : State) : Host.Outcome State Fault Refusal :=
  actAfter dt (hsdShort n) s

/-- A step period of the stepper (R730). -/
def execStepperStep (s : State) : Host.Outcome State Fault Refusal :=
  actDue stepperDue stepperStep s

/-- The hold duty begins (R730). -/
def execStepperHold (s : State) : Host.Outcome State Fault Refusal :=
  actDue stepperHoldDue stepperHold s

/-- OUT.STEPCMD written 0001h (R732). -/
def execStepcmdHome (m : Master) (s : State) : Host.Outcome State Fault Refusal :=
  act (stepcmdWrite m 1) s

/-- Homing completes (R732). -/
def execHomingEnd (s : State) : Host.Outcome State Fault Refusal :=
  actAfter 0 homingEnd s

/-- The coil current of a bridge is checked (R733). -/
def execBridgeOpenCheck (dt : Nat) (n : Fin 2) (below : Bool) (s : State) : Host.Outcome State Fault Refusal :=
  actAfter dt (bridgeOpenCheck n below) s

/-- A current limit acted for 10 µs (R736). -/
def execCurrentLimitShort (dt : Nat) (i : Fin 16) (s : State) : Host.Outcome State Fault Refusal :=
  actAfter dt (currentLimitShort i) s

/-- A thermal detector trips or recovers (R736). -/
def execOverTemperature (dt : Nat) (i : Fin 16) (tripped : Bool) (s : State) : Host.Outcome State Fault Refusal :=
  actAfter dt (overTemperature i tripped) s

/-- OUT.DIAGs written (R737). -/
def execDiagClear (m : Master) (i : Fin 16) (v : Word) (s : State) : Host.Outcome State Fault Refusal :=
  act (outWrite m (Reg.out_DIAG i) v) s

/-- An off-state open-load round; `opens` are the stages that read open (R740). -/
def execOltRound (opens : Word) (s : State) : Host.Outcome State Fault Refusal :=
  actDue oltDue (oltRound opens) s

end Sys2Proof.Machine
end

