-- ==== Sys2Proof/Machine/ExecPower.lean ====
section
/-!
DEFINITION. The meanings of the commands of boot, clock, pins and power (spec/01 to 04).
-/

namespace Sys2Proof.Machine

/-- The boot microcode starts (R143). -/
def execBootStart (s : State) : Host.Outcome State Fault Refusal :=
  act bootStart s

/-- The PLL reports lock during boot (R32). -/
def execPllLockSwitch (dt : Nat) (s : State) : Host.Outcome State Fault Refusal :=
  actAfter dt pllLockSwitch s

/-- The boot lock timeout expires (R45). -/
def execBootLockTimeout (s : State) : Host.Outcome State Fault Refusal :=
  actDue bootLockDue bootLockTimeout s

/-- The clock monitor declares lock loss (R34). -/
def execLockLoss (dt : Nat) (xtalStopped : Bool) (s : State) : Host.Outcome State Fault Refusal :=
  actAfter dt (lockLoss xtalStopped) s

/-- The crystal has edges again (R44). -/
def execCrystalEdgesReturn (dt : Nat) (s : State) : Host.Outcome State Fault Refusal :=
  actAfter dt crystalReturn s

/-- The PLL locks to the returned crystal (R44). -/
def execPllRelock (dt : Nat) (s : State) : Host.Outcome State Fault Refusal :=
  actAfter dt pllRelock s

/-- The crystal stops or the PLL unlocks on the backup clock (R44). -/
def execCrystalEdgesLost (dt : Nat) (xtalStopped : Bool) (s : State) : Host.Outcome State Fault Refusal :=
  actAfter dt (crystalLost xtalStopped) s

/-- LIVE toggles (R60). -/
def execLiveToggle (s : State) : Host.Outcome State Fault Refusal :=
  actDue liveDue liveToggle s

/-- A pin changes its level (R83). -/
def execGpioCaptureEdge (dt : Nat) (pin : Fin 17) (rising : Bool) (s : State) : Host.Outcome State Fault Refusal :=
  actAfter dt (gpioEdge pin rising) s

/-- Back-feed starts (R94). -/
def execBackFeedStart (dt : Nat) (s : State) : Host.Outcome State Fault Refusal :=
  actAfter dt backFeedStart s

/-- Back-feed ends (R94). -/
def execBackFeedEnd (dt : Nat) (s : State) : Host.Outcome State Fault Refusal :=
  actAfter dt backFeedEnd s

/-- VBAT exceeds 30 V (R96). -/
def execLoadDumpStart (dt : Nat) (s : State) : Host.Outcome State Fault Refusal :=
  actAfter dt loadDumpStart s

/-- VBAT falls below 28 V (R96). -/
def execLoadDumpEnd (dt : Nat) (s : State) : Host.Outcome State Fault Refusal :=
  actAfter dt loadDumpEnd s

/-- A dip of VBAT starts (R103). -/
def execVbatDipStart (dt : Nat) (s : State) : Host.Outcome State Fault Refusal :=
  actAfter dt vbatDipStart s

/-- A dip of VBAT ends in time (R103). -/
def execVbatDipEnd (dt : Nat) (s : State) : Host.Outcome State Fault Refusal :=
  actAfter dt vbatDipEnd s

/-- The holdup timer expires (R103). -/
def execHoldupExpiry (s : State) : Host.Outcome State Fault Refusal :=
  actDue holdupDue holdupExpiry s

/-- The pre-regulator shuts down (R128). -/
def execPreregThermalShutdown (dt : Nat) (s : State) : Host.Outcome State Fault Refusal :=
  actAfter dt preregShutdown s

/-- The pre-regulator restarts (R92). -/
def execPreregThermalRestart (dt : Nat) (s : State) : Host.Outcome State Fault Refusal :=
  actAfter dt preregRestart s

/-- PLINTH.SLEEP written 5A5Ah, with KEYWAKE at `keywake` (R108). -/
def execSleepRequest (m : Master) (keywake : Bool) (s : State) : Host.Outcome State Fault Refusal :=
  act (fun s => sleepRequest m (setPlinth (fun p => { p with keywake := keywake }) s)) s

/-- PLINTH.SLEEP written 0000h (R110). -/
def execSleepWithdraw (m : Master) (s : State) : Host.Outcome State Fault Refusal :=
  act (sleepWithdraw m) s

/-- KEYWAKE goes low (R110). -/
def execKeywakeRelease (dt : Nat) (s : State) : Host.Outcome State Fault Refusal :=
  actAfter dt keywakeRelease s

/-- KEYWAKE held a request for 10 s (R110). -/
def execKeywakeStuck (s : State) : Host.Outcome State Fault Refusal :=
  actDue keywakeStuckDue keywakeStuck s

/-- A period of CHG gate `g` starts (R115). -/
def execChgPwmPeriod (g : Fin 2) (openG gateG : BitVec 2) (s : State) : Host.Outcome State Fault Refusal :=
  actDue (fun s => chgDue s g) (chgPeriodStart g openG gateG) s

/-- SREF limited for 10 ms (R118). -/
def execSrefShort (s : State) : Host.Outcome State Fault Refusal :=
  actDue srefShortDue srefShort s

/-- PLINTH.SREFCFG written (R119). -/
def execSrefEnableWrite (m : Master) (v : Word) (s : State) : Host.Outcome State Fault Refusal :=
  act (srefWrite m v) s

/-- SREF enters or leaves its limit (R118). -/
def execSrefCurrentLimit (dt : Nat) (entered : Bool) (s : State) : Host.Outcome State Fault Refusal :=
  actAfter dt (srefLimit entered) s

/-- The millisecond of adaptive voltage (R121). -/
def execAvsStep (s : State) : Host.Outcome State Fault Refusal :=
  actDue avsDue avsStep s

/-- A monitor scan completes (R123). -/
def execMonitorScan (vals : Vector Word 9) (vbLow : Bool) (s : State) : Host.Outcome State Fault Refusal :=
  actDue scanDue (monitorScan vals vbLow) s

/-- A second of turning is complete (R129). -/
def execEngineSecond (s : State) : Host.Outcome State Fault Refusal :=
  actDue engineSecondDue engineSecond s

/-- PLINTH.EHOURS written (R130). -/
def execEhoursWrite (m : Master) (v : Pair) (s : State) : Host.Outcome State Fault Refusal :=
  act (fun s => ehoursWrite m (Reg.plinth_EHOURS + 1) (highWord v) (ehoursWrite m Reg.plinth_EHOURS (lowWord v) s)) s

/-- VB changes its source (R91). -/
def execVbSourceChange (dt : Nat) (fromStat : Bool) (s : State) : Host.Outcome State Fault Refusal :=
  actAfter dt (vbSourceChange fromStat) s

end Sys2Proof.Machine
end

