-- ==== Sys2Proof/Machine/Reset.lean ====
section
/-!
DEFINITION. The resets and the start and end of supply (R21-R23, R54-R58, R97-R113, R143, R905, R966): what each reset
kind keeps and what it restores.
-/

namespace Sys2Proof.Machine

/-! ### What a reset makes of each block -/

/-- The bits of a register that a reset kind keeps (R21-R23). -/
def keepOf : ResetKind → RegRow → Pair
  | .por => RegRow.kp
  | .warm => RegRow.kw
  | .looprst => RegRow.kl

/-- SYS.RSTCAUSE after a reset; `wdog` tells a watchdog WARM from RESETN. -/
def causeOf (k : ResetKind) (wdog : Bool) : Word :=
  match k with
  | .por => 0x8000
  | .warm => if wdog then 0x2000 else 0x4000
  | .looprst => 0x1000

/-- The Plinth after a reset: what its AON part and the pins hold stays, and the partial second is lost (R129). -/
def plinthReset (k : ResetKind) (now : Nat) (p : Plinth) : Plinth :=
  { bfeedDone := k != .por && p.bfeedDone
    keyStuckLogged := k != .por && p.keyStuckLogged
    avsLogged := k != .por && p.avsLogged
    srefDue := if k = .por then none else p.srefDue
    wakeMet := p.wakeMet
    keywake := p.keywake
    gpioIn := p.gpioIn
    scanDue := now + 250 * usTicks
    avsDue := now + msTicks
    liveLast := now }

/-- The Fault Collector after a reset: its history lasts until a POR (R963); raises, aborts and the dump end (R987). -/
def fcolReset (k : ResetKind) (f : Fcol) : Fcol := { hist := if k = .por then [] else f.hist }

/-- The memory after a reset: stores not drained are gone (R529); the scratchpad stays until step B6. -/
def memReset (m : Mem) : Mem := { m with sbuf := [], wLog := [] }

/-- The flash side after a reset: the clients and the directory are gone; the flash and the stores of code stay. -/
def flashReset (f : Flash) : Flash := { f with owner := .none, waiters := [], commit := none }

/-- The Loop after a reset: it runs on through a LOOPRST (R866); a head conflict is raised once in the time between PORs. -/
def loopReset (k : ResetKind) (l : Loop) : Loop :=
  match k with
  | .por => {}
  | .warm => { hconf := l.hconf }
  | .looprst => l

/-- The X: registers after a reset (R1010). -/
def xregsReset (k : ResetKind) (x : List (Nat × Word)) : List (Nat × Word) :=
  match k with
  | .por => []
  | .warm => x.filter (fun e => e.1 == X.dctl || e.1 == X.hpol || e.1 == X.hstart || e.1 == X.lstat)
  | .looprst => x

/-- The Chisel port after a reset: its lock lasts until a POR (R1002), and WARM draws a new challenge (R1004). -/
def chiselReset (k : ResetKind) (dblock : Bool) (free : Nat) (c : Chisel) : Chisel :=
  match k with
  | .por => { locked := dblock, chal := Config.freeChallenge free }
  | .warm => { locked := c.locked, lockout := c.lockout, chal := Config.freeChallenge free }
  | .looprst => { c with evtFrozen := false, wdLeft := none }

/-- The OTP fields latched at POR (R1008): SYS.OTPSTAT, LSTAT.DKEY and the image key in use. -/
def otpLatch (s : State) : State :=
  let o := s.otp
  let s := setReg Reg.sys_OTPSTAT (wd (o.authen.toNat * 0x8000 + o.dbglock.toNat * 0x4000 + o.keyprg.toNat * 0x2000)) s
  let s := setXreg X.lstat (wd (o.dkey.toNat * 0x4000)) s
  { s with otp := { o with key := o.imageKey } }

/-- A flash command under way when a POR or a WARM stops its client is cut (R187, R525). -/
def clientsCut (s : State) : State :=
  let s := commitCut s
  let s := (List.finRange 8).foldl (fun s (c : Fin 8) =>
    let h := chan s c
    match h.poll with
    | some k => if h.pre then s else cutFlash k (chanFlashAt h) s
    | none => s) s
  match s.waili.run with
  | some (.flash page a _, _) =>
    if s.waili.polling && !s.waili.pollPre then cutFlash (if page then .page else .erase) a s else s
  | _ => s

/-- A LOOPRST first drains the store buffer and ends every Courier chain (R529, R536). -/
def looprstFirst (s : State) : State :=
  (List.finRange 8).foldl (fun s c => chanAbort c s) (sbDrains 4 s)

/-- Every block as reset kind `k` leaves it. -/
def resetBlocks (k : ResetKind) (s : State) : State :=
  let otpstat := reg s Reg.sys_OTPSTAT
  let s : State := { s with
    regs := resetRegs (keepOf k) s.regs
    xregs := xregsReset k s.xregs
    hw := {}
    boot := { kind := k }
    plinth := plinthReset k s.now s.plinth
    modes := {}
    intc := {}
    fcol := fcolReset k s.fcol
    mem := memReset s.mem
    flash := flashReset s.flash
    cour := {}
    out := {}
    ang := {}
    evt := if k = .por then {} else evtCleared s.evt
    adc := {}
    thr := { slotTick := s.now }
    tile := {}
    trace := if k = .looprst then s.trace else {}
    kern := {}
    post := {}
    can := Vector.replicate 2 {}
    kline := {}
    loop := loopReset k s.loop
    waili := {}
    chisel := chiselReset k s.otp.dbglock s.free s.chisel
    free := s.free + 1 }
  if k = .por then otpLatch s else setReg Reg.sys_OTPSTAT otpstat s

/-- LHEAD and TESTEN sampled at the end of POR and WARM (R57). -/
def strapSample (lhead testen : Bool) (s : State) : State :=
  setRegBit Reg.sys_STRAP 14 testen (setRegBit Reg.sys_STRAP 15 lhead s)

/-- LOOP.STAT.HEAD and DSTAT.TEST follow the straps. -/
def strapShow (s : State) : State :=
  setXreg X.dstat (putBit (xreg s X.dstat) 14 (regBit s Reg.sys_STRAP 14)) s

/-! ### The resets -/

/-- A WARM: RESETN low or the watchdog's expiry (R21, R966). -/
def warmReset (wdog lhead testen : Bool) (s : State) : State :=
  strapShow (strapSample lhead testen (setReg Reg.sys_RSTCAUSE (causeOf .warm wdog) (resetBlocks .warm (clientsCut s))))

/-- A LOOPRST of a unit that is not the head, after two headers that name it (R905, R911). -/
def loopReset2 (s : State) : State :=
  if isHead s || decide (s.loop.rstSeen < 2) then s
  else
    let s := resetBlocks .looprst (looprstFirst s)
    setReg Reg.sys_RSTCAUSE (causeOf .looprst false) { s with loop := { s.loop with rstSeen := 0 } }

/-- The watchdog's period ends: its raise is handled, and a WARM follows (R966). -/
def watchdogExpiry (lhead testen : Bool) (s : State) : State :=
  match s.fcol.wdDue with
  | some d => if d ≤ s.now then warmReset true lhead testen (wdRaise s) else s
  | none => s

/-! ### Supply (R97-R99, R109-R113, R135) -/

/-- V33 or VCORE falls below its threshold (R99): everything but AON is down. `aonLost` tells that AON went too. -/
def porAssert (aonLost : Bool) (s : State) : State :=
  let s := resetBlocks .por (if s.power = .up then clientsCut s else s)
  let s := if aonLost then setReg32 Reg.plinth_EHOURS 0 (setRegBit Reg.plinth_STAT pstAONV false s) else s
  { s with power := .down, plinth := { s.plinth with wakeMet := 0, wakeLatch := 0 } }

/-- A start event with the rails down: POR is released, the straps are sampled, and the boot microcode may start on the
backup clock (R57, R97, R112). -/
def startEvent (fromStat lhead testen : Bool) (s : State) : State :=
  let met := s.plinth.wakeMet
  let s := resetBlocks .por { s with now := 0, power := .up }
  let s := setReg Reg.plinth_WAKESRC (if met = 0 then 0x8000 else wd met.toNat) s
  let s := strapShow (strapSample lhead testen (setRegBit Reg.plinth_STAT pstSRC fromStat s))
  { s with plinth := { s.plinth with wakeMet := 0 } }

end Sys2Proof.Machine
end

