-- ==== Sys2Proof/Machine/ExecReset.lean ====
section
/-!
DEFINITION. The meanings of the commands of reset, supply and sleep (spec/02, 03, 19, 21). Those that act while the rails
are down do so at once.
-/

namespace Sys2Proof.Machine

/-- The rails fall below the POR thresholds (R99). -/
def execPor (aonLost : Bool) (s : State) : Host.Outcome State Fault Refusal :=
  .next (settle (porAssert aonLost s))

/-- RESETN goes low (R54). -/
def execResetnLow (lhead testen : Bool) (s : State) : Host.Outcome State Fault Refusal :=
  act (fun s => warmReset false lhead testen s) s

/-- The Loop asks this unit for a reset (R905). -/
def execLooprst (s : State) : Host.Outcome State Fault Refusal :=
  act loopReset2 s

/-- A start event brings up the rails (R97). -/
def execStartEvent (fromStat lhead testen : Bool) (s : State) : Host.Outcome State Fault Refusal :=
  .next (if s.power = .down then settle (startEvent fromStat lhead testen s) else s)

/-- Sleep is entered (R109). -/
def execSleepEntry (s : State) : Host.Outcome State Fault Refusal :=
  act sleepEntry s

/-- A wake source meets its condition (R112). -/
def execWake (src : Fin 4) (s : State) : Host.Outcome State Fault Refusal :=
  .next (settle (wakeMeets src s))

/-- The watchdog's period ends (R966). -/
def execWatchdogExpiry (lhead testen : Bool) (s : State) : Host.Outcome State Fault Refusal :=
  actDue wdExpiryDue (watchdogExpiry lhead testen) s

end Sys2Proof.Machine
end

