-- ==== Sys2Proof/Machine/ExecSystem.lean ====
section
/-!
DEFINITION. The meanings of the system and tile instructions (spec/08, R380-R383; spec/10): thread `t` executes
the instruction with the prefixes `pre`; the wheel serves its microwords in the step itself.
-/

namespace Sys2Proof.Machine

/-- The discipline changes after a shadow of two instructions (R318, R319). -/
def execSetm (t : Fin 8) (pre : List Prefix) (v : Byte) (s : State) : Host.Outcome State Fault Refusal :=
  actAfter 0 (runInstr t pre (.setm v)) s

/-- BK := b (R297). -/
def execSetbk (t : Fin 8) (pre : List Prefix) (b : Src8) (s : State) : Host.Outcome State Fault Refusal :=
  actAfter 0 (runInstr t pre (.setbk b)) s

/-- The stop of a thread is requested (R235, R236, R336, R380). -/
def execStopOp (t : Fin 8) (pre : List Prefix) (n : Src8) (s : State) : Host.Outcome State Fault Refusal :=
  actAfter 0 (runInstr t pre (.stop n)) s

/-- Return from an exception (R333, R335). -/
def execEret (t : Fin 8) (pre : List Prefix) (s : State) : Host.Outcome State Fault Refusal :=
  actAfter 0 (runInstr t pre .eret) s

/-- SGn := the descriptor at EA (R297, R381). -/
def execLdsg (t : Fin 8) (pre : List Prefix) (n : Fin 16) (ea : Ea) (s : State) : Host.Outcome State Fault Refusal :=
  actAfter 0 (runInstr t pre (.ldsg n ea)) s

/-- A request to configure a tile (R451, R462). -/
def execTcfg (t : Fin 8) (pre : List Prefix) (n : Fin 8) (rp : Fin 16) (s : State) : Host.Outcome State Fault Refusal :=
  actAfter 0 (runInstr t pre (.tcfg n rp)) s

/-- A request to fill a tile from its backing area (R457, R462). -/
def execTldr (t : Fin 8) (pre : List Prefix) (n : Fin 8) (s : State) : Host.Outcome State Fault Refusal :=
  actAfter 0 (runInstr t pre (.tldr n)) s

/-- A request to write a tile to its backing area (R457, R462). -/
def execTstr (t : Fin 8) (pre : List Prefix) (n : Fin 8) (s : State) : Host.Outcome State Fault Refusal :=
  actAfter 0 (runInstr t pre (.tstr n)) s

/-- A request for a bilinear lookup (R462, R468). -/
def execTmap (t : Fin 8) (pre : List Prefix) (rd : Fin 16) (n : Fin 8) (rx ry : Fin 16) (s : State) : Host.Outcome State Fault Refusal :=
  actAfter 0 (runInstr t pre (.tmap rd n rx ry)) s

/-- A request for a sum of products (R462, R470). -/
def execTmac (t : Fin 8) (pre : List Prefix) (n m : Fin 8) (s : State) : Host.Outcome State Fault Refusal :=
  actAfter 0 (runInstr t pre (.tmac n m)) s

/-- A request to release a tile (R457, R462). -/
def execTrel (t : Fin 8) (pre : List Prefix) (n : Fin 8) (s : State) : Host.Outcome State Fault Refusal :=
  actAfter 0 (runInstr t pre (.trel n)) s

end Sys2Proof.Machine
end

