-- ==== Sys2Proof/Machine/MicroOps.lean ====
section
/-!
DEFINITION. The fields of a microword and what each selects: sources, destinations, the ALU, the shifter and the
conditions (spec/09_microcode_control_store.md, R401-R418).
-/

namespace Sys2Proof.Machine

/-! ### Fields (R401) -/

abbrev MWord : Type := Sys2Proof.Micro

def mSeq (w : MWord) : Nat := fld w 108 4
def mNext (w : MWord) : BitVec 12 := w.extractLsb' 96 12
def mCma (w : MWord) : Nat := fld w 89 7
def mCmb (w : MWord) : Nat := fld w 82 7
def mAlu (w : MWord) : Nat := fld w 76 6
def mA (w : MWord) : Nat := fld w 70 6
def mB (w : MWord) : Nat := fld w 64 6
def mDst (w : MWord) : Nat := fld w 58 6
def mShf (w : MWord) : Nat := fld w 54 4
def mMem (w : MWord) : Nat := fld w 49 5
def mTile (w : MWord) : Nat := fld w 44 5
def mEvio (w : MWord) : Nat := fld w 40 4
def mImm (w : MWord) : Word := w.extractLsb' 24 16
def mSide (w : MWord) (i : Nat) : Bool := w.getLsbD i

/-- A microword that executes as the unloaded value in user context (R396, R399): its address, or a reserved or
resident-only encoding to which no rule gives a meaning of its own. -/
def mUnloaded (a : BitVec 12) (w : MWord) : Bool :=
  decide (a < 0x800) || decide (0xF80 ≤ a)
    || mSeq w == 0xA || mSeq w == 0xD || mSeq w == 0xE || mSeq w == 0xF
    || mA w == 0x29 || mB w == 0x29 || mDst w == 0x29
    || decide (0xC ≤ mShf w) || decide (8 ≤ mMem w) || mTile w != 0
    || !(mEvio w == 0 || mEvio w == 1 || mEvio w == 5) || fld w 0 16 != 0

/-! ### Operand bytes (R405) -/

def opb (m : Micro) (i : Nat) : Byte := m.opnds.getD i 0

/-- The register coded in b1[7:4] or b1[3:0], plus `k`. -/
def b1Reg (m : Micro) (hi : Bool) (k : Nat) : Fin 16 :=
  ⟨(fld (opb m 0) (if hi then 4 else 0) 4 + k) % 16, by omega⟩

/-- OPI: the last operand byte sign-extended, or the last two with LONG (R352). -/
def opiWord (m : Micro) : Word :=
  let n := m.opnds.length
  if hasLong m.pre then (if n < 2 then (opb m (n - 1)).setWidth 16 else opb m (n - 1) ++ opb m (n - 2))
  else if n = 0 then 0 else (opb m (n - 1)).signExtend 16

/-- The accumulator of codes 20h-22h and 13h-17h (R405, R416). -/
def mAcc (m : Micro) (w : MWord) : Fin 2 := if mSide w 17 && hasAc1 m.pre then 1 else 0

/-! ### Sources (R405, R418) -/

/-- A producer of `l` stands at a distance below `d` (R418). -/
def tooNear (m : Micro) (l : MLoc) (d : Nat) : Bool := m.recent.any (fun e => e.2 == l && decide (m.n < e.1 + d))

/-- The location a source or destination code names. -/
def codeLoc (m : Micro) (w : MWord) (c : Nat) : Option MLoc :=
  if h : c < 16 then some (.reg ⟨c, h⟩)
  else if h : 16 ≤ c ∧ c < 24 then some (.tmp ⟨c - 16, by omega⟩)
  else if c = 0x18 then some (.reg (b1Reg m true 0))
  else if c = 0x19 then some (.reg (b1Reg m false 0))
  else if c = 0x1A then some (.reg (b1Reg m true 1))
  else if c = 0x1B then some (.reg (b1Reg m false 1))
  else if c = 0x1E ∨ c = 0x1F then some .mdr
  else if 0x20 ≤ c ∧ c < 0x23 then some (.ac (mAcc m w))
  else if c = 0x23 then some (.cr (fld (mImm w) 0 5))
  else if c = 0x24 then some .uc
  else if c = 0x25 ∨ c = 0x26 then some .ea
  else none

/-- A source read at this distance is undefined (R418). -/
def srcUndefined (m : Micro) (w : MWord) (c : Nat) : Bool :=
  match codeLoc m w c with
  | none => false
  | some .mdr => tooNear m .mdr 3
  | some .uc => tooNear m .uc 2 && !m.ucLoop
  | some l => tooNear m l 2

/-- The value of a source code (R405). -/
def srcVal (h : Thread) (t : Fin 8) (m : Micro) (w : MWord) (c : Nat) : Word :=
  match codeLoc m w c with
  | some (.reg r) => getR h r
  | some (.tmp i) => m.t[i]
  | some .mdr => if c = 0x1E then m.mdr else m.mdrh
  | some (.ac k) =>
    let a := getAcc h k
    if c = 0x20 then a.extractLsb' 0 16 else if c = 0x21 then a.extractLsb' 16 16 else (a.extractLsb' 32 8).signExtend 16
  | some (.cr n) => lowWord (crRead h t n)
  | some .uc => m.uc
  | some .ea => if c = 0x25 then m.ea.setWidth 16 else (m.ea.extractLsb' 16 4).setWidth 16
  | _ =>
    if c = 0x1C then mImm w
    else if c = 0x1D then opiWord m
    else if c = 0x27 then m.next.setWidth 16
    else if c = 0x28 then (m.next.extractLsb' 16 1).setWidth 16
    else if c = 0x2A then opb m 1 ++ opb m 0
    else if c = 0x2B then opb m 3 ++ opb m 2
    else if c = 0x3E then 1
    else 0

/-- A source read: a free value where it is undefined. -/
def readSrc (t : Fin 8) (m : Micro) (w : MWord) (c : Nat) (s : State) : Word × State :=
  if srcUndefined m w c then takeWord s else (srcVal (thread s t) t m w c, s)

/-! ### The ALU (R407, R408) -/

/-- A result with C and V, which are none where the spec states no value; and whether a saturation of R289 took place. -/
structure AluOut where
  res : Word
  c : Option Bool
  v : Option Bool
  acc : Option (BitVec 40) := none
  clip : Bool := false

def ofSum (x : Sum 16) : AluOut := { res := x.res, c := some x.c, v := some x.v }
def ofLogic (x : Word) : AluOut := { res := x, c := some false, v := some false }

/-- Leading zeros of a word. -/
def clz (a : Word) : Nat := ((List.range 16).find? (fun i => a.getLsbD (15 - i))).getD 16

/-- A multiply into the accumulator. -/
def ofAcc (a : BitVec 40) : AluOut := { res := a.extractLsb' 0 16, c := none, v := none, acc := some a }

/-- MACS and MSUS (R289, R407). -/
def ofMac (sat : Bool) (acc : BitVec 40) (p : Int) : AluOut :=
  let r := accAdd sat acc p
  { res := r.1.extractLsb' 0 16, c := none, v := some r.2.1, acc := some r.1, clip := r.2.2 }

/-- The ALU operation of a code; none for NOP and the reserved codes. -/
def aluOp (code : Nat) (a b : Word) (cin sat : Bool) (acc : BitVec 40) : Option AluOut :=
  match code with
  | 0x01 => some (ofLogic a)
  | 0x02 => some (ofLogic b)
  | 0x03 => some (ofSum (addR a b false))
  | 0x04 => some (ofSum (addR a b cin))
  | 0x05 => some (ofSum (subR a b false))
  | 0x06 => some (ofSum (subR a b cin))
  | 0x07 => some (ofSum (subR b a false))
  | 0x08 => some (ofLogic (a &&& b))
  | 0x09 => some (ofLogic (a ||| b))
  | 0x0A => some (ofLogic (a ^^^ b))
  | 0x0B => some (ofLogic (~~~a))
  | 0x0C => some (ofLogic (a &&& ~~~b))
  | 0x0D => some (ofSum (addR a 1 false))
  | 0x0E => some (ofSum (subR a 1 false))
  | 0x0F => some { res := if a.msb then 0 - a else a, c := none, v := some (a == 0x8000) }
  | 0x10 => some (ofLogic (if a.slt b then b else a))
  | 0x11 => some (ofLogic (if a.slt b then a else b))
  | 0x12 => some (ofLogic (wd (clz a)))
  | 0x13 => some (ofAcc (BitVec.ofInt 40 (prodInt a b)))
  | 0x14 => some (ofAcc (BitVec.ofNat 40 (a.toNat * b.toNat)))
  | 0x15 => some (ofMac sat acc (prodInt a b))
  | 0x16 => some (ofMac sat acc (-(prodInt a b)))
  | 0x17 => some { res := (acc + 0x8000).extractLsb' 16 16, c := none, v := none }
  | _ => none

/-- The operations whose carry the carry latch takes (R408). -/
def latchesCarry (code : Nat) : Bool := 3 ≤ code && code < 8

/-! ### The shifter (R410) -/

/-- The shift of a code, with its count. -/
def shiftOf (shf : Nat) (imm b : Word) : Option (ShOp × Nat) :=
  match shf with
  | 1 => some (.shl, fld imm 0 4)
  | 2 => some (.shr, fld imm 0 4)
  | 3 => some (.sar, fld imm 0 4)
  | 4 => some (.rol, fld imm 0 4)
  | 5 => some (.shl, fld b 0 4)
  | 6 => some (.shr, fld b 0 4)
  | 7 => some (.sar, fld b 0 4)
  | 8 => some (.rol, fld b 0 4)
  | _ => none

/-- The ALU's output after the shifter. -/
def shifted (shf : Nat) (imm b : Word) (x : AluOut) : AluOut :=
  match shiftOf shf imm b with
  | some (o, k) =>
    let r := shiftR o false x.res k 0
    { x with res := r.1, c := some (r.2.getLsbD 0), v := some (r.2.getLsbD 1) }
  | none =>
    match shf with
    | 9 => { x with res := loByte x.res ++ hiByte x.res }
    | 0xA => { x with res := (loByte x.res).signExtend 16 }
    | 0xB => { x with res := (loByte x.res).setWidth 16 }
    | _ => x

/-- The sign that a clamp takes: of the value shifted left, of B for RSB, otherwise of A (R363, R365, R416). -/
def satNeg (w : MWord) (a b alu : Word) : Bool :=
  if mShf w = 1 ∨ mShf w = 5 then alu.msb else if mAlu w = 7 then b.msb else a.msb

/-! ### Conditions (R417, R418) -/

/-- The condition reads a value whose producer is too near (R418). -/
def condUndefined (m : Micro) (c : Nat) : Bool :=
  if c < 0x10 then tooNear m .psw 2
  else if c < 0x20 then tooNear m .mf 2
  else if 0x30 ≤ c ∧ c < 0x40 then tooNear m (.tmp (thrIdx c)) 2
  else if c = 0x40 then tooNear m .uc 2
  else false

/-- A prefix by its number in conditions 20h-25h. -/
def hasPrefixNo (pre : List Prefix) (k : Nat) : Bool :=
  match k with
  | 0 => hasLong pre
  | 1 => hasPair pre
  | 2 => hasSat pre
  | 3 => hasAc1 pre
  | 4 => (farOf pre).isSome
  | _ => (sealedOf pre).isSome

/-- The value of a condition (R417). -/
def condVal (s : State) (t : Fin 8) (m : Micro) (c : Nat) : Bool :=
  let h := thread s t
  let nib (k : Nat) : Fin 16 := ⟨k % 16, by omega⟩
  if c < 0x10 then condHolds h.psw (nib c)
  else if c < 0x20 then condHolds (m.mf.setWidth 16) (nib c)
  else if c < 0x26 then hasPrefixNo m.pre (c - 0x20)
  else if c = 0x26 then (guardOf m.pre).isSome
  else if c = 0x27 then m.page == 0
  else if c < 0x30 then fld m.opcode 0 3 == c - 0x28
  else if c < 0x38 then m.t[thrIdx c] == 0
  else if c < 0x40 then (m.t[thrIdx c]).msb
  else if c = 0x40 then m.uc == 0
  else if c = 0x41 then (opb m 0).getLsbD 7
  else if c = 0x42 then (opb m 0).getLsbD 3
  else if c = 0x43 then h.slot.isSome
  else if c = 0x44 then atLoopEnd h m.next
  else if c = 0x45 then h.psw.getLsbD pSYS
  else if c = 0x46 then h.psw.getLsbD pDISC
  else if c = 0x47 then h.psw.getLsbD pIE
  else if c < 0x50 then false
  else if c = 0x50 then !sbHas s t
  else if c = 0x51 then h.abortDue
  else if c = 0x52 then asyncDue s t
  else if c = 0x53 then irqLine s t
  else if c < 0x58 then false
  else if c < 0x60 then (latchOf s t).getLsbD (8 + (c - 0x58))
  else if c < 0x70 then (opb m 1 ++ opb m 0).getLsbD (c - 0x60)
  else if c < 0x78 then (latchOf s t).getLsbD (c - 0x70)
  else false

/-- A condition read: free where it is undefined. -/
def readCond (t : Fin 8) (m : Micro) (c : Nat) (s : State) : Bool × State :=
  if condUndefined m c then
    let r := takeWord s
    (r.1.getLsbD 0, r.2)
  else (condVal s t m c, s)

end Sys2Proof.Machine
end

