-- ==== Sys2Proof/Machine/Micro.lean ====
section
/-!
DEFINITION. User instructions: their dispatch, and the microwords of their routines
(spec/09_microcode_control_store.md, R397-R430, R439-R442).
-/

namespace Sys2Proof.Machine

/-! ### Accesses of a routine (R411-R413) -/

/-- The access at EA, checked as it is made (R412): in guarded discipline against the segment of the EAA. -/
def microAccess (h : Thread) (m : Micro) (ea : BitVec 20) (w : Nat) (wr : Bool) : Exc ⊕ Access :=
  let det := m.seg.val + wr.toNat * 8 + (decide (w = 2)).toNat * 64
  let a : Access := { ea := ea.toNat, w := w, det := det }
  match alignFail a.ea w wr with
  | some e => .inl e
  | none =>
    if directDisc h then .inr a
    else
      let g := h.sg[m.seg]
      match segFail g (ea - g.base).toNat w wr with
      | some r => .inl { num := 3, det := det + r * 16, ea := some ea }
      | none => .inr a

/-- What the MEM field does: the thread's user context after it, the location it produces, and the access made. -/
structure MemOut where
  m : Micro
  made : List MLoc := []
  acc : List Seen := []

/-- EAA and EAA2 (R411): the address of offset `a`. -/
def microEa (h : Thread) (m : Micro) (imm a : Word) (w : Nat) : Exc ⊕ MemOut :=
  let k : Fin 8 := if directDisc h then thrIdx (fld imm 0 3) else match farOf m.pre with
    | some b => thrIdx (fld b 0 3)
    | none => thrIdx (fld imm 0 3)
  match regEa h (farOf m.pre) (thrIdx (fld imm 0 3)) a.toNat w false with
  | .inl e => .inl e
  | .inr x => .inr { m := { m with ea := BitVec.ofNat 20 x.ea, seg := k }, made := [.ea] }

/-- The EA an access uses: free where its EAA is too near (R412, R418). -/
def useEa (m : Micro) (s : State) : BitVec 20 × State :=
  if tooNear m .ea 2 then
    let r := takePair s
    (r.1.setWidth 20, r.2)
  else (m.ea, s)

/-- A load of a routine. -/
def microLoad (t : Fin 8) (m : Micro) (w : Nat) (s : State) : (Exc ⊕ MemOut) × State :=
  let (ea, s) := useEa m s
  match microAccess (thread s t) m ea w false with
  | .inl e => (.inl e, s)
  | .inr a =>
    match loadWait t (sealedOf m.pre).isSome a 4 s with
    | .ok v s =>
      (.inr { m := if w = 2 then { m with mdr := lowWord v, mdrh := highWord v } else { m with mdr := lowWord v }
              made := [.mdr], acc := [{ ea := a.ea, wr := false, ws := wordsOf w v }] }, s)
    | .exc e s => (.inl e, s)
    | .hold _ => (.inr { m := m }, s)

/-- A store of a routine. -/
def microStore (t : Fin 8) (m : Micro) (v : Pair) (w : Nat) (s : State) : (Exc ⊕ MemOut) × State :=
  let (ea, s) := useEa m s
  match microAccess (thread s t) m ea w true with
  | .inl e => (.inl e, s)
  | .inr a =>
    let r := if (sealedOf m.pre).isSome then store1 t true a v s else storeWait t a v s
    match r with
    | .ok _ s => (.inr { m := m, acc := [{ ea := a.ea, wr := true, ws := wordsOf w v }] }, s)
    | .exc e s => (.inl e, s)
    | .hold _ => (.inr { m := m }, s)

/-- The MEM field (R411); `res` is the result of the microword. -/
def microMem (t : Fin 8) (m : Micro) (w : MWord) (a res : Word) (s : State) : (Exc ⊕ MemOut) × State :=
  match mMem w with
  | 1 => (microEa (thread s t) m (mImm w) a 1, s)
  | 2 => (microEa (thread s t) m (mImm w) a 2, s)
  | 3 => microLoad t m 1 s
  | 4 => microLoad t m 2 s
  | 5 => microStore t m (res.setWidth 32) 1 s
  | 6 => (.inr { m := { m with storeLow := res } }, s)
  | 7 => microStore t m (mkPair m.storeLow res) 2 s
  | _ => (.inr { m := m }, s)

/-! ### The result and the flags of a microword (R405-R410, R416) -/

/-- What the ALU and the shifter of a microword give: the result with its MF, the accumulator, the carry that the latch
takes, and whether a result saturated. -/
structure AluRes where
  res : Word
  mf : BitVec 5
  acc : Option (BitVec 40)
  carry : Option Bool
  sat : Bool

/-- A flag whose value the spec leaves open is free. -/
def openFlag (f : Option Bool) (s : State) : Bool × State :=
  match f with
  | some b => (b, s)
  | none =>
    let r := takeWord s
    (r.1.getLsbD 0, r.2)

/-- MF of five flags. -/
def mfOf (c v z n sv : Bool) : BitVec 5 :=
  BitVec.ofNat 5 (c.toNat + 2 * v.toNat + 4 * z.toNat + 8 * n.toNat + 16 * sv.toNat)

/-- The ALU, the shifter and the clamp of SATP; none where the ALU is NOP (R407-R410, R416). -/
def microAlu (t : Fin 8) (m : Micro) (w : MWord) (a b : Word) (s : State) : Option AluRes × State :=
  let (cin, s) :=
    if mSide w 16 then (m.carry, s) else readCond t m 3 s
  let acc := getAcc (thread s t) (mAcc m w)
  match aluOp (mAlu w) a b cin (hasSat m.pre) acc with
  | none => (none, s)
  | some x =>
    let y := shifted (mShf w) (mImm w) b x
    let (c, s) := openFlag y.c s
    let (v, s) := openFlag y.v s
    let clip := mSide w 18 && hasSat m.pre && v
    let res := if clip then satOf (satNeg w a b x.res) else y.res
    let sat := clip || x.clip
    (some { res := res, mf := mfOf c v (res == 0) res.msb sat, acc := x.acc
            carry := if latchesCarry (mAlu w) then x.c else none, sat := sat }, s)

/-- The PSW after the SIDE flags (R416). -/
def sidePsw (w : MWord) (mf : BitVec 5) (sat : Bool) (psw : Word) : Word :=
  let p := if mSide w 23 then putBit psw pC (mf.getLsbD 0) else psw
  let p := if mSide w 22 then putBit p pV (mf.getLsbD 1) else p
  let p := if mSide w 21 then putBit p pZ (mf.getLsbD 2 && (!mSide w 19 || psw.getLsbD pZ)) else p
  let p := if mSide w 20 then putBit p pN (mf.getLsbD 3) else p
  withSat p sat

/-- A destination of the thread written (R405); a temporary or UC stands in the user context. -/
def writeDst (m : Micro) (w : MWord) (v : Word) (h : Thread) : Thread :=
  let c := mDst w
  match codeLoc m w c with
  | some (.reg r) => putR r v h
  | some (.ac k) =>
    let a := getAcc h k
    putAcc k (if c = 0x20 then a.extractLsb' 16 24 ++ v
      else if c = 0x21 then a.extractLsb' 32 8 ++ v ++ a.extractLsb' 0 16
      else loByte v ++ a.extractLsb' 0 32) h
  | some (.cr n) => crWrite n (v.setWidth 32) h
  | _ => h

/-- A temporary or UC written. -/
def writeTmp (w : MWord) (v : Word) (m : Micro) : Micro :=
  match codeLoc m w (mDst w) with
  | some (.tmp i) => { m with t := m.t.set i v }
  | some .uc => { m with uc := v, ucLoop := false }
  | _ => m

/-- The location a result is produced in. -/
def dstMade (m : Micro) (w : MWord) : List MLoc :=
  match codeLoc m w (mDst w) with
  | some .mdr => []
  | some .ea => []
  | some l => [l]
  | none => []

/-- The exception a code-23h access raises: as MOV with a control register (R275, R371, R427). -/
def crFails (t : Fin 8) (w : MWord) : Option Exc :=
  let n := fld (mImm w) 0 5
  let writes := mDst w == 0x23 && (aluOp (mAlu w) 0 0 false false 0).isSome
  if (mA w == 0x23 || mB w == 0x23 || writes) && decide (19 < n) then some { num := 1, det := 10 }
  else if writes && decide (2 ≤ t.val) && decide (2 ≤ n) && decide (n ≤ 4) then some { num := 2, det := 1 }
  else none

/-! ### Sequencing (R402-R404) -/

/-- Where a microword leads: the next address with the user context, the end of the instruction, or an exception. -/
inductive SeqOut where
  | go (a : BitVec 12) (m : Micro)
  | stop
  | exc (e : Exc)

/-- EXC (R404): numbers 1, 2, 3, 4, 5 and 7. -/
def seqExc (imm : Word) : Exc :=
  let n := fld imm 12 4
  if n = 1 ∨ n = 2 ∨ n = 3 ∨ n = 4 ∨ n = 5 ∨ n = 7 then { num := n, det := fld imm 0 12 } else { num := 1, det := 0 }

/-- A return: an empty microstack executes as the unloaded value (R403). -/
def seqRet (m : Micro) : SeqOut :=
  match m.stack with
  | [] => .exc { num := 1, det := 0 }
  | a :: l => .go a { m with stack := l }

def seqCall (m : Micro) (w : MWord) : SeqOut := .go (mNext w) { m with stack := ((m.addr + 1) :: m.stack).take 4 }

/-- The SEQ field with the values of the two conditions; `uc` is the count a LOOPU sees. -/
def seqOf (m : Micro) (w : MWord) (ca cb : Bool) (uc : Word) : SeqOut :=
  match mSeq w with
  | 0x0 => .go (m.addr + 1) m
  | 0x1 => .go (mNext w) m
  | 0x2 => .go (if ca then mNext w else m.addr + 1) m
  | 0x3 => .go ((mNext w).extractLsb' 2 10 ++ BitVec.ofBool cb ++ BitVec.ofBool ca) m
  | 0x4 => seqCall m w
  | 0x5 => seqRet m
  | 0x6 => .stop
  | 0x7 => if ca then .stop else .go (mNext w) m
  | 0x8 => if ca then seqCall m w else .go (m.addr + 1) m
  | 0x9 => if ca then seqRet m else .go (m.addr + 1) m
  | 0xB => .exc (seqExc (mImm w))
  | 0xC => .go (if uc - 1 = 0 then m.addr + 1 else mNext w) { m with uc := uc - 1, ucLoop := true }
  | _ => .exc { num := 1, det := 0 }

/-- The conditions a SEQ tests. -/
def seqConds (w : MWord) : Bool × Bool :=
  let q := mSeq w
  (q == 2 || q == 3 || q == 7 || q == 8 || q == 9, q == 3)

/-! ### EVIO (R415) -/

/-- The detail of a SIGNAL whose operand is out of range. -/
def evioFails (w : MWord) (a : Word) : Option Exc :=
  if mEvio w = 1 ∧ (7 < fld a 4 4 ∨ 7 < fld a 0 4) then some { num := 1, det := 6 } else none

/-- SIGNAL and the stamp port; T7 takes the answer of a SIGNAL. -/
def microEvio (t : Fin 8) (m : Micro) (w : MWord) (a : Word) (s : State) : Micro × List MLoc × State :=
  match mEvio w with
  | 1 =>
    let u := thrIdx (fld a 4 4)
    ({ m with t := m.t.set 7 (if isStopped s u then 1 else 0) }, [.tmp 7], setEvent u (fld a 0 4) s)
  | 5 => (m, [], stampWrite t (fld (mImm w) 0 4) a s)
  | _ => (m, [], s)

/-! ### One microword -/

/-- The routine ends: the instruction completes (R402, R420, R427); `trap` is the detail of an EXC with number 7. -/
def microEnd (t : Fin 8) (m : Micro) (trap : Option Nat) (s : State) : State :=
  let s := setThread t (fun h => { h with micro := none }) s
  complete t m.next (sealedDone t m.pre { s := s, trap := trap })

/-- A synchronous exception of a routine: the writes of earlier microwords stand (R426); EADDR of an EXC is free. -/
def microExc (t : Fin 8) (m : Micro) (e : Exc) (s : State) : State :=
  let s := setThread t (fun h => { h with micro := none }) s
  if e.num = 7 then microEnd t m (some e.det) s
  else if (e.num = 3 ∨ e.num = 4) ∧ e.ea.isNone then
    let r := takePair s
    raiseExc t { e with ea := some (r.1.setWidth 20) } r.2
  else raiseExc t e s

/-- The values a microword reads: A, B, the two conditions it tests, and the count of a LOOPU. -/
structure MReads where
  a : Word
  b : Word
  ca : Bool
  cb : Bool
  uc : Word

def microReads (t : Fin 8) (m : Micro) (w : MWord) (s : State) : MReads × State :=
  let (a, s) := readSrc t m w (mA w) s
  let (b, s) := readSrc t m w (mB w) s
  let (ca, s) := if (seqConds w).1 then readCond t m (mCma w) s else (false, s)
  let (cb, s) := if (seqConds w).2 then readCond t m (mCmb w) s else (false, s)
  let (uc, s) := if mSeq w = 0xC ∧ tooNear m .uc 2 ∧ !m.ucLoop then takeWord s else (m.uc, s)
  ({ a := a, b := b, ca := ca, cb := cb, uc := uc }, s)

/-- The thread's registers and PSW after a microword. -/
def microThread (m : Micro) (w : MWord) (r : Option AluRes) (h : Thread) : Thread :=
  let h := match r with
    | some x =>
      let h := match x.acc with
        | some a => putAcc (mAcc m w) a h
        | none => h
      writeDst m w x.res h
    | none => h
  let mf := (r.map (·.mf)).getD m.mf
  let sat := (r.map (·.sat)).getD false
  setPsw (sidePsw w mf sat h.psw) h

/-- The locations a microword produces (R418). -/
def microMade (m : Micro) (w : MWord) (r : Option AluRes) : List MLoc :=
  (match r with
   | some x => .mf :: (dstMade m w ++ (if x.acc.isSome then [.ac (mAcc m w)] else []))
   | none => [])
  ++ (if fld w 20 4 != 0 || (r.map (·.sat)).getD false then [.psw] else [])
  ++ (if mSeq w = 0xC then [.uc] else [])

/-- The user context after a microword, but for the next address. -/
def microCtx (w : MWord) (r : Option AluRes) (made : List MLoc) (m : Micro) : Micro :=
  let m := match r with
    | some x => { writeTmp w x.res m with mf := x.mf, carry := x.carry.getD m.carry }
    | none => m
  { m with n := m.n + 1, recent := (m.recent.filter (fun e => decide (m.n < e.1 + 3))) ++ made.map (fun l => (m.n, l)) }

/-- A loaded microword of user context executes. -/
def microExec (t : Fin 8) (m : Micro) (w : MWord) (s : State) : State :=
  match crFails t w with
  | some e => microExc t m e s
  | none =>
    let (x, s) := microReads t m w s
    match evioFails w x.a, seqOf m w x.ca x.cb x.uc with
    | some e, _ => microExc t m e s
    | none, .exc e => microExc t m e s
    | none, q =>
      let (r, s) := microAlu t m w x.a x.b s
      let (res, s) := match r with
        | some y => (y.res, s)
        | none => if mMem w = 5 ∨ mMem w = 6 ∨ mMem w = 7 then takeWord s else ((0 : Word), s)
      match microMem t m w x.a res s with
      | (.inl e, s) => microExc t m e s
      | (.inr y, s) =>
        let (m1, made, s) := microEvio t y.m w x.a s
        let s := setThread t (microThread m w r) s
        let s := if y.acc.isEmpty then s else dataCompare t (thread s t).pc.toNat y.acc s
        let m2 := microCtx w r (microMade m w r ++ y.made ++ made) m1
        match q with
        | .go a m' =>
          let m3 := if mSeq w = 0xC then { m2 with uc := m'.uc, ucLoop := true } else m2
          setThread t (fun h => { h with micro := some { m3 with addr := a, stack := m'.stack } }) s
        | _ => microEnd t m2 none s

/-- The next microword of a user routine is issued (R396, R399). -/
def microStep (t : Fin 8) (m : Micro) (s : State) : State :=
  let s := serve t 1 s
  let w := wcsGet s m.addr.toNat
  if mUnloaded m.addr w then microExc t m { num := 1, det := 0 } s else microExec t m w s

/-! ### Dispatch (R406, R421) -/

/-- The temporaries, UC, MDR, EA, MF, the carry latch and the segment are undefined at dispatch (R406). -/
def freshMicro (d : Decoded) (next : BitVec 17) (s : State) : Micro × State :=
  let t := freeWords 8 s
  let u := freeWords 5 t.2
  let p := takePair u.2
  let g (i : Nat) : Word := u.1.getD i 0
  ({ pre := d.pre, page := if d.page = 3 then 0 else 1, opcode := d.opcode, opnds := d.opnds, next := next, addr := d.target
     t := Vector.ofFn (fun i : Fin 8 => t.1.getD i 0), uc := g 0, mdr := g 1, mdrh := g 2, ea := p.1.setWidth 20
     mf := (g 3).setWidth 5, carry := (g 3).getLsbD 5, seg := thrIdx (fld (g 3) 6 3), storeLow := g 4 }, p.2)

/-- A user instruction is dispatched; its first microword follows (R421, R425, R441). -/
def enterMicro (t : Fin 8) (d : Decoded) (s : State) : State :=
  let h := thread s t
  let next := h.pc + BitVec.ofNat 17 d.len
  if atLoopEnd h next && h.slot.isSome then raiseExc t { num := 1, det := 5 } (serve t 1 s)
  else if !guardPasses h.psw d.pre then skipGuard t d.pre false next s
  else if !sealHeld s t d.pre then skipSealed t next s
  else
    let s := if prefixCost d.pre = 0 then s else serve t (prefixCost d.pre) s
    let r := freshMicro d next s
    microStep t r.1 (setThread t (fun h => { h with micro := some r.1 }) r.2)

/-- The bytes at the PC of thread `t` are those of a user instruction. -/
def issueUser (t : Fin 8) (bytes : List Byte) (s : State) : State :=
  let direct := directDisc (thread s t)
  match decodeInstr direct (dispatchWord s) (thread s t).pc.toNat bytes with
  | .inr d =>
    if d.page < 3 then s
    else
      match beginInstr t s with
      | (some c, s) => raiseExc t { num := 6, det := 0x10 + c } s
      | (none, s) => enterMicro t d s
  | .inl e =>
    match beginInstr t s with
    | (some c, s) => raiseExc t { num := 6, det := 0x10 + c } s
    | (none, s) => raiseExc t { num := 1, det := e } (serve t 1 s)

/-- USER_INSTRUCTION: the dispatch of a user instruction, or the next microword of the one under way. -/
def userInstr (t : Fin 8) (bytes : List Byte) (s : State) : State :=
  let h := thread s t
  match h.micro with
  | some m =>
    if h.st == .ready && !h.stopReq && !(h.abortDue && !noInt s t) && s.fcol.dump.isNone then
      boundary t h.stepping (microStep t m s)
    else s
  | none => if canIssue s t then boundary t h.stepping (issueUser t bytes s) else s

end Sys2Proof.Machine
end

