-- ==== Sys2Proof/Machine/ExecThread.lean ====
section
/-!
DEFINITION. The meanings of the commands of threads: starts, stops, wakes, asynchronous exceptions, held accesses, tile
operations and user instructions (spec/06, R234-R245; spec/07, R331, R332; spec/09, R421; spec/10, R464-R466; spec/11,
R505).
-/

namespace Sys2Proof.Machine

/-- Bit `t` of THR.CTL.START written as 1 (R234, R237). -/
def execThreadStart (m : Master) (t : Fin 8) (s : State) : Host.Outcome State Fault Refusal :=
  act (fun s => if privileged m then startThread t s else s) s

/-- Bit `t` of THR.CTL.STOP written as 1 (R235-R237). -/
def execThreadStopRequest (m : Master) (t : Fin 8) (s : State) : Host.Outcome State Fault Refusal :=
  act (fun s => if privileged m then requestStop t s else s) s

/-- A requested stop takes effect (R235, R429). -/
def execThreadStopped (dt : Nat) (t : Fin 8) (s : State) : Host.Outcome State Fault Refusal :=
  actAfter dt (threadStopped t) s

/-- A wait ends (R245, R246, R258). -/
def execThreadWake (t : Fin 8) (s : State) : Host.Outcome State Fault Refusal :=
  act (threadWake t) s

/-- A user instruction is dispatched, or its routine issues its next microword (R421). -/
def execUserInstruction (t : Fin 8) (bytes : List Byte) (s : State) : Host.Outcome State Fault Refusal :=
  actAfter 0 (userInstr t bytes) s

/-- Thread `t` takes INTERRUPT (R331). -/
def execInterruptTaken (t : Fin 8) (s : State) : Host.Outcome State Fault Refusal :=
  act (interruptTaken t) s

/-- Thread `t` takes ABORT (R332). -/
def execAbortException (t : Fin 8) (s : State) : Host.Outcome State Fault Refusal :=
  act (abortTaken t) s

/-- A load, store or start held by the store buffer goes on (R505, R506, R512). -/
def execStoreHoldRelease (t : Fin 8) (s : State) : Host.Outcome State Fault Refusal :=
  actAfter 0 (holdRelease t) s

/-- The running tile operation completes (R466, R471). -/
def execTileOpComplete (dt : Nat) (s : State) : Host.Outcome State Fault Refusal :=
  actAfter dt tileComplete s

/-- The running tile operation stops at the boundary before row `row` (R464, R465). -/
def execTileRowStop (dt row : Nat) (s : State) : Host.Outcome State Fault Refusal :=
  actAfter dt (tileRowStop row) s

end Sys2Proof.Machine
end

