-- ==== Sys2Proof/Machine/WCmd.lean ====
section
/-!
DEFINITION. The Waili commands (spec/18_waili_command_line.md, R809-R812, R824-R849).
-/

namespace Sys2Proof.Machine

/-! ### Number, address and data tokens (R810-R812): the value, or the error code -/

/-- The digits of a token in base `b`, none where a character is no such digit or there is none. -/
def digitsOf (b : Nat) (t : Tok) : Option (List Nat) :=
  if t.isEmpty then none
  else t.foldr (fun (c : Byte) (acc : Option (List Nat)) =>
    match hexVal c, acc with
    | some d, some l => if d < b then some (d :: l) else none
    | _, _ => none) (some [])

def digitsVal (b : Nat) (l : List Nat) : Nat := l.foldl (fun n d => n * b + d) 0

def decTok (t : Tok) : Except Nat Int :=
  match digitsOf 10 t with
  | some l => if l.length ≤ 10 then .ok (digitsVal 10 l : Nat) else .error 1
  | none => .error 1

def hexTok (t : Tok) : Except Nat Int :=
  match digitsOf 16 t with
  | some l =>
    if decide ((l.headD 10) < 10) && decide ((l.dropWhile (· == 0)).length ≤ 8) then .ok (digitsVal 16 l : Nat) else .error 1
  | none => .error 1

def numTok (signed : Bool) (t : Tok) : Except Nat Int :=
  match t with
  | [] => .error 1
  | a :: r =>
    if a = 0x2D then (if signed then (decTok r).map (fun v => -v) else .error 1)
    else if t.getLast? = some 0x48 then hexTok t.dropLast
    else decTok t

/-- A number in `lo .. hi`. -/
def numIn (signed : Bool) (lo hi : Int) (t : Tok) : Except Nat Int :=
  match numTok signed t with
  | .ok v => if lo ≤ v ∧ v ≤ hi then .ok v else .error 6
  | .error e => .error e

/-- A number in `lo .. hi`, not signed. -/
def natIn (lo hi : Nat) (t : Tok) : Except Nat Nat := (numIn false lo hi t).map Int.toNat

/-- The blocks of R484. -/
def blockBase : List (String × Nat) :=
  [("SYS", 0x40000), ("PLINTH", 0x40400), ("MON", 0x40800), ("THR", 0x40C00), ("INTC", 0x41000), ("MEMC", 0x41400),
   ("COUR", 0x41800), ("TILE", 0x41C00), ("ANG", 0x42000), ("EVT", 0x42400), ("ADC", 0x42800), ("OUT", 0x42C00),
   ("KERN", 0x43000), ("WAILI", 0x43400), ("LOOP", 0x43800), ("CAN0", 0x43C00), ("CAN1", 0x44000), ("KLINE", 0x44400),
   ("FCOL", 0x44800), ("DBG", 0x44C00), ("FLASH", 0x45000), ("GPIO", 0x45400), ("POST", 0x45800)]

def addrTok (t : Tok) : Except Nat Nat :=
  match t with
  | 0x44 :: 0x3A :: r =>
    match digitsOf 16 r with
    | some l => if l.length ≤ 5 then .ok (digitsVal 16 l) else .error 1
    | none => .error 1
  | _ =>
    if t.contains 0x2B then
      let name := t.takeWhile (· != 0x2B)
      match blockBase.find? (fun (e : String × Nat) => codes e.1 == name), numTok false (t.drop (name.length + 1)) with
      | some e, .ok v => if e.2 + v.toNat ≤ 0xFFFFF then .ok (e.2 + v.toNat) else .error 6
      | none, _ => .error 1
      | _, .error c => .error c
    else natIn 0 0xFFFFF t

/-- The bytes of a data token. -/
def pairUp : List Nat → List Byte
  | a :: b :: t => BitVec.ofNat 8 (16 * a + b) :: pairUp t
  | _ => []

def dataTok (t : Tok) : Except Nat (List Byte) :=
  match digitsOf 16 t with
  | some l => if 2 ≤ l.length ∧ l.length ≤ 64 ∧ l.length % 2 = 0 then .ok (pairUp l) else .error 1
  | none => .error 1

/-- The number of arguments. -/
def argc (ts : List Tok) (lo hi : Nat) : Except Nat Unit := if lo ≤ ts.length ∧ ts.length ≤ hi then .ok () else .error 6

def argAt (ts : List Tok) (i : Nat) : Tok := ts.getD i []

/-- A list of numbers, all in `lo .. hi`. -/
def numsIn (lo hi : Int) : List Tok → Except Nat (List Int)
  | [] => .ok []
  | t :: r =>
    match numIn true lo hi t, numsIn lo hi r with
    | .ok v, .ok l => .ok (v :: l)
    | .error e, _ => .error e
    | _, .error e => .error e

/-- The optional last argument. -/
def optNat (ts : List Tok) (i lo hi dflt : Nat) : Except Nat Nat :=
  if i < ts.length then natIn lo hi (argAt ts i) else .ok dflt

/-! ### Which commands run where (R826-R836, R843) -/

/-- The modes of a command. -/
inductive WModes where
  | all | run | setup | setupB
deriving DecidableEq, Repr

def kwModes (k : Kw) : WModes :=
  match k with
  | .id | .ping | .help | .echo | .strict | .baud | .boot | .rd | .fault | .flId | .flRd => .all
  | .flEr | .flPg => .setupB
  | .cfgSet | .cfgCommit => .setup
  | _ => .run

/-- The error of a command outside its modes. -/
def kwMode (s : State) (k : Kw) : Option Nat :=
  match kwModes k with
  | .all => none
  | .run => if s.modes.bootsu then some 8 else none
  | .setup => if s.modes.bootsu then some 8 else if inSetup s then none else some 7
  | .setupB => if s.modes.bootsu || inSetup s then none else some 7

/-- RD, RDX, RD32, WR, WR32 and the FL commands (R826). -/
def kwLocked (k : Kw) : Bool :=
  match k with
  | .rd | .rdx | .rd32 | .wr | .wr32 | .flId | .flRd | .flEr | .flPg => true
  | _ => false

/-- ECHO, STRICT and BAUD act on the session of this unit's own UART only (R845). -/
def kwLocal (k : Kw) : Bool :=
  match k with
  | .echo | .strict | .baud => true
  | _ => false

/-- The debug lock is in force. -/
def wLocked (s : State) : Bool := regBit s Reg.sys_OTPSTAT 14 && s.chisel.locked

/-- The error of command `k` before its arguments are looked at. -/
def kwRefused (s : State) (k : Kw) (c : WCtx) : Option Nat :=
  if kwLocal k && (c.own.isSome || c.remote.isSome) then some 52
  else
    match kwMode s k with
    | some e => some e
    | none => if kwLocked k && wLocked s then some 40 else none

/-- The next line is command `k`: its context, its arguments, its text, and the state without the line. -/
def wTake (k : Kw) (s : State) : Option (WCtx × List Tok × List Byte × State) :=
  match wFront s with
  | none => none
  | some (slot, l, c) =>
    match wText s slot l with
    | .error _ => none
    | .ok body =>
      match kwOf (tokens body) with
      | some (k', ts) => if k' = k then some (c, ts, body, wDrop slot s) else none
      | none => none

/-- Command `k` executes where the next line is that command. -/
def wCommand (k : Kw) (f : WCtx → List Tok → List Byte → State → State) (s : State) : State :=
  match wTake k s with
  | none => s
  | some (c, ts, body, s) =>
    match kwRefused s k c with
    | some e => wErr c e s
    | none => f c ts body s

/-- A command whose arguments are read first: their error answers it. -/
def wArgs {α : Type} (r : Except Nat α) (c : WCtx) (f : α → State → State) (s : State) : State :=
  match r with
  | .ok a => f a s
  | .error e => wErr c e s

/-- A command without arguments. -/
def wPlain (k : Kw) (f : WCtx → State → State) : State → State :=
  wCommand k (fun c ts _ => wArgs (argc ts 0 0) c (fun _ => f c))

/-- A command waits. -/
def wWait (w : WWait) (c : WCtx) (s : State) : State :=
  setWaili (fun x => { x with run := some (w, c), progDue := s.now + 50 * msTicks }) s

/-! ### Session commands (R827) -/

def wId : State → State :=
  wPlain .id (fun c s => wOk c (respond c (hexH 4 0x4816 ++ codes " " ++ hexH 2 0x3A ++ codes " " ++ hexH 2 siliconRev) s))

def wPing : State → State := wPlain .ping wOk

/-- The keywords in the current mode. -/
def helpText (s : State) : String :=
  if s.modes.bootsu then "ID PING HELP ECHO STRICT BAUD BOOT RD FAULT FL"
  else "ID PING HELP ECHO STRICT BAUD BOOT STAT RD RDX RD32 WR WR32 MODE CFG FAULT ABORT FL USR"

def wHelp : State → State := wPlain .help (fun c s => wOk c (respond c (codes (helpText s)) s))

/-- ECHO takes effect after its final line (R853). -/
def wEchoCmd : State → State :=
  wCommand .echo (fun c ts _ => wArgs (do argc ts 1 1; natIn 0 1 (argAt ts 0)) c
    (fun v s => setRegBit Reg.waili_CTL 0 (v == 1) (wOk c s)))

/-- STRICT 1 is answered with a suffix already (R818). -/
def wStrict : State → State :=
  wCommand .strict (fun c ts _ => wArgs (do argc ts 1 1; natIn 0 1 (argAt ts 0)) c
    (fun v s => setRegBit Reg.waili_CTL 1 (v == 1) (wOk (if v = 1 then { c with suffix := true } else c) s)))

/-- BAUD takes effect when its OK has left WTX. -/
def wBaud : State → State :=
  wCommand .baud (fun c ts _ => wArgs (do argc ts 1 1; natIn 6 65535 (argAt ts 0)) c
    (fun d s =>
      if onBackup s then wErr c 7 s
      else
        let s := wOk c s
        setWaili (fun w => { w with divPend := some (d, w.out.length) }) s))

def wBoot : State → State :=
  wPlain .boot (fun c s =>
    let v := reg s Reg.sys_BOOTSTAT
    wOk c (respond c (codes "BOOT " ++ hexH 4 v.toNat ++ codes " IMGERR " ++ dec (fld v 0 4) ++ codes " STEP " ++ dec (fld v 4 4)) s))

def angName (a : AngState) : String :=
  match a with
  | .stop => "STOP"
  | .hunt => "HUNT"
  | .crank => "CRANK"
  | .half => "HALF"
  | .sync => "SYNC"

def wStat : State → State :=
  wPlain .stat (fun c s =>
    wOk c (respond c (codes "MODE " ++ codes (modeName s.modes.mode) ++ codes " SYNC " ++ codes (angName s.ang.st)
      ++ codes " RPM " ++ dec (peek s Reg.ang_RPM).toNat ++ codes " FSW " ++ hexH 4 (reg s Reg.fcol_FSW).toNat) s))

/-! ### Data commands (R825, R828, R829) -/

def addrText (a : Nat) : List Byte := codes "D:" ++ hexDigits 5 a

/-- A failed access: its error with its address. -/
def wAccErr (c : WCtx) (n a : Nat) (s : State) : State := wErrX c n (codes " " ++ addrText a) s

def rdCode (r : RdAns) : Nat :=
  match r with
  | .refused _ => 20
  | _ => 22

def wrCode (r : WrAns) : Nat :=
  match r with
  | .collision => 21
  | _ => 20

/-- A line of words goes out, if it holds any. -/
def wRow (c : WCtx) (l : List Byte) (k : Nat) (s : State) : State := if k = 0 then s else respond c l s

/-- Words read and printed, 8 per line; `pre` begins the line of the word at an address, `l` is the line so far with its
`k` words. -/
def wWords (c : WCtx) (pre : Nat → List Byte) (l : List Byte) (k a : Nat) : Nat → State → State
  | 0, s => wOk c (wRow c l k s)
  | n + 1, s =>
    match memRead .waili false a 1 s with
    | (.ok ws, s) =>
      let l := (if k = 0 then pre a else l) ++ codes " " ++ hexH 4 (ws.headD 0).toNat
      if k = 7 then wWords c pre [] 0 (a + 1) n (respond c l s) else wWords c pre l (k + 1) (a + 1) n s
    | (r, s) => wAccErr c (rdCode r) a (wRow c l k s)

def wRd : State → State :=
  wCommand .rd (fun c ts _ => wArgs (do argc ts 1 2; return (← addrTok (argAt ts 0), ← optNat ts 1 1 256 1)) c
    (fun p s => wWords c addrText [] 0 p.1 p.2 s))

/-- One access of `w` words printed. -/
def wRead (side : Bool) (w : Nat) (c : WCtx) (a : Nat) (s : State) : State :=
  match memRead .waili side a w s with
  | (.ok ws, s) =>
    wOk c (respond c (addrText a ++ codes " " ++ hexH (4 * w) ((ws.getD 1 0).toNat * 0x10000 + (ws.getD 0 0).toNat)) s)
  | (r, s) => wAccErr c (rdCode r) a s

def wRdx : State → State :=
  wCommand .rdx (fun c ts _ => wArgs (do argc ts 1 1; addrTok (argAt ts 0)) c (wRead true 1 c))

def wRd32 : State → State :=
  wCommand .rd32 (fun c ts _ => wArgs (do argc ts 1 1; addrTok (argAt ts 0)) c (wRead false 2 c))

/-- The end of a command that writes. -/
def wWrote (c : WCtx) (r : Option (Nat × WrAns) × State) : State :=
  match r with
  | (none, s) => wOk c s
  | (some (a, e), s) => wAccErr c (wrCode e) a s

def wWr : State → State :=
  wCommand .wr (fun c ts _ =>
    wArgs (do argc ts 2 9; return (← addrTok (argAt ts 0), ← numsIn (-32768) 65535 (ts.drop 1))) c
      (fun p s => wWrote c (memWrites .waili p.1 (p.2.map (fun v => BitVec.ofInt 16 v)) s)))

def wWr32 : State → State :=
  wCommand .wr32 (fun c ts _ =>
    wArgs (do argc ts 2 2; return (← addrTok (argAt ts 0), ← natIn 0 0xFFFFFFFF (argAt ts 1))) c
      (fun p s =>
        match memWrite .waili p.1 [wd p.2, wd (p.2 / 0x10000)] s with
        | (.ok, s) => wOk c s
        | (r, s) => wAccErr c (wrCode r) p.1 s))

/-! ### Mode and configuration commands (R830-R834) -/

def wMode : State → State :=
  wCommand .mode (fun c ts _ => wArgs (argc ts 0 0) c (fun _ s => wOk c (respond c (modeText s) s)))

/-- MODE RUN, MODE SETUP and MODE LIMP: the answer follows in the tick of the outcome (R831). -/
def wModeReq (k : Kw) (r : ModeReq) : State → State :=
  wPlain k (fun c s =>
    let s := modeRequest true r s
    wWait (.mode (wModeEnters s)) c s)

def slotText (n : Nat) : String :=
  match n with
  | 1 => "A"
  | 2 => "B"
  | _ => "NONE"

def wCfgStat : State → State :=
  wPlain .cfgStat (fun c s =>
    let a := reg s Reg.sys_ARMSTAT
    wOk c (respond c (codes "SLOT " ++ codes (slotText (fld a 14 2)) ++ codes " GENA " ++ dec (reg32 s Reg.sys_GENA).toNat
      ++ codes " GENB " ++ dec (reg32 s Reg.sys_GENB).toNat ++ codes " WCV " ++ dec (fld a 13 1) ++ codes " DIRTY "
      ++ dec (fld a 12 1) ++ codes " RSNA " ++ dec (fld a 4 4) ++ codes " RSNB " ++ dec (fld a 0 4)) s))

/-- Words w to w + n − 1 lie in the working copy. -/
def cfgIn (w n : Nat) : Except Nat Unit := if w + n ≤ 4096 then .ok () else .error 6

def wCfgGet : State → State :=
  wCommand .cfgGet (fun c ts _ =>
    wArgs (do argc ts 1 2; let w ← natIn 0 4095 (argAt ts 0); let n ← optNat ts 1 1 256 1; cfgIn w n; return (w, n)) c
      (fun p s => wWords c (fun a => codes "W " ++ dec (a - 0x16000)) [] 0 (0x16000 + p.1) p.2 s))

def wCfgSet : State → State :=
  wCommand .cfgSet (fun c ts _ s =>
    if commitBusy s then wErr c 32 s
    else
      wArgs (do argc ts 2 9; let w ← natIn 0 4095 (argAt ts 0); cfgIn w (ts.length - 1);
                return (w, ← numsIn (-32768) 65535 (ts.drop 1))) c
        (fun p s => wWrote c (memWrites .waili (0x16000 + p.1) (p.2.map (fun v => BitVec.ofInt 16 v)) s)) s)

/-- The reason names of R173. -/
def reasonName (n : Nat) : String :=
  match n with
  | 0 => "OK"
  | 1 => "NOMAGIC"
  | 2 => "FORMAT"
  | 3 => "DEVICE"
  | 5 => "LENGTH"
  | 8 => "STRUCTURE"
  | 9 => "MISSING"
  | 10 => "RANGE"
  | _ => "REFERENCE"

def wCfgCheck : State → State :=
  wPlain .cfgCheck (fun c s =>
    if commitBusy s then wErr c 32 s
    else
      let r := wcCheck s
      let s := respond c (codes "RSN " ++ dec r.1 ++ codes " " ++ codes (reasonName r.1)) r.2
      if r.1 = 0 then wOk c s else wErr c 30 s)

def wCfgCommit : State → State :=
  wPlain .cfgCommit (fun c s => if commitBusy s then wErr c 32 s else wWait .commit c (armCommit .waili s))

/-! ### Fault and abort commands (R835, R957, R971) -/

/-- The class names of R947. -/
def classNames : List String :=
  ["CLOCK", "POWER", "THERMAL", "MEMORY", "SEQUENCER", "TILE", "ANGLE", "EVENT", "ADC", "OUTPUT", "KERNEL", "PARTNER",
   "ARMATURE", "INTC", "WATCHDOG", "SECURITY"]

def histText (i : Nat) (e : HistEntry) : List Byte :=
  codes "H " ++ dec i ++ codes " " ++ hexH 12 e.stamp.toNat ++ codes " " ++ codes (classNames.getD e.cls.val "") ++ codes " L"
    ++ dec e.level ++ codes " " ++ hexH 4 e.detail.toNat

def wFault : State → State :=
  wPlain .fault (fun c s =>
    let h := s.fcol.hist
    let s := respond c (codes "FSW " ++ hexH 4 (reg s Reg.fcol_FSW).toNat) s
    wOk c (h.zipIdx.foldl (fun s (p : HistEntry × Nat) => respond c (histText p.2 p.1) s) s))

def classTok (t : Tok) : Except Nat Nat :=
  match classNames.findIdx? (fun n => codes n == t) with
  | some i => .ok i
  | none => .error 6

def wFaultClr : State → State :=
  wCommand .faultClr (fun c ts _ => wArgs (do argc ts 1 1; classTok (argAt ts 0)) c
    (fun i s => wOk c (fswWrite .waili (wd (2 ^ i)) (ackWrite .waili (wd (2 ^ i)) s))))

/-- The targets of ABORT: the name, its KIND, and the number of indexes (0: no index). -/
def abortNames : List (String × Nat × Nat) :=
  [("TH", 1, 8), ("COUR", 2, 8), ("TILE", 3, 0), ("ADC", 4, 2), ("EVT", 5, 512), ("LOOP", 6, 0), ("CAN", 7, 2)]

def abortTok (ts : List Tok) : Except Nat (Nat × Nat) :=
  match abortNames.find? (fun (e : String × Nat × Nat) => codes e.1 == argAt ts 0) with
  | none => .error 6
  | some (_, kind, 0) => do argc ts 1 1; return (kind, 0)
  | some (_, kind, n) => do argc ts 2 2; return (kind, ← natIn 0 (n - 1) (argAt ts 1))

/-- A request that a pending one of the same requester makes the block ignore (R967) is answered as a refused one. -/
def wAbort : State → State :=
  wCommand .abort (fun c ts _ => wArgs (abortTok ts) c
    (fun p s => if abortPending s 8 then wErr c 6 s else wWait (.abort p.1 p.2) c (abortRequest 8 p.1 p.2 s)))

/-! ### Flash commands (R836-R838) -/

def wFlId : State → State :=
  wPlain .flId (fun c s =>
    wOk c (respond c (codes "SFDP " ++ dec (regF s Reg.sys_BOOTSTAT 10 1) ++ codes " SIZE " ++ dec (flashCap s / 1024)
      ++ codes " ERASE " ++ dec (eraseSize s) ++ codes " ADDR " ++ dec (if regBit s Reg.flash_STAT 7 then 4 else 3)) s))

/-- Bytes f to f + n − 1 lie in the flash. -/
def flIn (s : State) (f n : Nat) : Except Nat Unit := if f + n ≤ flashCap s then .ok () else .error 6

/-- They may be erased or programmed (R837). -/
def flWindow (s : State) (f n : Nat) : Except Nat Unit :=
  if s.modes.bootsu || (decide ((reg32 s Reg.cour_FWIN).toNat ≤ f) && decide (f + n ≤ (reg32 s Reg.cour_FWLIM).toNat + 1))
  then .ok () else .error 23

/-- The command waits for the flash master. -/
def flWait (w : WWait) (c : WCtx) (s : State) : State := flashWait .waili (wWait w c s)

def wFlRd : State → State :=
  wCommand .flRd (fun c ts _ s =>
    wArgs (do argc ts 1 2; let f ← natIn 0 0xFFFFFFFF (argAt ts 0); let n ← optNat ts 1 1 64 16; flIn s f n; return (f, n)) c
      (fun p => flWait (.flashRead p.1 p.2) c) s)

def wFlEr : State → State :=
  wCommand .flEr (fun c ts _ s =>
    wArgs (do argc ts 1 1; let f ← natIn 0 0xFFFFFFFF (argAt ts 0); flIn s f 1
              flWindow s (eraseBase s f) (eraseSize s); return eraseBase s f) c
      (fun f => flWait (.flash false f []) c) s)

/-- The bytes do not cross a page boundary. -/
def inPage (f n : Nat) : Except Nat Unit := if f / 256 = (f + n - 1) / 256 then .ok () else .error 6

def wFlPg : State → State :=
  wCommand .flPg (fun c ts _ s =>
    wArgs (do argc ts 2 2; let f ← natIn 0 0xFFFFFFFF (argAt ts 0); let d ← dataTok (argAt ts 1); inPage f d.length
              flIn s f d.length; flWindow s f d.length; return (f, d)) c
      (fun p => flWait (.flash true p.1 p.2) c) s)

/-! ### Lines for firmware (R839, R841) -/

/-- The text after "USR ". -/
def usrText (body : List Byte) : List Byte := ((body.dropWhile (· == 0x20)).drop 4).take 120

def wUsr : State → State :=
  wCommand .usr (fun c _ body s =>
    let t := usrText body
    let (rt, u) := match c.remote with
      | some u => (1, u)
      | none => (0, 0)
    let s := setReg Reg.waili_USRC (wd (0x8000 + rt * 0x4000 + u % 64 * 0x100 + t.length)) s
    let due := s.now + max 1 (reg s Reg.waili_UTMO).toNat * msTicks
    let s := setWaili (fun w => { w with uline := t, utx := [], uend := none, ubegun := false, usrDue := due }) s
    signal (if rt = 1 then 41 else 54) (wWait .usr c s))

def usrDueTick (s : State) : Nat := if (usrRun s).isSome then s.waili.usrDue else s.now

/-- `n` characters of UTX go out. -/
def usrMoves (c : WCtx) : Nat → State → State
  | 0, s => s
  | n + 1, s => usrMoves c n (usrMove c s)

/-- The data line begun goes out, then ER 60 (R841). -/
def wNofw (s : State) : State :=
  match usrRun s with
  | none => s
  | some c =>
    if s.now < s.waili.usrDue then s
    else
      let s := setRegBit Reg.waili_USRC 15 false s
      let s :=
        if c.remote.isSome then
          (if s.waili.utx.isEmpty then s
           else signal 55 (setWaili (fun w => { w with utx := [] }) (respond c s.waili.utx s)))
        else
          let s := usrMoves c s.waili.utx.length s
          if s.waili.ubegun then usrLineEnd c s else s
      wErr c 60 (wEnd s)

/-! ### Progress lines (R822) -/

def progText : List Byte := codes "..."

def progNext (s : State) : State := setWaili (fun w => { w with progDue := w.progDue + 50 * msTicks }) s

def wProgress (s : State) : State :=
  if s.now < s.waili.progDue then s
  else
    match s.waili.run with
    | some (.commit, c) => progNext (respond c progText s)
    | some (.flash false _ _, c) => progNext (respond c progText s)
    | some _ => s
    | none =>
      if s.waili.targets.isEmpty || s.waili.inner.isSome then s else progNext (wline s.waili.tctx.suffix progText s)

def progDueTick (s : State) : Nat :=
  match s.waili.run with
  | some (.commit, _) => s.waili.progDue
  | some (.flash false _ _, _) => s.waili.progDue
  | some _ => s.now
  | none => if s.waili.targets.isEmpty then s.now else s.waili.progDue

/-! ### Routed lines (R844-R849) -/

/-- A prefix without its "@": a unit, or every unit. -/
def prefixTok (t : Tok) : Except Nat (Option Nat) :=
  if t = [0x2A] then .ok none
  else
    match decTok t with
    | .ok n => if n ≤ 63 then .ok (some n.toNat) else .error 6
    | .error e => .error e

/-- The ticks a routed answer may take (R848). -/
def routeTicks (s : State) : Nat := max 1 (regF s Reg.waili_RTMO 0 8) * msTicks

/-- The prefix of a routed line and what travels. -/
def routeOf (body : List Byte) : Tok × List Byte :=
  let l := body.dropWhile (· == 0x20)
  let p := l.takeWhile (· != 0x20)
  (p.drop 1, l.drop (p.length + 1))

/-- What refuses a routed line at its origin (R845). -/
def routeRefused (s : State) (rest : List Byte) : Option Nat :=
  match tokens rest with
  | t :: ts =>
    if isRouted t then some 1
    else
      match kwOf (t :: ts) with
      | some (k, _) => if kwLocal k then some 52 else if (loopAddr s).isNone then some 51 else none
      | none => if (loopAddr s).isNone then some 51 else none
  | [] => if (loopAddr s).isNone then some 51 else none

/-- The line is to be executed here, with the prefix of this unit's own address. -/
def routeOwn (own : Nat) (c : WCtx) (rest : List Byte) (s : State) : State :=
  setWaili (fun w => { w with inner := some (rest, { c with own := some own }) }) s

/-- Answers of the units `us` are awaited. -/
def routeWait (us : List Nat) (c : WCtx) (s : State) : State :=
  let due := s.now + routeTicks s
  setWaili (fun w => { w with
    targets := us.map (fun u => (u, due)), tctx := c, speak := none, progDue := s.now + 100 * msTicks }) s

/-- A line with a routing prefix leaves for its targets. -/
def routeLine (s : State) : State :=
  match wFront s with
  | some (.hold, l, c) =>
    match wText s .hold l with
    | .error _ => s
    | .ok body =>
      if s.modes.bootsu || !((tokens body).head?.map isRouted).getD false then s
      else
        let s := wDrop .hold s
        let (p, rest) := routeOf body
        match prefixTok p with
        | .error e => wErr c e s
        | .ok dest =>
          match routeRefused s rest, loopAddr s with
          | some e, _ => wErr c e s
          | none, none => wErr c 51 s
          | none, some own =>
            match dest with
            | some n =>
              if n = own then routeOwn own c rest s else streamLine (BitVec.ofNat 8 (0x80 + n)) rest (routeWait [n] c s)
            | none =>
              let us := (List.range (regF s Reg.loop_RINFO 0 7)).filter (· != own)
              routeOwn own c rest (streamLine 0x7F rest (routeWait us c s))
  | _ => s

/-- A line of the Loop leaves the inbox. -/
def inboxDrop (ln : RxLine) (s : State) : State := setLoop (fun l => { l with inbox := l.inbox.erase ln }) s

/-- The first routed line that came for this unit. -/
def routedIn (s : State) : Option RxLine :=
  s.loop.inbox.find? (fun ln => ln.code.toNat < 0xC0)

/-- A routed line comes to its target (R846). -/
def routeReceive (s : State) : State :=
  match routedIn s with
  | none => s
  | some ln =>
    let s := inboxDrop ln s
    if s.modes.bootsu || !s.waili.on then s
    else
      match s.waili.rhold with
      | some _ => wErr { remote := some ln.unit } 5 (hwCountF Reg.waili_ERR 0 8 1 s)
      | none => setWaili (fun w => { w with rhold := some (ln.unit, ln.chars) }) s

/-- Unit `u` is awaited. -/
def awaited (s : State) (u : Nat) : Bool := s.waili.targets.any (·.1 == u)

/-- An answer line that may be taken: one nobody awaits, or one of the unit whose lines go out now (R849). -/
def answerIn (s : State) : Option RxLine :=
  s.loop.inbox.find? (fun ln => decide (0xC0 ≤ ln.code.toNat) &&
    (!awaited s ln.unit ||
      (s.waili.run.isNone && s.waili.inner.isNone && (s.waili.speak == none || s.waili.speak == some ln.unit))))

/-- A final line (R820). -/
def isFinal (l : List Byte) : Bool := l == codes "OK" || l.take 3 == codes "ER "

/-- An answer line of a routed command goes out (R847-R849, R858). -/
def routeAnswer (s : State) : State :=
  match answerIn s with
  | none => s
  | some ln =>
    let s := inboxDrop ln s
    if !awaited s ln.unit then s
    else
      let u := ln.unit
      let s := wline s.waili.tctx.suffix (0x23 :: dec u ++ 0x20 :: ln.chars) s
      let due := s.now + routeTicks s
      if isFinal ln.chars then setWaili (fun w => { w with targets := w.targets.filter (·.1 != u), speak := none }) s
      else
        setWaili (fun w => { w with
          targets := w.targets.map (fun e => if e.1 = u then (u, due) else e), speak := some u }) s

/-- Unit `u` has been silent past its time (R848). -/
def silentNow (s : State) (e : Nat × Nat) : Bool :=
  decide (e.2 ≤ s.now) && !s.loop.inbox.any (fun ln => ln.unit == e.1 && decide (0xC0 ≤ ln.code.toNat))

/-- Every awaited unit that is silent is answered for, in ascending order. -/
def routeSilent (s : State) : State :=
  if s.waili.run.isSome || s.waili.inner.isSome then s
  else
    let gone := s.waili.targets.filter (silentNow s)
    let s := gone.foldl (fun s (e : Nat × Nat) => wline s.waili.tctx.suffix (0x23 :: dec e.1 ++ 0x20 :: erText 50 []) s) s
    setWaili (fun w => { w with
      targets := w.targets.filter (fun e => !gone.contains e)
      speak := if gone.any (fun e => w.speak == some e.1) then none else w.speak }) s

def silentTick (s : State) : Nat :=
  s.waili.targets.foldl (fun m (e : Nat × Nat) => min m e.2) ((s.waili.targets.head?.map (·.2)).getD s.now)

/-! ### Sending (R808, R842, R853) -/

/-- The rate change that waits counts this character; the last applies it. -/
def divStep (s : State) : State :=
  match s.waili.divPend with
  | some (d, k) =>
    if k ≤ 1 then setReg Reg.waili_DIV (wd d) (setWaili (fun w => { w with divEff := d, divPend := none }) s)
    else setWaili (fun w => { w with divPend := some (d, k - 1) }) s
  | none => s

/-- A character has left WTX. -/
def wSent (s : State) : State :=
  if s.waili.out.isEmpty then s
  else usrPump (divStep (setWaili (fun w => { w with out := w.out.drop 1 }) s))

end Sys2Proof.Machine
end

