-- ==== Sys2Proof/Machine/ExecWaili.lean ====
section
/-!
DEFINITION. The rows of Waili (spec/18_waili_command_line.md).
-/

namespace Sys2Proof.Machine

/-- A character received on WRX, with its stop bit as sampled (R805, R806). -/
def execWailiCharacter (dt : Nat) (c : Byte) (stopOk : Bool) (s : State) : Host.Outcome State Fault Refusal :=
  actAfter dt (wReceive c stopOk) s

/-- A break on WRX (R806). -/
def execWailiBreak (dt : Nat) (s : State) : Host.Outcome State Fault Refusal :=
  actAfter dt wBreak s

/-- ID (R827). A command row executes the next line where that line is this command. -/
def execIdCmd (s : State) : Host.Outcome State Fault Refusal :=
  act wId s

/-- PING (R827). -/
def execPing (s : State) : Host.Outcome State Fault Refusal :=
  act wPing s

/-- HELP (R827). -/
def execHelp (s : State) : Host.Outcome State Fault Refusal :=
  act wHelp s

/-- ECHO 0 and ECHO 1 (R827, R853). -/
def execEcho (s : State) : Host.Outcome State Fault Refusal :=
  act wEchoCmd s

/-- STRICT 0 and STRICT 1 (R818). -/
def execStrict (s : State) : Host.Outcome State Fault Refusal :=
  act wStrict s

/-- BAUD d (R827, R853, R861). -/
def execBaud (s : State) : Host.Outcome State Fault Refusal :=
  act wBaud s

/-- BOOT (R827). -/
def execBootCmd (s : State) : Host.Outcome State Fault Refusal :=
  act wBoot s

/-- STAT (R827). -/
def execStatCmd (s : State) : Host.Outcome State Fault Refusal :=
  act wStat s

/-- RD a [n] (R828, R829). -/
def execRd (s : State) : Host.Outcome State Fault Refusal :=
  act wRd s

/-- RDX a (R828). -/
def execRdx (s : State) : Host.Outcome State Fault Refusal :=
  act wRdx s

/-- RD32 a (R828). -/
def execRd32 (s : State) : Host.Outcome State Fault Refusal :=
  act wRd32 s

/-- WR a v [v ...] (R828, R829). -/
def execWr (s : State) : Host.Outcome State Fault Refusal :=
  act wWr s

/-- WR32 a v (R828). -/
def execWr32 (s : State) : Host.Outcome State Fault Refusal :=
  act wWr32 s

/-- MODE (R830). -/
def execWailiMode (s : State) : Host.Outcome State Fault Refusal :=
  act wMode s

/-- MODE RUN (R830, R831). -/
def execWailiModeRun (s : State) : Host.Outcome State Fault Refusal :=
  act (wModeReq .modeRun .run) s

/-- MODE SETUP (R830, R831). -/
def execWailiModeSetup (s : State) : Host.Outcome State Fault Refusal :=
  act (wModeReq .modeSetup .setup) s

/-- MODE LIMP (R830, R831). -/
def execWailiModeLimp (s : State) : Host.Outcome State Fault Refusal :=
  act (wModeReq .modeLimp .limp) s

/-- CFG STAT (R830). -/
def execCfgStat (s : State) : Host.Outcome State Fault Refusal :=
  act wCfgStat s

/-- CFG GET w [n] (R830). -/
def execCfgGet (s : State) : Host.Outcome State Fault Refusal :=
  act wCfgGet s

/-- CFG SET w v [v ...] (R830, R832). -/
def execCfgSet (s : State) : Host.Outcome State Fault Refusal :=
  act wCfgSet s

/-- CFG CHECK (R832, R833). -/
def execCfgCheck (s : State) : Host.Outcome State Fault Refusal :=
  act wCfgCheck s

/-- CFG COMMIT (R834). -/
def execCfgCommit (s : State) : Host.Outcome State Fault Refusal :=
  act wCfgCommit s

/-- FAULT (R835). -/
def execFaultCmd (s : State) : Host.Outcome State Fault Refusal :=
  act wFault s

/-- FAULT CLR class (R957). -/
def execFaultClr (s : State) : Host.Outcome State Fault Refusal :=
  act wFaultClr s

/-- ABORT target (R835, R971). -/
def execAbortCmd (s : State) : Host.Outcome State Fault Refusal :=
  act wAbort s

/-- FL ID (R836). -/
def execFlId (s : State) : Host.Outcome State Fault Refusal :=
  act wFlId s

/-- FL RD f [n] (R836, R838). -/
def execFlRd (s : State) : Host.Outcome State Fault Refusal :=
  act wFlRd s

/-- FL ER f (R836-R838). -/
def execFlEr (s : State) : Host.Outcome State Fault Refusal :=
  act wFlEr s

/-- FL PG f data (R836-R838). -/
def execFlPg (s : State) : Host.Outcome State Fault Refusal :=
  act wFlPg s

/-- A USR line goes to firmware (R839). -/
def execUsr (s : State) : Host.Outcome State Fault Refusal :=
  act wUsr s

/-- UTMO ends without UEND (R841). -/
def execNofw (s : State) : Host.Outcome State Fault Refusal :=
  actDue usrDueTick wNofw s

/-- A progress line of a long command (R822). -/
def execProgressLine (s : State) : Host.Outcome State Fault Refusal :=
  actDue progDueTick wProgress s

/-- A line with a routing prefix leaves (R844-R846, R849). -/
def execRoutedLine (s : State) : Host.Outcome State Fault Refusal :=
  act routeLine s

/-- A routed line comes to its target (R846). -/
def execRoutedLineReceived (s : State) : Host.Outcome State Fault Refusal :=
  act routeReceive s

/-- A routed answer line goes out on WTX (R847, R849). -/
def execRoutedAnswer (s : State) : Host.Outcome State Fault Refusal :=
  act routeAnswer s

/-- RTMO ends without an answer (R848, R849). -/
def execNounit (s : State) : Host.Outcome State Fault Refusal :=
  actDue silentTick routeSilent s

/-- A character has left WTX (R842, R853). -/
def execWtxCharacterSent (dt : Nat) (s : State) : Host.Outcome State Fault Refusal :=
  actAfter dt wSent s

/-- The busy poll of an FL command reads 0 after `dt` ticks, or exceeds COUR.FTMO (R838). -/
def execWailiFlashPollEnd (dt : Nat) (idle : Bool) (s : State) : Host.Outcome State Fault Refusal :=
  if idle then actAfter dt wPollDone s else actDue (fun s => s.waili.pollDue + 1) wPollTimeout s

end Sys2Proof.Machine
end

