-- ==== Sys2Proof/Machine/Dispatch.lean ====
section
/-!
DEFINITION. The dispatch of a command to its meaning: one arm per row of spec/opcode_table.json.
-/

namespace Sys2Proof.Machine

def exec (i : Instr) (s : State) : Host.Outcome State Fault Refusal :=
  match i with
  | .por aonLost => Sys2Proof.Machine.execPor aonLost s
  | .resetnLow lhead testen => Sys2Proof.Machine.execResetnLow lhead testen s
  | .looprst => Sys2Proof.Machine.execLooprst s
  | .startEvent fromStat lhead testen => Sys2Proof.Machine.execStartEvent fromStat lhead testen s
  | .bootStart => Sys2Proof.Machine.execBootStart s
  | .pllLockSwitch dt => Sys2Proof.Machine.execPllLockSwitch dt s
  | .bootLockTimeout => Sys2Proof.Machine.execBootLockTimeout s
  | .lockLoss dt xtalStopped => Sys2Proof.Machine.execLockLoss dt xtalStopped s
  | .crystalEdgesReturn dt => Sys2Proof.Machine.execCrystalEdgesReturn dt s
  | .pllRelock dt => Sys2Proof.Machine.execPllRelock dt s
  | .liveToggle => Sys2Proof.Machine.execLiveToggle s
  | .gpioCaptureEdge dt pin rising => Sys2Proof.Machine.execGpioCaptureEdge dt pin rising s
  | .gpioDropRead m side => Sys2Proof.Machine.execGpioDropRead m side s
  | .registerWrite m addr v => Sys2Proof.Machine.execRegisterWrite m addr v s
  | .backFeedStart dt => Sys2Proof.Machine.execBackFeedStart dt s
  | .backFeedEnd dt => Sys2Proof.Machine.execBackFeedEnd dt s
  | .loadDumpStart dt => Sys2Proof.Machine.execLoadDumpStart dt s
  | .loadDumpEnd dt => Sys2Proof.Machine.execLoadDumpEnd dt s
  | .vbatDipStart dt => Sys2Proof.Machine.execVbatDipStart dt s
  | .vbatDipEnd dt => Sys2Proof.Machine.execVbatDipEnd dt s
  | .holdupExpiry => Sys2Proof.Machine.execHoldupExpiry s
  | .preregThermalShutdown dt => Sys2Proof.Machine.execPreregThermalShutdown dt s
  | .preregThermalRestart dt => Sys2Proof.Machine.execPreregThermalRestart dt s
  | .sleepRequest m keywake => Sys2Proof.Machine.execSleepRequest m keywake s
  | .sleepWithdraw m => Sys2Proof.Machine.execSleepWithdraw m s
  | .sleepEntry => Sys2Proof.Machine.execSleepEntry s
  | .keywakeRelease dt => Sys2Proof.Machine.execKeywakeRelease dt s
  | .keywakeStuck => Sys2Proof.Machine.execKeywakeStuck s
  | .wake src => Sys2Proof.Machine.execWake src s
  | .chgPwmPeriod g openG gateG => Sys2Proof.Machine.execChgPwmPeriod g openG gateG s
  | .srefShort => Sys2Proof.Machine.execSrefShort s
  | .srefEnableWrite m v => Sys2Proof.Machine.execSrefEnableWrite m v s
  | .avsStep => Sys2Proof.Machine.execAvsStep s
  | .monitorScan vals vbLow => Sys2Proof.Machine.execMonitorScan vals vbLow s
  | .engineSecond => Sys2Proof.Machine.execEngineSecond s
  | .ehoursWrite m v => Sys2Proof.Machine.execEhoursWrite m v s
  | .dipsRead m side => Sys2Proof.Machine.execDipsRead m side s
  | .armcmdCheck m => Sys2Proof.Machine.execArmcmdCheck m s
  | .armcmdCommit m => Sys2Proof.Machine.execArmcmdCommit m s
  | .commitFlashPollDone dt => Sys2Proof.Machine.execCommitFlashPollDone dt s
  | .commitFlashTimeout => Sys2Proof.Machine.execCommitFlashTimeout s
  | .commitEnd => Sys2Proof.Machine.execCommitEnd s
  | .workingCopyWrite m addr v => Sys2Proof.Machine.execWorkingCopyWrite m addr v s
  | .modeRunRequest m => Sys2Proof.Machine.execModeRunRequest m s
  | .modeSetupRequest m => Sys2Proof.Machine.execModeSetupRequest m s
  | .modeLimpRequest m => Sys2Proof.Machine.execModeLimpRequest m s
  | .reapplicationComplete => Sys2Proof.Machine.execReapplicationComplete s
  | .fenceLiftA m v => Sys2Proof.Machine.execFenceLiftA m v s
  | .fenceLiftB m v => Sys2Proof.Machine.execFenceLiftB m v s
  | .threadStart m t => Sys2Proof.Machine.execThreadStart m t s
  | .threadStopRequest m t => Sys2Proof.Machine.execThreadStopRequest m t s
  | .threadStopped dt t => Sys2Proof.Machine.execThreadStopped dt t s
  | .wcmt m => Sys2Proof.Machine.execWcmt m s
  | .wheelCommitApply => Sys2Proof.Machine.execWheelCommitApply s
  | .threadTimerWrite m t v => Sys2Proof.Machine.execThreadTimerWrite m t v s
  | .threadTimerExpiry t => Sys2Proof.Machine.execThreadTimerExpiry t s
  | .threadWake t => Sys2Proof.Machine.execThreadWake t s
  | .wbitsRead m t side => Sys2Proof.Machine.execWbitsRead m t side s
  | .stallDeclared => Sys2Proof.Machine.execStallDeclared s
  | .sealstatRead m side => Sys2Proof.Machine.execSealstatRead m side s
  | .nop t pre => Sys2Proof.Machine.execNop t pre s
  | .brk t pre => Sys2Proof.Machine.execBrk t pre s
  | .rts t pre => Sys2Proof.Machine.execRts t pre s
  | .retm t pre => Sys2Proof.Machine.execRetm t pre s
  | .trap t pre n => Sys2Proof.Machine.execTrap t pre n s
  | .bsr t pre d => Sys2Proof.Machine.execBsr t pre d s
  | .callm t pre mask d => Sys2Proof.Machine.execCallm t pre mask d s
  | .loopOp t pre count e => Sys2Proof.Machine.execLoopOp t pre count e s
  | .wait t pre mask => Sys2Proof.Machine.execWait t pre mask s
  | .signalOp t pre a => Sys2Proof.Machine.execSignalOp t pre a s
  | .sealOp t pre n => Sys2Proof.Machine.execSealOp t pre n s
  | .unsealOp t pre n => Sys2Proof.Machine.execUnsealOp t pre n s
  | .br t pre cc d => Sys2Proof.Machine.execBr t pre cc d s
  | .movRr t pre rd rs => Sys2Proof.Machine.execMovRr t pre rd rs s
  | .movRi t pre rd v => Sys2Proof.Machine.execMovRi t pre rd v s
  | .movRCr t pre rd c => Sys2Proof.Machine.execMovRCr t pre rd c s
  | .movCrR t pre c rs => Sys2Proof.Machine.execMovCrR t pre c rs s
  | .push t pre rs => Sys2Proof.Machine.execPush t pre rs s
  | .pop t pre rd => Sys2Proof.Machine.execPop t pre rd s
  | .addOp t pre rd src => Sys2Proof.Machine.execAddOp t pre rd src s
  | .adc t pre rd src => Sys2Proof.Machine.execAdc t pre rd src s
  | .subOp t pre rd src => Sys2Proof.Machine.execSubOp t pre rd src s
  | .sbc t pre rd src => Sys2Proof.Machine.execSbc t pre rd src s
  | .cmp t pre rd src => Sys2Proof.Machine.execCmp t pre rd src s
  | .andOp t pre rd src => Sys2Proof.Machine.execAndOp t pre rd src s
  | .orOp t pre rd src => Sys2Proof.Machine.execOrOp t pre rd src s
  | .xorOp t pre rd src => Sys2Proof.Machine.execXorOp t pre rd src s
  | .tst t pre rd src => Sys2Proof.Machine.execTst t pre rd src s
  | .notOp t pre rd => Sys2Proof.Machine.execNotOp t pre rd s
  | .negOp t pre rd => Sys2Proof.Machine.execNegOp t pre rd s
  | .shl t pre rd k => Sys2Proof.Machine.execShl t pre rd k s
  | .shr t pre rd k => Sys2Proof.Machine.execShr t pre rd k s
  | .sar t pre rd k => Sys2Proof.Machine.execSar t pre rd k s
  | .rol t pre rd k => Sys2Proof.Machine.execRol t pre rd k s
  | .mulOp t pre rs rt => Sys2Proof.Machine.execMulOp t pre rs rt s
  | .mac t pre rs rt => Sys2Proof.Machine.execMac t pre rs rt s
  | .msu t pre rs rt => Sys2Proof.Machine.execMsu t pre rs rt s
  | .acld t pre x => Sys2Proof.Machine.execAcld t pre x s
  | .acst t pre x => Sys2Proof.Machine.execAcst t pre x s
  | .acstR t pre x => Sys2Proof.Machine.execAcstR t pre x s
  | .ld t pre rd ea => Sys2Proof.Machine.execLd t pre rd ea s
  | .st t pre rs ea => Sys2Proof.Machine.execSt t pre rs ea s
  | .ldp t pre rd ea => Sys2Proof.Machine.execLdp t pre rd ea s
  | .stp t pre rs ea => Sys2Proof.Machine.execStp t pre rs ea s
  | .setm t pre v => Sys2Proof.Machine.execSetm t pre v s
  | .setbk t pre b => Sys2Proof.Machine.execSetbk t pre b s
  | .stopOp t pre n => Sys2Proof.Machine.execStopOp t pre n s
  | .eret t pre => Sys2Proof.Machine.execEret t pre s
  | .ldsg t pre n ea => Sys2Proof.Machine.execLdsg t pre n ea s
  | .tcfg t pre n rp => Sys2Proof.Machine.execTcfg t pre n rp s
  | .tldr t pre n => Sys2Proof.Machine.execTldr t pre n s
  | .tstr t pre n => Sys2Proof.Machine.execTstr t pre n s
  | .tmap t pre rd n rx ry => Sys2Proof.Machine.execTmap t pre rd n rx ry s
  | .tmac t pre n m => Sys2Proof.Machine.execTmac t pre n m s
  | .trel t pre n => Sys2Proof.Machine.execTrel t pre n s
  | .userInstruction t bytes => Sys2Proof.Machine.execUserInstruction t bytes s
  | .interruptTaken t => Sys2Proof.Machine.execInterruptTaken t s
  | .abortException t => Sys2Proof.Machine.execAbortException t s
  | .storeDrain dt => Sys2Proof.Machine.execStoreDrain dt s
  | .storeHoldRelease t => Sys2Proof.Machine.execStoreHoldRelease t s
  | .mccmdWrite m => Sys2Proof.Machine.execMccmdWrite m s
  | .mccmdRead m => Sys2Proof.Machine.execMccmdRead m s
  | .tileFree m v => Sys2Proof.Machine.execTileFree m v s
  | .tileOpComplete dt => Sys2Proof.Machine.execTileOpComplete dt s
  | .tileRowStop dt row => Sys2Proof.Machine.execTileRowStop dt row s
  | .spillsRead m side => Sys2Proof.Machine.execSpillsRead m side s
  | .courStart m c => Sys2Proof.Machine.execCourStart m c s
  | .descriptorFetch c => Sys2Proof.Machine.execDescriptorFetch c s
  | .courierUnitMove dt delivered => Sys2Proof.Machine.execCourierUnitMove dt delivered s
  | .courierFlashGrant c => Sys2Proof.Machine.execCourierFlashGrant c s
  | .courierFlashPollDone dt c => Sys2Proof.Machine.execCourierFlashPollDone dt c s
  | .courierFlashTimeout c => Sys2Proof.Machine.execCourierFlashTimeout c s
  | .descriptorEnd c => Sys2Proof.Machine.execDescriptorEnd c s
  | .memcCounterRead m idx side => Sys2Proof.Machine.execMemcCounterRead m idx side s
  | .intcEvent dt src => Sys2Proof.Machine.execIntcEvent dt src s
  | .claim m t side => Sys2Proof.Machine.execClaim m t side s
  | .compl m t v => Sys2Proof.Machine.execCompl m t v s
  | .pendset m w v => Sys2Proof.Machine.execPendset m w v s
  | .pendclr m w v => Sys2Proof.Machine.execPendclr m w v s
  | .maskset m w v => Sys2Proof.Machine.execMaskset m w v s
  | .maskclr m w v => Sys2Proof.Machine.execMaskclr m w v s
  | .moderationExpiry g => Sys2Proof.Machine.execModerationExpiry g s
  | .moderationBypass g => Sys2Proof.Machine.execModerationBypass g s
  | .runawayWindow => Sys2Proof.Machine.execRunawayWindow s
  | .spurRead m side => Sys2Proof.Machine.execSpurRead m side s
  | .crankEdge dt peak => Sys2Proof.Machine.execCrankEdge dt peak s
  | .tooth => Sys2Proof.Machine.execTooth s
  | .camEdge dt peak => Sys2Proof.Machine.execCamEdge dt peak s
  | .stallTimeout => Sys2Proof.Machine.execStallTimeout s
  | .cycleBoundary => Sys2Proof.Machine.execCycleBoundary s
  | .phcmdConfirm m => Sys2Proof.Machine.execPhcmdConfirm m s
  | .phcmdFlip m => Sys2Proof.Machine.execPhcmdFlip m s
  | .wheelWrite m v => Sys2Proof.Machine.execWheelWrite m v s
  | .angCounterRead m idx side => Sys2Proof.Machine.execAngCounterRead m idx side s
  | .evtAlloc m => Sys2Proof.Machine.execEvtAlloc m s
  | .evtArm m n => Sys2Proof.Machine.execEvtArm m n s
  | .evtCancel m n => Sys2Proof.Machine.execEvtCancel m n s
  | .evtRelease m n => Sys2Proof.Machine.execEvtRelease m n s
  | .evtQuery m n => Sys2Proof.Machine.execEvtQuery m n s
  | .entryWrite m n idx v => Sys2Proof.Machine.execEntryWrite m n idx v s
  | .kpartWrite m v => Sys2Proof.Machine.execKpartWrite m v s
  | .entryDue n => Sys2Proof.Machine.execEntryDue n s
  | .entryFire dt peak => Sys2Proof.Machine.execEntryFire dt peak s
  | .windowClose n peak => Sys2Proof.Machine.execWindowClose n peak s
  | .pulseEnd target peak => Sys2Proof.Machine.execPulseEnd target peak s
  | .evtCounterRead m idx side => Sys2Proof.Machine.execEvtCounterRead m idx side s
  | .conversionEnd k code => Sys2Proof.Machine.execConversionEnd k code s
  | .conversionStart dt k => Sys2Proof.Machine.execConversionStart dt k s
  | .timeTrigger k => Sys2Proof.Machine.execTimeTrigger k s
  | .swseqWrite m k mask => Sys2Proof.Machine.execSwseqWrite m k mask s
  | .knockSample n x => Sys2Proof.Machine.execKnockSample n x s
  | .kfifoRead m n side => Sys2Proof.Machine.execKfifoRead m n side s
  | .resRead m c side => Sys2Proof.Machine.execResRead m c side s
  | .ionSample n => Sys2Proof.Machine.execIonSample n s
  | .selftestRoundStart dt k => Sys2Proof.Machine.execSelftestRoundStart dt k s
  | .selftestStarved k => Sys2Proof.Machine.execSelftestStarved k s
  | .adcCounterRead m idx side => Sys2Proof.Machine.execAdcCounterRead m idx side s
  | .swcmdOn m target => Sys2Proof.Machine.execSwcmdOn m target s
  | .swcmdOff m target peak => Sys2Proof.Machine.execSwcmdOff m target peak s
  | .maxDwell n => Sys2Proof.Machine.execMaxDwell n s
  | .ignShort dt n => Sys2Proof.Machine.execIgnShort dt n s
  | .softTurnoffEnd n => Sys2Proof.Machine.execSoftTurnoffEnd n s
  | .injPeakEnd dt n timeout flows => Sys2Proof.Machine.execInjPeakEnd dt n timeout flows s
  | .pwmPeriod n => Sys2Proof.Machine.execPwmPeriod n s
  | .hsdShort dt n => Sys2Proof.Machine.execHsdShort dt n s
  | .stepperStep => Sys2Proof.Machine.execStepperStep s
  | .stepperHold => Sys2Proof.Machine.execStepperHold s
  | .stepcmdHome m => Sys2Proof.Machine.execStepcmdHome m s
  | .homingEnd => Sys2Proof.Machine.execHomingEnd s
  | .bridgeOpenCheck dt n below => Sys2Proof.Machine.execBridgeOpenCheck dt n below s
  | .currentLimitShort dt idx => Sys2Proof.Machine.execCurrentLimitShort dt idx s
  | .overTemperature dt idx tripped => Sys2Proof.Machine.execOverTemperature dt idx tripped s
  | .diagClear m idx v => Sys2Proof.Machine.execDiagClear m idx v s
  | .oltRound opens => Sys2Proof.Machine.execOltRound opens s
  | .kernelCommit k n => Sys2Proof.Machine.execKernelCommit k n s
  | .pigeonholeRequest k n => Sys2Proof.Machine.execPigeonholeRequest k n s
  | .pigeonholeFill m k n pair v => Sys2Proof.Machine.execPigeonholeFill m k n pair v s
  | .mreq m v => Sys2Proof.Machine.execMreq m v s
  | .kernCounterRead m idx side => Sys2Proof.Machine.execKernCounterRead m idx side s
  | .wailiCharacter dt c stopOk => Sys2Proof.Machine.execWailiCharacter dt c stopOk s
  | .wailiBreak dt => Sys2Proof.Machine.execWailiBreak dt s
  | .idCmd => Sys2Proof.Machine.execIdCmd s
  | .ping => Sys2Proof.Machine.execPing s
  | .help => Sys2Proof.Machine.execHelp s
  | .echo => Sys2Proof.Machine.execEcho s
  | .strict => Sys2Proof.Machine.execStrict s
  | .baud => Sys2Proof.Machine.execBaud s
  | .bootCmd => Sys2Proof.Machine.execBootCmd s
  | .statCmd => Sys2Proof.Machine.execStatCmd s
  | .rd => Sys2Proof.Machine.execRd s
  | .rdx => Sys2Proof.Machine.execRdx s
  | .rd32 => Sys2Proof.Machine.execRd32 s
  | .wr => Sys2Proof.Machine.execWr s
  | .wr32 => Sys2Proof.Machine.execWr32 s
  | .wailiMode => Sys2Proof.Machine.execWailiMode s
  | .wailiModeRun => Sys2Proof.Machine.execWailiModeRun s
  | .wailiModeSetup => Sys2Proof.Machine.execWailiModeSetup s
  | .wailiModeLimp => Sys2Proof.Machine.execWailiModeLimp s
  | .cfgStat => Sys2Proof.Machine.execCfgStat s
  | .cfgGet => Sys2Proof.Machine.execCfgGet s
  | .cfgSet => Sys2Proof.Machine.execCfgSet s
  | .cfgCheck => Sys2Proof.Machine.execCfgCheck s
  | .cfgCommit => Sys2Proof.Machine.execCfgCommit s
  | .faultCmd => Sys2Proof.Machine.execFaultCmd s
  | .faultClr => Sys2Proof.Machine.execFaultClr s
  | .abortCmd => Sys2Proof.Machine.execAbortCmd s
  | .flId => Sys2Proof.Machine.execFlId s
  | .flRd => Sys2Proof.Machine.execFlRd s
  | .flEr => Sys2Proof.Machine.execFlEr s
  | .flPg => Sys2Proof.Machine.execFlPg s
  | .usr => Sys2Proof.Machine.execUsr s
  | .utx m c => Sys2Proof.Machine.execUtx m c s
  | .uend m v => Sys2Proof.Machine.execUend m v s
  | .nofw => Sys2Proof.Machine.execNofw s
  | .progressLine => Sys2Proof.Machine.execProgressLine s
  | .routedLine => Sys2Proof.Machine.execRoutedLine s
  | .routedLineReceived => Sys2Proof.Machine.execRoutedLineReceived s
  | .routedAnswer => Sys2Proof.Machine.execRoutedAnswer s
  | .nounit => Sys2Proof.Machine.execNounit s
  | .wailiErrRead m hi side => Sys2Proof.Machine.execWailiErrRead m hi side s
  | .roundStart => Sys2Proof.Machine.execRoundStart s
  | .outLegStart dt h0 h1 h2 h3 => Sys2Proof.Machine.execOutLegStart dt h0 h1 h2 h3 s
  | .backLeg dt ldrx turn h0 h1 h2 h3 slots t0 t1 => Sys2Proof.Machine.execBackLeg dt ldrx turn h0 h1 h2 h3 slots t0 t1 s
  | .foldTimeout => Sys2Proof.Machine.execFoldTimeout s
  | .enumeration dt slot => Sys2Proof.Machine.execEnumeration dt slot s
  | .loopEnumerate m => Sys2Proof.Machine.execLoopEnumerate m s
  | .secondHead dt => Sys2Proof.Machine.execSecondHead dt s
  | .silent => Sys2Proof.Machine.execSilent s
  | .loopEpoch => Sys2Proof.Machine.execLoopEpoch s
  | .rstreq m v => Sys2Proof.Machine.execRstreq m v s
  | .loopErrRead m idx side => Sys2Proof.Machine.execLoopErrRead m idx side s
  | .canModeWrite m k v => Sys2Proof.Machine.execCanModeWrite m k v s
  | .canIntegrated dt k => Sys2Proof.Machine.execCanIntegrated dt k s
  | .canFrameReceived dt k id ide rtr fdf brs esi dlc data => Sys2Proof.Machine.execCanFrameReceived dt k id ide rtr fdf brs esi dlc data s
  | .txreq m k v => Sys2Proof.Machine.execTxreq m k v s
  | .canTxDone dt k delay => Sys2Proof.Machine.execCanTxDone dt k delay s
  | .txcan m k v => Sys2Proof.Machine.execTxcan m k v s
  | .canError dt k px dataPhase code tx special => Sys2Proof.Machine.execCanError dt k px dataPhase code tx special s
  | .busOffRecovered dt k => Sys2Proof.Machine.execBusOffRecovered dt k s
  | .canCounterRead m k idx side => Sys2Proof.Machine.execCanCounterRead m k idx side s
  | .txd m b => Sys2Proof.Machine.execTxd m b s
  | .klineByteSent dt echo fe => Sys2Proof.Machine.execKlineByteSent dt echo fe s
  | .klineByteReceived dt b fe => Sys2Proof.Machine.execKlineByteReceived dt b fe s
  | .rxd m side => Sys2Proof.Machine.execRxd m side s
  | .klineFast m => Sys2Proof.Machine.execKlineFast m s
  | .kline5baud m => Sys2Proof.Machine.execKline5baud m s
  | .klineCancel m => Sys2Proof.Machine.execKlineCancel m s
  | .klineInitEnd dt fiveBaud result bitTime kb1 kb2 adr => Sys2Proof.Machine.execKlineInitEnd dt fiveBaud result bitTime kb1 kb2 adr s
  | .faultHandle => Sys2Proof.Machine.execFaultHandle s
  | .fswAck m v => Sys2Proof.Machine.execFswAck m v s
  | .fswClear m v => Sys2Proof.Machine.execFswClear m v s
  | .hclr m => Sys2Proof.Machine.execHclr m s
  | .wdsvc m => Sys2Proof.Machine.execWdsvc m s
  | .watchdogEarly => Sys2Proof.Machine.execWatchdogEarly s
  | .watchdogExpiry lhead testen => Sys2Proof.Machine.execWatchdogExpiry lhead testen s
  | .abcmd m v => Sys2Proof.Machine.execAbcmd m v s
  | .abortReached kind idx => Sys2Proof.Machine.execAbortReached kind idx s
  | .dumpWrite m => Sys2Proof.Machine.execDumpWrite m s
  | .dumpEnd => Sys2Proof.Machine.execDumpEnd s
  | .lineReset => Sys2Proof.Machine.execLineReset s
  | .xrd req => Sys2Proof.Machine.execXrd req s
  | .xwr req data dpar => Sys2Proof.Machine.execXwr req data dpar s
  | .drd req late => Sys2Proof.Machine.execDrd req late s
  | .dwr req data dpar late => Sys2Proof.Machine.execDwr req data dpar late s
  | .chiselAccessDone dt => Sys2Proof.Machine.execChiselAccessDone dt s
  | .haltReq n => Sys2Proof.Machine.execHaltReq n s
  | .threadHalted dt t => Sys2Proof.Machine.execThreadHalted dt t s
  | .resume n => Sys2Proof.Machine.execResume n s
  | .stepThread n noint => Sys2Proof.Machine.execStepThread n noint s
  | .rdata wr v => Sys2Proof.Machine.execRdata wr v s
  | .cdat wr v => Sys2Proof.Machine.execCdat wr v s
  | .vtin c => Sys2Proof.Machine.execVtin c s
  | .vtout => Sys2Proof.Machine.execVtout s
  | .vtrx m => Sys2Proof.Machine.execVtrx m s
  | .vttx m c => Sys2Proof.Machine.execVttx m c s
  | .stamp m p v => Sys2Proof.Machine.execStamp m p v s
  | .unlockAttempt => Sys2Proof.Machine.execUnlockAttempt s
  | .relock => Sys2Proof.Machine.execRelock s
  | .lockoutEnd => Sys2Proof.Machine.execLockoutEnd s
  | .otpProgramImageKey => Sys2Proof.Machine.execOtpProgramImageKey s
  | .otpProgramDebugKey => Sys2Proof.Machine.execOtpProgramDebugKey s
  | .otpSetAuthen => Sys2Proof.Machine.execOtpSetAuthen s
  | .otpSetDbglock => Sys2Proof.Machine.execOtpSetDbglock s
  | .otpCommandEnd dt ok => Sys2Proof.Machine.execOtpCommandEnd dt ok s
  | .postmarkCompare n => Sys2Proof.Machine.execPostmarkCompare n s
  | .crystalEdgesLost dt xtalStopped => Sys2Proof.Machine.execCrystalEdgesLost dt xtalStopped s
  | .vbSourceChange dt fromStat => Sys2Proof.Machine.execVbSourceChange dt fromStat s
  | .srefCurrentLimit dt entered => Sys2Proof.Machine.execSrefCurrentLimit dt entered s
  | .wtxCharacterSent dt => Sys2Proof.Machine.execWtxCharacterSent dt s
  | .wailiFlashPollEnd dt idle => Sys2Proof.Machine.execWailiFlashPollEnd dt idle s
  | .canArbitrationLost dt k => Sys2Proof.Machine.execCanArbitrationLost dt k s
  | .rmissPeriod => Sys2Proof.Machine.execRmissPeriod s

end Sys2Proof.Machine
end

