-- ==== Sys2Proof/Safety.lean ====
section
/-!
DEFINITION. What claims say of a state: that its sparse memories are canonical, that its combinational lines are those its
registers give, that no output stage is driven that a rule keeps OFF, and what a command answers.
-/

namespace Sys2Proof.Machine

/-- Every sparse memory of the state is in its canonical form: addresses strictly rising, and nothing listed that an unlisted
address reads. -/
def Memory.wf (s : State) : Bool :=
  cwf spadDefault s.mem.spad && cwf flashDefault s.flash.cells && cwf codeDefault s.flash.code
    && cwf (fun _ => microUnloaded) s.flash.wcs && cwf regReset s.regs && cwf xReset s.xregs

/-- Event bit 8 of every thread is what the interrupt controller claims for it (R542). -/
def IrqSettled (s : State) : Prop := ∀ t : Fin 8, s.lines.irq.getLsbD t.val = irqLine s t.val

/-- FAULT is low exactly where a rule drives it so (R63, R958). -/
def FaultSettled (s : State) : Prop := s.lines.faultLow = faultPinLow s

/-- No stage is on whose pin a rule keeps OFF: SETUP, a load dump, a fence, a latch-off, or EN at 0 (R715). -/
def StagesSafe (s : State) : Prop :=
  ∀ i : Fin 16, stageBlocked s i.val = true → s.out.stages[i].on = false ∧ s.lines.stageOn.getLsbD i.val = false

/-- The state at the end of a command of a block with its rails up. -/
def Settled (s : State) : Prop := IrqSettled s ∧ FaultSettled s ∧ StagesSafe s

/-- The block's rails are up. -/
def Up (s : State) : Prop := s.power = .up

/-! ### What a command answers

`P r u` relates the state `r` the command acts on, time having passed, to the state `u` it leaves, before what follows a
command of itself (`follow`). -/

/-- A command given one CLK period after the command before it answers a next state, and `P` holds. -/
def Acts (i : Instr) (s : State) (P : State → State → Prop) : Prop :=
  ∃ u, exec i s = .next (follow u) ∧ P (ready (clkTicks s) s) u

/-- A command given `dt` ticks after the command before it answers a next state, and `P` holds. -/
def ActsAfter (dt : Nat) (i : Instr) (s : State) (P : State → State → Prop) : Prop :=
  ∃ u, exec i s = .next (follow u) ∧ P (ready dt s) u

/-- A command whose tick `due` the state holds answers a next state, and `P` holds. -/
def ActsAt (due : State → Nat) (i : Instr) (s : State) (P : State → State → Prop) : Prop :=
  ∃ u, exec i s = .next (follow u) ∧ P (ready (ticksTo (due s) s) s) u

/-- A command that acts whatever the rails are answers a next state, and `P` holds of it. -/
def Answers (i : Instr) (s : State) (P : State → Prop) : Prop := ∃ t, exec i s = .next t ∧ P t

/-- Every register word but those at `as` is the same. -/
def RegsBut (as : List Nat) (r u : State) : Prop := ∀ a, a ∉ as → reg u a = reg r a

/-- The registers that a signalled source may change: INTC.RUNST (R558). -/
def runst : List Nat := (List.range 6).map (fun w => Reg.intc_RUNST w)

/-- The raise `x` was put on the error lines, behind those that stood there. -/
def Raised (r u : State) (x : Raise) : Prop := r.fcol.raises ++ [x] <+: u.fcol.raises

/-- Source `n` holds an event: delayed by moderation, pending, or behind the one in service (R540). -/
def hasEvent (s : State) (n : Fin 96) : Prop :=
  s.intc.raw.getLsbD n = true ∨ s.intc.pend.getLsbD n = true ∨ s.intc.apend.getLsbD n = true

/-! ### What an instruction does -/

/-- The thread, the prefixes and the instruction of a row that a thread executes. -/
def instrOf : Instr → Option (Fin 8 × List Prefix × Op)
  | .nop t pre => some (t, pre, .nop)
  | .brk t pre => some (t, pre, .brk)
  | .rts t pre => some (t, pre, .rts)
  | .retm t pre => some (t, pre, .retm)
  | .trap t pre n => some (t, pre, .trap n)
  | .bsr t pre d => some (t, pre, .bsr d)
  | .callm t pre mask d => some (t, pre, .callm mask d)
  | .loopOp t pre count e => some (t, pre, .loop count e)
  | .wait t pre mask => some (t, pre, .wait mask)
  | .signalOp t pre a => some (t, pre, .signal a)
  | .sealOp t pre n => some (t, pre, .seal n)
  | .unsealOp t pre n => some (t, pre, .unseal n)
  | .br t pre cc d => some (t, pre, .br cc d)
  | .movRr t pre rd rs => some (t, pre, .movRR rd rs)
  | .movRi t pre rd v => some (t, pre, .movRI rd v)
  | .movRCr t pre rd c => some (t, pre, .movRC rd c)
  | .movCrR t pre c rs => some (t, pre, .movCR c rs)
  | .push t pre rs => some (t, pre, .push rs)
  | .pop t pre rd => some (t, pre, .pop rd)
  | .addOp t pre rd src => some (t, pre, .alu .add rd src)
  | .adc t pre rd src => some (t, pre, .alu .adc rd src)
  | .subOp t pre rd src => some (t, pre, .alu .sub rd src)
  | .sbc t pre rd src => some (t, pre, .alu .sbc rd src)
  | .cmp t pre rd src => some (t, pre, .alu .cmp rd src)
  | .andOp t pre rd src => some (t, pre, .alu .and rd src)
  | .orOp t pre rd src => some (t, pre, .alu .or rd src)
  | .xorOp t pre rd src => some (t, pre, .alu .xor rd src)
  | .tst t pre rd src => some (t, pre, .alu .tst rd src)
  | .notOp t pre rd => some (t, pre, .not rd)
  | .negOp t pre rd => some (t, pre, .neg rd)
  | .shl t pre rd k => some (t, pre, .shift .shl rd k)
  | .shr t pre rd k => some (t, pre, .shift .shr rd k)
  | .sar t pre rd k => some (t, pre, .shift .sar rd k)
  | .rol t pre rd k => some (t, pre, .shift .rol rd k)
  | .mulOp t pre rs rt => some (t, pre, .mul rs rt)
  | .mac t pre rs rt => some (t, pre, .mac rs rt)
  | .msu t pre rs rt => some (t, pre, .msu rs rt)
  | .acld t pre x => some (t, pre, (match x with | .reg r => .acldR r | .mem ea => .acldM ea))
  | .acst t pre x => some (t, pre, (match x with | .reg r => .acstR false r | .mem ea => .acstM false ea))
  | .acstR t pre x => some (t, pre, (match x with | .reg r => .acstR true r | .mem ea => .acstM true ea))
  | .ld t pre rd ea => some (t, pre, .ld rd ea)
  | .st t pre rs ea => some (t, pre, .st rs ea)
  | .ldp t pre rd ea => some (t, pre, .ldp rd ea)
  | .stp t pre rs ea => some (t, pre, .stp rs ea)
  | .setm t pre v => some (t, pre, .setm v)
  | .setbk t pre b => some (t, pre, .setbk b)
  | .stopOp t pre n => some (t, pre, .stop n)
  | .eret t pre => some (t, pre, .eret)
  | .ldsg t pre n ea => some (t, pre, .ldsg n ea)
  | .tcfg t pre n rp => some (t, pre, .tcfg n rp)
  | .tldr t pre n => some (t, pre, .tldr n)
  | .tstr t pre n => some (t, pre, .tstr n)
  | .tmap t pre rd n rx ry => some (t, pre, .tmap rd n rx ry)
  | .tmac t pre n m => some (t, pre, .tmac n m)
  | .trel t pre n => some (t, pre, .trel n)
  | _ => none

/-- The length that thread `t` reads from the bytes of the instruction at its PC, where they decode. -/
def decodedLen (r : State) (t : Fin 8) (pre : List Prefix) (op : Op) : Option Nat :=
  match decodeInstr (directDisc (thread r t)) (dispatchWord r) (thread r t).pc.toNat (encodeInstr pre op) with
  | .inl _ => none
  | .inr d => some d.len

/-- The address after the instruction at the PC. -/
def nextPc (r : State) (t : Fin 8) (pre : List Prefix) (op : Op) : BitVec 17 :=
  (thread r t).pc + BitVec.ofNat 17 ((decodedLen r t pre op).getD 0)

/-- Thread `t` may issue, no comparator raises BREAK before the instruction, and it decodes and is well placed. -/
def comesToGuard (r : State) (t : Fin 8) (pre : List Prefix) (op : Op) : Bool :=
  canIssue r t && (beginInstr t r).1.isNone && (decodedLen r t pre op).isSome
    && (placementFail (thread r t) (nextPc r t pre op) op).isNone

/-- The instruction executes: its guard passes and its seal is held (R355, R356). -/
def executes (r : State) (t : Fin 8) (pre : List Prefix) (op : Op) : Bool :=
  comesToGuard r t pre op && guardPasses (thread r t).psw pre && sealHeld r t pre

/-- No delay slot of a CALLM or a RETM is open, which write more than PC and LR after it. -/
def slotPlain (h : Thread) : Bool :=
  match h.slot with
  | some { cont := .callm _ _, .. } => false
  | some { cont := .retm, .. } => false
  | _ => true

/-- Register `x` once the loads in flight have landed (R299, R301). -/
def landed (h : Thread) (x : Fin 16) : Word := (applyLoads h.load h.r)[x]

/-- Every register of thread `h` but those of `xs` is in `k` what it was, loads in flight landed. -/
abbrev OtherRegs (xs : List (Fin 16)) (h k : Thread) : Prop := ∀ x : Fin 16, x ∉ xs → getR k x = landed h x

/-- The registers of an operand. -/
def regsOf (pair : Bool) (rd : Fin 16) : List (Fin 16) := if pair then [pairLo rd, pairHi rd] else [rd]

/-- The flags C, V, Z, N and S are the same, but for C after SEALED, which is 0 (R356). -/
abbrev FlagsKept (pre : List Prefix) (h k : Thread) : Prop :=
  ∀ i : Fin 5, k.psw.getLsbD i = (h.psw.getLsbD i && !(i.val == 0 && (sealedOf pre).isSome))

/-- The accumulators, segments, bank, vector base, context and levels that an instruction does not name are the same. -/
abbrev SpecialsKept (h k : Thread) : Prop :=
  k.ac = h.ac ∧ k.sg = h.sg ∧ k.bk = h.bk ∧ k.vbase = h.vbase ∧ k.ctxid = h.ctxid ∧ k.ls = h.ls ∧ k.le = h.le

/-- The exception registers, and LR outside the slot of a BSR, are the same unless a BREAK waited for the boundary. -/
abbrev SavedKept (h k : Thread) : Prop :=
  (h.slot = none → k.lr = h.lr) ∧
  (h.breakDue = none → k.epc = h.epc ∧ k.epsw = h.epsw ∧ k.ecause = h.ecause ∧ k.eaddr = h.eaddr ∧ k.estat = h.estat)

/-- Outside every slot and loop end, and with no BREAK waiting, the PC is `a`. -/
abbrev PcIs (r : State) (t : Fin 8) (pre : List Prefix) (op : Op) (k : Thread) (a : BitVec 17) : Prop :=
  (thread r t).slot = none → atLoopEnd (thread r t) (nextPc r t pre op) = false → (thread r t).breakDue = none → k.pc = a

/-- The issue wheel's registers, which a commit that falls in the time of an instruction writes (R241). -/
def wheelRegs : List Nat := (List.range 4).map (fun w => Reg.thr_WHEEL0 + w)

/-- An instruction of thread `t` that touches only its own thread leaves memory, the other units and the other threads, but
for halts that a comparator requests of them. -/
abbrev OnlyThread (t : Fin 8) (r u : State) : Prop :=
  (∀ v : Fin 8, v ≠ t → { thread u v with haltReq := none } = { thread r v with haltReq := none }) ∧
  u.mem = r.mem ∧ u.flash = r.flash ∧ u.intc = r.intc ∧ u.fcol = r.fcol ∧ u.tile = r.tile ∧
  u.thr.owner = r.thr.owner ∧ u.thr.want = r.thr.want ∧ RegsBut wheelRegs r u

/-- The flags of an exact sum or difference `x` at width `w` with result `res` and carry or borrow `c` (R363). -/
abbrev SumFlags {w : Nat} (pre : List Prefix) (chain : Bool) (x : Int) (c : Bool) (h k : Thread) (res : BitVec w) : Prop :=
  let ov := x < -(2 ^ (w - 1)) ∨ 2 ^ (w - 1) ≤ x
  k.psw.getLsbD pC = (c && (sealedOf pre).isNone) ∧ k.psw.getLsbD pV = decide ov ∧
  k.psw.getLsbD pZ = (res == 0 && (!chain || h.psw.getLsbD pZ)) ∧ k.psw.getLsbD pN = res.msb ∧
  k.psw.getLsbD pS = (h.psw.getLsbD pS || (hasSat pre && decide ov))

/-- The result and the flags of an exact sum or difference `x` at width `w`: wrapped, or clamped with SAT (R363). -/
abbrev SumOk {w : Nat} (pre : List Prefix) (chain : Bool) (x : Int) (c : Bool) (h k : Thread) (res : BitVec w) : Prop :=
  let ov := x < -(2 ^ (w - 1)) ∨ 2 ^ (w - 1) ≤ x
  res.toInt = (if hasSat pre = true ∧ ov then clampI (-(2 ^ (w - 1))) (2 ^ (w - 1) - 1) x else (BitVec.ofInt w x).toInt) ∧
  SumFlags pre chain x c h k res

/-- The flags of a result with no carry of its own: C and V as given, Z and N of the result, S kept (R364, R365). -/
abbrev FlagsOf {w : Nat} (pre : List Prefix) (c v : Bool) (h k : Thread) (res : BitVec w) : Prop :=
  k.psw.getLsbD pC = (c && (sealedOf pre).isNone) ∧ k.psw.getLsbD pV = v ∧ k.psw.getLsbD pZ = (res == 0) ∧
  k.psw.getLsbD pN = res.msb ∧ k.psw.getLsbD pS = h.psw.getLsbD pS

/-- An instruction that executes outside the slot of a CALLM or RETM does `P` to its thread, leaves the registers but `xs`
and everything beyond the thread, and goes on behind itself. -/
abbrev RunsPlain (t : Fin 8) (pre : List Prefix) (op : Op) (xs : List (Fin 16)) (P : Thread → Thread → Prop) (r u : State) :
    Prop :=
  executes r t pre op = true → slotPlain (thread r t) = true →
    P (thread r t) (thread u t) ∧ OtherRegs xs (thread r t) (thread u t) ∧ SavedKept (thread r t) (thread u t) ∧
    PcIs r t pre op (thread u t) (nextPc r t pre op) ∧ OnlyThread t r u

/-- The state in which the microwords of an instruction have been issued (R366). -/
def issued (r : State) (t : Fin 8) (pre : List Prefix) (op : Op) : State := serve t (costOf pre op) (beginInstr t r).2

/-- The value and the state of a load or store that is made. -/
def memDone : Mem1 → Option (Pair × State)
  | .ok v s => some (v, s)
  | .exc _ _ => none
  | .hold _ => none

/-- No data comparator looks at thread `t`, and no BREAK waits for its next boundary. -/
def dataQuiet (r : State) (t : Fin 8) : Bool :=
  (thread r t).breakDue.isNone && (List.finRange 8).all (fun c : Fin 8 => !cmpFor r t c.val)

/-- An instruction that makes one access executes outside the slot of a CALLM or RETM, its address passes the checks of
`acc`, and `go` makes the access: `P` holds of the access, its value and the state it leaves. -/
abbrev RunsAccess (t : Fin 8) (pre : List Prefix) (op : Op) (acc : Thread → Exc ⊕ Access) (go : Thread → Access → State → Mem1)
    (P : Access → Pair → State → Thread → Thread → Prop) (r u : State) : Prop :=
  executes r t pre op = true → slotPlain (thread r t) = true → dataQuiet r t = true →
    ∀ a, (acc (thread r t)).getRight? = some a → ∀ p, memDone (go (thread r t) a (issued r t pre op)) = some p →
      P a p.1 p.2 (thread r t) (thread u t) ∧ OnlyThread t p.2 u ∧ SavedKept (thread r t) (thread u t) ∧
      PcIs r t pre op (thread u t) (nextPc r t pre op)

/-- The word a load of a thread finds at scratchpad address `a`: the youngest store in the buffer, or the scratchpad's
(R505). -/
def seen (s : State) (a : Nat) : Word :=
  match (s.mem.sbuf.filter (fun e => sbOverlaps e a 1)).getLast? with
  | some e => e.data.extractLsb' (16 * (a - e.addr)) 16
  | none => spadGet s a

/-- What an entry to exception `num` with detail `det`, EPC `p.1` and DLY `p.2` leaves (R323, R328, R329). -/
abbrev Entered (num det : Nat) (p : BitVec 17 × Bool) (h k : Thread) : Prop :=
  k.ecause.toNat = num * 0x1000 + det ∧ k.epc = p.1 ∧ k.pc.toNat = (fld h.vbase 0 10 * 128 + 8 * num) % 0x20000 ∧
  inException k = true ∧ k.estat.getLsbD 14 = inException h ∧ k.psw.getLsbD pIE = false ∧ k.psw.getLsbD pDLY = p.2 ∧
  k.epsw.getLsbD pIE = h.psw.getLsbD pIE ∧ k.epsw.getLsbD pDLY = p.2 ∧ ldep k = ldep h ∧
  (∀ x : Fin 16, getR k x = landed h x) ∧ k.load = [] ∧ k.slot = none ∧ k.shadow = none ∧ k.lr = h.lr ∧ SpecialsKept h k

/-- The specials kept but for the accumulators. -/
abbrev SpecialsButAc (h k : Thread) : Prop :=
  k.sg = h.sg ∧ k.bk = h.bk ∧ k.vbase = h.vbase ∧ k.ctxid = h.ctxid ∧ k.ls = h.ls ∧ k.le = h.le

end Sys2Proof.Machine
end

