-- ==== Sys2Proof/Certificates/Slice0/Obligations.lean ====
section
/-!
DEFINITION. The statements for the provers. Each docstring says what a statement claims and which rules it rests on; `r` is the
state a command acts on, time having passed, and `u` the state it leaves, before what follows of itself (`follow`).
-/

open Sys2Proof Sys2Proof.Machine

/-- For every command c, queue rest and state s, the step of s with c at the front of its queue is exec of c on s with the
queue's rest. With an empty queue the step answers the state itself: that the block idles there is the model's choice
(log entry 1). (95_what_each_step_holds.md) -/
def Obligations.StepRunsTheFrontCommand : Prop :=
  (∀ (c : Instr) (rest : List Instr) (s : State),
    step { s with pending := c :: rest } = exec c { s with pending := rest }) ∧
  (∀ s : State, s.pending = [] → step s = .next s)

/-- At reset every sparse memory is in its canonical form, every thread's event bit 8 is what the interrupt controller
claims, FAULT is low as its rule drives it, no stage is on whose pin a rule keeps OFF, the queue is empty and the
rails are up. The register words are those the tables give for POR; where no table gives a value the model's log names
it. (02_package_pins_electrical.md, 16_output_stages.md, 11_scratchpad_masters_courier.md) -/
def Obligations.ResetStateIsSettledAndCanonical : Prop :=
  Settled State.reset ∧ Memory.wf State.reset = true ∧ Up State.reset ∧ State.reset.pending = [] ∧
  (∀ a, reg State.reset a = regReset a) ∧ inSetup State.reset = true ∧ State.reset.lines.faultLow = true ∧
  State.reset.intc.mask = BitVec.allOnes 96 ∧ (∀ t : Fin 8, (thread State.reset t).st = .stopped)

/-- For every state s, command at its front and next state t: if in s event bit 8 of every thread is what the interrupt
controller claims for it (R542), FAULT is low exactly where a rule drives it so (R63, R958), and no output stage is on
whose pin SETUP, a load dump, a fence, a latch-off or EN at 0 keeps OFF (R715), then the same holds in t, whatever the
command did. (02_package_pins_electrical.md, 05_modes_and_fencing.md, 12_interrupt_controller.md, 16_output_stages.md,
21_faults_abort_dead_letter.md) -/
def Obligations.StepKeepsSettled : Prop :=
  ∀ s t : State, Settled s → step s = .next t → Settled t

/-- For every command and every state, exec answers a next state: none faults and none is refused, whatever its operands
and whatever the state holds. (95_what_each_step_holds.md) -/
def Obligations.EveryCommandAnswersANextState : Prop :=
  ∀ (c : Instr) (s : State), ∃ t, exec c s = .next t

/-- In sleep and with the rails below the POR thresholds, every command other than POR, START_EVENT and WAKE leaves the
state as it is. This is the block's reading of power down: nothing but the AON part runs.
(03_plinth_power_monitors.md) -/
def Obligations.NothingActsWithoutItsRails : Prop :=
  ∀ (c : Instr) (s : State), s.power ≠ .up → (∀ a, c ≠ .por a) → (∀ a b d, c ≠ .startEvent a b d) → (∀ k, c ≠ .wake k) →
    exec c s = .next s

/-- The state a command acts on, dt ticks on, has its tick advanced by dt and its Postmark by dt modulo 2^48. Where no
output command is on its way and no Loop letter is due, only the tick, and the turning time of an engine that is not
stopped, differ. Register words, interrupt state, modes and threads pass unchanged in any case but for the words an
arriving output command changes. (01_stolu_in_one_piece.md, 23_long_run_and_systems.md) -/
def Obligations.TimePassesBeforeACommand : Prop :=
  ∀ (dt : Nat) (s : State),
    (ready dt s).now = s.now + dt ∧ postmark (ready dt s) = postmark s + BitVec.ofNat 48 dt ∧
    (ready dt s).intc.held = s.intc.held ∧ (ready dt s).thr = s.thr ∧ (ready dt s).modes = s.modes ∧
    (ready dt s).pending = s.pending ∧ (ready dt s).mem = s.mem ∧
    (s.out.queue = [] → s.loop.letterDue = none →
      ready dt s = { s with
        now := s.now + dt
        plinth := { s.plinth with
          turnTicks := if s.ang.st = .stop then s.plinth.turnTicks else s.plinth.turnTicks + dt } })

/-- Where no freeze edge is due, no CAN controller may start to send and Waili is off, what follows a command is the
settling alone: every register word, memory and block but the lines, the stages and the stepper stay; a stage that
nothing keeps OFF stays as it is, and a blocked one is off. (16_output_stages.md, 18_waili_command_line.md,
22_chisel_debug_trace.md) -/
def Obligations.FollowOnlySettlesAQuietBlock : Prop :=
  ∀ u : State, frozenBlock u 0 = false → u.chisel.wdLeft = none → frozenBlock u 1 = u.chisel.evtFrozen →
    (∀ k : Fin 2, canOnBus u k = false) → u.waili.on = false →
    { follow u with out := u.out, lines := u.lines } = u ∧
    (∀ i : Fin 16, if stageBlocked u i then (follow u).out.stages[i].on = false ∧ (follow u).lines.stageOn.getLsbD i = false
      else (follow u).out.stages[i] = u.out.stages[i]) ∧
    (∀ t : Fin 8, (follow u).lines.irq.getLsbD t = irqLine u t) ∧ (follow u).lines.faultLow = faultPinLow u

/-- After a word is written to the scratchpad, that address reads the value written with its parity right, every other
address reads as before with its parity as before, and the sparse memory keeps its canonical form. A run of words
written reads back in order. (11_scratchpad_masters_courier.md) -/
def Obligations.ScratchpadReadsWhatWasWritten : Prop :=
  (∀ (s : State) (a b : Nat) (v : Word),
    spadGet (spadPut a v s) b = (if b = a then v else spadGet s b) ∧
    parityBad (spadPut a v s) b = (if b = a then false else parityBad s b) ∧
    (cwf spadDefault s.mem.spad = true → cwf spadDefault (spadPut a v s).mem.spad = true)) ∧
  (∀ (s : State) (a b : Nat) (vs : List Word),
    spadGet (spadPuts a vs s) b = if a ≤ b ∧ b < a + vs.length then vs.getD (b - a) 0 else spadGet s b)

/-- For every list of at most three prefixes of different kinds (IFT and IFF counting as one kind) whose arguments lie in
their ranges, and every opcode byte below F0h, scanning the encoded bytes gives back exactly those prefixes, page 0,
the opcode and what follows it; with a page prefix byte before an opcode below FCh it gives that page.
(08_instruction_encoding_reference.md) -/
def Obligations.PrefixesDecodeAsEncoded : Prop :=
  ∀ (pre : List Prefix) (o : Byte) (rest : List Byte), pre.length ≤ 3 →
    pre.Pairwise (fun p q => prefixCode p ≠ prefixCode q ∧
      ¬ ((prefixCode p = 0xF2 ∨ prefixCode p = 0xF3) ∧ (prefixCode q = 0xF2 ∨ prefixCode q = 0xF3))) →
    pre.all (fun p => match p with
      | .ift c => decide (c ≤ 15)
      | .iff c => decide (c ≤ 15)
      | .sealed n => decide (n ≤ 31)
      | _ => true) = true →
    (o < 0xF0 → scanPrefixes true 5 [] (pre.flatMap prefixBytes ++ o :: rest) = .inr (pre, 0, o :: rest)) ∧
    (∀ pg : Byte, 0xF8 ≤ pg → pg < 0xFC → o < 0xFC → pre.length ≤ 2 →
      scanPrefixes true 5 [] (pre.flatMap prefixBytes ++ pg :: o :: rest) = .inr (pre, pg.toNat - 0xF7, o :: rest))

/-- Lock loss, not yet on the backup clock, sets CLKSTAT.BKUP, clears PLLLK, sets XTAL to whether the crystal runs, adds 1
to SWCNT up to 255, raises CLOCK at least at L3 and empties the Waili line. On the backup clock it does nothing.
Crystal edges returning set XTAL, a relock sets PLLLK where XTAL is 1, and losing them clears them, all without
touching BKUP, and only on the backup clock. (01_stolu_in_one_piece.md) -/
def Obligations.ClockMonitorSwitchesOnceAndNeverBack : Prop :=
  ∀ (s : State) (dt : Nat) (gone : Bool), Up s →
    let c := Reg.sys_CLKSTAT
    ActsAfter dt (.lockLoss dt gone) s (fun r u =>
      if regBit r c 15 then u = r
      else regBit u c 15 = true ∧ regBit u c 14 = false ∧ regBit u c 13 = !gone ∧
        fld (reg u c) 0 8 = min 255 (fld (reg r c) 0 8 + 1) ∧
        Raised r u { cls := clsClock, bmin := 3, detail := 1 } ∧ u.waili.edit = [] ∧ u.now = r.now ∧ u.mem = r.mem ∧
        (∀ k : Fin 2, canState u k ≥ 2)) ∧
    ActsAfter dt (.crystalEdgesReturn dt) s (fun r u =>
      if regBit r c 15 then regBit u c 13 = true ∧ (∀ k < 16, k ≠ 13 → regBit u c k = regBit r c k) ∧
        RegsBut [c] r u ∧ { u with regs := r.regs } = r
      else u = r) ∧
    ActsAfter dt (.pllRelock dt) s (fun r u =>
      if regBit r c 15 = true ∧ regBit r c 13 = true then regBit u c 14 = true ∧
        (∀ k < 16, k ≠ 14 → regBit u c k = regBit r c k) ∧ RegsBut [c] r u ∧ { u with regs := r.regs } = r
      else u = r) ∧
    ActsAfter dt (.crystalEdgesLost dt gone) s (fun r u =>
      if regBit r c 15 then regBit u c 14 = false ∧ regBit u c 13 = (regBit r c 13 && !gone) ∧ regBit u c 15 = true ∧
        RegsBut [c] r u ∧ { u with regs := r.regs } = r
      else u = r)

/-- BOOT_START of a part that has not booted and whose TESTEN is 0 reaches the wait for the PLL after a POR or WARM, 8 ms
long, with BOOTSTAT.STEP 4, and the end of boot after a LOOPRST; otherwise it does nothing. Lock takes CLK to the PLL;
the timeout sets SLOWBOOT, raises CLOCK and leaves CLK on the backup oscillator; each runs boot to its end: finished
with STEP 12 and DONE, or refused, in boot SETUP with an IMGERR. Outside the wait both do nothing.
(01_stolu_in_one_piece.md, 04_start_up_image_armature.md) -/
def Obligations.BootRunsOnceToItsEnd : Prop :=
  ∀ (s : State) (dt : Nat), Up s →
    let ended : State → Prop := fun u => u.boot.stage = .finished ∧
      ((u.modes.bootsu = true ∧ fld (reg u Reg.sys_BOOTSTAT) 0 4 ≠ 0) ∨
       (fld (reg u Reg.sys_BOOTSTAT) 4 4 = 12 ∧ regBit u Reg.sys_BOOTSTAT 15 = true ∧ u.boot.step = 12))
    Acts .bootStart s (fun r u =>
      if r.boot.stage ≠ .notStarted ∨ regBit r Reg.sys_STRAP 14 = true then u = r
      else if r.boot.kind = .looprst then ended u
      else u.boot.stage = .waitLock ∧ u.boot.lockDue = r.now + 8 * 160000 ∧ u.boot.step = 4 ∧
        fld (reg u Reg.sys_BOOTSTAT) 4 4 = 4 ∧ regBit u Reg.sys_BOOTSTAT 12 = (spadGet u 0x17C00 == 0x444C) ∧
        (∀ a, a < 0x17C00 → spadGet u a = spadGet r a) ∧ u.thr = r.thr ∧ u.modes = r.modes ∧ u.flash.cells = r.flash.cells) ∧
    ActsAfter dt (.pllLockSwitch dt) s (fun r u =>
      if r.boot.stage = .waitLock then regBit u Reg.sys_CLKSTAT 15 = false ∧ regBit u Reg.sys_CLKSTAT 14 = true ∧ ended u
      else u = r) ∧
    ActsAt bootLockDue .bootLockTimeout s (fun r u =>
      if r.boot.stage = .waitLock then regBit u Reg.sys_CLKSTAT 15 = regBit r Reg.sys_CLKSTAT 15 ∧
        regBit u Reg.sys_BOOTSTAT 11 = true ∧ Raised r u { cls := clsClock, bmin := 3, detail := 2 } ∧ ended u
      else u = r)

/-- After POR, RESETN, LOOPRST of a unit named by two headers, a start event and the watchdog's expiry: the mode is SETUP,
every thread is STOPPED, the interrupt controller, Courier, tiles, stages and Kernel are as at reset, boot has not
started, and RSTCAUSE names the cause. Every register bit that the reset kind does not keep has its reset value, and
on POR and WARM a kept bit its old one. The scratchpad stays. A POR takes the rails down; a start event with the rails
down brings them up with tick 0. (00_scope.md, 01_stolu_in_one_piece.md, 03_plinth_power_monitors.md,
19_linric_loop.md, 21_faults_abort_dead_letter.md) -/
def Obligations.ResetsKeepAndRestoreWhatTheirTablesSay : Prop :=
  ∀ (s : State) (lost st lh te : Bool),
    let fresh : State → Prop := fun u => u.modes = {} ∧ (∀ t : Fin 8, (thread u t).st = .stopped) ∧ u.intc = {} ∧ u.cour = {} ∧
      u.tile = {} ∧ u.out.queue = [] ∧ u.kern = {} ∧ u.boot.stage = .notStarted ∧ u.flash.owner = .none ∧ u.mem.sbuf = [] ∧
      u.fcol.raises = []
    let own := [Reg.sys_RSTCAUSE, Reg.sys_STRAP, Reg.sys_OTPSTAT, Reg.plinth_STAT, Reg.plinth_WAKESRC, Reg.plinth_EHOURS,
      Reg.plinth_EHOURS + 1]
    let bits : (RegRow → Pair) → State → State → Prop := fun keep r u => ∀ a, a ∉ own →
      (regMask keep a = 0 → reg u a = regReset a) ∧
      (cwf regReset r.regs = true → reg u a = (reg r a &&& regMask keep a) ||| (regReset a &&& ~~~ regMask keep a))
    Answers (.por lost) s (fun t => fresh t ∧ t.power = .down ∧ bits RegRow.kp s t ∧ t.mem.spad = s.mem.spad ∧
      (lost = true → reg32 t Reg.plinth_EHOURS = 0 ∧ regBit t Reg.plinth_STAT 13 = false)) ∧
    Answers (.startEvent st lh te) s (fun t =>
      if s.power = .down then fresh t ∧ t.power = .up ∧ t.now = 0 ∧ bits RegRow.kp s t ∧ regBit t Reg.plinth_STAT 15 = st ∧
        regBit t Reg.sys_STRAP 15 = lh ∧ regBit t Reg.sys_STRAP 14 = te ∧ t.mem.spad = s.mem.spad
      else t = s) ∧
    (Up s → Acts (.resetnLow lh te) s (fun r u => fresh u ∧ reg u Reg.sys_RSTCAUSE = 0x4000 ∧ bits RegRow.kw r u ∧
      regBit u Reg.sys_STRAP 15 = lh ∧ regBit u Reg.sys_STRAP 14 = te ∧ u.now = r.now ∧ u.mem.spad = r.mem.spad ∧
      u.fcol.hist = r.fcol.hist)) ∧
    (Up s → ActsAt wdExpiryDue (.watchdogExpiry lh te) s (fun r u =>
      if r.fcol.wdDue.any (fun d => decide (d ≤ r.now)) then fresh u ∧ reg u Reg.sys_RSTCAUSE = 0x2000 ∧
        regBit u Reg.sys_STRAP 15 = lh ∧ regBit u Reg.sys_STRAP 14 = te ∧ u.mem.spad = r.mem.spad ∧ u.now = r.now
      else u = r)) ∧
    (Up s → Acts .looprst s (fun r u =>
      if isHead r = true ∨ r.loop.rstSeen < 2 then u = r
      else fresh u ∧ reg u Reg.sys_RSTCAUSE = 0x1000 ∧ u.loop.rstSeen = 0 ∧ u.loop.started = r.loop.started ∧
        ∀ a, a ∉ own → regMask RegRow.kl a = 0 → reg u a = regReset a))

/-- A change of VB's source shows in STAT.SRC. Back-feed shows in BFEED until it ends, and not a second time before a POR.
A load dump sets LDUMP and raises POWER 22h on its start and clears it at its end, each edge signalling source 32. A
thermal shutdown of the pre-regulator sets PRTH and raises POWER 24h once, and its restart clears it. Nothing else
changes but what a signal changes. (03_plinth_power_monitors.md) -/
def Obligations.SupplyEventsSetTheirStatus : Prop :=
  ∀ (s : State) (dt : Nat) (b : Bool), Up s →
    ActsAfter dt (.vbSourceChange dt b) s (fun r u =>
      regBit u Reg.plinth_STAT 15 = b ∧ (∀ k < 15, regBit u Reg.plinth_STAT k = regBit r Reg.plinth_STAT k) ∧
      RegsBut [Reg.plinth_STAT] r u ∧ { u with regs := r.regs } = r) ∧
    ActsAfter dt (.backFeedStart dt) s (fun r u =>
      if r.plinth.bfeedDone then u = r
      else regBit u Reg.plinth_STAT 14 = true ∧ RegsBut [Reg.plinth_STAT] r u ∧ { u with regs := r.regs } = r) ∧
    ActsAfter dt (.backFeedEnd dt) s (fun r u =>
      if regBit r Reg.plinth_STAT 14 then
        regBit u Reg.plinth_STAT 14 = false ∧ u.plinth = { r.plinth with bfeedDone := true } ∧
        RegsBut [Reg.plinth_STAT] r u ∧ { u with regs := r.regs, plinth := r.plinth } = r
      else u = r) ∧
    ActsAfter dt (.loadDumpStart dt) s (fun r u =>
      if regBit r Reg.plinth_STAT 12 then u = r
      else regBit u Reg.plinth_STAT 12 = true ∧ Raised r u { cls := clsPower, detail := 0x22 } ∧ hasEvent u 32 ∧
        RegsBut (Reg.plinth_STAT :: runst) r u ∧
        { u with regs := r.regs, hw := r.hw, intc := r.intc, fcol := r.fcol } = r) ∧
    ActsAfter dt (.loadDumpEnd dt) s (fun r u =>
      if regBit r Reg.plinth_STAT 12 then
        regBit u Reg.plinth_STAT 12 = false ∧ hasEvent u 32 ∧ RegsBut (Reg.plinth_STAT :: runst) r u ∧
        { u with regs := r.regs, hw := r.hw, intc := r.intc, fcol := r.fcol } = r
      else u = r) ∧
    ActsAfter dt (.preregThermalShutdown dt) s (fun r u =>
      if regBit r Reg.plinth_STAT 6 then u = r
      else regBit u Reg.plinth_STAT 6 = true ∧ u.fcol.raises = r.fcol.raises ++ [{ cls := clsPower, detail := 0x24 }] ∧
        RegsBut [Reg.plinth_STAT] r u ∧ { u with regs := r.regs, fcol := r.fcol } = r) ∧
    ActsAfter dt (.preregThermalRestart dt) s (fun r u =>
      regBit u Reg.plinth_STAT 6 = false ∧ RegsBut [Reg.plinth_STAT] r u ∧ { u with regs := r.regs } = r)

/-- A dip starts the holdup timer, HOLD.TIME milliseconds (0 counting as 1) from its start, unless one runs. Its end in
time stops the timer, adds 1 to DIPS, saturating, and signals source 30. When the timer ends first, POWER 20h is
raised once and the timer stops. Reading DIPS with its side effect returns the count and clears it.
(03_plinth_power_monitors.md) -/
def Obligations.DipIsRiddenThroughOrEndsInHoldup : Prop :=
  ∀ (s : State) (dt : Nat) (m : Master) (side : Bool), Up s →
    ActsAfter dt (.vbatDipStart dt) s (fun r u =>
      if r.plinth.holdDue.isSome then u = r
      else u = { r with plinth := { r.plinth with
        holdDue := some (r.now + max 1 (fld (reg r Reg.plinth_HOLD) 0 8) * 160000) } }) ∧
    ActsAfter dt (.vbatDipEnd dt) s (fun r u =>
      if r.plinth.holdDue.isSome then
        u.plinth = { r.plinth with holdDue := none } ∧
        (reg u Reg.plinth_DIPS).toNat = min 0xFFFF ((reg r Reg.plinth_DIPS).toNat + 1) ∧ hasEvent u 30 ∧
        RegsBut (Reg.plinth_DIPS :: runst) r u ∧
        { u with regs := r.regs, hw := r.hw, intc := r.intc, fcol := r.fcol, plinth := r.plinth } = r
      else u = r) ∧
    ActsAt holdupDue .holdupExpiry s (fun r u =>
      if r.plinth.holdDue.isSome then
        u.plinth = { r.plinth with holdDue := none } ∧
        u.fcol.raises = r.fcol.raises ++ [{ cls := clsPower, detail := 0x20 }] ∧
        { u with fcol := r.fcol, plinth := r.plinth } = r
      else u = r) ∧
    Acts (.dipsRead m side) s (fun r u =>
      u.result = [rcValue r Reg.plinth_DIPS] ∧
      (isHost m = false ∨ side = true → u = { rcRead Reg.plinth_DIPS r |>.2 with result := u.result }) ∧
      (isHost m = true ∧ side = false → { u with result := r.result } = r) ∧ RegsBut [Reg.plinth_DIPS] r u)

/-- A permitted sleep request, none standing and no commit busy: in RUN, LIMP or with the engine turning it sets SLPREF;
with KEYWAKE high it waits, SLPPND set, for 10 s; else sleep is entered next. A withdrawal ends the wait; KEYWAKE
going low turns it into sleep; after 10 s KWSTK is set and POWER 21h noted once per POR. SLEEP_ENTRY latches WAKEEN
and takes the rails down. A wake source that was latched ends sleep; one that was not leaves it. Masters not permitted
change nothing. (03_plinth_power_monitors.md) -/
def Obligations.SleepIsRequestedHeldAndEntered : Prop :=
  ∀ (s : State) (dt : Nat) (m : Master) (kw : Bool) (src : Fin 4), 
    (Up s → Acts (.sleepRequest m kw) s (fun r u =>
      let q := { r with plinth := { r.plinth with keywake := kw } }
      if privileged m = false ∨ regBit r Reg.sys_ARMSTAT 11 = true ∨ regBit r Reg.plinth_STAT 9 = true ∨ r.plinth.sleepGo = true
      then u = q
      else if r.modes.mode ≠ .setup ∨ r.ang.st ≠ .stop then
        regBit u Reg.plinth_STAT 8 = true ∧ RegsBut [Reg.plinth_STAT] r u ∧ { u with regs := r.regs, hw := r.hw } = q
      else if kw then
        regBit u Reg.plinth_STAT 9 = true ∧ RegsBut [Reg.plinth_STAT] r u ∧
        u.plinth = { q.plinth with sleepDue := some (r.now + 10000 * 160000) } ∧ { u with regs := r.regs, plinth := r.plinth } = r
      else u = { q with plinth := { q.plinth with sleepGo := true } })) ∧
    (Up s → Acts (.sleepWithdraw m) s (fun r u =>
      if privileged m then regBit u Reg.plinth_STAT 9 = false ∧ u.plinth = { r.plinth with sleepDue := none } ∧
        RegsBut [Reg.plinth_STAT] r u ∧ { u with regs := r.regs, plinth := r.plinth } = r
      else u = r)) ∧
    (Up s → ActsAfter dt (.keywakeRelease dt) s (fun r u =>
      regBit u Reg.plinth_STAT 9 = false ∧ RegsBut [Reg.plinth_STAT] r u ∧ u.plinth.keywake = false ∧
      u.plinth.sleepGo = (r.plinth.sleepGo || regBit r Reg.plinth_STAT 9) ∧ { u with regs := r.regs, plinth := r.plinth } = r)) ∧
    (Up s → ActsAt keywakeStuckDue .keywakeStuck s (fun r u =>
      if r.plinth.sleepDue.isSome then
        regBit u Reg.plinth_STAT 7 = true ∧ RegsBut [Reg.plinth_STAT] r u ∧ u.plinth.sleepDue = none ∧
        u.plinth.keyStuckLogged = true ∧
        u.fcol.raises = r.fcol.raises ++
          (if r.plinth.keyStuckLogged then [] else [{ cls := clsPower, detail := 0x21, note := true }])
      else u = r)) ∧
    (Up s → Acts .sleepEntry s (fun r u =>
      if r.plinth.sleepGo then
        u.power = (if r.plinth.wakeMet = 0 then .asleep else .down) ∧
        u.plinth.wakeLatch.toNat = fld (reg r Reg.plinth_WAKEEN) 0 4 ∧ u.plinth.srefOn = false ∧ u.plinth.livePin = false ∧
        u.plinth.sleepGo = false ∧ { u with power := r.power, plinth := r.plinth } = r
      else u = r)) ∧
    Answers (.wake src) s (fun t => t.regs = s.regs ∧ t.now = s.now ∧
      (s.power = .asleep → t.power = if s.plinth.wakeLatch.getLsbD src then .down else .asleep) ∧
      (s.power ≠ .asleep → t.power = s.power) ∧
      (s.power = .asleep → s.plinth.wakeLatch.getLsbD src = true → t.plinth.wakeMet.getLsbD src = true))

/-- A charging period of an unblocked gate with no clamp is on for duty times the period rounded down, no pulse below
MINON and a full period where the off-time is below it, and the next period is due one period later. SREF entering or
leaving its limit shows in SRLIM and signals source 33; after 10 ms of limit POWER 23h is raised once and OFFSC turns
SREF off. A permitted write of SREFCFG turns SREF on or off by EN. AVS moves VSET by at most one, up below AVSTGT - 32
and down above AVSTGT + 32, never out of 0 to 30, and not on the backup clock. (03_plinth_power_monitors.md) -/
def Obligations.ChargingReferenceAndVoltageSteps : Prop :=
  ∀ (s : State) (dt : Nat) (g : Fin 2) (a b : BitVec 2) (m : Master) (v : Word) (e : Bool), Up s →
    ActsAt (fun s => chgDue s g) (.chgPwmPeriod g a b) s (fun r u =>
      let i : Fin 16 := ⟨14 + g.val, by omega⟩
      let p := 160000 / (fld (reg r Reg.plinth_CHGCFG) 8 4 + 1)
      let least := fld (reg r Reg.plinth_CHGCFG) 0 8 * 80
      let on := (reg r Reg.plinth_CHGDUTY).toNat * p / 65536
      (u.out.stages[i]).periodDue = r.now + p ∧ (g = 0 → (u.out.stages[(15 : Fin 16)]).periodDue = r.now + p / 2) ∧
      (stageBlocked r i = true → (u.out.stages[i]).on = (r.out.stages[i]).on ∧ u.regs = r.regs ∧ u.fcol = r.fcol) ∧
      (stageBlocked r i = false → regBit r Reg.plinth_STAT 11 = false →
        ((u.out.stages[i]).on = decide (least ≤ on ∧ 0 < on ∨ p < on + least ∧ least ≤ on)) ∧
        (least ≤ on → least ≤ p - on → (u.out.stages[i]).offAt = if on = p then none else some (r.now + on)) ∧
        (least ≤ on → p - on < least → (u.out.stages[i]).offAt = none)) ∧
      u.thr = r.thr ∧ u.mem = r.mem ∧ u.modes = r.modes ∧ u.plinth = r.plinth) ∧
    ActsAfter dt (.srefCurrentLimit dt e) s (fun r u =>
      if regBit r Reg.plinth_STAT 10 = e then u = r
      else regBit u Reg.plinth_STAT 10 = e ∧ hasEvent u 33 ∧ RegsBut (Reg.plinth_STAT :: runst) r u ∧
        u.plinth = { r.plinth with srefDue := if e then some (r.now + 1600000) else none } ∧
        { u with regs := r.regs, hw := r.hw, intc := r.intc, fcol := r.fcol, plinth := r.plinth } = r) ∧
    ActsAt srefShortDue .srefShort s (fun r u =>
      if r.plinth.srefDue.isSome then
        u.fcol.raises = r.fcol.raises ++ [{ cls := clsPower, detail := 0x23 }] ∧
        u.plinth = { r.plinth with srefDue := none, srefOn := r.plinth.srefOn && !regBit r Reg.plinth_SREFCFG 14 } ∧
        { u with fcol := r.fcol, plinth := r.plinth } = r
      else u = r) ∧
    Acts (.srefEnableWrite m v) s (fun r u =>
      if privileged m then u.plinth = { r.plinth with srefOn := v.getLsbD 15 } ∧ regBit u Reg.plinth_SREFCFG 15 = v.getLsbD 15 ∧
        regBit u Reg.plinth_SREFCFG 14 = v.getLsbD 14 ∧ RegsBut [Reg.plinth_SREFCFG] r u ∧
        { u with regs := r.regs, plinth := r.plinth } = r
      else u = r) ∧
    ActsAt avsDue .avsStep s (fun r u =>
      let c := (reg r (Reg.mon_VAL 8)).toNat
      let t := (reg r Reg.plinth_AVSTGT).toNat
      let k := min 30 (fld (reg r Reg.plinth_CORECFG) 0 5)
      let k' := fld (reg u Reg.plinth_CORECFG) 0 5
      u.plinth.avsDue = r.now + 160000 ∧ RegsBut [Reg.plinth_CORECFG] r u ∧
      if regBit r Reg.plinth_CORECFG 15 = false ∨ onBackup r = true then u.regs = r.regs ∧ u.fcol = r.fcol
      else if c + 32 < t ∧ k < 30 then k' = k + 1 ∧ u.fcol = r.fcol
      else if t + 32 < c ∧ 0 < k ∧ ¬ c + 32 < t then k' = k - 1 ∧ u.fcol = r.fcol
      else u.regs = r.regs ∧ u.fcol.raises = r.fcol.raises ++
        (if (c + 32 < t ∨ t + 32 < c) ∧ r.plinth.avsLogged = false then [{ cls := clsPower, detail := 0x25, note := true }] else []))

/-- A scan stores each channel's value in MON.VAL (channel 8 only off the backup clock), sets its MON.OUT bit exactly
where the value is below LO (signed for channels 0 to 2; not judged for channel 7 with VB low nor for channel 4 with
LO 0) or above HI, signals source 35, and source 34 when a bit of MON.OUT changed. The next scan is due 250 us later.
No thread, memory or mode changes. (03_plinth_power_monitors.md) -/
def Obligations.MonitorScanStoresAndJudges : Prop :=
  ∀ (s : State) (vals : Vector Word 9) (vbLow : Bool), Up s → ActsAt scanDue (.monitorScan vals vbLow) s (fun r u =>
    let lo : Fin 9 → Word := fun n => reg r (Reg.mon_WIN0 + 2 * n.val)
    let hi : Fin 9 → Word := fun n => reg r (Reg.mon_WIN0 + 2 * n.val + 1)
    let skip : Fin 9 → Bool := fun n => decide (n.val = 8) && onBackup r
    let noLo : Fin 9 → Bool := fun n => (decide (n.val = 7) && vbLow) || (decide (n.val = 4) && lo n == 0)
    let below_ : Fin 9 → Bool := fun n => if n.val < 3 then (vals[n]).slt (lo n) else (vals[n]).ult (lo n)
    let above_ : Fin 9 → Bool := fun n => if n.val < 3 then (hi n).slt (vals[n]) else (hi n).ult (vals[n])
    (∀ n : Fin 9, reg u (Reg.mon_VAL n) = if skip n then reg r (Reg.mon_VAL n) else vals[n]) ∧
    (∀ n : Fin 9, regBit u Reg.mon_OUT n = if skip n then regBit r Reg.mon_OUT n else (below_ n && !noLo n) || above_ n) ∧
    hasEvent u 35 ∧ (reg u Reg.mon_OUT ≠ reg r Reg.mon_OUT → hasEvent u 34) ∧
    u.plinth.scanDue = r.now + 40000 ∧ u.thr = r.thr ∧ u.mem = r.mem ∧ u.modes = r.modes ∧ u.flash = r.flash)

/-- A complete second of turning adds 1 to EHOURS, which stops at FFFFFFFFh. A write of EHOURS acts in SETUP from a
permitted master and sets AONV. LIVE toggles in RUN and LIMP only. A selected edge of a pin in capture mode stores the
Postmark's low 32 bits in its CAP register and signals its source, or counts in DROP within 32 ticks of the last; on
any other pin only the level changes. A read of DROP clears it. (02_package_pins_electrical.md,
03_plinth_power_monitors.md) -/
def Obligations.EngineHoursAndPinsFollowTheirRules : Prop :=
  ∀ (s : State) (dt : Nat) (m : Master) (v : Pair) (pin : Fin 17) (up side : Bool), Up s →
    ActsAt engineSecondDue .engineSecond s (fun r u =>
      if 160000000 ≤ r.plinth.turnTicks then
        (reg32 u Reg.plinth_EHOURS).toNat = min 0xFFFFFFFF ((reg32 r Reg.plinth_EHOURS).toNat + 1) ∧
        u.plinth = { r.plinth with turnTicks := r.plinth.turnTicks - 160000000 } ∧
        RegsBut [Reg.plinth_EHOURS, Reg.plinth_EHOURS + 1] r u ∧ { u with regs := r.regs, plinth := r.plinth } = r
      else u = r) ∧
    Acts (.ehoursWrite m v) s (fun r u =>
      if privileged m = true ∧ r.modes.mode = .setup then
        reg32 u Reg.plinth_EHOURS = v ∧ regBit u Reg.plinth_STAT 13 = true ∧
        RegsBut [Reg.plinth_EHOURS, Reg.plinth_EHOURS + 1, Reg.plinth_STAT] r u ∧ { u with regs := r.regs } = r
      else u = r) ∧
    ActsAt liveDue .liveToggle s (fun r u =>
      if r.modes.mode = .setup then u = r
      else u = { r with plinth := { r.plinth with livePin := !r.plinth.livePin, liveLast := r.now } }) ∧
    ActsAfter dt (.gpioCaptureEdge dt pin up) s (fun r u =>
      let c := reg r (Reg.gpio_PCFG pin)
      let sel := fld c 10 2 = 2 ∧ (fld c 8 2).testBit (if up then 0 else 1) = true
      let soon := r.plinth.gpioEdge[pin].any (fun t => decide (r.now < t + 32)) = true
      u.plinth.gpioIn.getLsbD pin = up ∧
      (¬ sel → { u with plinth := { u.plinth with gpioIn := r.plinth.gpioIn } } = r) ∧
      (sel → soon → (reg u Reg.gpio_DROP).toNat = min 0xFFFF ((reg r Reg.gpio_DROP).toNat + 1) ∧ u.intc = r.intc ∧
        RegsBut [Reg.gpio_DROP] r u ∧ { u.plinth with gpioIn := r.plinth.gpioIn } = r.plinth) ∧
      (sel → ¬ soon → reg32 u (Reg.gpio_CAP pin) = stamp32 r ∧ hasEvent u ⟨72 + pin.val, by omega⟩ ∧
        u.plinth.gpioEdge[pin] = some r.now ∧ RegsBut (Reg.gpio_CAP pin :: (Reg.gpio_CAP pin + 1) :: runst) r u)) ∧
    Acts (.gpioDropRead m side) s (fun r u =>
      u.result = [rcValue r Reg.gpio_DROP] ∧ RegsBut [Reg.gpio_DROP] r u ∧
      (isHost m = false ∨ side = true → u = { rcRead Reg.gpio_DROP r |>.2 with result := u.result }) ∧
      (isHost m = true ∧ side = false → { u with result := r.result } = r))

/-- In SETUP, no commit busy and no transition under way, a RUN or LIMP request of TH0, TH1, the debug master or Waili
gets in REFUSE the first of codes 1 to 5 whose condition holds, and nothing starts. Else a LIMP request starts the
transition to LIMP, and a RUN request the one to RUN, or to LIMP with REFUSE 6, 7 or 8 where CLK is on backup, a class
handled at L3 or above is uncleared, or the Loop loss policy LIMP stands. Any other master's request sets REFUSE 9 and
changes nothing else. (R199, R200, R201) -/
def Obligations.LeavingSetupMeetsEveryCondition : Prop :=
  ∀ (s : State) (m : Master), Up s →
    let code := fun r : State =>
      if regBit r Reg.sys_ARMSTAT 13 = false ∨ regBit r Reg.sys_ARMSTAT 12 = true then 1
      else if r.modes.bootsu = true then 2
      else if ∃ c : Fin 16, regBit r Reg.fcol_FSW c = true ∧ 4 ≤ lvOf r c then 3
      else if regBit r Reg.loop_STAT 9 = true then 4
      else if lossPolicy r = 2 then 5
      else 0
    let late := fun r : State =>
      if onBackup r = true then 6
      else if ∃ c : Fin 16, regBit r Reg.fcol_FSW c = true ∧ 3 ≤ lvOf r c then 7
      else if lossPolicy r = 1 then 8
      else 0
    let asked : (Nat → State → State → Prop) → State → State → Prop := fun go r u =>
      let refuse := fld (reg u Reg.sys_MODESTAT) 0 4
      RegsBut [Reg.sys_MODESTAT] r u ∧ { u with regs := r.regs, modes := r.modes } = r ∧
      if privileged m = false then refuse = 9 ∧ u.modes = r.modes
      else if code r ≠ 0 then refuse = code r ∧ u.modes = r.modes
      else { u.modes with reapply := none } = r.modes ∧ go refuse r u
    let idle := fun r : State => privileged m = false ∨
      (r.modes.mode = .setup ∧ r.modes.reapply = none ∧ regBit r Reg.sys_ARMSTAT 11 = false)
    Acts (.modeRunRequest m) s (fun r u => idle r → asked (fun refuse r u => refuse = late r ∧
      u.modes.reapply.map (·.target) = some (if late r = 0 then .run else .limp)) r u) ∧
    Acts (.modeLimpRequest m) s (fun r u => idle r → asked (fun refuse _ u => refuse = 0 ∧
      u.modes.reapply.map (fun p => (p.target, p.lsrc)) = some (.limp, 2)) r u)

/-- By a permitted master: a SETUP request in RUN or LIMP enters SETUP at once, and in SETUP drops what waits; a LIMP
request in RUN enters LIMP with LSRC 2 and counts in LIMPCNT; a RUN request in LIMP that no code 6 to 8 stops enters
RUN, or waits with PEND while synchronised, else REFUSE has the code. An entry signals source 3.
REAPPLICATION_COMPLETE ends a transition under way: with nothing waiting, the mode is its target, LIMP where an L3
fault came, and without one it does nothing. (05_modes_and_fencing.md) -/
def Obligations.ModeRequestsTakeEffect : Prop :=
  ∀ (s : State) (m : Master), Up s →
    let refuse := fun u : State => fld (reg u Reg.sys_MODESTAT) 0 4
    Acts (.modeSetupRequest m) s (fun r u =>
      if privileged m = false then refuse u = 9 ∧ u.modes = r.modes
      else u.modes.mode = .setup ∧ (r.modes.mode = .setup → u.modes.reapply.isNone = true) ∧ refuse u = 0 ∧ u.modes.pend = (decide (r.modes.mode = .setup) && r.modes.pend) ∧
        (r.modes.mode ≠ .setup → hasEvent u 3 ∧ u.plinth.livePin = false) ∧ (r.modes.mode = .setup → u.intc = r.intc)) ∧
    Acts (.modeLimpRequest m) s (fun r u => privileged m = true →
      (r.modes.mode = .run → u.modes.mode = .limp ∧ u.modes.lsrc = 2 ∧ u.modes.lcause = 0 ∧ u.modes.pend = false ∧ refuse u = 0 ∧
        fld (reg u Reg.sys_MODESTAT) 8 8 = min 255 (fld (reg r Reg.sys_MODESTAT) 8 8 + 1) ∧ hasEvent u 3) ∧
      (r.modes.mode = .limp → refuse u = 0 ∧ u.modes = { r.modes with pend := false } ∧ u.intc = r.intc)) ∧
    Acts (.modeRunRequest m) s (fun r u => privileged m = true →
      (r.modes.mode = .run → refuse u = 0 ∧ u.modes = r.modes ∧ u.intc = r.intc) ∧
      (r.modes.mode = .limp →
        let c := (runRefused r).1
        refuse u = c ∧
        if c ≠ 0 then u.modes = r.modes
        else if angSync r then u.modes = { r.modes with pend := true } ∧ u.intc = r.intc
        else u.modes.mode = .run ∧ u.modes.pend = false ∧ hasEvent u 3)) ∧
    Acts .reapplicationComplete s (fun r u =>
      (r.modes.reapply.isNone = true → u = r) ∧
      (∀ p, r.modes.reapply = some p → p.waiting = none →
        u.modes.reapply.isNone = true ∧ u.modes.mode = (if p.l3.isSome then .limp else if p.target = .run then .run else .limp) ∧
        hasEvent u 3 ∧ u.thr.owner = r.thr.owner))

/-- In SETUP with no commit busy, a check stores its result in ARMRSN, sets WCV where it is 0 and clears WCDIRTY; a commit
sets CBUSY and stops at once with CERR where the check fails, else takes the flash or waits for it. In another mode,
or busy, both do nothing. A poll done in step C3 leaves the erase unit FFh and every other byte of flash as it was; a
timeout stops the commit with CERR. The end clears CBUSY, writes FLASH.CMT with DONE, OK, TMO and the step, and
signals source 60. A granted write of a working-copy word reads back and sets WCDIRTY. (04_start_up_image_armature.md) -/
def Obligations.WorkingCopyIsCheckedAndCommitted : Prop :=
  ∀ (s : State) (dt : Nat) (m : Master), Up s →
    let busy := fun r : State => regBit r Reg.sys_ARMSTAT 11
    let may := fun r : State => r.modes.mode = .setup ∧ busy r = false
    let code := fun r : State => copyCheck (wcWord r) r.flash.slotSz
    Acts (.armcmdCheck m) s (fun r u =>
      if may r then (reg u Reg.sys_ARMRSN).toNat = code r ∧ regBit u Reg.sys_ARMSTAT 13 = (code r == 0) ∧
        regBit u Reg.sys_ARMSTAT 12 = false ∧ RegsBut [Reg.sys_ARMRSN, Reg.sys_ARMSTAT] r u ∧
        { u with regs := r.regs, mem := r.mem } = r
      else u = r) ∧
    Acts (.armcmdCommit m) s (fun r u =>
      if may r then busy u = true ∧ u.flash.commit.isSome = true ∧ u.flash.cells = r.flash.cells ∧
        (code r ≠ 0 → regBit u Reg.sys_ARMSTAT 10 = true ∧
          u.flash.commit.map (fun c => (c.step, c.ended)) = some (1, some (false, false))) ∧
        (code r = 0 → nextGen r ≤ 0xFFFFFFFE → u.flash.commit.map (fun c => (c.step, c.waitFlash, c.ended)) =
          some (if r.flash.owner = .none then (3, false, none) else (2, true, none)))
      else u = r) ∧
    ActsAfter dt (.commitFlashPollDone dt) s (fun r u =>
      (r.flash.commit.any (fun c => c.poll.isSome && decide (r.now ≤ c.due)) = false ∨ r.flash.answers = false → u = r) ∧
      (∀ c, r.flash.commit = some c → c.poll.isSome = true → r.now ≤ c.due → r.flash.answers = true → c.pre = false →
        c.step = 3 → ∀ b, flashByte u b =
          if slotBase r c.slot + c.pos ≤ b ∧ b < slotBase r c.slot + c.pos + eraseSize r then 0xFF else flashByte r b)) ∧
    ActsAt commitTimeoutDue .commitFlashTimeout s (fun r u =>
      if r.flash.commit.any (fun c => c.poll.isSome && decide (c.due ≤ r.now)) then
        regBit u Reg.sys_ARMSTAT 10 = true ∧ u.flash.commit.map (fun c => (c.ended, c.poll)) = some (some (false, true), none)
      else u = r) ∧
    ActsAfter 0 .commitEnd s (fun r u =>
      (r.flash.commit.bind (·.ended) = none → u = r) ∧
      (∀ c, r.flash.commit = some c → ∀ e, c.ended = some e → c.step < 8 →
        busy u = false ∧ u.flash.commit.isNone = true ∧ hasEvent u 60 ∧
        reg u Reg.flash_CMT = wd (0x8000 + e.1.toNat * 0x4000 + e.2.toNat * 0x2000 + c.step))) ∧
    (∀ (a : Nat) (v : Word), Acts (.workingCopyWrite m a v) s (fun r u =>
      (0x16000 ≤ a → a < 0x17000 → refusal r m a 1 true = none → (∀ t, m ≠ .thread t) → collides r (masterNo m) a 1 = false →
        spadGet u a = v ∧ regBit u Reg.sys_ARMSTAT 12 = true ∧ (∀ b, b ≠ a → spadGet u b = spadGet r b) ∧
        RegsBut [Reg.sys_ARMSTAT] r u) ∧
      (¬ (0x16000 ≤ a ∧ a < 0x17000) → u = r)))

/-- A 1 written to a fence bit by TH0, TH1, the debug master or Waili clears it while the FSW bit of the class that set it
is clear and was not set in this very tick; every other fence bit stays, and so does every bit on a write by another
master. Threads, memory and the mode stay; a stage, converter or Kernel function lifted while the tracker is
synchronised waits for the cycle boundary, a cam input for its next edge, and every other unit returns at once. (R222) -/
def Obligations.FencesLiftOnlyWithTheirClassClear : Prop :=
  ∀ (s : State) (m : Master) (a : Pair) (b : Word), Up s →
    let clear := fun (r : State) (i : Nat) => fenceBit r i && privileged m && !regBit r Reg.fcol_FSW (fenceClass r i) &&
      !(hwSetBits r Reg.fcol_FSW).getLsbD (fenceClass r i)
    let waits := fun (r : State) (i : Nat) => i == 34 || ((decide (i < 16) || (decide (24 ≤ i) && decide (i < 34))) && angSync r)
    Acts (.fenceLiftA m a) s (fun r u =>
      (∀ i : Fin 48, fenceBit u i = (fenceBit r i && !(decide (i.val < 32) && a.getLsbD i && clear r i))) ∧
      (∀ i : Fin 48, i.val < 32 → a.getLsbD i = true → clear r i = true →
        outOfService u i = (waits r i || r.modes.returning.contains i.val)) ∧
      u.thr = r.thr ∧ u.mem = r.mem ∧ u.modes.mode = r.modes.mode) ∧
    Acts (.fenceLiftB m b) s (fun r u =>
      (∀ i : Fin 48, fenceBit u i = (fenceBit r i && !(decide (32 ≤ i.val) && b.getLsbD (i.val - 32) && clear r i))) ∧
      (∀ i : Fin 48, 32 ≤ i.val → b.getLsbD (i.val - 32) = true → clear r i = true →
        outOfService u i = (waits r i || r.modes.returning.contains i.val)) ∧
      u.thr = r.thr ∧ u.mem = r.mem ∧ u.modes.mode = r.modes.mode)

/-- A permitted START of a STOPPED thread that is not fenced, its start block readable in the scratchpad, gives the thread
the state the block and ARG lay down, all else 0; fenced or not STOPPED nothing changes. A permitted STOP leaves TH0,
stops a thread that waits, is halted or has not begun, asks a running one, and a requested stop takes effect at
THREAD_STOPPED: the thread is STOPPED, holds no seal, wants none, and latch, WBITS and TMR are 0. A wake returns the
masked events in D0 and clears them, or a granted seal with D0 and C 0. Other masters change nothing.
(06_threads_waits_seals.md, 07_programming_model.md) -/
def Obligations.ThreadsStartStopAndWake : Prop :=
  ∀ (s : State) (m : Master) (t : Fin 8) (dt : Nat), Up s →
    let stopped : State → State → Prop := fun r u =>
      (thread u t).st = .stopped ∧ (thread u t).latch = 0 ∧ (thread u t).tmr = none ∧ (thread u t).tmrLeft = none ∧ u.thr.want[t] = none ∧
      (∀ n : Fin 32, (u.thr.owner[n] == some t) = false) ∧ reg u (Reg.thr_WBITS t) = 0 ∧ (thread u t).stopReq = false ∧ u.intc.held[t] = none ∧
      (∀ n : Fin 32, (r.thr.owner[n] == some t) = false → u.thr.owner[n] = r.thr.owner[n]) ∧ u.mem = r.mem
    Acts (.threadStart m t) s (fun r u =>
      let h := thread r t
      let k := thread u t
      let base := fld (reg32 r (Reg.thr_SBASE t)) 0 20
      let w : Nat → Word := fun i => seen r (base + i)
      let can := privileged m = true ∧ h.st = .stopped ∧ startInProgress h = false ∧ fenceBit r (fbThread t) = false
      (¬ can → u = r) ∧
      (can → startHolds t r = true → u = setThread t (fun h => { h with starting := some (reg r (Reg.thr_ARG t)) }) r) ∧
      (can → startHolds t r = false → base + 29 ≤ 0x18000 → r.mem.parBad = [] →
        (∀ i : Fin 29, refusal r (.thread t) (base + i.val) 1 false = none) →
        let sys := decide (t.val < 2)
        (if xregBit r X.hstart t then k.st = .halted ∧ k.haltedBy.cause = causeStart else k.st = .ready ∧ shownState k = .stopped) ∧
        k.pc.toNat = fld (w 0) 0 10 * 128 ∧ k.vbase.toNat = fld (w 0) 0 10 ∧
        (∀ x : Fin 16, getR k x = if x = 0 then reg r (Reg.thr_ARG t) else if x = 15 then w 4 else 0) ∧
        (∀ j : Fin 16, k.psw.getLsbD j = if j.val = pSYS then sys else if j.val = pIE then (w 1).getLsbD 1
          else if j.val = pDISC then sys && (w 1).getLsbD 0 else false) ∧
        k.bk = (w 2).setWidth 8 ∧ k.ctxid = (w 3).setWidth 8 ∧
        (∀ j : Fin 8, k.sg[j] = segOfWords (w (5 + 3 * j.val)) (w (6 + 3 * j.val)) (w (7 + 3 * j.val))) ∧
        k.lr = 0 ∧ k.ac = Vector.replicate 2 0 ∧ k.estat = 0 ∧ k.epc = 0 ∧ k.epsw = 0 ∧ k.ls = Vector.replicate 3 0 ∧ k.latch = h.latch)) ∧
    Acts (.threadStopRequest m t) s (fun r u =>
      let h := thread r t
      if privileged m = false ∨ t = 0 then u = r
      else if h.st = .stopped then u = setThread t (fun h => { h with starting := none }) r
      else if h.st = .ready ∧ h.begun = true then u = setThread t (fun h => { h with stopReq := true, haltReq := none }) r
      else stopped r u) ∧
    ActsAfter dt (.threadStopped dt t) s (fun r u =>
      let h := thread r t
      let inUnit := h.inTile = true ∧ r.tile.run.any (fun q => q.t == t && hasRows q.op) = true
      if h.stopReq = true ∧ h.st = .ready ∧ h.held = none ∧ ¬ inUnit then stopped r u else u = r) ∧
    Acts (.threadWake t) s (fun r u =>
      let h := thread r t
      let k := thread u t
      let got := latchOf r t &&& h.mask
      if got = 0 then u = r
      else if h.st = .waiting then
        (k.st = .ready ∨ h.stepping = true) ∧ (slotPlain h = true → h.breakDue = none →
          if h.wkind = .event then getR k 0 = got ∧ k.latch = h.latch &&& ~~~got ∧ OtherRegs [0] h k ∧ FlagsKept [] h k
          else getR k 0 = 0 ∧ k.psw.getLsbD pC = false ∧ k.latch = putBit h.latch 12 false ∧ OtherRegs [0] h k) ∧
        (h.slot = none → atLoopEnd h h.waitNext = false → h.breakDue = none → k.pc = h.waitNext) ∧
        (∀ v : Fin 8, v ≠ t → { thread u v with haltReq := none } = { thread r v with haltReq := none }) ∧ u.mem = r.mem
      else if h.st = .halted ∧ h.kept = .waiting then u = setThread t (fun h => { h with kept := .ready }) r
      else u = r)

/-- A permitted write of WCMT makes the commit pending; when the pointer next stands at slot 0 the four shadow words
become the active wheel and nothing is pending. A permitted write of TMRn, by the thread itself or a privileged
master, starts its countdown or, with 0, cancels it, without setting bit 10; of a HALTED thread it sets what is left.
The end of a countdown sets bit 10 of the latch of a thread that is not STOPPED, and the timer is idle. Nothing else
changes; other masters change nothing. (06_threads_waits_seals.md) -/
def Obligations.WheelAndTimersKeepTheirRules : Prop :=
  ∀ (s : State) (m : Master) (t : Fin 8) (v : Word), Up s →
    Acts (.wcmt m) s (fun r u => u = if privileged m then { r with thr := { r.thr with wpend := true } } else r) ∧
    ActsAt wheelDue .wheelCommitApply s (fun r u =>
      let now := r.thr.wpend = true ∧ slotNow r = 0
      (s.thr.slotTick ≤ s.now → slotNow r = 0) ∧ (now → u.thr.wpend = false) ∧ (¬ now → u = r) ∧
      (∀ w : Fin 4, reg u (Reg.thr_WHEEL0 + w.val) = if now then r.thr.shadow[w] else reg r (Reg.thr_WHEEL0 + w.val)) ∧
      RegsBut wheelRegs r u ∧ { u with regs := r.regs, hw := r.hw, thr := { u.thr with wpend := r.thr.wpend } } = r) ∧
    Acts (.threadTimerWrite m t v) s (fun r u =>
      let h := thread r t
      let us := v.toNat * 160
      if privileged m = true ∨ m = .thread t then
        (∀ x : Fin 8, x ≠ t → thread u x = thread r x) ∧ { u with thr := r.thr } = r ∧
        thread u t = if h.st = .halted then { h with tmrLeft := if v = 0 then none else some us }
          else { h with tmr := if v = 0 then none else some (r.now + us) }
      else u = r) ∧
    ActsAt (fun s => timerDue s t) (.threadTimerExpiry t) s (fun r u =>
      let h := thread r t
      (h.tmr = none → u = r) ∧
      (h.tmr.isSome = true → (∀ d, h.tmr = some d → d ≤ r.now) ∧ (∀ x : Fin 8, x ≠ t → thread u x = thread r x) ∧ { u with thr := r.thr } = r ∧
        thread u t = { h with tmr := none, latch := if shownState h = .stopped then h.latch else h.latch ||| 0x400 }))

/-- Each read of a counter register returns its word. By a thread, or by a host that asks for the side effect, the bits
that are cleared by a read are 0 afterwards, but for flags and counts of this very tick, which the word returned does
not hold and which stay; every other bit, every other register and everything else stay. A host that does not ask for
the side effect changes nothing. (00_scope.md, 01_stolu_in_one_piece.md, 18_waili_command_line.md) -/
def Obligations.ReadsClearTheirCounters : Prop :=
  ∀ (s : State) (m : Master) (t : Fin 8) (i12 : Fin 12) (i2 : Fin 2) (i5 : Fin 5) (c : Fin 24) (i9 : Fin 9) (i3 : Fin 3) (hi side : Bool), Up s →
    let reads : Nat → State → State → Prop := fun a r u =>
      RegsBut [a] r u ∧ { u with regs := r.regs, hw := r.hw, result := r.result } = r ∧
      (isHost m = true ∧ side = false → reg u a = reg r a) ∧
      (isHost m = false ∨ side = true → reg u a &&& ~~~ regMask RegRow.rc a = reg r a &&& ~~~ regMask RegRow.rc a) ∧
      (hwCounts r a = [] → hwFreshBits r a = 0 → hwSetBits r a = 0 → u.result = [readWord r a] ∧
        (isHost m = false ∨ side = true → reg u a &&& regMask RegRow.rc a = 0)) ∧
      (isHost m = false ∨ side = true → ∀ x, hwCounts r a = [x] → x.lo + x.len ≤ 16 → hwSetBits r a = 0 → hwFreshBits r a = 0 →
        u.result = [putFld (readWord r a) x.lo x.len x.before])
    Acts (.wbitsRead m t side) s (reads (Reg.thr_WBITS t)) ∧
    Acts (.sealstatRead m side) s (reads Reg.thr_SEALSTAT) ∧
    Acts (.spillsRead m side) s (reads Reg.tile_SPILLS) ∧
    Acts (.memcCounterRead m i12 side) s (reads (memcCounter i12)) ∧
    Acts (.spurRead m side) s (reads Reg.intc_SPUR) ∧
    Acts (.angCounterRead m i2 side) s (reads (Reg.ang_REJCNT + i2.val)) ∧
    Acts (.evtCounterRead m i5 side) s (reads (evtCounter i5)) ∧
    Acts (.resRead m c side) s (reads (Reg.adc_RES c)) ∧
    Acts (.adcCounterRead m t side) s (reads (adcCounter t)) ∧
    Acts (.kernCounterRead m i9 side) s (reads (if i9.val < 8 then 0x43018 + i9.val else 0x43009)) ∧
    Acts (.wailiErrRead m hi side) s (reads (Reg.waili_ERR + hi.toNat)) ∧
    Acts (.loopErrRead m i3 side) s (reads (Reg.loop_ERRA + i3.val)) ∧
    Acts (.canCounterRead m i2 i3 side) s (reads (0x43C09 + 0x400 * i2.val + i3.val))

/-- An instruction that executes, at width 16 or, with PAIR, 32. Rd becomes the exact sum or difference modulo 2^width;
where that leaves the signed range, V is 1, and with SAT the result is the nearest end of the range and S is set. C is
the unsigned carry or borrow, N the sign, Z tells 0; ADC and SBC keep Z clear. CMP writes only the flags. Every other
register, special register, thread and all memory stay; loads in flight land. (08_instruction_encoding_reference.md,
07_programming_model.md) -/
def Obligations.SumsAndDifferencesAreExact : Prop :=
  ∀ (s : State) (t : Fin 8) (pre : List Prefix) (rd : Fin 16) (src : Src), Up s →
    let D : AluOp → List (Fin 16) := fun o => if aluWrites o then regsOf (hasPair pre) rd else []
    ActsAfter 0 (.addOp t pre rd src) s (RunsPlain t pre (.alu .add rd src) (D .add) (fun h k => SpecialsKept h k ∧
      if hasPair pre then SumOk pre false ((getPair h rd).toInt + (srcOpPair h (hasLong pre) src).toInt + 0) (decide (2 ^ 32 ≤ (getPair h rd).toNat + (srcOpPair h (hasLong pre) src).toNat + 0)) h k (getPair k rd) else SumOk pre false ((getR h rd).toInt + (srcOp h (hasLong pre) src).toInt + 0) (decide (2 ^ 16 ≤ (getR h rd).toNat + (srcOp h (hasLong pre) src).toNat + 0)) h k (getR k rd))) ∧
    ActsAfter 0 (.adc t pre rd src) s (RunsPlain t pre (.alu .adc rd src) (D .adc) (fun h k => SpecialsKept h k ∧
      if hasPair pre then SumOk pre true ((getPair h rd).toInt + (srcOpPair h (hasLong pre) src).toInt + ((h.psw.getLsbD pC).toNat : Nat)) (decide (2 ^ 32 ≤ (getPair h rd).toNat + (srcOpPair h (hasLong pre) src).toNat + ((h.psw.getLsbD pC).toNat : Nat))) h k (getPair k rd) else SumOk pre true ((getR h rd).toInt + (srcOp h (hasLong pre) src).toInt + ((h.psw.getLsbD pC).toNat : Nat)) (decide (2 ^ 16 ≤ (getR h rd).toNat + (srcOp h (hasLong pre) src).toNat + ((h.psw.getLsbD pC).toNat : Nat))) h k (getR k rd))) ∧
    ActsAfter 0 (.subOp t pre rd src) s (RunsPlain t pre (.alu .sub rd src) (D .sub) (fun h k => SpecialsKept h k ∧
      if hasPair pre then SumOk pre false ((getPair h rd).toInt - (srcOpPair h (hasLong pre) src).toInt - 0) (decide ((getPair h rd).toNat < (srcOpPair h (hasLong pre) src).toNat + 0)) h k (getPair k rd) else SumOk pre false ((getR h rd).toInt - (srcOp h (hasLong pre) src).toInt - 0) (decide ((getR h rd).toNat < (srcOp h (hasLong pre) src).toNat + 0)) h k (getR k rd))) ∧
    ActsAfter 0 (.sbc t pre rd src) s (RunsPlain t pre (.alu .sbc rd src) (D .sbc) (fun h k => SpecialsKept h k ∧
      if hasPair pre then SumOk pre true ((getPair h rd).toInt - (srcOpPair h (hasLong pre) src).toInt - ((h.psw.getLsbD pC).toNat : Nat)) (decide ((getPair h rd).toNat < (srcOpPair h (hasLong pre) src).toNat + ((h.psw.getLsbD pC).toNat : Nat))) h k (getPair k rd) else SumOk pre true ((getR h rd).toInt - (srcOp h (hasLong pre) src).toInt - ((h.psw.getLsbD pC).toNat : Nat)) (decide ((getR h rd).toNat < (srcOp h (hasLong pre) src).toNat + ((h.psw.getLsbD pC).toNat : Nat))) h k (getR k rd))) ∧
    ActsAfter 0 (.cmp t pre rd src) s (RunsPlain t pre (.alu .cmp rd src) (D .cmp) (fun h k => SpecialsKept h k ∧
      if hasPair pre then (∀ y : BitVec 32, y = BitVec.ofInt 32 ((getPair h rd).toInt - (srcOpPair h (hasLong pre) src).toInt - 0) → SumFlags pre false ((getPair h rd).toInt - (srcOpPair h (hasLong pre) src).toInt - 0) (decide ((getPair h rd).toNat < (srcOpPair h (hasLong pre) src).toNat + 0)) h k y) else (∀ y : BitVec 16, y = BitVec.ofInt 16 ((getR h rd).toInt - (srcOp h (hasLong pre) src).toInt - 0) → SumFlags pre false ((getR h rd).toInt - (srcOp h (hasLong pre) src).toInt - 0) (decide ((getR h rd).toNat < (srcOp h (hasLong pre) src).toNat + 0)) h k y))) ∧
    ActsAfter 0 (.negOp t pre rd) s (RunsPlain t pre (.neg rd) (regsOf (hasPair pre) rd) (fun h k => SpecialsKept h k ∧
      if hasPair pre then SumOk pre false (-(getPair h rd).toInt) (decide (0 < (getPair h rd).toNat)) h k (getPair k rd) else SumOk pre false (-(getR h rd).toInt) (decide (0 < (getR h rd).toNat)) h k (getR k rd)))

/-- An instruction that executes, at width W of 16 or, with PAIR, 32. Logic: Rd becomes the bitwise result, TST writes no
register; C and V are 0, N is the sign, Z tells 0, S stays. SHL multiplies by 2^k modulo 2^W, V tells that the signed
value left its range, and with SAT the largest value of the sign is given and S set; SHR and SAR divide, rounding
down; ROL rotates by k mod W. C is the last bit shifted out as the rule gives it for each count. Every other register,
special register, thread and all memory stay; loads in flight land. (08_instruction_encoding_reference.md) -/
def Obligations.LogicAndShiftsMoveTheirBits : Prop :=
  ∀ (s : State) (t : Fin 8) (pre : List Prefix) (rd : Fin 16) (src : Src) (n : Src8), Up s →
    let D : AluOp → List (Fin 16) := fun o => if aluWrites o then regsOf (hasPair pre) rd else []
    ActsAfter 0 (.andOp t pre rd src) s (RunsPlain t pre (.alu .and rd src) (D .and) (fun h k => SpecialsKept h k ∧
      if hasPair pre then (getPair k rd = (getPair h rd &&& srcOpPair h (hasLong pre) src) ∧ FlagsOf pre false false h k (getPair k rd)) else (getR k rd = (getR h rd &&& srcOp h (hasLong pre) src) ∧ FlagsOf pre false false h k (getR k rd)))) ∧
    ActsAfter 0 (.orOp t pre rd src) s (RunsPlain t pre (.alu .or rd src) (D .or) (fun h k => SpecialsKept h k ∧
      if hasPair pre then (getPair k rd = (getPair h rd ||| srcOpPair h (hasLong pre) src) ∧ FlagsOf pre false false h k (getPair k rd)) else (getR k rd = (getR h rd ||| srcOp h (hasLong pre) src) ∧ FlagsOf pre false false h k (getR k rd)))) ∧
    ActsAfter 0 (.xorOp t pre rd src) s (RunsPlain t pre (.alu .xor rd src) (D .xor) (fun h k => SpecialsKept h k ∧
      if hasPair pre then (getPair k rd = (getPair h rd ^^^ srcOpPair h (hasLong pre) src) ∧ FlagsOf pre false false h k (getPair k rd)) else (getR k rd = (getR h rd ^^^ srcOp h (hasLong pre) src) ∧ FlagsOf pre false false h k (getR k rd)))) ∧
    ActsAfter 0 (.tst t pre rd src) s (RunsPlain t pre (.alu .tst rd src) (D .tst) (fun h k => SpecialsKept h k ∧
      if hasPair pre then FlagsOf pre false false h k (getPair h rd &&& srcOpPair h (hasLong pre) src) else FlagsOf pre false false h k (getR h rd &&& srcOp h (hasLong pre) src))) ∧
    ActsAfter 0 (.notOp t pre rd) s (RunsPlain t pre (.not rd) (regsOf (hasPair pre) rd) (fun h k => SpecialsKept h k ∧
      if hasPair pre then (getPair k rd = ~~~(getPair h rd) ∧ FlagsOf pre false false h k (getPair k rd)) else (getR k rd = ~~~(getR h rd) ∧ FlagsOf pre false false h k (getR k rd)))) ∧
    ActsAfter 0 (.shl t pre rd n) s (RunsPlain t pre (.shift .shl rd n) (regsOf (hasPair pre) rd) (fun h k => SpecialsKept h k ∧
      if hasPair pre then 
        (((getPair k rd).toNat = (if hasSat pre = true ∧ ((getPair h rd).toInt * 2 ^ (shiftCount h n) < -(2 ^ 31) ∨ 2 ^ 31 ≤ (getPair h rd).toInt * 2 ^ (shiftCount h n)) then (if (getPair h rd).msb then 2 ^ 31 else 2 ^ 31 - 1) else (getPair h rd).toNat * 2 ^ (shiftCount h n) % 2 ^ 32)) ∧
          k.psw.getLsbD pC = (decide (1 ≤ (shiftCount h n) ∧ (shiftCount h n) ≤ 32) && (getPair h rd).getLsbD (32 - (shiftCount h n)) && (sealedOf pre).isNone) ∧ k.psw.getLsbD pV = decide ((getPair h rd).toInt * 2 ^ (shiftCount h n) < -(2 ^ 31) ∨ 2 ^ 31 ≤ (getPair h rd).toInt * 2 ^ (shiftCount h n)) ∧
          k.psw.getLsbD pZ = ((getPair k rd) == 0) ∧ k.psw.getLsbD pN = (getPair k rd).msb ∧
          k.psw.getLsbD pS = (h.psw.getLsbD pS || (hasSat pre && decide ((getPair h rd).toInt * 2 ^ (shiftCount h n) < -(2 ^ 31) ∨ 2 ^ 31 ≤ (getPair h rd).toInt * 2 ^ (shiftCount h n)))))
      else 
        (((getR k rd).toNat = (if hasSat pre = true ∧ ((getR h rd).toInt * 2 ^ (shiftCount h n) < -(2 ^ 15) ∨ 2 ^ 15 ≤ (getR h rd).toInt * 2 ^ (shiftCount h n)) then (if (getR h rd).msb then 2 ^ 15 else 2 ^ 15 - 1) else (getR h rd).toNat * 2 ^ (shiftCount h n) % 2 ^ 16)) ∧
          k.psw.getLsbD pC = (decide (1 ≤ (shiftCount h n) ∧ (shiftCount h n) ≤ 16) && (getR h rd).getLsbD (16 - (shiftCount h n)) && (sealedOf pre).isNone) ∧ k.psw.getLsbD pV = decide ((getR h rd).toInt * 2 ^ (shiftCount h n) < -(2 ^ 15) ∨ 2 ^ 15 ≤ (getR h rd).toInt * 2 ^ (shiftCount h n)) ∧
          k.psw.getLsbD pZ = ((getR k rd) == 0) ∧ k.psw.getLsbD pN = (getR k rd).msb ∧
          k.psw.getLsbD pS = (h.psw.getLsbD pS || (hasSat pre && decide ((getR h rd).toInt * 2 ^ (shiftCount h n) < -(2 ^ 15) ∨ 2 ^ 15 ≤ (getR h rd).toInt * 2 ^ (shiftCount h n)))))
     )) ∧
    ActsAfter 0 (.shr t pre rd n) s (RunsPlain t pre (.shift .shr rd n) (regsOf (hasPair pre) rd) (fun h k => SpecialsKept h k ∧
      if hasPair pre then ((getPair k rd).toNat = (getPair h rd).toNat / 2 ^ (shiftCount h n) ∧ FlagsOf pre (decide (1 ≤ (shiftCount h n) ∧ (shiftCount h n) ≤ 32) && (getPair h rd).getLsbD ((shiftCount h n) - 1)) false h k (getPair k rd)) else ((getR k rd).toNat = (getR h rd).toNat / 2 ^ (shiftCount h n) ∧ FlagsOf pre (decide (1 ≤ (shiftCount h n) ∧ (shiftCount h n) ≤ 16) && (getR h rd).getLsbD ((shiftCount h n) - 1)) false h k (getR k rd)))) ∧
    ActsAfter 0 (.sar t pre rd n) s (RunsPlain t pre (.shift .sar rd n) (regsOf (hasPair pre) rd) (fun h k => SpecialsKept h k ∧
      if hasPair pre then ((getPair k rd).toInt = (getPair h rd).toInt / 2 ^ (shiftCount h n) ∧ FlagsOf pre (if 32 < (shiftCount h n) then (getPair h rd).msb else (decide (1 ≤ (shiftCount h n) ∧ (shiftCount h n) ≤ 32) && (getPair h rd).getLsbD ((shiftCount h n) - 1))) false h k (getPair k rd)) else ((getR k rd).toInt = (getR h rd).toInt / 2 ^ (shiftCount h n) ∧ FlagsOf pre (if 16 < (shiftCount h n) then (getR h rd).msb else (decide (1 ≤ (shiftCount h n) ∧ (shiftCount h n) ≤ 16) && (getR h rd).getLsbD ((shiftCount h n) - 1))) false h k (getR k rd)))) ∧
    ActsAfter 0 (.rol t pre rd n) s (RunsPlain t pre (.shift .rol rd n) (regsOf (hasPair pre) rd) (fun h k => SpecialsKept h k ∧
      if hasPair pre then ((∀ i : Fin 32, (getPair k rd).getLsbD i = (getPair h rd).getLsbD ((i.val + 32 - (shiftCount h n) % 32) % 32)) ∧ FlagsOf pre ((shiftCount h n) % 32 != 0 && (getPair k rd).getLsbD 0) false h k (getPair k rd)) else ((∀ i : Fin 16, (getR k rd).getLsbD i = (getR h rd).getLsbD ((i.val + 16 - (shiftCount h n) % 16) % 16)) ∧ FlagsOf pre ((shiftCount h n) % 16 != 0 && (getR k rd).getLsbD 0) false h k (getR k rd))))

/-- An instruction that executes on AC0, or AC1 with that prefix. MUL gives the exact signed product, MAC and MSU add or
subtract it: modulo 2^40 with V on overflow, or with SAT clamped to 32 bits, S set when clamped and V 0; C is 0, N and
Z are of the 40 bits. ACLD of a register loads the signed pair. ACST gives bits 31-16, or with PAIR 31-0, ACST.R after
adding 8000h; with SAT clamped, S set when clamped. The other accumulator, every other register, thread and all memory
stay. (08_instruction_encoding_reference.md, 07_programming_model.md) -/
def Obligations.AccumulatorsSumExactProducts : Prop :=
  ∀ (s : State) (t : Fin 8) (pre : List Prefix) (rs rt : Fin 16), Up s →
    ActsAfter 0 (.mulOp t pre rs rt) s (RunsPlain t pre (.mul rs rt) [] (fun h k => SpecialsButAc h k ∧ k.ac[1 - accNo pre] = h.ac[1 - accNo pre] ∧
      let a := k.ac[accNo pre]
      a.toInt = (getR h rs).toInt * (getR h rt).toInt ∧ k.psw.getLsbD pV = false ∧ k.psw.getLsbD pS = h.psw.getLsbD pS ∧ k.psw.getLsbD pZ = (a == 0) ∧ k.psw.getLsbD pN = a.msb ∧ k.psw.getLsbD pC = false)) ∧
    ActsAfter 0 (.mac t pre rs rt) s (RunsPlain t pre (.mac rs rt) [] (fun h k => SpecialsButAc h k ∧ k.ac[1 - accNo pre] = h.ac[1 - accNo pre] ∧
      let a := k.ac[accNo pre]
      (if hasSat pre then
        a.toInt = clampI (-(2 ^ 31)) (2 ^ 31 - 1) (h.ac[accNo pre].toInt + (getR h rs).toInt * (getR h rt).toInt) ∧ k.psw.getLsbD pV = false ∧
        k.psw.getLsbD pS = (h.psw.getLsbD pS || decide ((h.ac[accNo pre].toInt + (getR h rs).toInt * (getR h rt).toInt) < -(2 ^ 31) ∨ 2 ^ 31 ≤ (h.ac[accNo pre].toInt + (getR h rs).toInt * (getR h rt).toInt)))
      else a = BitVec.ofInt 40 (h.ac[accNo pre].toInt + (getR h rs).toInt * (getR h rt).toInt) ∧ k.psw.getLsbD pV = decide ((h.ac[accNo pre].toInt + (getR h rs).toInt * (getR h rt).toInt) < -(2 ^ 39) ∨ 2 ^ 39 ≤ (h.ac[accNo pre].toInt + (getR h rs).toInt * (getR h rt).toInt)) ∧
        k.psw.getLsbD pS = h.psw.getLsbD pS) ∧ k.psw.getLsbD pZ = (a == 0) ∧ k.psw.getLsbD pN = a.msb ∧ k.psw.getLsbD pC = false)) ∧
    ActsAfter 0 (.msu t pre rs rt) s (RunsPlain t pre (.msu rs rt) [] (fun h k => SpecialsButAc h k ∧ k.ac[1 - accNo pre] = h.ac[1 - accNo pre] ∧
      let a := k.ac[accNo pre]
      (if hasSat pre then
        a.toInt = clampI (-(2 ^ 31)) (2 ^ 31 - 1) (h.ac[accNo pre].toInt - (getR h rs).toInt * (getR h rt).toInt) ∧ k.psw.getLsbD pV = false ∧
        k.psw.getLsbD pS = (h.psw.getLsbD pS || decide ((h.ac[accNo pre].toInt - (getR h rs).toInt * (getR h rt).toInt) < -(2 ^ 31) ∨ 2 ^ 31 ≤ (h.ac[accNo pre].toInt - (getR h rs).toInt * (getR h rt).toInt)))
      else a = BitVec.ofInt 40 (h.ac[accNo pre].toInt - (getR h rs).toInt * (getR h rt).toInt) ∧ k.psw.getLsbD pV = decide ((h.ac[accNo pre].toInt - (getR h rs).toInt * (getR h rt).toInt) < -(2 ^ 39) ∨ 2 ^ 39 ≤ (h.ac[accNo pre].toInt - (getR h rs).toInt * (getR h rt).toInt)) ∧
        k.psw.getLsbD pS = h.psw.getLsbD pS) ∧ k.psw.getLsbD pZ = (a == 0) ∧ k.psw.getLsbD pN = a.msb ∧ k.psw.getLsbD pC = false)) ∧
    ActsAfter 0 (.acld t pre (.reg rs)) s (RunsPlain t pre (.acldR rs) [] (fun h k => SpecialsButAc h k ∧
      k.ac[1 - accNo pre] = h.ac[1 - accNo pre] ∧ k.ac[accNo pre].toInt = (getPair h rs).toInt ∧ FlagsKept pre h k)) ∧
    ActsAfter 0 (.acst t pre (.reg rs)) s (RunsPlain t pre (.acstR false rs) (regsOf (hasPair pre) rs) (fun h k => SpecialsKept h k ∧
      (∀ i : Fin 4, k.psw.getLsbD i = h.psw.getLsbD i) ∧
      let v : Int := h.ac[accNo pre].toInt
      if hasPair pre then
        let x := if hasSat pre then clampI (-(2 ^ 31)) (2 ^ 31 - 1) v else v
        getPair k rs = BitVec.ofInt 32 x ∧ k.psw.getLsbD pS = (h.psw.getLsbD pS || x != v)
      else
        let x := if hasSat pre then clampI (-0x8000) 0x7FFF (v / 65536) else v / 65536
        getR k rs = BitVec.ofInt 16 x ∧ k.psw.getLsbD pS = (h.psw.getLsbD pS || x != v / 65536))) ∧
    ActsAfter 0 (.acstR t pre (.reg rs)) s (RunsPlain t pre (.acstR true rs) (regsOf (hasPair pre) rs) (fun h k => SpecialsKept h k ∧
      (∀ i : Fin 4, k.psw.getLsbD i = h.psw.getLsbD i) ∧
      let v : Int := h.ac[accNo pre].toInt + 0x8000
      if hasPair pre then
        let x := if hasSat pre then clampI (-(2 ^ 31)) (2 ^ 31 - 1) v else v
        getPair k rs = BitVec.ofInt 32 x ∧ k.psw.getLsbD pS = (h.psw.getLsbD pS || x != v)
      else
        let x := if hasSat pre then clampI (-0x8000) 0x7FFF (v / 65536) else v / 65536
        getR k rs = BitVec.ofInt 16 x ∧ k.psw.getLsbD pS = (h.psw.getLsbD pS || x != v / 65536)))

/-- A MOV that executes. Rd becomes Rs, or the immediate, sign-extended from 8 bits without LONG, or the control register;
with PAIR the pair. A MOV to BK, VBASE or CTXID by TH2-TH7 raises PRIVILEGE with detail 1 and changes none of them;
otherwise the control register takes the bits it has: the PSW C, V, Z, N, S and IE, and LDEP only downward; TID none.
Every other register, thread and all memory stay. (08_instruction_encoding_reference.md, 07_programming_model.md) -/
def Obligations.MovesCopyTheirOperand : Prop :=
  ∀ (s : State) (t : Fin 8) (pre : List Prefix) (rd rs : Fin 16) (v : Word) (c : Fin 32), Up s →
    ActsAfter 0 (.movRr t pre rd rs) s (RunsPlain t pre (.movRR rd rs) (regsOf (hasPair pre) rd) (fun h k => SpecialsKept h k ∧ FlagsKept pre h k ∧
      if hasPair pre then getPair k rd = getPair h rs else getR k rd = getR h rs)) ∧
    ActsAfter 0 (.movRi t pre rd v) s (RunsPlain t pre (.movRI rd v) (regsOf (hasPair pre) rd) (fun h k => SpecialsKept h k ∧ FlagsKept pre h k ∧
      let n : Int := if hasLong pre then v.toInt else (loByte v).toInt
      if hasPair pre then (getPair k rd).toInt = n else (getR k rd).toInt = n)) ∧
    ActsAfter 0 (.movRCr t pre rd c) s (RunsPlain t pre (.movRC rd c) (regsOf (hasPair pre) rd) (fun h k => SpecialsKept h k ∧ FlagsKept pre h k ∧
      if hasPair pre then getPair k rd = crRead h t c else getR k rd = lowWord (crRead h t c))) ∧
    ActsAfter 0 (.movCrR t pre c rs) s (fun r u => executes r t pre (.movCR c rs) = true → slotPlain (thread r t) = true →
      let h := thread r t
      let k := thread u t
      let x := regVal h (hasPair pre) rs
      if 2 ≤ t.val ∧ 2 ≤ c.val ∧ c.val ≤ 4 then
        inException h = false → k.ecause = 0x2001 ∧ k.epc = (excPoint h).1 ∧ k.bk = h.bk ∧ k.vbase = h.vbase ∧ k.ctxid = h.ctxid ∧
          OtherRegs [] h k
      else
        OnlyThread t r u ∧ OtherRegs [] h k ∧ k.ac = h.ac ∧ k.sg = h.sg ∧
        (c.val = 0 → ∀ i : Fin 5, k.psw.getLsbD i = x.getLsbD i) ∧ (c.val ≠ 0 → FlagsKept pre h k) ∧
        (c.val = 0 → h.slot = none → atLoopEnd h (nextPc r t pre (.movCR c rs)) = false → h.breakDue = none →
          k.psw.getLsbD pIE = x.getLsbD pIE ∧ (ldep k = min (ldep h) (fld (lowWord x) 8 2) ∨ fld (lowWord x) 8 2 < ldep h)) ∧
        (c.val = 1 → h.slot = none → k.lr = x.setWidth 17) ∧ (c.val = 2 → k.bk = x.setWidth 8) ∧
        (c.val = 3 → k.vbase.toNat = x.toNat % 1024) ∧ (c.val = 4 → k.ctxid = x.setWidth 8) ∧
        (∀ i : Fin 3, (c.val = 6 + i.val → k.ls[i] = x.setWidth 17) ∧ (c.val = 9 + i.val → k.le[i] = x.setWidth 17)) ∧
        (h.breakDue = none → (c.val = 15 → k.epc = x.setWidth 17) ∧ (c.val = 17 → k.ecause = lowWord x) ∧
          (c.val = 18 → k.eaddr = x.setWidth 20)))

/-- A load that executes with a checked address, no data comparator looking on, and its access made. LD and POP put their
word, LDP and a pair POP their two words, in flight: they land at the end of the next instruction; ACLD loads its
accumulator at once. (An)+ and -(An) step An, and POP A7, unless the load names that register. With the buffer empty,
a scratchpad load gives the scratchpad's words. Flags, other registers, threads and memory stay as the access left
them. (08_instruction_encoding_reference.md, 07_programming_model.md, 11_scratchpad_masters_courier.md) -/
def Obligations.LoadsLandOneInstructionLate : Prop :=
  ∀ (s : State) (t : Fin 8) (pre : List Prefix) (rd : Fin 16) (ea : Ea), Up s →
    ActsAfter 0 (.ld t pre rd ea) s (RunsAccess t pre (.ld rd ea) (fun h => eaAccess h (farOf pre) (hasLong pre) ea 1 false)
      (fun _ a m => load1 t (sealedOf pre).isSome a m) (fun a v m h k => FlagsKept pre h k ∧ SpecialsKept h k ∧ k.load = [(rd, lowWord v)] ∧
      (∀ x : Fin 16, getR k x = landed (eaStep ea 1 [rd] h) x) ∧
      (s.mem.sbuf = [] → a.ea + 1 ≤ 0x18000 → ∀ i : Fin 1, v.extractLsb' (16 * i.val) 16 = spadGet s (a.ea + i.val)))) ∧
    ActsAfter 0 (.ldp t pre rd ea) s (RunsAccess t pre (.ldp rd ea) (fun h => eaAccess h (farOf pre) (hasLong pre) ea 2 false)
      (fun _ a m => load1 t (sealedOf pre).isSome a m) (fun a v m h k => FlagsKept pre h k ∧ SpecialsKept h k ∧ k.load = [(pairLo rd, lowWord v), (pairHi rd, highWord v)] ∧
      (∀ x : Fin 16, getR k x = landed (eaStep ea 2 [pairLo rd, pairHi rd] h) x) ∧
      (s.mem.sbuf = [] → a.ea + 2 ≤ 0x18000 → ∀ i : Fin 2, v.extractLsb' (16 * i.val) 16 = spadGet s (a.ea + i.val)))) ∧
    ActsAfter 0 (.pop t pre rd) s (RunsAccess t pre (.pop rd) (fun h => regEa h none 7 (aOff h 7) (wordCount (hasPair pre)) false)
      (fun _ a m => load1 t (sealedOf pre).isSome a m) (fun a v m h k => FlagsKept pre h k ∧ SpecialsKept h k ∧ k.load = (if hasPair pre then [(pairLo rd, lowWord v), (pairHi rd, highWord v)] else [(rd, lowWord v)]) ∧
      (∀ x : Fin 16, getR k x = landed (eaStep (.postInc 7) (wordCount (hasPair pre)) (regsOf (hasPair pre) rd) h) x) ∧
      (s.mem.sbuf = [] → a.ea + (wordCount (hasPair pre)) ≤ 0x18000 → ∀ i : Fin 1, v.extractLsb' (16 * i.val) 16 = spadGet s (a.ea + i.val)))) ∧
    ActsAfter 0 (.acld t pre (.mem ea)) s (RunsAccess t pre (.acldM ea) (fun h => eaAccess h (farOf pre) (hasLong pre) ea 2 false)
      (fun _ a m => load1 t (sealedOf pre).isSome a m) (fun a v m h k => FlagsKept pre h k ∧ SpecialsButAc h k ∧ k.ac[1 - accNo pre] = h.ac[1 - accNo pre] ∧ k.ac[accNo pre].toInt = v.toInt ∧ k.load = [] ∧
      (∀ x : Fin 16, getR k x = landed (eaStep ea 2 [] h) x) ∧
      (s.mem.sbuf = [] → a.ea + 2 ≤ 0x18000 → ∀ i : Fin 2, v.extractLsb' (16 * i.val) 16 = spadGet s (a.ea + i.val))))

/-- A store that executes with a checked address, no data comparator looking on, and its access made. Without SEALED
exactly one entry, with the computed address and the value of Rs from before any step (of the accumulator, rounded and
clamped, for ACST), is added behind those of the store buffer, and no word of the scratchpad changes; with SEALED the
buffer is empty afterwards. An or A7 steps; other registers, flags but S of a clamp, and other threads stay.
(08_instruction_encoding_reference.md, 07_programming_model.md, 11_scratchpad_masters_courier.md) -/
def Obligations.StoresEnterTheBuffer : Prop :=
  ∀ (s : State) (t : Fin 8) (pre : List Prefix) (rs : Fin 16) (ea : Ea), Up s →
    ActsAfter 0 (.st t pre rs ea) s (RunsAccess t pre (.st rs ea) (fun h => eaAccess h (farOf pre) (hasLong pre) ea 1 true)
      (fun h a m => store1 t (sealedOf pre).isSome a ((getR h rs).setWidth 32) m) (fun a _ m h k => SpecialsKept h k ∧ FlagsKept pre h k ∧
      (∀ x : Fin 16, getR k x = landed (eaStep ea 1 [] h) x) ∧
      ((sealedOf pre).isNone → m.mem.spad = s.mem.spad ∧ m.mem.sbuf = s.mem.sbuf ++ [{ addr := a.ea, pair := 1 == 2, data := ((getR h rs).setWidth 32), thread := t }]) ∧
      ((sealedOf pre).isSome → m.mem.sbuf = []))) ∧
    ActsAfter 0 (.stp t pre rs ea) s (RunsAccess t pre (.stp rs ea) (fun h => eaAccess h (farOf pre) (hasLong pre) ea 2 true)
      (fun h a m => store1 t (sealedOf pre).isSome a (getPair h rs) m) (fun a _ m h k => SpecialsKept h k ∧ FlagsKept pre h k ∧
      (∀ x : Fin 16, getR k x = landed (eaStep ea 2 [] h) x) ∧
      ((sealedOf pre).isNone → m.mem.spad = s.mem.spad ∧ m.mem.sbuf = s.mem.sbuf ++ [{ addr := a.ea, pair := 2 == 2, data := (getPair h rs), thread := t }]) ∧
      ((sealedOf pre).isSome → m.mem.sbuf = []))) ∧
    ActsAfter 0 (.push t pre rs) s (RunsAccess t pre (.push rs) (fun h => regEa h none 7 (aOff h 7 - (wordCount (hasPair pre))) (wordCount (hasPair pre)) true)
      (fun h a m => store1 t (sealedOf pre).isSome a (regVal h (hasPair pre) rs) m) (fun a _ m h k => SpecialsKept h k ∧ FlagsKept pre h k ∧
      (∀ x : Fin 16, getR k x = landed (putR 15 (getR h 15 - wd (wordCount (hasPair pre))) h) x) ∧
      ((sealedOf pre).isNone → m.mem.spad = s.mem.spad ∧ m.mem.sbuf = s.mem.sbuf ++ [{ addr := a.ea, pair := (wordCount (hasPair pre)) == 2, data := (regVal h (hasPair pre) rs), thread := t }]) ∧
      ((sealedOf pre).isSome → m.mem.sbuf = []))) ∧
    ActsAfter 0 (.acst t pre (.mem ea)) s (RunsAccess t pre (.acstM false ea) (fun h => eaAccess h (farOf pre) (hasLong pre) ea (wordCount (hasPair pre)) true)
      (fun h a m => store1 t (sealedOf pre).isSome a (accStore false (hasSat pre) (hasPair pre) h.ac[accNo pre]).1 m) (fun a _ m h k => SpecialsKept h k ∧ (∀ i : Fin 4, k.psw.getLsbD i = (h.psw.getLsbD i && !(i.val == 0 && (sealedOf pre).isSome))) ∧
      k.psw.getLsbD pS = (h.psw.getLsbD pS || (accStore false (hasSat pre) (hasPair pre) h.ac[accNo pre]).2) ∧
      (∀ x : Fin 16, getR k x = landed (eaStep ea (wordCount (hasPair pre)) [] h) x) ∧
      ((sealedOf pre).isNone → m.mem.spad = s.mem.spad ∧ m.mem.sbuf = s.mem.sbuf ++ [{ addr := a.ea, pair := (wordCount (hasPair pre)) == 2, data := (accStore false (hasSat pre) (hasPair pre) h.ac[accNo pre]).1, thread := t }]) ∧
      ((sealedOf pre).isSome → m.mem.sbuf = []))) ∧
    ActsAfter 0 (.acstR t pre (.mem ea)) s (RunsAccess t pre (.acstM true ea) (fun h => eaAccess h (farOf pre) (hasLong pre) ea (wordCount (hasPair pre)) true)
      (fun h a m => store1 t (sealedOf pre).isSome a (accStore true (hasSat pre) (hasPair pre) h.ac[accNo pre]).1 m) (fun a _ m h k => SpecialsKept h k ∧ (∀ i : Fin 4, k.psw.getLsbD i = (h.psw.getLsbD i && !(i.val == 0 && (sealedOf pre).isSome))) ∧
      k.psw.getLsbD pS = (h.psw.getLsbD pS || (accStore true (hasSat pre) (hasPair pre) h.ac[accNo pre]).2) ∧
      (∀ x : Fin 16, getR k x = landed (eaStep ea (wordCount (hasPair pre)) [] h) x) ∧
      ((sealedOf pre).isNone → m.mem.spad = s.mem.spad ∧ m.mem.sbuf = s.mem.sbuf ++ [{ addr := a.ea, pair := (wordCount (hasPair pre)) == 2, data := (accStore true (hasSat pre) (hasPair pre) h.ac[accNo pre]).1, thread := t }]) ∧
      ((sealedOf pre).isSome → m.mem.sbuf = [])))

/-- An instruction that executes. BR, BSR, RTS, CALLM and RETM change no register: the PC goes to the slot, and the slot
holds what acts after it, the target being slot plus displacement, or LR. LOOP with a body and a free level sets LS,
LE, LC and LDEP, with count 0 it jumps past the body, else it raises ILLEGAL with detail 4. TRAP enters exception 7
with detail n and EPC behind it. BRK enters BREAK with detail 0, or halts its thread while BRKH is 1.
(07_programming_model.md, 08_instruction_encoding_reference.md) -/
def Obligations.BranchesOpenTheirDelaySlot : Prop :=
  ∀ (s : State) (t : Fin 8) (pre : List Prefix) (cc : Fin 16) (d e : Word) (m n : Byte) (c : Src), Up s →
    ActsAfter 0 (.br t pre cc d) s (fun r u => RunsPlain t pre (.br cc d) [] (fun h k => SpecialsKept h k ∧ FlagsKept pre h k ∧ k.lr = h.lr ∧
      (h.breakDue = none → k.slot = some { pc := h.pc, cont := .jump (if condHolds h.psw cc then some (nextPc r t pre (.br cc d) + (if hasLong pre then d else (loByte d).signExtend 16).signExtend 17) else none) })) r u) ∧
    ActsAfter 0 (.bsr t pre d) s (fun r u => RunsPlain t pre (.bsr d) [] (fun h k => SpecialsKept h k ∧ FlagsKept pre h k ∧ k.lr = h.lr ∧
      (h.breakDue = none → k.slot = some { pc := h.pc, cont := .bsr (nextPc r t pre (.bsr d) + (if hasLong pre then d else (loByte d).signExtend 16).signExtend 17) })) r u) ∧
    ActsAfter 0 (.rts t pre) s (fun r u => RunsPlain t pre (.rts) [] (fun h k => SpecialsKept h k ∧ FlagsKept pre h k ∧ k.lr = h.lr ∧
      (h.breakDue = none → k.slot = some { pc := h.pc, cont := .jump (some h.lr) })) r u) ∧
    ActsAfter 0 (.callm t pre m d) s (fun r u => RunsPlain t pre (.callm m d) [] (fun h k => SpecialsKept h k ∧ FlagsKept pre h k ∧ k.lr = h.lr ∧
      (h.breakDue = none → k.slot = some { pc := h.pc, cont := .callm m (nextPc r t pre (.callm m d) + (if hasLong pre then d else (loByte d).signExtend 16).signExtend 17) })) r u) ∧
    ActsAfter 0 (.retm t pre) s (fun r u => RunsPlain t pre (.retm) [] (fun h k => SpecialsKept h k ∧ FlagsKept pre h k ∧ k.lr = h.lr ∧
      (h.breakDue = none → k.slot = some { pc := h.pc, cont := .retm })) r u) ∧
    ActsAfter 0 (.loopOp t pre c e) s (fun r u => executes r t pre (.loop c e) = true →
      let h := thread r t
      let k := thread u t
      let next := nextPc r t pre (.loop c e)
      let stop := next + (if hasLong pre then e else e &&& 0xFF).setWidth 17
      let n := match c with
        | .reg x => getR h x
        | .imm v => v
      if ldep h = 3 ∨ stop ≤ next then inException h = false → Entered 1 4 (h.pc, false) h k
      else h.breakDue = none → OnlyThread t r u ∧ OtherRegs [] h k ∧ FlagsKept [] h k ∧ k.ac = h.ac ∧ k.lr = h.lr ∧
        (n = 0 → k.pc = stop ∧ ldep k = ldep h ∧ k.ls = h.ls ∧ k.le = h.le ∧ k.lc = h.lc) ∧
        (n ≠ 0 → k.pc = next ∧ ldep k = ldep h + 1 ∧ ∀ i : Fin 3,
          (i.val = ldep h → k.ls[i] = next ∧ k.le[i] = stop ∧ k.lc[i] = n) ∧
          (i.val ≠ ldep h → k.ls[i] = h.ls[i] ∧ k.le[i] = h.le[i] ∧ k.lc[i] = h.lc[i]))) ∧
    ActsAfter 0 (.trap t pre n) s (fun r u => executes r t pre (.trap n) = true →
      let h := thread r t
      inException h = false → atLoopEnd h (nextPc r t pre (.trap n)) = false →
        Entered 7 n.toNat (nextPc r t pre (.trap n), false) h (thread u t)) ∧
    ActsAfter 0 (.brk t pre) s (fun r u => executes r t pre .brk = true →
      let h := thread r t
      if xregBit r X.dctl 15 then (thread u t).st = .halted ∧ (thread u t).haltedBy.cause = causeBrk ∧ (thread u t).pc = h.pc ∧ (thread u t).r = h.r
      else inException h = false → Entered 6 0 (excPoint h) h (thread u t))

/-- A NOP that executes with no data comparator looking on. In the slot of a branch, the PC becomes the target, or, not
taken, goes on; in that of a BSR, LR is the address after the slot. At a loop end with count above 1 the count drops
and the PC is LS; else the level closes. In the slot of a CALLM whose frame may be written to scratchpad, A7 drops by
2 plus the mask's registers, the frame holds the return address, the mask and the D registers, every other word stays,
LR and PC are set; of a RETM whose frame is well formed, all of it is read back. Otherwise it only goes on.
(07_programming_model.md) -/
def Obligations.SlotsAndLoopEndsSteerThePc : Prop :=
  ∀ (s : State) (t : Fin 8) (pre : List Prefix), Up s → ActsAfter 0 (.nop t pre) s (fun r u =>
    executes r t pre .nop = true → dataQuiet r t = true →
    let h := thread r t
    let k := thread u t
    let next := nextPc r t pre .nop
    FlagsKept pre h k ∧ k.ac = h.ac ∧ k.sg = h.sg ∧ k.bk = h.bk ∧ k.vbase = h.vbase ∧
    (slotPlain h = true → OtherRegs [] h k ∧ OnlyThread t r u) ∧
    (∀ sl, h.slot = some sl → k.slot = none ∧
      (∀ x, sl.cont = .jump x → k.pc = x.getD next ∧ k.lr = h.lr) ∧
      (∀ x, sl.cont = .bsr x → k.pc = x ∧ k.lr = next) ∧
      (∀ p, (match sl.cont with
          | .callm m x => some (m, x)
          | _ => none) = some p →
        let ds := maskRegs p.1
        let n := 2 + ds.length
        let base := ((landed h 15).toNat : Int) - n
        let a0 := (if directDisc h then ((h.bk.toNat / 16 * 0x10000 : Nat) : Int) + base % 0x10000 else (h.sg[7].base.toNat : Int) + base).toNat
        (0 ≤ base ∧ a0 + n ≤ 0x18000 ∧ (directDisc h = false → h.sg[7].en = true ∧ h.sg[7].wr = true ∧
            h.sg[7].base.toNat + base + n ≤ 0x100000 ∧ base + n - 1 ≤ (h.sg[7].limit.toNat : Int)) ∧
          ∀ i : Fin 10, i.val < n → refusal r (.thread t) (a0 + i.val) 1 true = none) → k.shadow = none →
          k.lr = next ∧ k.pc = p.2 ∧ getR k 15 = wd base.toNat ∧ (∀ x : Fin 16, x ≠ 15 → getR k x = landed h x) ∧
          seen u a0 = next.setWidth 16 ∧ (seen u (a0 + 1)).toNat = p.1.toNat * 256 + (next.getLsbD 16).toNat ∧
          (∀ i : Fin 8, ∀ x, ds[i.val]? = some x → seen u (a0 + 2 + i.val) = landed h x) ∧
          (∀ a : Fin 0x18000, a.val < a0 ∨ a0 + n ≤ a.val → seen u a.val = seen r a.val)) ∧
      (sl.cont = .retm →
        let off := (landed h 15).toNat
        let a0 := if directDisc h then h.bk.toNat / 16 * 0x10000 + off else h.sg[7].base.toNat + off
        let ds := maskRegs (hiByte (seen r (a0 + 1)))
        let n := 2 + ds.length
        (off + n ≤ 0x10000 ∧ a0 + n ≤ 0x18000 ∧ r.mem.parBad = [] ∧ fld (seen r (a0 + 1)) 1 7 = 0 ∧ (directDisc h = false → h.sg[7].en = true ∧
            off + n - 1 ≤ h.sg[7].limit.toNat) ∧
          ∀ i : Fin 10, i.val < n → refusal r (.thread t) (a0 + i.val) 1 false = none) → k.shadow = none →
          k.pc.toNat = (seen r a0).toNat + (seen r (a0 + 1)).toNat % 2 * 0x10000 ∧ k.lr = k.pc ∧ getR k 15 = landed h 15 + wd n ∧
          (∀ i : Fin 8, ∀ x, ds[i.val]? = some x → getR k x = seen r (a0 + 2 + i.val)) ∧
          (∀ x : Fin 16, x ≠ 15 → x ∉ ds → getR k x = landed h x) ∧
          (∀ a : Fin 0x18000, seen u a.val = seen r a.val))) ∧
    (h.slot = none → k.lr = h.lr ∧
      if atLoopEnd h next then ∀ d : Fin 3, d.val + 1 = ldep h →
        if 1 < h.lc[d].toNat then k.pc = h.ls[d] ∧ k.lc[d] = h.lc[d] - 1 ∧ ldep k = ldep h
        else k.lc[d] = 0 ∧ ldep k < ldep h ∧ ((∀ j : Fin 3, j.val + 1 = d.val → h.le[j] ≠ next) → k.pc = next ∧ ldep k = d.val)
      else k.pc = next ∧ k.lc = h.lc ∧ ldep k = ldep h))

/-- An instruction that executes. WAIT with mask 0 or an event of its mask latched returns those bits in D0 and clears
them; else the thread waits with its mask and the PC stays. SIGNAL sets one event bit of a thread that is not STOPPED,
C tells that it was; a number out of range raises ILLEGAL with detail 6. SEAL takes a free seal, answers HELD or
DEADLOCK in D0 with C 1, or waits for its owner. UNSEAL gives an owned seal to the next waiting thread after its own,
or frees it, and answers NOT OWNER otherwise. No other seal changes. (06_threads_waits_seals.md,
08_instruction_encoding_reference.md) -/
def Obligations.WaitsSignalsAndSealsAnswer : Prop :=
  ∀ (s : State) (t : Fin 8) (pre : List Prefix) (m : Src) (a : Src8), Up s →
    ActsAfter 0 (.wait t pre m) s (fun r u => executes r t pre (.wait m) = true →
      let h := thread r t
      let k := thread u t
      let mask := srcOp h true m
      let got := latchOf r t &&& mask
      if mask = 0 ∨ got ≠ 0 then OnlyThread t r u ∧ getR k 0 = got ∧ OtherRegs [0] h k ∧ k.latch = h.latch &&& ~~~got ∧
        FlagsKept pre h k ∧ SpecialsKept h k ∧ PcIs r t pre (.wait m) k (nextPc r t pre (.wait m))
      else OnlyThread t r u ∧ k.mask = mask ∧ k.pc = h.pc ∧ k.r = h.r ∧ k.psw = h.psw ∧ k.latch = h.latch ∧
        (h.stepping = false → k.st = .waiting)) ∧
    ActsAfter 0 (.signalOp t pre a) s (fun r u => executes r t pre (.signal a) = true →
      let h := thread r t
      let k := thread u t
      let v := src8Word h a
      if 7 < fld v 4 4 ∨ 7 < fld v 0 4 then inException h = false → Entered 1 6 (excPoint h) h k
      else ∀ x : Fin 8, x.val = fld v 4 4 → slotPlain h = true →
        (thread u x).latch = (if isStopped r x then (thread r x).latch else putBit (thread r x).latch (fld v 0 4) true) ∧
        k.psw.getLsbD pC = isStopped r x ∧ (∀ i : Fin 5, i.val ≠ 0 → k.psw.getLsbD i = h.psw.getLsbD i) ∧ OtherRegs [] h k ∧
        (∀ y : Fin 8, y ≠ x → (thread u y).latch = (thread r y).latch) ∧ u.mem = r.mem ∧ u.thr.owner = r.thr.owner) ∧
    ActsAfter 0 (.sealOp t pre a) s (fun r u => executes r t pre (.seal a) = true →
      let h := thread r t
      let k := thread u t
      let v := src8Word h a
      if 31 < v.toNat then inException h = false → Entered 1 6 (excPoint h) h k
      else ∀ n : Fin 32, n.val = v.toNat →
        let answers : Word → Bool → Prop := fun d c =>
          getR k 0 = d ∧ k.psw.getLsbD pC = c ∧ OtherRegs [0] h k ∧ u.thr.want = r.thr.want ∧
          (∀ j : Fin 32, j ≠ n → u.thr.owner[j] = r.thr.owner[j])
        (r.thr.owner[n] = none → answers 0 false ∧ u.thr.owner[n] = some t) ∧
        (r.thr.owner[n] = some t → answers 2 true ∧ u.thr.owner[n] = some t) ∧
        (∀ x, r.thr.owner[n] = some x → x ≠ t → u.thr.owner = r.thr.owner ∧
          if sealWalk r t 8 n then answers 1 true
          else u.thr.want[t] = some n ∧ k.pc = h.pc ∧ k.r = h.r ∧ k.psw = h.psw ∧ (h.stepping = false → k.st = .waiting))) ∧
    ActsAfter 0 (.unsealOp t pre a) s (fun r u => executes r t pre (.unseal a) = true → slotPlain (thread r t) = true →
      let h := thread r t
      let k := thread u t
      let v := src8Word h a
      if 31 < v.toNat then inException h = false → Entered 1 6 (excPoint h) h k
      else ∀ n : Fin 32, n.val = v.toNat → OtherRegs [0] h k ∧ (∀ j : Fin 32, j ≠ n → u.thr.owner[j] = r.thr.owner[j]) ∧
        if r.thr.owner[n] = some t then
          getR k 0 = 0 ∧ k.psw.getLsbD pC = false ∧
          ((∀ x : Fin 8, waitsFor r x n = false) → u.thr.owner[n] = none) ∧
          (∀ j : Fin 8, waitsFor r (thrIdx (t.val + 1 + j.val)) n = true → (∀ i : Fin 8, i < j → waitsFor r (thrIdx (t.val + 1 + i.val)) n = false) →
            u.thr.owner[n] = some (thrIdx (t.val + 1 + j.val)) ∧ u.thr.want[thrIdx (t.val + 1 + j.val)] = none)
        else getR k 0 = 3 ∧ k.psw.getLsbD pC = true ∧ u.thr.owner = r.thr.owner ∧ u.thr.want = r.thr.want)

/-- An instruction that executes. In TH2-TH7 SETM #1, SETBK, LDSG and STOP of another thread raise PRIVILEGE, with detail
2 for SETM and 0 for the others. Otherwise SETM that changes the discipline opens a shadow of two instructions and
sets MCP; SETBK sets BK; STOP stops a thread that waits or is halted, asks a running one, and leaves TH0, C telling
so; LDSG loads the descriptor's three words. ERET restores PSW from EPSW and the PC from EPC, clears EX and re-opens a
shadow, or raises ILLEGAL with detail 8 where EX is 0. (07_programming_model.md, 08_instruction_encoding_reference.md) -/
def Obligations.SystemInstructionsKeepTheirPrivilege : Prop :=
  ∀ (s : State) (t : Fin 8) (pre : List Prefix) (v : Byte) (a : Src8) (n : Fin 16) (ea : Ea), Up s →
    let user := 2 ≤ t.val
    ActsAfter 0 (.setm t pre v) s (fun r u => executes r t pre (.setm v) = true →
      let h := thread r t
      let k := thread u t
      if user ∧ v.getLsbD 0 = true then inException h = false → Entered 2 2 (excPoint h) h k
      else h.breakDue = none → OtherRegs [] h k ∧ FlagsKept pre h k ∧ SpecialsKept h k ∧ OnlyThread t r u ∧
        PcIs r t pre (.setm v) k (nextPc r t pre (.setm v)) ∧ k.psw.getLsbD pDISC = h.psw.getLsbD pDISC ∧
        if directDisc h = v.getLsbD 0 then k.psw.getLsbD pMCP = h.psw.getLsbD pMCP ∧ k.shadow = h.shadow
        else k.psw.getLsbD pMCP = true ∧ k.shadow = some { left := 2, disc := v.getLsbD 0 }) ∧
    ActsAfter 0 (.setbk t pre a) s (fun r u => executes r t pre (.setbk a) = true → slotPlain (thread r t) = true →
      let h := thread r t
      let k := thread u t
      if user then inException h = false → Entered 2 0 (excPoint h) h k
      else k.bk = (src8Word h a).setWidth 8 ∧ OtherRegs [] h k ∧ FlagsKept pre h k ∧ k.sg = h.sg ∧ k.vbase = h.vbase ∧ k.ac = h.ac ∧
        OnlyThread t r u ∧ PcIs r t pre (.setbk a) k (nextPc r t pre (.setbk a))) ∧
    ActsAfter 0 (.stopOp t pre a) s (fun r u => executes r t pre (.stop a) = true →
      let h := thread r t
      let k := thread u t
      ∀ x : Fin 8, x.val = fld (src8Word h a) 0 3 →
      if user ∧ x ≠ t then inException h = false → Entered 2 0 (excPoint h) h k
      else k.psw.getLsbD pC = decide (x = 0) ∧ OtherRegs [] h k ∧ u.mem.spad = r.mem.spad ∧
        (x = 0 → (thread u x).st = (thread r x).st ∨ h.stepping = true) ∧
        (x = t → x ≠ 0 → k.stopReq = true) ∧
        (x ≠ t → x ≠ 0 → ((thread r x).st = .waiting ∨ (thread r x).st = .halted → (thread u x).st = .stopped) ∧
          ((thread r x).st = .ready → (thread r x).begun = true → (thread u x).stopReq = true)) ∧
        (∀ y : Fin 8, y ≠ x → y ≠ t → (thread u y).st = (thread r y).st ∧ (thread u y).r = (thread r y).r ∧ (thread u y).stopReq = (thread r y).stopReq)) ∧
    ActsAfter 0 (.eret t pre) s (fun r u => executes r t pre .eret = true →
      let h := thread r t
      let k := thread u t
      if inException h = false then Entered 1 8 (excPoint h) h k
      else h.breakDue = none → k.pc = h.epc ∧ inException k = false ∧ OtherRegs [] h k ∧ SpecialsKept h k ∧ OnlyThread t r u ∧
        (∀ i : Fin 5, k.psw.getLsbD i = h.epsw.getLsbD i) ∧ k.psw.getLsbD pIE = h.epsw.getLsbD pIE ∧ ldep k = fld h.epsw 8 2 ∧
        k.psw.getLsbD pDLY = false ∧ k.psw.getLsbD pSYS = h.psw.getLsbD pSYS ∧
        (user → k.psw.getLsbD pDISC = false) ∧
        let again := h.epsw.getLsbD pMCP
        let shd := fld h.estat 11 2
        (again = true → shd ≠ 0 → k.shadow = some { left := min shd 2, disc := h.estat.getLsbD 13 && decide (t.val < 2) }) ∧
        (again = false ∨ shd = 0 → k.shadow = none ∧
          (¬ user → k.psw.getLsbD pDISC = (if again then h.estat.getLsbD 13 else h.epsw.getLsbD pDISC)))) ∧
    ActsAfter 0 (.ldsg t pre n ea) s (fun r u => executes r t pre (.ldsg n ea) = true → slotPlain (thread r t) = true →
      let h := thread r t
      let k := thread u t
      if user then inException h = false → Entered 2 0 (excPoint h) h k
      else dataQuiet r t = true → ∀ x, (eaAccess h (farOf pre) (hasLong pre) ea 3 false).getRight? = some x →
        x.ea + 3 ≤ 0x18000 → r.mem.parBad = [] → (∀ i : Fin 3, refusal r (.thread t) (x.ea + i.val) 1 false = none) →
        (∀ j : Fin 8, k.sg[j] = if j.val = n.val % 8 then segOfWords (seen r x.ea) (seen r (x.ea + 1)) (seen r (x.ea + 2)) else h.sg[j]) ∧
        (∀ y : Fin 16, getR k y = landed (eaStep ea 3 [] h) y) ∧ FlagsKept pre h k ∧ k.bk = h.bk ∧ k.ac = h.ac ∧
        (∀ y : Fin 0x18000, seen u y.val = seen r y.val))

/-- For every instruction row: a thread that may not issue changes nothing. Where a comparator raises BREAK, it enters
exception 6. Bytes that do not decode raise ILLEGAL with the detail of the decoding, a placement failure with its own,
both at the instruction, or at its branch with DLY in a slot. A guard that fails changes no register, flag or memory,
a branch leaves its slot open. SEALED without its seal only sets C. In an exception, a failure stops TH2-TH7 and
restarts TH0 and TH1, with a raise of SEQUENCER. (07_programming_model.md, 08_instruction_encoding_reference.md,
06_threads_waits_seals.md) -/
def Obligations.InstructionsPassTheirChecksInOrder : Prop :=
  ∀ (i : Instr) (t : Fin 8) (pre : List Prefix) (op : Op) (s : State), instrOf i = some (t, pre, op) → Up s →
    ActsAfter 0 i s (fun r u =>
      let h := thread r t
      let k := thread u t
      let hit := (beginInstr t r).1
      let dec := decodeInstr (directDisc h) (dispatchWord r) h.pc.toNat (encodeInstr pre op)
      let skips : Prop := OtherRegs [] h k ∧ SpecialsKept h k ∧ SavedKept h k ∧ OnlyThread t r u ∧
        (∀ j : Fin 5, j.val ≠ 0 → k.psw.getLsbD j = h.psw.getLsbD j)
      (canIssue r t = false → u = r) ∧
      (canIssue r t = true →
        (∀ c, hit = some c → Entered 6 (0x10 + c) (excPoint h) h k) ∧
        (hit = none →
          (∀ d, dec.getLeft? = some d → if inException h then
              u.fcol.raises = r.fcol.raises ++ [{ cls := clsSequencer, bmin := 2, detail := 2, unit := some (.bit ⟨16 + t.val, by omega⟩) }] ∧
              (if 2 ≤ t.val then k.st = .stopped
               else getR k 0 = wd (0xE000 + 1) ∧ k.pc.toNat = fld (h.startBlk.getD 0 0) 0 10 * 128 ∧ inException k = false)
            else Entered 1 (d % 0x1000) (excPoint h) h k) ∧
          ((decodedLen r t pre op).isSome = true →
            (∀ d, placementFail h (nextPc r t pre op) op = some d → inException h = false → Entered 1 d (excPoint h) h k) ∧
            (comesToGuard r t pre op = true → slotPlain h = true →
              (guardPasses h.psw pre = false → skips ∧ k.psw.getLsbD pC = h.psw.getLsbD pC ∧
                (h.breakDue = none → isFlow op = true → k.pc = nextPc r t pre op ∧ k.slot = some { pc := h.pc, cont := .jump none }) ∧
                (isFlow op = false → PcIs r t pre op k (nextPc r t pre op))) ∧
              (guardPasses h.psw pre = true → sealHeld r t pre = false → isFlow op = false →
                skips ∧ k.psw.getLsbD pC = true ∧ PcIs r t pre op k (nextPc r t pre op)))))))

/-- INTERRUPT_TAKEN, with IE 1, EX 0, the line of the thread high and no other cause first, enters exception 11 with EPC
the next instruction; ABORT_EXCEPTION with an abort due enters exception 9, also out of a wait, which it ends with no
event consumed. A stall that holds sets THR.STALL, raises SEQUENCER and enters exception 8 in TH0. STORE_HOLD_RELEASE
of a thread that holds nothing changes nothing; of a held load it makes the load as soon as the buffer answers. Where
a condition does not hold, nothing changes. (07_programming_model.md, 06_threads_waits_seals.md,
11_scratchpad_masters_courier.md) -/
def Obligations.AsynchronousExceptionsEnter : Prop :=
  ∀ (s : State) (t : Fin 8), Up s →
    Acts (.interruptTaken t) s (fun r u =>
      let h := thread r t
      let due := h.st = .ready ∧ h.span = 0 ∧ h.held = none ∧ h.micro = none ∧ h.stopReq = false ∧ h.haltReq = none ∧ h.abortDue = false ∧
        h.breakDue = none ∧ h.starting = none ∧ r.fcol.dump = none ∧ noInt r t = false ∧
        h.psw.getLsbD pIE = true ∧ inException h = false ∧ irqLine r t = true
      (due → Entered 11 0 (excPoint h) h (thread u t) ∧ (h.inTile = false → OnlyThread t r u)) ∧ (¬ due → u = r)) ∧
    Acts (.abortException t) s (fun r u =>
      let h := thread r t
      let due := h.abortDue = true ∧ (h.st = .ready ∧ (h.span = 0 ∨ h.micro ≠ none) ∨ h.st = .waiting) ∧ h.haltReq = none ∧ h.held = none ∧
        h.starting = none ∧ noInt r t = false
      (due → (thread u t).abortDue = false ∧ (thread u t).ecause.toNat = 0x9000 ∧ inException (thread u t) = true ∧
        (h.micro = none → (thread u t).epc = (excPoint h).1) ∧ (h.st = .waiting → (thread u t).mask = 0 ∧ (thread u t).epc = h.pc ∨ h.slot ≠ none) ∧
        (∀ a ∈ u.fcol.aborts, ¬ (a.kind = 1 ∧ a.idx = t.val))) ∧ (¬ due → u = r)) ∧
    Acts .stallDeclared s (fun r u =>
      (stallHolds r = false → u = r) ∧
      (stallHolds r = true → fld (reg u Reg.thr_STALL) 0 8 = min 255 (fld (reg r Reg.thr_STALL) 0 8 + 1) ∧
        (∀ x : Fin 8, (reg u Reg.thr_STALL).getLsbD (8 + x.val) = decide ((thread r x).st = .waiting)) ∧
        Raised r u { cls := clsSequencer, bmin := 2, detail := 1 } ∧
        (∀ x : Fin 8, x ≠ 0 → thread u x = thread r x) ∧
        if (thread r 0).abortDue then thread u 0 = thread r 0
        else (thread u 0).st = .ready ∧ Entered 8 0 (excPoint (thread r 0)) (thread r 0) (thread u 0) ∧ (thread u 0).latch &&& 0xEFFF = (thread r 0).latch &&& 0xEFFF)) ∧
    ActsAfter 0 (.storeHoldRelease t) s (fun r u =>
      let h := thread r t
      (h.held = none → h.starting = none → u = r) ∧
      (∀ p, h.held = some p → h.starting = none → slotPlain h = true → dataQuiet r t = true → (match p.2 with
          | .ld _ _ => true
          | _ => false) = true → ∀ a, (eaAccess h (farOf p.1) (hasLong p.1) (match p.2 with
          | .ld _ ea => ea
          | _ => .ind 0) 1 false).getRight? = some a →
        ((match load1 t (sealedOf p.1).isSome a r with
          | .hold _ => true
          | _ => false) = true → (thread u t).held = some p ∧ (thread u t).r = h.r ∧ u.mem = r.mem) ∧
        (∀ q, memDone (load1 t (sealedOf p.1).isSome a r) = some q → (thread u t).held = none ∧ (thread u t).load.map (·.2) = [lowWord q.1] ∧
          u.mem = q.2.mem)))

/-- A thread in a user routine may issue. A loaded microword with an ALU operation of the table on registers or
temporaries not produced too near, no shift, memory access, event or PSW flag, and a register destination, writes
exactly that register, MF with Z and N of the value, and goes on: NEXT, JUMP, CALL, RET and END as the SEQ table says.
An unloaded or resident-only word raises ILLEGAL. Bytes that decode to no routine raise ILLEGAL; a guard that fails
skips. MCCMD writes or reads one WCS word, refused under the lock, for the ROM and for other masters.
(09_microcode_control_store.md) -/
def Obligations.MicrowordsComputeAndSequence : Prop :=
  ∀ (s : State) (t : Fin 8) (bytes : List Byte) (m : Master), Up s →
    ActsAfter 0 (.userInstruction t bytes) s (fun r u =>
      let h := thread r t
      let k := thread u t
      let runs := h.st = .ready ∧ h.stopReq = false ∧ (h.abortDue = false ∨ noInt r t = true) ∧ r.fcol.dump = none
      (∀ mc, h.micro = some mc → (¬ runs → u = r) ∧ (runs →
        let w := wcsGet r mc.addr.toNat
        let src : Nat → Word := fun c => if c < 16 then getR h ⟨c % 16, by omega⟩ else mc.t[c % 8]
        let near : Nat → Bool := fun c => srcUndefined mc w c
        let a := src (mA w)
        let b := src (mB w)
        (mUnloaded mc.addr w = true → inException h = false → Entered 1 0 (excPoint h) h k ∧ k.micro = none) ∧
        (mUnloaded mc.addr w = false → mMem w = 0 → mEvio w = 0 → mShf w = 0 → fld w 18 6 = 0 → mA w < 24 → mB w < 24 →
          near (mA w) = false → near (mB w) = false → (1 ≤ mAlu w ∧ mAlu w ≤ 0x12 ∧ mAlu w ≠ 4 ∧ mAlu w ≠ 6) →
          (mSeq w = 0 ∨ mSeq w = 1 ∨ mSeq w = 4 ∨ (mSeq w = 5 ∧ mc.stack ≠ [])) → mDst w < 16 →
          let res : Word := match mAlu w with
            | 1 => a
            | 2 => b
            | 3 => a + b
            | 5 => a - b
            | 7 => b - a
            | 8 => a &&& b
            | 9 => a ||| b
            | 10 => a ^^^ b
            | 11 => ~~~a
            | 12 => a &&& ~~~b
            | 13 => a + 1
            | 14 => a - 1
            | 15 => if a.toInt < 0 then -a else a
            | 16 => BitVec.ofInt 16 (max a.toInt b.toInt)
            | 17 => BitVec.ofInt 16 (min a.toInt b.toInt)
            | _ => wd ((List.range 16).countP (fun i => decide (a.toNat < 2 ^ (15 - i))))
          (∀ x : Fin 16, getR k x = if x.val = mDst w then res else getR h x) ∧ k.psw = h.psw ∧ k.pc = h.pc ∧ k.ac = h.ac ∧ OnlyThread t r u ∧
          ∀ mc', k.micro = some mc' → mc'.n = mc.n + 1 ∧ mc'.mf.getLsbD 2 = (res == 0) ∧ mc'.mf.getLsbD 3 = res.msb ∧ mc'.t = mc.t ∧ mc'.uc = mc.uc ∧
            mc'.addr = (if mSeq w = 0 then mc.addr + 1 else if mSeq w = 5 then mc.stack.headD 0 else mNext w) ∧
            mc'.stack = (if mSeq w = 4 then ((mc.addr + 1) :: mc.stack).take 4 else if mSeq w = 5 then mc.stack.drop 1 else mc.stack)) ∧
        (mUnloaded mc.addr w = false → mMem w = 0 → mEvio w = 0 → fld w 20 4 = 0 → mAlu w = 0 → mSeq w = 6 → mA w < 16 → mB w < 16 →
          near (mA w) = false → near (mB w) = false → slotPlain h = true → h.breakDue = none →
          k.micro = none ∧ OtherRegs [] h k ∧ FlagsKept mc.pre h k ∧ k.ac = h.ac ∧ OnlyThread t r u ∧
          (h.slot = none → atLoopEnd h mc.next = false → k.pc = mc.next)))) ∧
      (h.micro = none → (canIssue r t = false → u = r) ∧ (canIssue r t = true → (beginInstr t r).1 = none →
        (∀ d, (decodeInstr (directDisc h) (dispatchWord r) h.pc.toNat bytes).getLeft? = some d → inException h = false →
          Entered 1 (d % 0x1000) (excPoint h) h k) ∧
        (∀ d, (decodeInstr (directDisc h) (dispatchWord r) h.pc.toNat bytes).getRight? = some d → 3 ≤ d.page →
          (h.slot = none ∨ atLoopEnd h (h.pc + BitVec.ofNat 17 d.len) = false) →
          (guardPasses h.psw d.pre = false → slotPlain h = true → k.micro = none ∧ OtherRegs [] h k ∧ FlagsKept [] h k ∧ OnlyThread t r u) ∧
          (guardPasses h.psw d.pre = true → sealHeld r t d.pre = true →
            (mUnloaded d.target (wcsGet r d.target.toNat) = true → inException h = false → Entered 1 0 (excPoint h) h k ∧ k.micro = none) ∧
            (mUnloaded d.target (wcsGet r d.target.toNat) = false → mMem (wcsGet r d.target.toNat) = 0 → mEvio (wcsGet r d.target.toNat) = 0 →
              mAlu (wcsGet r d.target.toNat) = 0 → mSeq (wcsGet r d.target.toNat) = 0 → mA (wcsGet r d.target.toNat) < 16 →
              mB (wcsGet r d.target.toNat) < 16 → k.micro.isSome = true ∧ k.pc = h.pc ∧ k.r = h.r ∧
              ∀ mc', k.micro = some mc' → mc'.addr = d.target + 1 ∧ mc'.opnds = d.opnds ∧ mc'.pre = d.pre ∧ mc'.stack = [] ∧
                mc'.next = h.pc + BitVec.ofNat 17 d.len)))))) ∧
    Acts (.mccmdWrite m) s (fun r u =>
      let a := regF r Reg.thr_MCADR 0 12
      if privileged m = true ∧ 0x800 ≤ a ∧ regBit r Reg.thr_MCCTL 15 = false then
        (∀ i : Fin 0x800, ∀ w : Fin 7, (wcsGet u (0x800 + i.val)).extractLsb' (16 * w.val) 16 =
          if 0x800 + i.val = a then reg r (Reg.thr_MCDAT w) else (wcsGet r (0x800 + i.val)).extractLsb' (16 * w.val) 16) ∧
        RegsBut [Reg.thr_MCADR] r u ∧ fld (reg u Reg.thr_MCADR) 0 12 = (if regBit r Reg.thr_MCCTL 14 then (a + 1) % 4096 else a) ∧
        { u with regs := r.regs, hw := r.hw, flash := r.flash } = r
      else regBit u Reg.thr_MCCTL 1 = true ∧ RegsBut [Reg.thr_MCCTL] r u ∧ { u with regs := r.regs, hw := r.hw } = r) ∧
    Acts (.mccmdRead m) s (fun r u =>
      let a := regF r Reg.thr_MCADR 0 12
      if privileged m then
        (∀ w : Fin 7, reg u (Reg.thr_MCDAT w) = if a < 0x800 then 0 else (wcsGet r a).extractLsb' (16 * w.val) 16) ∧
        fld (reg u Reg.thr_MCADR) 0 12 = (if regBit r Reg.thr_MCCTL 14 then (a + 1) % 4096 else a) ∧
        RegsBut (Reg.thr_MCADR :: (List.range 7).map Reg.thr_MCDAT) r u ∧ { u with regs := r.regs, hw := r.hw } = r
      else regBit u Reg.thr_MCCTL 1 = true ∧ RegsBut [Reg.thr_MCCTL] r u ∧ { u with regs := r.regs, hw := r.hw } = r)

/-- A tile instruction that executes registers its request with its operands behind those waiting and leaves PC and
registers. The running operation's end: TCFG that passes its checks and TLDR leave the tile RESIDENT with its backing
words, TSTR writes them, TREL empties it, TSR 0; TMAP at a pair of breakpoints gives the body value with C 0; TMAC
adds the exact products. A failing check of TCFG raises TILE with its code. An operation that must stop records the
row in TSR and the thread leaves it. TILE.FREE frees exactly the tiles named. (10_tiles_and_maps.md) -/
def Obligations.TileOperationsKeepTheirRules : Prop :=
  ∀ (s : State) (m : Master) (t : Fin 8) (pre : List Prefix) (rd rx ry : Fin 16) (n o : Fin 8) (v : Word) (dt row : Nat), Up s →
    let registers : Op → (Thread → Pair) → State → State → Prop := fun op pair r u => executes r t pre op = true →
      let h := thread r t
      let k := thread u t
      k.inTile = true ∧ k.pc = h.pc ∧ k.r = h.r ∧ k.psw = h.psw ∧ k.ac = h.ac ∧ k.st = h.st ∧ u.mem = r.mem ∧ u.tile.tl = r.tile.tl ∧
      (u.tile.run.toList ++ u.tile.wait).any (fun q => q.t == t && q.op == op && q.ac1 == hasAc1 pre && q.sat == hasSat pre &&
        q.pair == pair h) = true ∧
      (∀ q, r.tile.run = some q → u.tile.run = some q ∧ r.tile.wait <+: u.tile.wait) ∧
      (∀ x : Fin 8, x ≠ t → (thread u x).r = (thread r x).r)
    ActsAfter 0 (.tcfg t pre n rd) s (registers (.tcfg n rd) (fun h => getPair h rd)) ∧
    ActsAfter 0 (.tldr t pre n) s (registers (.tldr n) (fun h => 0)) ∧
    ActsAfter 0 (.tstr t pre n) s (registers (.tstr n) (fun h => 0)) ∧
    ActsAfter 0 (.tmap t pre rd n rx ry) s (registers (.tmap rd n rx ry) (fun h => mkPair (getR h rx) (getR h ry))) ∧
    ActsAfter 0 (.tmac t pre n o) s (registers (.tmac n o) (fun h => 0)) ∧
    ActsAfter 0 (.trel t pre n) s (registers (.trel n) (fun h => 0)) ∧
    Acts (.tileFree m v) s (fun r u =>
      (privileged m = false → u = r) ∧
      (privileged m = true → ∀ x : Fin 8, if v.getLsbD x.val then tileAt u x = {} ∧ reg u (Reg.tile_TSR x) = 0
        else tileAt u x = tileAt r x ∧ reg u (Reg.tile_TSR x) = reg r (Reg.tile_TSR x)) ∧
      RegsBut ((List.range 8).map Reg.tile_TSR) r u ∧ { u with regs := r.regs, hw := r.hw, tile := r.tile } = r ∧
      u.tile.run = r.tile.run ∧ u.tile.wait = r.tile.wait) ∧
    ActsAfter dt (.tileOpComplete dt) s (fun r u =>
      (r.tile.run = none ∨ tileStops r = true → u = r) ∧
      (∀ q, r.tile.run = some q → tileStops r = false → (thread r q.t).slot = none → (thread r q.t).breakDue = none →
        (thread r q.t).st = .ready → (thread r q.t).load = [] → ∀ x : Fin 8, x.val = tileNamed q →
        let h := thread r q.t
        let k := thread u q.t
        let a := tileAt r x
        let b := tileAt u x
        let next := h.pc + BitVec.ofNat 17 q.len
        let mine := a.owner = q.t ∧ a.data.length = a.rows * a.cols ∧ a.base + a.rows * a.cols ≤ 0x16000 ∧ r.mem.parBad = [] ∧
          a.rows ≤ 16 ∧ a.cols ≤ 32 ∧ 0 < a.cols ∧ 0 < a.rows
        let at_ : Nat → Word := fun i => spadSeen r 1 (a.base + i)
        let open_ : Prop := regionsPermit r .tile 0 0x16000 false = true ∧ regionsPermit r .tile 0 0x16000 true = true
        let tsr := tsrOf r x
        k.inTile = false ∧
        (q.op = .trel x → mine → a.st ≠ .free → b.data = [] ∨ a.st = .empty) ∧
        (q.op = .trel x → mine → a.st = .resident → b.st = .empty ∧ tsrOf u x = 0 ∧ k.r = h.r ∧ u.mem = r.mem) ∧
        (q.op = .tldr x → mine → open_ → a.st = .resident → b.st = .resident ∧ tsrOf u x = 0 ∧ k.r = h.r ∧ u.mem.spad = r.mem.spad ∧
          ∀ i : Fin 512, i.val < a.rows * a.cols → b.data[i.val]? = if i.val < tsr * a.cols then a.data[i.val]? else some (at_ i.val)) ∧
        (q.op = .tstr x → mine → open_ → a.st = .resident → b.data = a.data ∧ tsrOf u x = 0 ∧ k.r = h.r ∧
          (∀ i : Fin 512, i.val < a.rows * a.cols → tsr * a.cols ≤ i.val → some (spadGet u (a.base + i.val)) = a.data[i.val]?) ∧
          (∀ i : Fin 0x18000, i.val < a.base + tsr * a.cols ∨ a.base + a.rows * a.cols ≤ i.val → spadGet u i.val = spadGet r i.val)) ∧
        (∀ rd, (match q.op with
          | .tmap rd _ _ _ => some rd
          | _ => none) = some rd → mine → a.st = .resident → ∀ i : Fin 16, ∀ j : Fin 32,
          let cell : Nat → Nat → Word := fun y z => a.data.getD (y * a.cols + z) 0
          2 ≤ a.rows → 2 ≤ a.cols → 0 < i.val → 0 < j.val → i.val < a.rows → j.val < a.cols →
          (∀ z : Fin 31, z.val + 1 < a.cols → 0 < z.val → (cell 0 z.val).toNat < (cell 0 (z.val + 1)).toNat) →
          (∀ y : Fin 15, y.val + 1 < a.rows → 0 < y.val → (cell y.val 0).toNat < (cell (y.val + 1) 0).toNat) →
          lowWord q.pair = cell 0 j.val → highWord q.pair = cell i.val 0 →
          getR k rd = cell i.val j.val ∧ OtherRegs [rd] h k ∧ FlagsOf [] false false h k (cell i.val j.val) ∧ u.mem = r.mem) ∧
        (∀ m', (match q.op with
          | .tmac _ m' => some m'
          | _ => none) = some m' → mine → a.st = .resident → (tileAt r m').st = .resident → (tileAt r m').owner = q.t →
          (tileAt r m').rows = a.rows → (tileAt r m').cols = a.cols → q.sat = false →
          let z := (((a.data.drop (tsr * a.cols)).take (a.rows * a.cols - tsr * a.cols)).zip (((tileAt r m').data.drop (tsr * a.cols)).take (a.rows * a.cols - tsr * a.cols))).map
            (fun p => p.1.toInt * p.2.toInt)
          let c : Fin 2 := if q.ac1 then 1 else 0
          k.ac[c] = BitVec.ofInt 40 (h.ac[c].toInt + z.sum) ∧ k.ac[1 - c] = h.ac[1 - c] ∧ k.psw.getLsbD pC = false ∧
            k.psw.getLsbD pZ = (k.ac[c] == 0) ∧ k.psw.getLsbD pN = k.ac[c].msb ∧ k.r = h.r ∧ u.mem = r.mem ∧ tsrOf u x = 0) ∧
        ((match q.op with
          | .tcfg _ _ => true
          | _ => false) = true → ¬ (a.st = .resident ∧ tsr ≠ 0 ∧ cfgPair a = q.pair) →
          (∀ c, tcfgFails r q.t x q.pair = some c → b = a ∧ u.mem = r.mem ∧
            (inException h = false → Entered 5 (x.val * 256 + c) (h.pc, false) h k)) ∧
          (tcfgFails r q.t x q.pair = none → r.mem.parBad = [] →
            let y := cfgOfPair q.pair
            (tileUsed r - (if a.st = .resident then footprint a else 0)) + 64 * blocksOf (y.rows * y.cols) ≤ 1024 →
            b.st = .resident ∧ b.rows = y.rows ∧ b.cols = y.cols ∧ b.owner = y.owner ∧ b.base = y.base ∧ tsrOf u x = 0 ∧ u.mem.spad = r.mem.spad ∧
            ∀ i : Fin 512, i.val < y.rows * y.cols → b.data[i.val]? = some (spadSeen r 1 (y.base + i.val)))) ∧
        (atLoopEnd h next = false → inException k = inException h → k.pc = next))) ∧
    ActsAfter dt (.tileRowStop dt row) s (fun r u =>
      (r.tile.run = none ∨ tileStops r = false → u = r) ∧
      (∀ q, r.tile.run = some q → tileStops r = true → hasRows q.op = false → (thread u q.t).pc = (thread r q.t).pc ∧ u.tile.tl = r.tile.tl ∧ u.mem = r.mem) ∧
      (∀ q, r.tile.run = some q → tileStops r = true → tileGone r q = false → ∀ x : Fin 8, x.val = tileNamed q → q.op = .tldr x →
        let h := thread r q.t
        let k := thread u q.t
        let a := tileAt r x
        a.owner = q.t → a.st = .resident → a.data.length = a.rows * a.cols → a.base + a.rows * a.cols ≤ 0x16000 → r.mem.parBad = [] → a.rows ≤ 16 →
        regionsPermit r .tile 0 0x16000 false = true → tsrOf r x ≤ row → row < a.rows → h.st = .ready → h.breakDue = none →
          tsrOf u x = row ∧ k.inTile = false ∧ k.pc = h.pc ∧ k.r = h.r ∧ u.mem.spad = r.mem.spad ∧
          ∀ i : Fin 512, i.val < a.rows * a.cols → (tileAt u x).data[i.val]? =
            if tsrOf r x * a.cols ≤ i.val ∧ i.val < row * a.cols then some (spadSeen r 1 (a.base + i.val)) else a.data[i.val]?))

/-- A write of a word over the bus. Refused, it changes nothing but the record in VIOL, its signal on source 61, and for a
thread nothing at all. To the scratchpad it writes exactly that word. To a MEMC register, by a privileged master, each
RW bit takes the value, each W1C bit is cleared by 1 unless hardware sets it in this tick, each W1S bit is set, every
other bit and register stays; by another master nothing changes. A drain of a store to scratchpad takes the oldest
entry, writes its words and no other, and every load finds what it found before; with an empty buffer nothing happens.
(00_scope.md, 01_stolu_in_one_piece.md, 11_scratchpad_masters_courier.md) -/
def Obligations.WritesActByTheirAccessCodes : Prop :=
  ∀ (s : State) (m : Master) (a : Nat) (v : Word) (dt : Nat), Up s →
    Acts (.registerWrite m a v) s (fun r u =>
      (∀ why, refusal r m a 1 true = some why →
        ((match m with
          | .thread _ => true
          | _ => false) = true → u = r) ∧
        u.mem = r.mem ∧ u.thr = r.thr ∧ u.flash = r.flash ∧ u.xregs = r.xregs ∧ u.out = r.out ∧ u.modes = r.modes ∧
        RegsBut (Reg.memc_VIOL :: (Reg.memc_VIOL + 1) :: runst) r u) ∧
      (refusal r m a 1 true = none →
        (isSpad a = true → (∀ e ∈ wLogNow r, masterNo m ≤ e.1) → spadGet u a = v ∧ (∀ b : Fin 0x18000, b.val ≠ a → spadGet u b.val = spadGet r b.val) ∧
          u.mem.sbuf = r.mem.sbuf ∧ u.thr = r.thr ∧ u.flash = r.flash ∧ RegsBut [Reg.sys_ARMSTAT] r u ∧
          { u with mem := r.mem, regs := r.regs, hw := r.hw } = r) ∧
        (0x41400 ≤ a → a < 0x41800 → RegsBut [a] r u ∧ { u with regs := r.regs, hw := r.hw } = r ∧
          ∀ i : Fin 16, (reg u a).getLsbD i = if privileged m = false then (reg r a).getLsbD i
            else if (regMask RegRow.rw a).getLsbD i then v.getLsbD i || ((regMask RegRow.w1s a).getLsbD i && v.getLsbD i)
            else if (regMask RegRow.w1c a).getLsbD i then (reg r a).getLsbD i && (!v.getLsbD i || (hwSetBits r a).getLsbD i)
            else if (regMask RegRow.w1s a).getLsbD i then (reg r a).getLsbD i || v.getLsbD i
            else (reg r a).getLsbD i))) ∧
    ActsAfter dt (.storeDrain dt) s (fun r u =>
      (r.mem.sbuf = [] → u = r) ∧
      (∀ e, r.mem.sbuf.head? = some e → e.addr + (if e.pair then 2 else 1) ≤ 0x18000 → (∀ x ∈ wLogNow r, x.1 = 0) →
        u.mem.sbuf = r.mem.sbuf.tail ∧ (∀ b : Fin 0x18000, seen u b.val = seen r b.val) ∧
        (∀ b : Fin 0x18000, spadGet u b.val = if b.val = e.addr then lowWord e.data else if e.pair = true ∧ b.val = e.addr + 1 then highWord e.data
          else spadGet r b.val) ∧
        u.thr = r.thr ∧ u.flash = r.flash ∧ RegsBut [Reg.sys_ARMSTAT] r u ∧ { u with mem := r.mem, regs := r.regs, hw := r.hw } = r))

/-- A permitted start of an idle channel that is not fenced takes HEAD and fetches; on a fenced one it sets ERR. A fetched
descriptor with V 0 ends the chain; one that fails a check ends with the first failing code; else its words are in
force, STAT reads ACTIVE and a flash kind waits for the flash master. The next channel in rotation makes one access:
COPY reads a unit, then writes it, FILL writes its value, FREAD a flash word, each to exactly the destination words.
An end of the erase or page poll leaves FFh or the programmed bytes; past FTMO the code is 0Ah. The end writes STAT,
notifies, signals, and goes idle or to NEXT. (11_scratchpad_masters_courier.md) -/
def Obligations.CourierMovesByItsDescriptors : Prop :=
  ∀ (s : State) (m : Master) (c : Fin 8) (dt : Nat) (delivered : Bool), Up s →
    let others : State → State → Prop := fun r u => ∀ x : Fin 8, x ≠ c → chan u x = chan r x
    Acts (.courStart m c) s (fun r u =>
      if privileged m = false ∧ m ≠ .thread (thrIdx (regF r (Reg.cour_CHCFG c) 0 3)) then u = r
      else if fenceBit r (fbCour c) then regBit u Reg.cour_STAT c = true ∧ RegsBut [Reg.cour_STAT] r u ∧ u.cour = r.cour
      else if (chan r c).st ≠ .idle then u = r
      else chan u c = { st := .run, fetch := true } ∧ reg u (Reg.cour_CUR c) = reg r (Reg.cour_HEAD c) ∧ others r u ∧
        RegsBut [Reg.cour_CUR c] r u ∧ { u with cour := r.cour, regs := r.regs, hw := r.hw } = r) ∧
    Acts (.descriptorFetch c) s (fun r u =>
      let h := chan r c
      let a := 8 * (reg r (Reg.cour_CUR c)).toNat
      let w : Nat → Word := fun i => spadSeen r 2 (a + i)
      let due := h.st = .run ∧ h.fetch = true ∧ courFrozen r = false
      (¬ due → u = r) ∧
      (due → others r u ∧
        (0x18000 ≤ a → chan u c = {} ∧ regF u (Reg.cour_CSTAT c) 0 8 = 8) ∧
        (a < 0x18000 → r.mem.parBad = [] → (∀ i : Fin 8, refusal r (.courier c) (a + i.val) 1 false = none) →
          ((w 0).getLsbD 15 = false → chan u c = {} ∧ reg u (Reg.cour_CUR c) = 0xFFFF ∧ reg u (Reg.cour_CSTAT c) = reg r (Reg.cour_CSTAT c) ∧ u.mem = r.mem) ∧
          ((w 0).getLsbD 15 = true →
            let k := chan u c
            let kind := fld (w 0) 12 3
            let pair := (w 0).getLsbD 5
            let flash := 2 ≤ kind ∧ kind ≤ 4
            let bad7 := 4 < kind ∨ fld (w 0) 0 3 ≠ 0 ∨ (pair = true ∧ flash) ∨ (0x2FFF < (w 7).toNat ∧ w 7 ≠ 0xFFFF)
            let bad4 := (pair = true ∧ (fld (w 4) 0 1 = 1 ∨ (kind = 0 ∧ fld (w 2) 0 1 = 1))) ∨ (kind = 2 ∧ fld (w 2) 0 1 = 1) ∨
              ((kind = 3 ∨ kind = 4) ∧ fld (w 4) 0 1 = 1)
            k.ctl = w 0 ∧ k.src = (mkPair (w 2) (w 3)).toNat ∧ k.dst = (mkPair (w 4) (w 5)).toNat ∧ k.count = (w 6).toNat ∧ k.next = w 7 ∧
            k.moved = 0 ∧ k.fetch = false ∧ reg u (Reg.cour_REM c) = w 6 ∧
            (bad7 → k.err = 7 ∧ k.done = true ∧ u.mem = r.mem) ∧ (¬ bad7 → bad4 → k.err = 4 ∧ k.done = true ∧ u.mem = r.mem) ∧
            let size := 2 * (w 6).toNat
            let lo := (reg32 r Reg.cour_FWIN).toNat
            let hi := (reg32 r Reg.cour_FWLIM).toNat
            let first := if kind = 4 then eraseBase r k.dst else k.dst
            let last := if kind = 4 then eraseBase r (k.dst + size - 1) + eraseSize r - 1 else k.dst + size - 1
            let bad9 := 3 ≤ kind ∧ size ≠ 0 ∧ (first < lo ∨ hi < last)
            (¬ bad7 → ¬ bad4 → bad9 → k.err = 9 ∧ k.done = true ∧ u.mem = r.mem) ∧
            (¬ bad7 → ¬ bad4 → ¬ bad9 → k.err = 0 ∧ (k.done = true ↔ w 6 = 0) ∧ (k.st = .waitfl ↔ flash ∧ w 6 ≠ 0) ∧
              (refusal r (.courier c) (a + 1) 1 true = none → (wLogNow r = [] → spadGet u (a + 1) = 0x1000) ∧
                ∀ b : Fin 0x18000, b.val ≠ a + 1 → spadGet u b.val = spadGet r b.val))))) ) ∧
    ActsAfter dt (.courierUnitMove dt delivered) s (fun r u =>
      (nextChan r delivered = none → u = r) ∧
      (∀ x, nextChan r delivered = some x → u.cour.last = x.val ∧ (∀ y : Fin 8, y ≠ x → chan u y = chan r y) ∧
        let h := chan r x
        let k := chan u x
        let n := if h.ctl.getLsbD 5 then 2 else 1
        let src := if h.ctl.getLsbD 4 then h.src else h.src + h.moved * n
        let dst := if h.ctl.getLsbD 3 then h.dst else h.dst + h.moved * n
        (chanKind h = 0 → h.held = none → src + n ≤ 0x18000 → r.mem.parBad = [] → refusal r (.courier x) src n false = none →
          u.mem = r.mem ∧ k = { h with held := some (mkPair (spadSeen r 2 src) (if n = 2 then spadSeen r 2 (src + 1) else 0)) }) ∧
        (∀ v, (match chanKind h, h.held with
            | _, some v => some v
            | 1, none => some (BitVec.ofNat 32 h.src)
            | 2, none => some (mkPair (flashWord r (h.src + 2 * h.moved)) 0)
            | _, _ => none) = some v → dst + n ≤ 0x18000 → refusal r (.courier x) dst n true = none → collides r 2 dst n = false →
          k.moved = h.moved + 1 ∧ k.held = none ∧ (k.done = true ↔ h.moved + 1 = h.count) ∧
          reg u (Reg.cour_REM x) = wd (h.count - (h.moved + 1)) ∧ spadGet u dst = lowWord v ∧ (n = 2 → spadGet u (dst + 1) = highWord v) ∧
          (∀ b : Fin 0x18000, b.val < dst ∨ dst + n ≤ b.val → spadGet u b.val = spadGet r b.val)))) ∧
    Acts (.courierFlashGrant c) s (fun r u =>
      let due := (chan r c).st = .waitfl ∧ flashFree r (.courier c) = true ∧ courFrozen r = false
      (¬ due → u = r) ∧ (due → (chan u c).st = .run ∧ u.flash.owner = .courier c ∧ others r u ∧ u.mem = r.mem ∧
        (chanKind (chan r c) = 4 → (chan u c).poll = some .erase))) ∧
    ActsAfter dt (.courierFlashPollDone dt c) s (fun r u =>
      let h := chan r c
      let k := chan u c
      (h.poll = none ∨ h.due < r.now ∨ r.flash.answers = false → u = r) ∧
      (h.poll.isSome = true → r.now ≤ h.due → r.flash.answers = true → others r u ∧ u.mem = r.mem ∧
        (h.pre = true → u.flash.cut = none ∧ k.poll = h.poll ∧ u.flash.cells = r.flash.cells) ∧
        (h.pre = false → h.poll = some .erase →
          let b := eraseBase r (h.dst + 2 * h.moved)
          (∀ i : Fin 4096, i.val < eraseSize r → flashByte u (b + i.val) = 0xFF) ∧ k.moved = min h.count ((b + eraseSize r - h.dst) / 2) ∧
          (k.done = true ↔ k.moved = h.count) ∧ (k.moved < h.count → k.poll = some .erase)) ∧
        (h.pre = false → h.poll = some .page → k.moved = h.moved + h.page.length ∧ k.page = [] ∧ k.poll = none ∧ (k.done = true ↔ k.moved = h.count) ∧
          ∀ i : Fin 128, ∀ w, h.page[i.val]? = some w →
            flashByte u (h.dst + 2 * (h.moved + i.val)) = flashByte r (h.dst + 2 * (h.moved + i.val)) &&& w.setWidth 8 ∧
            flashByte u (h.dst + 2 * (h.moved + i.val) + 1) = flashByte r (h.dst + 2 * (h.moved + i.val) + 1) &&& (w >>> 8).setWidth 8))) ∧
    ActsAt (fun s => courPollDue s c) (.courierFlashTimeout c) s (fun r u =>
      ((chan r c).poll = none → u = r) ∧ ((chan r c).poll.isSome = true → (chan u c).err = 0x0A ∧ (chan u c).done = true ∧ (chan u c).poll = none ∧
        (chan u c).moved = (chan r c).moved ∧ others r u ∧ u.mem = r.mem)) ∧
    Acts (.descriptorEnd c) s (fun r u =>
      let h := chan r c
      let a := (reg r (Reg.cour_CUR c)).toNat * 8 + 1
      (h.done = false → u = r) ∧
      (h.done = true → others r u ∧
        (a < 0x18000 → refusal r (.courier c) a 1 true = none → wLogNow r = [] →
          (spadGet u a).toNat = (if h.err = 0 then 0x2000 else 0x3000 + h.err % 0x1000) % 0x10000 + (if h.collided then 0x800 else 0) ∨ 0x800 ≤ h.err) ∧
        (∀ b : Fin 0x18000, b.val ≠ a → spadGet u b.val = spadGet r b.val) ∧
        (h.ctl.getLsbD 11 = true → ∀ t : Fin 8, t.val = fld h.ctl 8 3 → isStopped r t = false → (thread u t).latch.getLsbD 13 = true) ∧
        (h.err ≠ 0 → regBit u Reg.cour_STAT c = true ∧ regF u (Reg.cour_CSTAT c) 0 8 = h.err % 256) ∧
        (h.err ≠ 0 ∨ h.ctl.getLsbD 7 = true → ∀ n : Fin 96, n.val = 64 + c.val → hasEvent u n) ∧
        if h.err = 0 ∧ h.ctl.getLsbD 6 = true ∧ h.next ≠ 0xFFFF then chan u c = { st := .run, fetch := true } ∧ reg u (Reg.cour_CUR c) = h.next
        else chan u c = {} ∧ reg u (Reg.cour_CUR c) = 0xFFFF))

/-- Thread t reads CLAIMt. If it holds no source and some source is claimable (and not pending by an event of this very
tick), the lowest-numbered one is returned, loses PEND, becomes active and is held by t; every other source and every
other part of the state is as before. Otherwise 127 is returned, SPUR counts it, saturating, and nothing else changes.
(R544, R566) -/
def Obligations.ClaimTakesLowestClaimable : Prop :=
  ∀ (s : State) (t : Fin 8) (side : Bool), Up s → Acts (.claim (.thread t) t side) s (fun r u =>
    let can : Fin 96 → Prop := fun n => claimable r t n = true ∧ (intcNow r).newPend.getLsbD n = false
    let open_ : Prop := r.intc.held[t] = none ∧ ∃ n, can n
    (open_ → ∃ n, can n ∧ (∀ k, can k → n ≤ k) ∧ u.result = [wd n.val] ∧
      (∀ k : Fin 96, u.intc.pend.getLsbD k = (r.intc.pend.getLsbD k && k != n)) ∧
      (∀ k : Fin 96, u.intc.act.getLsbD k = (r.intc.act.getLsbD k || k == n)) ∧
      (∀ v : Fin 8, u.intc.held[v] = if v = t then some n else r.intc.held[v]) ∧
      (∀ k : Fin 96, u.intc.apend.getLsbD k = (r.intc.apend.getLsbD k || (k == n && (intcNow r).newEv.getLsbD k))) ∧
      { u.intc with pend := r.intc.pend, act := r.intc.act, apend := r.intc.apend, held := r.intc.held } = intcNow r ∧
      { u with intc := r.intc, result := r.result } = r) ∧
    (¬ open_ → u.result = [127] ∧ (reg u Reg.intc_SPUR).toNat = min 0xFFFF ((reg r Reg.intc_SPUR).toNat + 1) ∧
      RegsBut [Reg.intc_SPUR] r u ∧ { u with regs := r.regs, hw := r.hw, result := r.result } = r))

/-- Thread t writes v to COMPLt. The number 127 is ignored. The number of the source t holds clears its ACT bit and HELD,
and moves its APEND bit to PEND. Any other number is refused: no source changes, INTC.ERR records the thread, the
number written and the number held, and INTC is raised naming thread t. A write by another thread is ignored. (R547,
R560) -/
def Obligations.CompleteReleasesTheHeldSource : Prop :=
  ∀ (s : State) (t v : Fin 8) (w : Word), Up s → Acts (.compl (.thread v) t w) s (fun r u =>
    let n := fld w 0 7
    if v ≠ t ∨ n = 127 then u = r
    else if r.intc.held[t].map (·.val) = some n then
      (∀ k : Fin 96, u.intc.act.getLsbD k = (r.intc.act.getLsbD k && decide (k.val ≠ n))) ∧
      (∀ k : Fin 96, u.intc.pend.getLsbD k = (r.intc.pend.getLsbD k || (decide (k.val = n) && r.intc.apend.getLsbD k))) ∧
      (∀ k : Fin 96, u.intc.apend.getLsbD k = (r.intc.apend.getLsbD k && decide (k.val ≠ n))) ∧
      (∀ x : Fin 8, u.intc.held[x] = if x = t then none else r.intc.held[x]) ∧
      { u.intc with pend := r.intc.pend, act := r.intc.act, apend := r.intc.apend, held := r.intc.held } = intcNow r ∧
      { u with intc := r.intc } = r
    else
      let h := (r.intc.held[t].map (·.val)).getD 127
      u.intc = r.intc ∧ (reg u Reg.intc_ERR).toNat = n ∧ (reg u (Reg.intc_ERR + 1)).toNat = 0x8000 + t.val * 0x100 + h ∧
      u.fcol.raises = r.fcol.raises ++
        [{ cls := clsIntc, detail := wd (t.val * 0x1000 + n), unit := some (.bit ⟨16 + t.val, by omega⟩) }] ∧
      RegsBut [Reg.intc_ERR, Reg.intc_ERR + 1] r u ∧
      { u with regs := r.regs, hw := r.hw, fcol := r.fcol } = r)

/-- A block signals source n. With moderation of its group off, the source has APEND where it is active, else PEND; with
moderation on it has RAW and the group timer runs, PER microseconds from now where it was idle. Every source other
than n and 63 keeps RAW, PEND, ACT and APEND. Only runaway sources are masked. Nothing outside the controller changes
but RUNST and a note of the INTC class. (12_interrupt_controller.md) -/
def Obligations.SignalledSourceHoldsItsEvent : Prop :=
  ∀ (s : State) (dt : Nat) (n : Fin 96), Up s → ActsAfter dt (.intcEvent dt n) s (fun r u =>
    let g : Fin 12 := ⟨n.val / 8, by omega⟩
    let per := regF r (Reg.intc_MOD g) 0 10
    (if per = 0 then (if r.intc.act.getLsbD n then u.intc.apend.getLsbD n = true else u.intc.pend.getLsbD n = true)
     else u.intc.raw.getLsbD n = true ∧ u.intc.modDue[g].isSome = true ∧
       (∀ d, r.intc.modDue[g] = some d → u.intc.modDue[g] = some d)) ∧
    u.intc.act = r.intc.act ∧ u.intc.held = r.intc.held ∧
    (∀ k : Fin 96, k ≠ n → k.val ≠ 63 → u.intc.pend.getLsbD k = r.intc.pend.getLsbD k ∧
      u.intc.apend.getLsbD k = r.intc.apend.getLsbD k ∧ u.intc.raw.getLsbD k = r.intc.raw.getLsbD k) ∧
    (∀ k : Fin 96, r.intc.mask.getLsbD k = true → u.intc.mask.getLsbD k = true) ∧
    RegsBut ((List.range 6).map (fun w => Reg.intc_RUNST w)) r u ∧
    { u with intc := r.intc, regs := r.regs, hw := r.hw, fcol := r.fcol } = r)

/-- A block signals source n, whose events in this window, this one counted, exceed the LIMIT of its group. Where LIMIT is
not 0, n is not 63 and its RUNST bit is 0, the source is masked, its RUNST bit is set, INTC is noted at L0 with detail
0100h + n, and source 63 holds an event. Otherwise no mask and no RUNST bit changes and nothing is noted. The event
counts either way. (R558, R559) -/
def Obligations.RunawaySourceIsMasked : Prop :=
  ∀ (s : State) (dt : Nat) (n : Fin 96), Up s → ActsAfter dt (.intcEvent dt n) s (fun r u =>
    let limit := regF r (Reg.intc_RUN (n.val / 8)) 0 10
    let w := Reg.intc_RUNST (n.val / 16)
    u.intc.counts[n] = r.intc.counts[n] + 1 ∧
    if n.val ≠ 63 ∧ limit ≠ 0 ∧ limit < r.intc.counts[n] + 1 ∧ regBit r w (n.val % 16) = false then
      u.intc.mask.getLsbD n = true ∧ regBit u w (n.val % 16) = true ∧ hasEvent u 63 ∧
      u.fcol.raises = r.fcol.raises ++ [{ cls := clsIntc, detail := wd (0x100 + n.val), note := true }]
    else u.intc.mask = r.intc.mask ∧ u.regs = r.regs ∧ u.fcol = r.fcol)

/-- A write of v to word w of PENDSET, PENDCLR, MASKSET or MASKCLR. The bits that act are the 1 bits of v in that word
whose source the writer may act on: every one for TH0, TH1, the debug master and Waili, those that target it for
TH2-TH7, none for others. MASKSET and MASKCLR set and clear exactly those mask bits and change nothing else. PENDCLR
clears RAW, PEND and APEND of exactly those sources that had no event in this tick, and ACT stays. PENDSET leaves each
of them with APEND where it is active, else PEND. (12_interrupt_controller.md) -/
def Obligations.MaskAndPendWritesActPerBit : Prop :=
  ∀ (s : State) (m : Master) (w : Fin 6) (v : Word), Up s →
    let hit : State → Fin 96 → Bool := fun r n =>
      decide (n.val / 16 = w.val) && v.getLsbD (n.val % 16) && (match m with
        | .thread t => decide (t.val < 2) || (targetOf r n).testBit t
        | .debug => true
        | .waili => true
        | _ => false)
    Acts (.maskset m w v) s (fun r u =>
      (∀ n : Fin 96, u.intc.mask.getLsbD n = (r.intc.mask.getLsbD n || hit r n)) ∧
      { u with intc := { u.intc with mask := r.intc.mask } } = r) ∧
    Acts (.maskclr m w v) s (fun r u =>
      (∀ n : Fin 96, u.intc.mask.getLsbD n = (r.intc.mask.getLsbD n && !hit r n)) ∧
      { u with intc := { u.intc with mask := r.intc.mask } } = r) ∧
    Acts (.pendclr m w v) s (fun r u =>
      (∀ n : Fin 96, let c := hit r n && !(intcNow r).newEv.getLsbD n
        u.intc.raw.getLsbD n = (r.intc.raw.getLsbD n && !c) ∧ u.intc.pend.getLsbD n = (r.intc.pend.getLsbD n && !c) ∧
        u.intc.apend.getLsbD n = (r.intc.apend.getLsbD n && !c)) ∧
      u.intc.act = r.intc.act ∧ u.intc.mask = r.intc.mask ∧ u.intc.held = r.intc.held ∧ { u with intc := r.intc } = r) ∧
    Acts (.pendset m w v) s (fun r u =>
      (∀ n : Fin 96, hit r n = true →
        if r.intc.act.getLsbD n then u.intc.apend.getLsbD n = true else u.intc.pend.getLsbD n = true) ∧
      u.intc.act = r.intc.act ∧ u.intc.held = r.intc.held ∧
      { u with intc := r.intc, regs := r.regs, hw := r.hw, fcol := r.fcol } = r)

/-- When the timer of group g expires, or a WAITING thread is targeted by an unmasked source of the group that is held
back, the group timer is idle afterwards, no source of the group has RAW, and each that had it has APEND where it is
active, else PEND. Where no timer runs, or no such thread waits, nothing changes. The end of a runaway window clears
every count and changes nothing else. Sources of other groups, masks, ACT and everything outside the controller stay.
(12_interrupt_controller.md) -/
def Obligations.ModerationHoldEnds : Prop :=
  ∀ (s : State) (g : Fin 12), Up s →
    let ended : State → State → Prop := fun r u =>
      (∀ h : Fin 12, u.intc.modDue[h] = if h = g then none else r.intc.modDue[h]) ∧
      (∀ n : Fin 96, n.val / 8 = g.val → u.intc.raw.getLsbD n = false ∧ (r.intc.raw.getLsbD n = true →
        if r.intc.act.getLsbD n then u.intc.apend.getLsbD n = true else u.intc.pend.getLsbD n = true)) ∧
      (∀ n : Fin 96, n.val / 8 ≠ g.val → u.intc.raw.getLsbD n = r.intc.raw.getLsbD n ∧
        u.intc.pend.getLsbD n = r.intc.pend.getLsbD n ∧ u.intc.apend.getLsbD n = r.intc.apend.getLsbD n) ∧
      u.intc.act = r.intc.act ∧ u.intc.mask = r.intc.mask ∧ u.intc.held = r.intc.held ∧ { u with intc := r.intc } = r
    ActsAt (fun s => modDueTick s g) (.moderationExpiry g) s (fun r u =>
      (r.intc.modDue[g].isSome = true → ended r u) ∧ (r.intc.modDue[g] = none → u = r)) ∧
    ActsAfter 0 (.moderationBypass g) s (fun r u =>
      let due := ∃ (n : Fin 96) (t : Fin 8), n.val / 8 = g.val ∧ r.intc.raw.getLsbD n = true ∧ r.intc.mask.getLsbD n = false ∧
        (thread r t).st = .waiting ∧ (targetOf r n).testBit t = true
      (due → ended r u) ∧ (¬ due → u = r)) ∧
    ActsAt windowDue .runawayWindow s (fun r u =>
      (∀ n : Fin 96, u.intc.counts[n] = 0) ∧ { u with intc := { u.intc with counts := r.intc.counts } } = r)

/-- A crank edge too close, or too weak on a VR sensor, is no tooth; else the tooth of this tick is pending. A pending
tooth in STOP enters HUNT, elsewhere signals source 7; in HALF or SYNC on the pattern it advances the index, publishes
the tooth angle and the clamped rate, and keeps the state; off the pattern it raises ANGLE and enters HUNT with rate
and speed 0. A stall enters STOP with source 5. A boundary counts and signals source 6. In SYNC a cam edge in the
window confirms, the second outside raises detail 3. PHCMD acts in HALF only, WHEEL is written in SETUP only.
(13_angle_tracker.md) -/
def Obligations.AngleTrackerFollowsItsRules : Prop :=
  ∀ (s : State) (dt : Nat) (peak : Byte) (m : Master) (v : Word), Up s →
    let priv := privileged m = true
    ActsAfter dt (.crankEdge dt peak) s (fun r u =>
      let g := r.ang
      let p := r.now - g.tk
      let off := g.cfg.teeth = 0 ∧ g.dirty = false
      let weak := g.cfg.crkHall = false ∧ peak.toNat < max g.thrCrank (max 1 (regF r Reg.ang_VRCFG 0 8))
      let rel := regF r Reg.ang_TUNE 8 4
      let close := g.edge = true ∧ (p < g.cfg.minper * 16 ∨ (rel ≠ 0 ∧ angPublishes r = true ∧ 16 * p * 65536 < rel * g.spanNext * g.rate))
      if off ∨ weak then u = r
      else regF u Reg.ang_VRPK 8 8 = (if g.cfg.crkHall then 0 else peak.toNat) ∧
        (close → u.ang.pendTooth = g.pendTooth ∧ (reg u Reg.ang_REJCNT).toNat = min 0xFFFF ((reg r Reg.ang_REJCNT).toNat + 1) ∧ hasEvent u 8) ∧
        (¬ close → u.ang.pendTooth = some r.now ∧ u.intc = r.intc ∧ RegsBut [Reg.ang_VRPK] r u) ∧ u.ang.st = g.st ∧ u.ang.rate = g.rate ∧ u.evt = r.evt) ∧
    ActsAfter 0 .tooth s (fun r u =>
      let g := r.ang
      let c := g.cfg
      (g.pendTooth = none → u = r) ∧
      (∀ t, g.pendTooth = some t → u.ang.pendTooth = none ∧
        (g.st = .stop → u.ang.st = .hunt ∧ u.ang.tk = t ∧ u.ang.huntTeeth = 1 ∧ u.ang.edge = true ∧ u.intc = r.intc ∧ u.regs = r.regs) ∧
        (g.st ≠ .stop → hasEvent u 7) ∧
        (g.st = .half ∨ g.st = .sync → g.dirty = false → g.phcmd = none → 0 < c.teeth → c.missing < c.teeth →
          let k := c.teeth - c.missing
          let idx := (g.tidx + 1) % k
          let p := t - g.tk
          let gap := c.missing ≠ 0 ∧ idx = 0
          let wide : Bool := g.pPrev.any (fun p1 => decide ((2 * c.missing + 1) * p1 ≤ 2 * p))
          let fits := c.missing = 0 ∨ g.pPrev = none ∨ (gap ↔ wide = true)
          (fits →
            let ph := if idx = 0 ∧ c.cycle4 = true then !g.ph else g.ph
            let l := if c.cycle4 then 46080 else 23040
            let th := toothSpan r idx
            let q := p * 65536 / max 1 th
            let acc : Int := if gap ∨ g.prevGap = true then 0 else
              g.rPrev.elim 0 (fun rp => ((min 8 (regF r Reg.ang_TUNE 0 4) : Nat) * ((q : Int) - rp)) / 8)
            u.ang.st = g.st ∧ u.ang.tidx = idx ∧ u.ang.tk = t ∧ u.ang.stampTk = t ∧ u.ang.tper = p ∧ u.ang.ph = ph ∧
            u.ang.tang = (c.refang + (g.base + idx) * 23040 / c.teeth + (if ph then 23040 else 0)) % l ∧
            (u.ang.rate : Int) = min (max ((q : Int) + acc) (q / 2 : Nat)) (2 * q : Nat) ∧ u.ang.rPrev = some q ∧ u.ang.cfg = c) ∧
          (¬ fits → u.ang.st = .hunt ∧ u.ang.rate = 0 ∧ u.ang.rpm = 0 ∧ u.ang.tk = t ∧ u.ang.ph = g.ph ∧
            ({ cls := clsAngle, detail := if gap then 2 else 1 } : Raise) ∈ u.fcol.raises.drop r.fcol.raises.length ∧ regF u Reg.ang_LOSS 8 8 = min 255 (regF r Reg.ang_LOSS 8 8 + 1)))) ) ∧
    ActsAfter dt (.camEdge dt peak) s (fun r u =>
      let g := r.ang
      let back := r.modes.returning.filter (· != fbCam)
      let s1 := { r with modes := { r.modes with returning := back } }
      let a := angleNow r
      let x : Int := (((a : Int) - g.cfg.camang + 23040) % 46080) - 23040
      let tol : Int := min 11519 (reg r Reg.ang_CAMTOL).toNat
      let fresh := g.camTaken = false ∧ (g.camLast = none ∨ g.camLast.any (fun t => decide (t + 32 ≤ r.now)) = true)
      (g.cfg.teeth = 0 ∨ camInUse s1 = false → u = s1) ∧
      (0 < g.cfg.teeth → camInUse s1 = true → g.cfg.camHall = true → u.ang.camLast = some r.now ∧
        (¬ fresh → u.ang.st = g.st ∧ u.ang.camOut = g.camOut ∧ regF u Reg.ang_LOSS 0 8 = min 255 (regF r Reg.ang_LOSS 0 8 + 1)) ∧
        (fresh → g.st = .sync → (-tol ≤ x ∧ x ≤ tol) → u.ang.st = .sync ∧ u.ang.camOut = 0 ∧ u.ang.camTaken = true ∧ u.regs = r.regs) ∧
        (fresh → g.st = .sync → ¬ (-tol ≤ x ∧ x ≤ tol) → regF u Reg.ang_LOSS 0 8 = min 255 (regF r Reg.ang_LOSS 0 8 + 1) ∧
          (g.camOut = 0 → u.ang.st = .sync ∧ u.ang.camOut = 1 ∧ u.fcol = r.fcol) ∧
          (0 < g.camOut → u.ang.st = .hunt ∧ u.ang.rate = 0 ∧ Raised r u { cls := clsAngle, detail := 3, unit := some (.bit 34) })))) ∧
    ActsAt stallTick .stallTimeout s (fun r u =>
      if r.ang.st = .stop ∨ r.ang.pendTooth ≠ none ∨ r.now < r.ang.tk + r.ang.cfg.stallt * 160000 then u = r
      else u.ang.st = .stop ∧ u.ang.rate = 0 ∧ u.ang.rpm = 0 ∧ u.ang.ph = r.ang.ph ∧ hasEvent u 5 ∧
        regF u Reg.ang_LOSS 8 8 = (if angSync r then min 255 (regF r Reg.ang_LOSS 8 8 + 1) else regF r Reg.ang_LOSS 8 8)) ∧
    ActsAt boundaryTick .cycleBoundary s (fun r u =>
      let due := angSync r = true ∧ (r.ang.wrapOwed = true ∨
        (r.ang.wrapPend = true ∧ tickReached r (angL r - r.ang.tang) ≤ r.now ∧ angL r < r.ang.tang + r.ang.spanNext))
      (¬ due → u = r) ∧ (due → hasEvent u 6 ∧ (reg32 u Reg.ang_CYCCNT).toNat = min 0xFFFFFFFF ((reg32 r Reg.ang_CYCCNT).toNat + 1) ∧
        u.ang.st = r.ang.st ∧ u.ang.wrapOwed = false ∧ u.ang.tang = r.ang.tang)) ∧
    Acts (.phcmdConfirm m) s (fun r u => u = if priv ∧ r.ang.st = .half then { r with ang := { r.ang with phcmd := some true } } else r) ∧
    Acts (.phcmdFlip m) s (fun r u => u = if priv ∧ r.ang.st = .half then { r with ang := { r.ang with phcmd := some false } } else r) ∧
    Acts (.wheelWrite m v) s (fun r u =>
      let n := fld v 10 6
      let bad := (1 ≤ n ∧ n ≤ 60 ∧ n ≤ fld v 8 2) ∨ (v.getLsbD 6 = true ∧ v.getLsbD 7 = false)
      if priv ∧ r.modes.mode = .setup ∧ ¬ bad then
        (∀ i : Fin 16, (regMask RegRow.rw Reg.ang_WHEEL).getLsbD i = true → (reg u Reg.ang_WHEEL).getLsbD i = v.getLsbD i) ∧
        (r.ang.st = .stop → u.ang.cfg.teeth = (if n ≤ 60 then n else 0) ∧ u.ang.cfg.missing = fld v 8 2 ∧ u.ang.cfg.cycle4 = v.getLsbD 7) ∧
        (r.ang.st ≠ .stop → u.ang.dirty = true ∧ u.ang.cfg = r.ang.cfg)
      else u = r)

/-- An issuer finds the result of its command in its RSLT register: ALLOC takes the lowest free entry above the Kernel's
part; ARM, CANCEL, RELEASE and QUERY are checked for partition, owner and state, ARM for its format and a fenced
target, and a refused one changes no entry. Only an inert entry takes any word, an ARMED one its angle; other writes
count in WIGN. KPART moves in SETUP with nothing live. An entry due in this tick becomes DUE; of the DUE entries the
earliest fires, at most four in a CLK period, its delay is recorded in SLIPMAX and beyond the limit raised; a window
opens first and closes later; a pulse that ends turns its target off. (14_event_table.md) -/
def Obligations.EventTableAnswersAndFires : Prop :=
  ∀ (s : State) (m : Master) (n : Fin 512) (i : Fin 4) (v : Word) (dt : Nat) (pk : Byte) (tgt : BitVec 6), Up s →
    let priv := privileged m = true
    let alien (r : State) : Bool := (match m with | .thread t => !privileged m && entOwn r n != t.val | _ => false)
    let part (r : State) : Prop := n.val < kpart r
    let inert (r : State) : Prop := (ent r n).st = .fired ∨ (ent r n).st = .cancelled
    let answer (u : State) (c : Nat) : Prop := ∀ a, issuerReg m = some a → reg u a = wd (c * 0x1000 + n.val)
    let others (r u : State) : Prop := ∀ k, k ≠ n.val → ent u k = ent r k
    Acts (.evtAlloc m) s (fun r u =>
      let free := (List.range 512).filter (fun k => decide (kpart r ≤ k ∧ (ent r k).st = .free))
      (issuerReg m = none → u = r) ∧ ∀ a, issuerReg m = some a →
        (free = [] → reg u a = 0x1000 ∧ hasEvent u 11 ∧ u.evt = r.evt) ∧
        (∀ k, free.head? = some k → reg u a = wd k ∧ RegsBut [a] r u ∧ u.intc = r.intc ∧ ent u k = { st := .cancelled } ∧
          entWord u k 0 = 0 ∧ entWord u k 1 = 0 ∧ entWord u k 2 = 0 ∧ (entWord u k 3).toNat = ownerOf m * 0x1000 ∧
          ∀ j, j ≠ k → ent u j = ent r j)) ∧
    Acts (.evtArm m n) s (fun r u =>
      let c := if part r then 6 else if alien r = true then 2 else if ¬ inert r then 3
        else if formatOk r (entWord r n 0) (entWord r n 1) (entWord r n 2) (entWord r n 3) = false then 4
        else if targetFenced r n = true then 5 else 0
      if issuerReg m = none then u = r else answer u c ∧ u.evt.words = r.evt.words ∧ others r u ∧
        if c = 0 then (ent u n).st = .armed ∧ (ent u n).ref = r.now ∧ ((ent u n).due.isSome = true ↔ timed r n = true)
        else u.evt = r.evt) ∧
    Acts (.evtCancel m n) s (fun r u =>
      let c := if part r ∧ ¬ priv then 6 else if alien r = true then 2 else if (ent r n).st = .free then 3 else 0
      if issuerReg m = none then u = r else answer u c ∧
        if c = 0 then ent u n = { ent u n with st := .cancelled, opened := false, due := none } ∧
          ∀ p ∈ u.evt.pulses, p.2.2 ≠ n.val
        else u.evt = r.evt) ∧
    Acts (.evtRelease m n) s (fun r u =>
      let c := if part r ∧ ¬ priv then 6 else if alien r = true then 2 else if ¬ inert r then 3 else 0
      if issuerReg m = none then u = r else answer u c ∧ if c = 0 then ent u n = {} else u.evt = r.evt) ∧
    Acts (.evtQuery m n) s (fun r u =>
      let c := if part r ∧ ¬ priv then 6 else if alien r = true then 2 else 0
      if issuerReg m = none then u = r else answer u c ∧ u.evt = r.evt ∧
        if c = 0 then reg u Reg.evt_QSTAT = wd (entCode (ent r n) * 0x1000 + (ent r n).due.isSome.toNat * 0x800 + n.val) ∧
          reg32 u Reg.evt_QDUE = BitVec.ofNat 32 ((ent r n).due.getD 0)
        else reg u Reg.evt_QSTAT = reg r Reg.evt_QSTAT) ∧
    Acts (.entryWrite m n i v) s (fun r u =>
      let own : Bool := privileged m || (match m with | .thread t => entOwn r n == t.val | _ => false)
      if ¬ part r ∧ own = true ∧ inert r then
        entWord u n i = (if i.val = 3 then putFld v 12 4 (entOwn r n) else v) ∧ u.evt.ents = r.evt.ents ∧ u.regs = r.regs
      else if ¬ part r ∧ own = true ∧ (ent r n).st = .armed ∧ i.val = 0 then
        entWord u n 0 = v ∧ (ent u n).st = .armed ∧ (ent u n).ref = r.now ∧ others r u ∧ u.regs = r.regs
      else u.evt = r.evt ∧ (reg u Reg.evt_WIGN).toNat = min 0xFFFF ((reg r Reg.evt_WIGN).toNat + 1)) ∧
    Acts (.kpartWrite m v) s (fun r u =>
      let ok := priv ∧ r.modes.mode = .setup ∧ r.evt.ents.all (fun x => !entLive x.2) = true
      if ok then kpart u = min 512 (fld v 0 10) ∧ u.evt.words = r.evt.words ∧
        ∀ k, ent u k = if min (kpart r) (kpart u) ≤ k ∧ k < max (kpart r) (kpart u) then {} else ent r k
      else u = r) ∧
    ActsAt (fun s => entryDueTick s n) (.entryDue n) s (fun r u =>
      if (ent r n).st = .armed ∧ (ent r n).due ≠ none ∧ timed r n = true then
        ent u n = { ent r n with st := .due, fell := r.now, due := none } ∧ others r u ∧ u.regs = r.regs ∧ u.out = r.out
      else u = r) ∧
    ActsAfter dt (.entryFire dt pk) s (fun r u =>
      let k := if r.evt.fireTick = r.now then r.evt.fired else 0
      (4 ≤ k → u.now = r.now + clkTicks r ∨ firstDue r = none) ∧
      (k < 4 → ∀ e, firstDue r = some e →
        let f := ent r e
        let late := r.now - f.fell
        let window := entAct r e = 4 ∨ entAct r e = 6
        r.evt.ents.any (fun y => y.1 == e && y.2.st == .due &&
          r.evt.ents.all (fun x => x.2.st != .due || decide (y.2.fell ≤ x.2.fell))) = true ∧
        u.evt.fireTick = r.now ∧ u.evt.fired = k + 1 ∧
        (reg u Reg.evt_SLIPMAX).toNat = max (reg r Reg.evt_SLIPMAX).toNat (min 0xFFFF late) ∧
        (0 < regF r Reg.evt_CFG 0 8 → regF r Reg.evt_CFG 0 8 < late →
          u.fcol.raises.any (fun x => x.cls == clsEvent && x.detail == wd (0x1000 + e)) = true) ∧
        (∀ k, k ≠ e → k ≠ entLink r e → (ent u k).st = (ent r k).st) ∧
        (window → f.opened = false → (ent u e).st = .armed ∧ (ent u e).opened = true) ∧
        (¬ window → f.st = .due → (ent u e).st = (if entCyc r e = 0 then .fired else .armed)) ∧
        (entAct r e = 8 → entLv r e = false → reg u (Reg.loop_FIELD (entArg r e % 16)) = entWord r e 2))) ∧
    ActsAt (fun s => entryDueTick s n) (.windowClose n pk) s (fun r u =>
      let ready := (ent r n).st = .armed ∧ (ent r n).due ≠ none ∧ timed r n = true
      ((ent r n).opened = false → u = r) ∧
      ((ent r n).opened = true → ready → firstDue r = none → firedNow r < 4 →
        (entCyc r n = 0 → (ent u n).st = .fired ∧ (ent u n).opened = false) ∧ u.evt.fired = firedNow r + 1)) ∧
    ActsAt (fun s => pulseDue s tgt.toNat) (.pulseEnd tgt pk) s (fun r u =>
      if r.evt.pulses.any (fun p => p.1 == tgt.toNat) = true then
        u.evt.pulses = r.evt.pulses.filter (fun p => p.1 != tgt.toNat) ∧ u.evt.ents = r.evt.ents ∧
        (r.modes.mode ≠ .setup → u.evt.holds = r.evt.holds.filter (fun h => h.1 != tgt.toNat))
      else u = r)

/-- An idle converter starts the waiting request of the highest class: angle, ion, time, software, self-test, but none
that would still run at a knock sample. A conversion that ends is counted and gives its result, CV and NEW, an unread
one setting OVRF; the channel leaves its sequence, whose end signals source 16 or 17 if enabled; an ion sample
continues its evaluation; a self-test conversion its step, and a round that fails sets FAIL, source 22 and a fault. A
time trigger starts a sequence or counts in TMISS; a software write is taken when idle. A knock sample passes the FIR
filter, rounded and clamped, adds to the integral and enters a FIFO of 64, which a popping read empties.
(15_measurement.md) -/
def Obligations.MeasurementRunsByItsRules : Prop :=
  ∀ (s : State) (m : Master) (k : Fin 2) (n : Fin 4) (dt : Nat) (code : BitVec 14) (x : Word) (mask : BitVec 24) (side : Bool), Up s →
    let serves (r : State) (o : Fin 2) : Prop := servedBy r o = some k
    ActsAt (fun s => conversionDue s k) (.conversionEnd k code) s (fun r u =>
      (r.adc.conv[k].run = none → u = r) ∧
      ∀ q, r.adc.conv[k].run = some q →
        u.adc.conv[k].run = none ∧ reg32 u (Reg.adc_SCNT k) = reg32 r (Reg.adc_SCNT k) + 1 ∧
        (2 ≤ q.cls → q.cls ≠ 3 → q.cls ≤ 5 → q.chan < 24 →
          let twin := k = 1 ∧ r.adc.adc0Tick = r.now ∧ r.adc.adc0Chans.getLsbD q.chan = true
          (reg u (Reg.adc_RES q.chan) = if twin then reg r (Reg.adc_RES q.chan) else wd (0x8000 + k.val * 0x4000 + code.toNat)) ∧
          (twin ∨ regBit r (Reg.adc_RES q.chan) 15 = true → regBit u (Reg.adc_OVRF + q.chan / 16) (q.chan % 16) = true)) ∧
        (q.cls = 4 → ∀ w, r.adc.conv[q.owner].timeQ = some w →
          let left := putBit w.mask q.chan false
          u.adc.conv[q.owner].timeQ = (if left = 0 then none else some { w with mask := left }) ∧
          (left = 0 → regBit r Reg.adc_IRQEN (4 * q.owner.val + 1) = true → hasEvent u (Fin.ofNat 96 (16 + q.owner.val)))) ∧
        (q.cls = 5 → ∀ w, r.adc.conv[q.owner].swQ = some w →
          let left := putBit w.mask q.chan false
          u.adc.conv[q.owner].swQ = (if left = 0 then none else some { w with mask := left }) ∧
          (left = 0 → regBit r Reg.adc_IRQEN (4 * q.owner.val + 2) = true → hasEvent u (Fin.ofNat 96 (16 + q.owner.val)))) ∧
        (q.cls = 2 → ∀ w, r.adc.conv[q.owner].angleQ.head? = some w →
          let left := putBit w.mask q.chan false
          u.adc.conv[q.owner].angleQ = (if left = 0 then [] else [{ w with mask := left }]) ++ r.adc.conv[q.owner].angleQ.tail ∧
          (left = 0 → regBit r Reg.adc_IRQEN (4 * q.owner.val) = true → hasEvent u (Fin.ofNat 96 (16 + q.owner.val)))) ∧
        (q.cls = 2 → q.chan = 16 + n.val → regBit r (Reg.adc_ICFG n) 15 = true → r.adc.ion[n] = none → 1 < regF r (Reg.adc_ICFG n) 0 8 →
          u.adc.ion[n].any (fun e => e.vs == [code.toNat] && e.owner == q.owner && e.len == regF r (Reg.adc_ICFG n) 0 8 &&
            e.due == q.start + max (convTicks r) (80 * (regF r (Reg.adc_ICFG n) 8 4 + 1))) = true) ∧
        (q.cls = 3 → q.chan = n.val → ∀ e, r.adc.ion[n] = some e →
          let vs := e.vs.reverse ++ [code.toNat]
          let sum := (vs.map (fun v => v - e.base)).sum
          let onset := vs.findIdx? (fun v => decide (e.thr ≤ v))
          if vs.length < e.len then
            u.adc.ion[n] = some { e with vs := code.toNat :: e.vs, due := q.start + e.period, want := false }
          else u.adc.ion[n] = none ∧ reg32 u (Reg.adc_ISUM n) = BitVec.ofNat 32 sum ∧ hasEvent u 21 ∧
            regBit u (Reg.adc_IPK n) 15 = decide (sum < e.mis * 256) ∧ regBit u (Reg.adc_IPK n) 14 = onset.isSome ∧
            (onset.getD 0 < 256 → regF u (Reg.adc_IIDX n) 8 8 = onset.getD 0)) ∧
        (q.cls = 6 → ∀ t, r.adc.conv[k].test = some t →
          let sum := t.sum + code.toNat
          let want := if t.step = 0 then 512 else if t.step = 1 then 8192 else 15360
          let bad := max 1 (regF r Reg.adc_STCFG 0 8) < max ((sum + 2) / 4) want - min ((sum + 2) / 4) want
          let failed := t.failed.or (if bad then some t.step else none)
          if t.n + 1 < 4 then u.adc.conv[k].test = some { t with n := t.n + 1, sum := sum } ∧ u.intc = r.intc
          else if t.step < 2 then u.adc.conv[k].test = some { step := t.step + 1, failed := failed } ∧ u.intc = r.intc
          else u.adc.conv[k].test = none ∧ u.adc.conv[k].lastRound = r.now ∧ u.adc.conv[k].failed = failed.isSome ∧
            ∀ f, failed = some f → regBit u (Reg.adc_ST k) 15 = true ∧ hasEvent u 22 ∧
              (r.adc.conv[k].failed = false → u.fcol.raises.any (fun y => y.cls == clsAdc && y.detail == wd (0x10 * k.val + f)) = true))) ∧
    ActsAfter dt (.conversionStart dt k) s (fun r u =>
      let angle := ∃ o : Fin 2, serves r o ∧ r.adc.conv[o].angleQ ≠ []
      let ion := ∃ i : Fin 4, r.adc.ion[i].any (fun e => e.want && decide (servedBy r e.owner = some k)) = true
      let time := ∃ o : Fin 2, serves r o ∧ r.adc.conv[o].timeQ ≠ none
      let soft := ∃ o : Fin 2, serves r o ∧ r.adc.conv[o].swQ ≠ none
      let test := r.adc.conv[k].test ≠ none
      let knock := ∃ i : Fin 2, r.adc.knock[i].any (fun w => decide (w.conv = k ∧ w.t0 + w.n * w.period < r.now + convTicks r)) = true
      if r.adc.conv[k].run ≠ none ∨ knock ∨ ¬ (angle ∨ ion ∨ time ∨ soft ∨ test) then u = r
      else u.intc = r.intc ∧ u.evt = r.evt ∧ RegsBut ((List.range 4).map (Reg.adc_ASTAMP 0 + ·)) r u ∧ u.adc.conv[k].run ≠ none ∧
        (∀ q, u.adc.conv[k].run = some q → q.start = r.now ∧
          q.cls = (if angle then 2 else if ion then 3 else if time then 4 else if soft then 5 else 6) ∧
          (q.cls = 2 → ∀ w, r.adc.conv[q.owner].angleQ.head? = some w → q.chan = lowestChan w.mask ∧
            (w.started = false → reg32 u (Reg.adc_ASTAMP q.owner) = BitVec.ofNat 32 r.now)) ∧
          (q.cls ≠ 6 → ∀ t, u.adc.conv[k].test = some t → t.n = 0 ∧ t.sum = 0))) ∧
    ActsAt (fun s => timeTriggerDue s k) (.timeTrigger k) s (fun r u =>
      let per := (reg r (Reg.adc_TPER k)).toNat
      let mask := BitVec.ofNat 24 (reg32 r (Reg.adc_TSEQ k)).toNat
      if per = 0 then u = r
      else u.adc.conv[k].timeDue = r.now + per * 160 * (if adcOut r k = true then 2 else 1) ∧
        if servedBy r k = none ∨ r.adc.conv[k].timeQ ≠ none then
          u.adc.conv[k].timeQ = r.adc.conv[k].timeQ ∧ regF u Reg.adc_DROP 0 8 = min 255 (regF r Reg.adc_DROP 0 8 + 1)
        else u.adc.conv[k].timeQ = (if mask = 0 then none else some { mask := mask, trig := r.now }) ∧ u.regs = r.regs) ∧
    Acts (.swseqWrite m k mask) s (fun r u =>
      u = if threadOrHost m = true ∧ mask ≠ 0 ∧ r.adc.conv[k].swQ = none ∧ servedBy r k ≠ none then
        { r with adc := { r.adc with conv := r.adc.conv.set k { r.adc.conv[k] with swQ := some { mask := mask, trig := r.now } } } } else r) ∧
    ActsAt (fun s => knockDue s k) (.knockSample k x) s (fun r u =>
      (r.adc.knock[k] = none ∨ frozenBlock r 3 = true → u = r) ∧
      (frozenBlock r 3 = false → ∀ w, r.adc.knock[k] = some w →
        let x : Int := min 8191 (max (-8192) x.toInt)
        let xs := (BitVec.ofInt 16 x :: w.xs).take 32
        let sum := ((List.range w.taps).map (fun i => (w.coef.getD i 0).toInt * (xs.getD i 0).toInt)).sum
        let y := min 32767 (max (-32768) ((sum + 0x4000) / 0x8000))
        let full := w.taps ≤ w.n + 1
        u.adc.knock[k] = some { w with
          xs := xs, n := w.n + 1
          ksum := if full then min 0xFFFFFFFF (w.ksum + y.natAbs) else w.ksum
          kn := if full then min 16383 (w.kn + 1) else w.kn } ∧
        u.adc.fifo[k] = (if 64 ≤ r.adc.fifo[k].q.length then { r.adc.fifo[k] with ovf := true }
          else { r.adc.fifo[k] with q := r.adc.fifo[k].q ++ [BitVec.ofInt 16 x] }) ∧
        reg32 u (Reg.adc_SCNT w.conv) = reg32 r (Reg.adc_SCNT w.conv) + 1 ∧ u.intc = r.intc)) ∧
    Acts (.kfifoRead m k side) s (fun r u =>
      u.result = [kfifoWord r.adc.fifo[k]] ∧ u.regs = r.regs ∧
      u.adc.fifo[k] = if isHost m = true ∧ side = false then r.adc.fifo[k] else { q := r.adc.fifo[k].q.tail, ovf := false }) ∧
    ActsAt (fun s => ionDue s n) (.ionSample n) s (fun r u =>
      u.adc.ion[n] = r.adc.ion[n].map (fun e => { e with want := true }) ∧ u.regs = r.regs ∧ u.intc = r.intc ∧ u.evt = r.evt) ∧
    ActsAfter dt (.selftestRoundStart dt k) s (fun r u =>
      let per := regF r Reg.adc_STCFG 8 8
      let idle := r.adc.conv[k].run = none ∧ nextRequest r k = none ∧ r.adc.conv[k].test = none
      if idle ∧ (adcOut r k = true ∨ (per ≠ 0 ∧ r.adc.conv[k].testDue ≤ r.now)) then
        u.adc.conv[k].test = some {} ∧ u.adc.conv[k].testDue = r.now + per * 160000 ∧ u.regs = r.regs
      else u = r) ∧
    ActsAt (fun s => starvedDue s k) (.selftestStarved k) s (fun r u =>
      if adcOut r k = true ∨ regF r Reg.adc_STCFG 8 8 = 0 ∨ r.adc.conv[k].starved = true then u = r
      else u.adc.conv[k].starved = true ∧ Raised r u { cls := clsAdc, detail := wd (0x20 + k.val), note := true } ∧ u.regs = r.regs)

/-- A software command to a stage arrives two ticks after the write; a lone on command turns an idle stage on unless a
rule keeps it OFF, an off turns it off, and of both in one tick the off wins. The maximum dwell and an early short of
an IGN stage take a soft turn-off and set DWELL or SHORT; the peak phase ends, with OPEN or PKTO after its timeout; a
PWM period takes its floor of duty times period; a short or a current limit sets SHORT, a thermal trip OT on every
stage of its bank. A DIAG bit newly set raises OUTPUT and signals the stage's source; SHORT, OT and DWELL latch. A
clear leaves OT of a tripped detector. An open-load round sets OPEN on the stages tested and signals source 29.
(16_output_stages.md, 14_event_table.md) -/
def Obligations.StagesKeepTheirRules : Prop :=
  ∀ (s : State) (m : Master) (n : Fin 4) (k : Fin 2) (i : Fin 16) (dt : Nat) (pk : Byte) (v : Word) (tgt : BitVec 6) (b c : Bool), Up s →
    let sent (on : Bool) (p : Byte) (r u : State) : Prop :=
      u = if threadOrHost m = true ∧ tgt.toNat < 12 then
        { r with out := { r.out with queue := r.out.queue ++ [{ tick := r.now + 2, tgt := tgt.toNat, on := on, peak := p }] } } else r
    let diag (j : Fin 16) (bit : Nat) (r u : State) : Prop :=
      regBit u (Reg.out_DIAG j) bit = true ∧
      (regBit r (Reg.out_DIAG j) bit = false → bit ≠ 5 → hasEvent u (stageSource j) ∧
        Raised r u { cls := clsOutput, detail := wd ((bit + 1) * 0x1000 + j.val), unit := some (stageUnit j) }) ∧
      (1 ≤ bit → bit ≤ 3 → regBit u Reg.out_LATCH j = true)
    let soft (r u : State) : Prop := (stageAt u n).on = false ∧ (stageAt u n).soft = some (r.now + 160000)
    let rest (j : Nat) (r u : State) : Prop := (∀ x : Fin 16, x.val ≠ j → u.out.stages[x] = r.out.stages[x]) ∧ u.out.stepper = r.out.stepper
    (∀ q, s.out.queue.head? = some q → s.out.queue.tail = [] → q.tick ≤ s.now → q.tgt < 12 →
      let g := stageAt s q.tgt
      let u := flushOut s
      u.out.queue = [] ∧ rest q.tgt s u ∧
      (stageAt u q.tgt).on = (if stagePwm s q.tgt = true then g.on
        else q.on && (g.on || (!stageBlocked s q.tgt && g.soft.isNone)))) ∧
    (∀ q, s.out.queue.head? = some q → s.out.queue.tail = [{ q with on := !q.on }] → q.tick ≤ s.now → q.tgt < 12 →
      stagePwm s q.tgt = false → (stageAt (flushOut s) q.tgt).on = false) ∧
    Acts (.swcmdOn m tgt) s (sent true 0) ∧ Acts (.swcmdOff m tgt pk) s (sent false pk) ∧
    ActsAt (fun s => maxDwellDue s n) (.maxDwell n) s (fun r u =>
      if (stageAt r n).on = true then soft r u ∧ diag ⟨n.val, by omega⟩ 3 r u ∧ rest n.val r u else u = r) ∧
    ActsAfter dt (.ignShort dt n) s (fun r u =>
      if (stageAt r n).on = true ∧ r.now - (stageAt r n).onSince ≤ 1600 then
        soft r u ∧ diag ⟨n.val, by omega⟩ 1 r u ∧ rest n.val r u else u = r) ∧
    ActsAt (fun s => softEndDue s n) (.softTurnoffEnd n) s (fun r u =>
      stageAt u n = { stageAt r n with soft := none } ∧ rest n.val r u ∧ u.regs = r.regs ∧ u.fcol = r.fcol) ∧
    ActsAfter dt (.injPeakEnd dt n b c) s (fun r u =>
      let j : Fin 16 := ⟨n.val + 4, by omega⟩
      if (stageAt r j).on = false then u = r
      else stageAt u j = { stageAt r j with peak := false } ∧ rest j.val r u ∧
        (b = true → c = false → stageDiagEn r j = true → diag j 0 r u) ∧
        (b = true → c = true → (stageAt r j).peak = true → diag j 5 r u ∧ u.fcol = r.fcol) ∧
        (b = false → u.regs = r.regs ∧ u.fcol = r.fcol)) ∧
    ActsAt (fun s => pwmPeriodDue s n) (.pwmPeriod n) s (fun r u =>
      let j := n.val + 8
      let f := 10 * max 1 (stageLimit r j % 4096)
      let p := (2 * 160000000 + f) / (2 * f)
      let d := (reg r (Reg.out_PWMD n)).toNat
      let on := if d = 0xFFFF then p else d * p / 65536
      let short := n.val < 2
      let on := if short ∧ on < 320 then 0 else if short ∧ p - on < 320 then p else on
      if stagePwm r j = false ∨ stageBlocked r j = true then u = r
      else (stageAt u j).on = decide (0 < on) ∧ (stageAt u j).offAt = (if on = p then none else some (r.now + on)) ∧
        (stageAt u j).periodDue = r.now + p ∧ rest j r u ∧ u.regs = r.regs) ∧
    ActsAfter dt (.hsdShort dt k) s (fun r u =>
      let j : Fin 16 := ⟨k.val + 10, by omega⟩
      if (stageAt r j).on = true ∧ 1920 ≤ r.now - (stageAt r j).onSince then (stageAt u j).on = false ∧ diag j 1 r u ∧ rest j.val r u
      else u = r) ∧
    ActsAfter dt (.currentLimitShort dt i) s (fun r u =>
      let lsd := 4 ≤ i.val ∧ i.val < 10 ∧ (stageAt r i).on = true
      let bridge := 12 ≤ i.val ∧ i.val < 14 ∧ ((stageAt r i).on = true ∨ stepperRuns r = true)
      if lsd ∨ bridge then diag i 1 r u ∧ u.out = r.out else u = r) ∧
    ActsAfter dt (.overTemperature dt i b) s (fun r u =>
      let own := (4 ≤ i.val ∧ i.val < 10) ∨ (12 ≤ i.val ∧ i.val < 14)
      let of (x : Fin 16) : Prop := if own then x = i else ¬ ((4 ≤ x.val ∧ x.val < 10) ∨ (12 ≤ x.val ∧ x.val < 14))
      (∀ x : Fin 16, u.out.stages[x] = if of x then { r.out.stages[x] with tripped := b } else r.out.stages[x]) ∧
      (b = false → u.regs = r.regs ∧ u.fcol = r.fcol) ∧
      (b = true → ∀ x : Fin 16, of x → (own ∨ stageEnabled r x = true) →
        regBit u (Reg.out_DIAG x) 2 = true ∧ regBit u Reg.out_LATCH x = true)) ∧
    Acts (.diagClear m i v) s (fun r u =>
      (∀ x : Fin 6, regBit u (Reg.out_DIAG i) x =
        (regBit r (Reg.out_DIAG i) x && !(v.getLsbD x && !(hwSetBits r (Reg.out_DIAG i)).getLsbD x &&
          !(x.val == 2 && (stageAt r i).tripped)))) ∧
      u.out = r.out ∧ u.fcol = r.fcol ∧
      RegsBut ([Reg.out_DIAG i, Reg.out_LATCH] : List Nat) r u ∧
      (i.val < 14 → (∀ x : Fin 16, x ≠ i → regBit u Reg.out_LATCH x = regBit r Reg.out_LATCH x) ∧
        (∀ x : Fin 6, 1 ≤ x.val → x.val ≤ 4 → regBit u (Reg.out_DIAG i) x = true → regBit u Reg.out_LATCH i = regBit r Reg.out_LATCH i) ∧
        (regBit r (Reg.out_DIAG i) 1 = true → v = 2 → (hwSetBits r (Reg.out_DIAG i)) = 0 →
          regBit r (Reg.out_DIAG i) 2 = false → regBit r (Reg.out_DIAG i) 3 = false → regBit r (Reg.out_DIAG i) 4 = false →
          regBit u Reg.out_LATCH i = false))) ∧
    ActsAt oltDue (.oltRound v) s (fun r u =>
      let per := regF r Reg.out_OLTCFG 0 8
      if per = 0 then u = r
      else u.out.oltDue = r.now + per * 160000 ∧ hasEvent u 29 ∧ u.out.stages = r.out.stages ∧
        ∀ x : Fin 16, regBit u (Reg.out_DIAG x) 0 = (regBit r (Reg.out_DIAG x) 0 || (v.getLsbD x && oltEligible r x)))

/-- While both bridges may run, a step of a homing counts it down, and a sequencer not homed starts a homing of LIMIT + 8
steps; a homed one moves STEPPOS by one towards STEPTGT clamped to LIMIT, and stops there. The homing that has made
its steps sets STEPPOS to 0 and HOMED. 100 ms after the last step the bridges take the hold duty. A privileged write
of 1 to STEPCMD starts a homing. A coil below 100 mA sets OPEN where the diagnostics are on. While a bridge may not
run, nothing moves. (16_output_stages.md) -/
def Obligations.StepperFollowsItsTarget : Prop :=
  ∀ (s : State) (m : Master) (k : Fin 2) (dt : Nat) (b : Bool), Up s →
    let p (r : State) : Stepper := r.out.stepper
    let runs (r : State) : Prop := stageBlocked r 12 = false ∧ stageBlocked r 13 = false
    let period (r : State) : Nat := max 1 (regF r (Reg.out_CFG 12 + 1) 8 8) * 80000
    let limit (r : State) : Nat := regF r (Reg.out_CFG 12) 0 14
    let homes (r u : State) : Prop := p u = { p r with
        homing := some (limit r + 8), holding := false, moving := false, everHomed := true, stepDue := r.now + period r } ∧
      u.regs = r.regs ∧ u.out.stages = r.out.stages
    ActsAt stepperDue .stepperStep s (fun r u =>
      let pos := regF r Reg.out_STEPPOS 0 14
      let tgt := min (regF r Reg.out_STEPTGT 0 14) (limit r)
      (¬ runs r ∨ (p r).homing = some 0 → u = r) ∧
      (runs r →
        (∀ h, (p r).homing = some h → 0 < h →
          p u = { p r with homing := some (h - 1), lastStep := r.now, stepDue := r.now + period r } ∧ u.regs = r.regs) ∧
        ((p r).homing = none → (p r).homed = false → homes r u) ∧
        ((p r).homing = none → (p r).homed = true →
          if pos = tgt then p u = { p r with moving := false } ∧ u.regs = r.regs
          else regF u Reg.out_STEPPOS 0 14 = (if pos < tgt then pos + 1 else pos - 1) ∧ RegsBut [Reg.out_STEPPOS] r u ∧
            (p u).lastStep = r.now ∧ (p u).holding = false ∧ (p u).stepDue = r.now + period r))) ∧
    Acts (.stepcmdHome m) s (fun r u => if privileged m = true ∧ runs r then homes r u else u = r) ∧
    ActsAfter 0 .homingEnd s (fun r u =>
      if (p r).homing = some 0 then p u = { p r with homing := none, homed := true } ∧ reg u Reg.out_STEPPOS = 0 ∧ RegsBut [Reg.out_STEPPOS] r u
      else u = r) ∧
    ActsAt stepperHoldDue .stepperHold s (fun r u =>
      if runs r ∧ (p r).homing = none then p u = { p r with moving := false, holding := true } ∧ u.regs = r.regs else u = r) ∧
    ActsAfter dt (.bridgeOpenCheck dt k b) s (fun r u =>
      let j := 12 + k.val
      if b = true ∧ regBit r (Reg.out_CFG j) 14 = true ∧ runs r then
        regBit u (Reg.out_DIAG j) 0 = true ∧ u.out = r.out ∧ reg u Reg.out_LATCH = reg r Reg.out_LATCH ∧
        (regBit r (Reg.out_DIAG j) 0 = false → hasEvent u 27 ∧
          Raised r u { cls := clsOutput, detail := wd (0x1000 + j), unit := some (.bit ⟨j, by omega⟩) })
      else u = r)

/-- A commit that is due chooses its source: H in SETUP and in mode H, the LIMP value in LIMP or fenced, in mode A the
full pigeonhole, else the H value late (F7 keeps its value). SEQ advances by 1, SRC and LATE are shown, a used
pigeonhole empties, the value applied is the clamped one, and a late commit counts and signals source 12. A request
writes the inputs, sets REQ and PHPEND and gives the owner's thread event 11, only where R781 allows it. A fill by a
permitted writer with the current SEQ sets FULL and ends the request; any other sets STALE. MREQ registers in RUN, at
once in force with no synchronisation. A Postmark compare that is armed and met disarms and signals its source.
(17_kernel_and_duty_split.md, 23_long_run_and_systems.md) -/
def Obligations.KernelCommitsAndHandsOver : Prop :=
  ∀ (s : State) (m : Master) (k : Fin 8) (n : Fin 4) (pair : Bool) (v : Pair) (w : Word), Up s →
    let a (i : Nat) : Nat := phAddr k n i
    let pend (r : State) : Bool := regBit r (Reg.kern_PHPEND + (4 * k.val + n.val) / 16) ((4 * k.val + n.val) % 16)
    let live (r : State) : Prop := kEn r k = true ∧ kPair r k n = true ∧ angSync r = true ∧ frozenBlock r 2 = false
    let fill (c : Int) : Prop := if k = 1 ∨ k = 5 ∨ k = 7 then -32768 ≤ c ∧ c ≤ 32767 else 0 ≤ c ∧ c ≤ 65535
    ActsAt (fun s => commitTick s k n) (.kernelCommit k n) s (fun r u =>
      let owed := r.kern.owed.contains (k.val, n.val) = true
      let here := inInterval r (commitAngle r k n) = true ∧ r.kern.done.contains (k.val, n.val) = false ∧
        tickReached r (pastTooth r (commitAngle r k n)) ≤ r.now
      let limp := r.modes.mode = .limp ∨ kFenced r k = true
      let full := regBit r (a 6) 15 = true
      let src := if r.modes.mode = .setup then 1 else if limp then 3 else if kModeA r k = false then 1
        else if full then 2 else if k = 7 then 3 else 1
      let late := r.modes.mode ≠ .setup ∧ ¬ limp ∧ kModeA r k = true ∧ ¬ full ∧ k ≠ 7
      (¬ (live r ∧ (owed ∨ here)) → u = r) ∧
      (live r → (owed ∨ here) →
        regF u (a 6) 0 8 = (regF r (a 6) 0 8 + 1) % 256 ∧ regF u (a 6) 10 2 = src ∧ (regBit u (a 6) 13 = true ↔ late) ∧
        regBit u (a 6) 15 = (regBit r (a 6) 15 && decide (src ≠ 2)) ∧ (reg u (a 6)).getLsbD 12 = (reg r (a 6)).getLsbD 12 ∧
        u.kern.owed = r.kern.owed.filter (· != (k.val, n.val)) ∧ (0 < reqLead r k → pend u = false ∧ regBit u (a 6) 14 = false) ∧
        (late → hasEvent u 12 ∧ (reg u (Reg.kern_LATE k)).toNat = min 0xFFFF ((reg r (Reg.kern_LATE k)).toNat + 1)) ∧
        (¬ late → reg u (Reg.kern_LATE k) = reg r (Reg.kern_LATE k)) ∧
        (src = 2 → fill (clampV k (kNum k (reg r (a 4))) r) ∧ reg u (a 7) = BitVec.ofInt 16 (clampV k (kNum k (reg r (a 4))) r)) ∧
        (src = 1 → fill (clampV k (hValue k n r).1.h r) → reg u (a 7) = BitVec.ofInt 16 (clampV k (hValue k n r).1.h r)))) ∧
    ActsAt (fun s => requestTick s k n) (.pigeonholeRequest k n) s (fun r u =>
      let owed := r.kern.owedReq.contains (k.val, n.val) = true
      let here := inInterval r (reqAngle r k n) = true ∧ r.kern.doneReq.contains (k.val, n.val) = false ∧
        tickReached r (pastTooth r (reqAngle r k n)) ≤ r.now
      let owner := fld (reg32 r Reg.kern_PHOWN) (4 * k.val) 4
      let due := live r ∧ 0 < reqLead r k ∧ (owed ∨ here)
      (¬ due → u = r) ∧ (due → reqAllowed r k = false → u.regs = r.regs ∧ u.thr = r.thr) ∧
      (due → reqAllowed r k = true → reg u (a 0) = inRpm r ∧ reg u (a 1) = inLoad r ∧ reg u (a 2) = inTemp r ∧
        pend u = true ∧ regBit u (a 6) 14 = true ∧ regF u (a 6) 0 8 = regF r (a 6) 0 8 ∧ u.kern.fn = r.kern.fn ∧ u.kern.v2 = r.kern.v2 ∧
        (8 ≤ owner → isStopped r (Fin.ofNat 8 owner) = false → (thread u (Fin.ofNat 8 owner)).latch.getLsbD 11 = true))) ∧
    Acts (.pigeonholeFill m k n pair v) s (fun r u =>
      let seq := fld (if pair then highWord v else lowWord v) 0 8
      let ok := phWriter r m k = true ∧ reqAllowed r k = true ∧ regF r (a 6) 0 8 = seq
      if kPair r k n = false then u = r
      else reg u (a 4) = (if pair = true ∧ phWriter r m k = true then lowWord v else reg r (a 4)) ∧
        (if ok then regBit u (a 6) 15 = true ∧ regBit u (a 6) 14 = false ∧ pend u = false ∧
            regBit u (a 6) 12 = regBit r (a 6) 12
          else regBit u (a 6) 12 = true ∧ regBit u (a 6) 15 = regBit r (a 6) 15 ∧ pend u = pend r) ∧
        RegsBut [a 4, a 6, Reg.kern_PHPEND, Reg.kern_PHPEND + 1] r u ∧ u.kern = r.kern ∧ u.intc = r.intc) ∧
    Acts (.mreq m w) s (fun r u =>
      let sel := fld w 8 8
      let old := reg r Reg.kern_MPEND
      if privileged m = false ∨ r.modes.mode ≠ .run then u = r
      else if angSync r = true then
        (∀ i : Fin 8, regBit u Reg.kern_MPEND (8 + i.val) = (sel.testBit i || old.getLsbD (8 + i.val)) ∧
          regBit u Reg.kern_MPEND i = (if sel.testBit i then w.getLsbD i else old.getLsbD i)) ∧
        RegsBut [Reg.kern_MPEND] r u ∧ u.intc = r.intc ∧ u.kern.mreqTick = r.now
      else
        let any := sel ≠ 0 ∨ fld old 8 8 ≠ 0
        (∀ i : Fin 8, regBit u Reg.kern_MODE i = (if sel.testBit i then w.getLsbD i
          else if old.getLsbD (8 + i.val) then old.getLsbD i else regBit r Reg.kern_MODE i)) ∧
        regF u Reg.kern_MODE 8 8 = regF r Reg.kern_MODE 8 8 ∧ (any → reg u Reg.kern_MPEND = 0 ∧ hasEvent u 13)) ∧
    ActsAt (fun s => postDue s n) (.postmarkCompare n) s (fun r u =>
      let met := (r.now + (2 ^ 48 - ((reg32 r (Reg.post_CMPL n)).toNat + (reg r (Reg.post_CMPH n)).toNat * 2 ^ 32))) % 2 ^ 48 < 2 ^ 47
      if regBit r Reg.post_CMPCTL n = true ∧ r.post.from_[n] ≤ r.now ∧ met then
        hasEvent u (Fin.ofNat 96 (89 + n.val)) ∧ regBit u Reg.post_CMPCTL n = false ∧ u.post = r.post ∧
        RegsBut (Reg.post_CMPCTL :: runst) r u
      else u = r)

/-- A printable character joins the edit buffer up to 120, a backspace drops one, 15h all; a bad stop bit or a break
counts and signals source 56; an end of line hands the line over, or answers ER 02, 09 or 05. USR shows its text to
firmware, signals source 54, or 41 for a routed line, and waits; UTX takes at most 128 characters of threads, UEND a
legal code; UTMO without UEND ends in ER 60. A progress line goes out each 50 ms. A routed line leaves for its target,
or is refused by ER 08, 51, 52 or its prefix's error; one that arrives waits or is answered ER 05; an answer line goes
out behind #n and an OK or ER ends the wait; a silent unit is answered ER 50. A character sent leaves WTX, and the
last before a rate change applies it. (18_waili_command_line.md) -/
def Obligations.WailiReceivesRoutesAndSends : Prop :=
  ∀ (s : State) (m : Master) (dt : Nat) (x : Byte) (v : Word) (b : Bool), Up s →
    let w (r : State) : Waili := r.waili
    let tail (c : WCtx) (r : State) (l : List Byte) : List Byte := if c.suffix || strict r then 0x7E :: hexDigits 2 (crc8 l).toNat else []
    let plain (r : State) : Prop := (w r).ubegun = false
    let counted (i lo : Nat) (r u : State) : Prop :=
      regF u (Reg.waili_ERR + i) lo 8 = min 255 (regF r (Reg.waili_ERR + i) lo 8 + 1)
    ActsAfter dt (.wailiCharacter dt x b) s (fun r u =>
      let ends := x = 0x0D ∨ (x = 0x0A ∧ (w r).lastCr = false)
      let typed := if x = 0x09 then 0x20 else x
      let shown := (0x20 ≤ x.toNat ∧ x.toNat ≤ 0x7E) ∨ x = 0x09
      ((w r).on = false → u = r) ∧
      ((w r).on = true → (w u).run = (w r).run ∧ (w u).lastCr = (b && x == 0x0D) ∧
        (b = false → (w u).framing = true ∧ (w u).edit = (w r).edit ∧ counted 1 8 r u ∧ hasEvent u 56) ∧
        (b = true → shown → (w u).hold = (w r).hold ∧ u.regs = r.regs ∧
          (if (w r).edit.length < 120 then (w u).edit = (w r).edit ++ [typed] ∧ (w u).long = (w r).long ∧
            (plain r → (w u).out = (w r).out ++ (if echoOn r then [typed] else []))
           else (w u).edit = (w r).edit ∧ (w u).long = true ∧ (w u).out = (w r).out)) ∧
        (b = true → x = 0x08 ∨ x = 0x7F → (w u).edit = (w r).edit.dropLast ∧ (w u).hold = (w r).hold ∧ u.regs = r.regs) ∧
        (b = true → x = 0x15 → (w u).edit = [] ∧ (w u).long = false ∧ (w u).framing = false ∧ (w u).hold = (w r).hold ∧ u.regs = r.regs) ∧
        (b = true → ends → (w u).edit = [] ∧ (w u).long = false ∧ (w u).framing = false ∧
          ((w r).long = true → (w u).hold = (w r).hold ∧ counted 1 0 r u ∧ hasEvent u 56) ∧
          ((w r).long = false → (w r).framing = true → (w u).hold = (w r).hold ∧ hasEvent u 56) ∧
          ((w r).long = false → (w r).framing = false → (w r).edit = [] → (w u).hold = (w r).hold ∧ u.regs = r.regs) ∧
          ((w r).long = false → (w r).framing = false → (w r).edit ≠ [] → (w r).hold = none → (w u).hold = some (w r).edit ∧ u.regs = r.regs) ∧
          ((w r).long = false → (w r).framing = false → (w r).edit ≠ [] → (w r).hold ≠ none → (w u).hold = (w r).hold ∧ counted 0 0 r u ∧
            (wBusy r = false → strict r = false → sfxRight (w r).edit = false → plain r →
              (w u).out = (w r).out ++ (if echoOn r then [0x0D, 0x0A] else []) ++ codes "ER 05 BUSY" ++ [0x0D, 0x0A]))) ∧
        (b = true → ¬ shown → ¬ ends → x ≠ 0x08 → x ≠ 0x7F → x ≠ 0x15 → u = { r with waili := { w r with lastCr := false } }))) ∧
    ActsAfter dt (.wailiBreak dt) s (fun r u =>
      if (w r).on = false then u = r
      else (w u).edit = [] ∧ (w u).long = false ∧ (w u).framing = false ∧ counted 1 8 r u ∧ hasEvent u 56 ∧ (w u).hold = (w r).hold) ∧
    Acts .usr s (fun r u =>
      (wTake .usr r = none → u = r) ∧
      ∀ q, wTake .usr r = some q → r.modes.bootsu = false →
        let t := usrText q.2.2.1
        let far := q.1.remote.isSome
        (w u).uline = t ∧ (w u).utx = [] ∧ (w u).uend = none ∧ (w u).run = some (.usr, q.1) ∧ (w u).hold = (w q.2.2.2).hold ∧
        (w u).usrDue = r.now + max 1 (reg r Reg.waili_UTMO).toNat * 160000 ∧
        reg u Reg.waili_USRC = wd (0x8000 + far.toNat * 0x4000 + q.1.remote.getD 0 % 64 * 0x100 + t.length) ∧
        (far = true → hasEvent u 41) ∧ (far = false → hasEvent u 54)) ∧
    Acts (.utx m x) s (fun r u =>
      if (match m with | .thread _ => usrHeld r && decide ((w r).utx.length < 128) | _ => false) = true then
        u = usrPump { r with waili := { w r with utx := (w r).utx ++ [x] } } ∧
        (usrRun r = none → (w u).utx = (w r).utx ++ [x] ∧ u.regs = r.regs)
      else u = r) ∧
    Acts (.uend m v) s (fun r u =>
      if (match m with | .thread _ => usrHeld r && (v == 0 || decide (70 ≤ v.toNat ∧ v.toNat ≤ 99)) | _ => false) = true then
        usrHeld u = false ∧ RegsBut (Reg.waili_USRC :: runst) r u ∧
        (∀ c, usrRun r = some c → c.remote = none → plain r → (w r).utx = [] → (w r).out = [] →
          (w u).run = none ∧ (c.own = none → (w u).out =
            (let l := if v = 0 then codes "OK" else codes "ER " ++ hexDigits 1 (v.toNat / 10) ++ hexDigits 1 (v.toNat % 10) ++ codes " FW"
             l ++ tail c r l ++ [0x0D, 0x0A])))
      else u = r) ∧
    ActsAt usrDueTick .nofw s (fun r u =>
      (usrRun r = none ∨ r.now < (w r).usrDue → u = r) ∧
      ∀ c, usrRun r = some c → (w r).usrDue ≤ r.now → usrHeld u = false ∧ (w u).run = none ∧
        (c = {} → strict r = false → plain r → (w r).utx = [] → (w u).out = (w r).out ++ codes "ER 60 NOFW" ++ [0x0D, 0x0A])) ∧
    ActsAt progDueTick .progressLine s (fun r u =>
      let long : Bool := match (w r).run with
        | some (.commit, _) => true
        | some (.flash page _ _, _) => !page
        | some _ => false
        | none => !(w r).targets.isEmpty && (w r).inner.isNone
      let c := ((w r).run.map Prod.snd).getD { suffix := (w r).tctx.suffix }
      if (w r).progDue ≤ r.now ∧ long = true then
        (w u).progDue = (w r).progDue + 8000000 ∧ u.regs = r.regs ∧ (w u).run = (w r).run ∧ (w u).targets = (w r).targets ∧
        (plain r → c.own = none → c.remote = none →
          (w u).out = (w r).out ++ codes "..." ++ tail c r (codes "...") ++ [0x0D, 0x0A])
      else u = r) ∧
    ActsAfter dt (.wtxCharacterSent dt) s (fun r u =>
      if (w r).out = [] then u = r
      else usrRun r = none → (w u).out = (w r).out.tail ∧ (w u).hold = (w r).hold ∧ u.intc = r.intc ∧
        (∀ p, (w r).divPend = some p → if p.2 ≤ 1 then (w u).divEff = p.1 ∧ reg u Reg.waili_DIV = wd p.1 ∧ (w u).divPend = none
          else (w u).divPend = some (p.1, p.2 - 1) ∧ u.regs = r.regs) ∧
        ((w r).divPend = none → u.regs = r.regs ∧ (w u).divPend = none)) ∧
    Acts .routedLine s (fun r u =>
      let line := (wFront r).bind (fun f => if f.1 = .hold then (wText r .hold f.2.1).toOption.map (fun l => (f.2.2, l)) else none)
      (line = none ∨ r.modes.bootsu = true → u = r) ∧
      ∀ q, line = some q → r.modes.bootsu = false →
        let p := (routeOf q.2).1
        let rest := (routeOf q.2).2
        ((tokens q.2).head?.any (fun t => t.head? == some 0x40) = false → u = r) ∧
        ((tokens q.2).head?.any (fun t => t.head? == some 0x40) = true → (w u).hold = none ∧ u.regs = r.regs ∧
          (∀ n own, (prefixTok p).toOption = some (some n) → routeRefused r rest = none → loopAddr r = some own →
            (n = own → (w u).inner = some (rest, { q.1 with own := some own }) ∧ u.loop = r.loop) ∧
            (n ≠ own → u.loop.tx = r.loop.tx ++ BitVec.ofNat 8 (0x80 + n) :: rest ++ [0x0D] ∧
              (w u).targets = [(n, r.now + max 1 (regF r Reg.waili_RTMO 0 8) * 160000)] ∧ (w u).progDue = r.now + 16000000 ∧ (w u).out = (w r).out)) ∧
          (∀ own, (prefixTok p).toOption = some none → routeRefused r rest = none → loopAddr r = some own →
            u.loop.tx = r.loop.tx ++ 0x7F :: rest ++ [0x0D] ∧ (w u).inner = some (rest, { q.1 with own := some own }) ∧
            (w u).targets.map Prod.fst = (List.range (regF r Reg.loop_RINFO 0 7)).filter (· != own)) ∧
          (∀ n, (prefixTok p).toOption = some n → ∀ e, routeRefused r rest = some e → u.loop = r.loop ∧ (w u).targets = (w r).targets ∧
            (w u).inner = (w r).inner))) ∧
    Acts .routedLineReceived s (fun r u =>
      (routedIn r = none → u = r) ∧
      ∀ l, routedIn r = some l → u.loop.inbox = r.loop.inbox.erase l ∧ (w u).hold = (w r).hold ∧
        (r.modes.bootsu = false → (w r).on = true → (w r).rhold = none → (w u).rhold = some (l.unit, l.chars) ∧ u.loop.tx = r.loop.tx) ∧
        (r.modes.bootsu = false → (w r).on = true → (w r).rhold ≠ none → (w u).rhold = (w r).rhold ∧ counted 0 0 r u ∧
          u.loop.tx = r.loop.tx ++ BitVec.ofNat 8 (0xC0 + l.unit) :: codes "ER 05 BUSY" ++ [0x0D])) ∧
    Acts .routedAnswer s (fun r u =>
      (answerIn r = none → u = r) ∧
      ∀ l, answerIn r = some l → u.loop.inbox = r.loop.inbox.erase l ∧ u.regs = r.regs ∧
        (awaited r l.unit = false → (w u).out = (w r).out ∧ (w u).targets = (w r).targets) ∧
        (awaited r l.unit = true →
          let line := 0x23 :: dec l.unit ++ 0x20 :: l.chars
          let final := l.chars = codes "OK" ∨ l.chars.take 3 = codes "ER "
          (plain r → (w u).out = (w r).out ++ line ++ tail (w r).tctx r line ++ [0x0D, 0x0A]) ∧
          (final → (w u).targets = (w r).targets.filter (fun e => e.1 != l.unit)) ∧
          (¬ final → (w u).targets.map Prod.fst = (w r).targets.map Prod.fst ∧ (w u).speak = some l.unit))) ∧
    ActsAt silentTick .nounit s (fun r u =>
      if (w r).run ≠ none ∨ (w r).inner ≠ none then u = r
      else u.regs = r.regs ∧ u.loop = r.loop ∧
        (∀ e ∈ (w r).targets, e ∈ (w u).targets ↔ ¬ (e.2 ≤ r.now ∧ r.loop.inbox.any (fun l => l.unit == e.1 && decide (0xC0 ≤ l.code.toNat)) = false)) ∧
        (∀ e, (w r).targets.head? = some e → (w r).targets.tail = [] → e.2 ≤ r.now → r.loop.inbox = [] → plain r →
          let line := 0x23 :: dec e.1 ++ codes " ER 50 NOUNIT"
          (w u).out = (w r).out ++ line ++ tail (w r).tctx r line ++ [0x0D, 0x0A]))

/-- The next line being that command: ECHO, STRICT and BAUD of a routed line answer ER 52; a command outside its modes ER
08 or 07; data and flash commands under the debug lock ER 40; a wrong number of arguments ER 06. Otherwise ID, PING,
HELP, BOOT, STAT, MODE, CFG STAT, FAULT and FL ID answer with their lines and OK; ECHO and STRICT set their bit; BAUD
waits for its OK to leave. RD, RDX, RD32 and CFG GET print what is read, or ER 20 or 22 with the address; WR, WR32 and
CFG SET write, or ER 20 or 21. MODE with a mode, CFG COMMIT, ABORT and the FL commands start their request and wait; a
window that FL may not write answers ER 23, a commit in progress ER 32. The poll of an FL command that ends lets it
take effect and answer OK; one that exceeds FTMO answers ER 24. (18_waili_command_line.md) -/
def Obligations.WailiCommandsAnswer : Prop :=
  ∀ (s : State) (dt : Nat), Up s →
    let lines (c : WCtx) (ls : List (List Byte)) (r : State) : State := ls.foldl (fun s l => respond c l s) r
    let row (k : Kw) (modes : Nat) (lock loc : Bool) (lo hi : Nat) (P : WCtx → List Tok → State → State → Prop) (r u : State) : Prop :=
      (wTake k r = none → u = r) ∧
      ∀ q, wTake k r = some q →
        let e := if loc = true ∧ (q.1.own ≠ none ∨ q.1.remote ≠ none) then 52
          else if (modes = 1 ∨ modes = 2) ∧ r.modes.bootsu = true then 8
          else if modes = 2 ∧ r.modes.mode ≠ .setup then 7
          else if modes = 3 ∧ r.modes.bootsu = false ∧ r.modes.mode ≠ .setup then 7
          else if lock = true ∧ regBit r Reg.sys_OTPSTAT 14 = true ∧ r.chisel.locked = true then 40 else 0
        (e ≠ 0 → u = lines q.1 [erText e []] q.2.2.2) ∧
        (e = 0 → ¬ (lo ≤ q.2.1.length ∧ q.2.1.length ≤ hi) → commitBusy r = false → u = lines q.1 [erText 6 []] q.2.2.2) ∧
        (e = 0 → lo ≤ q.2.1.length → q.2.1.length ≤ hi → P q.1 q.2.1 q.2.2.2 u)
    let nat (ts : List Tok) (i lo hi : Nat) : Option Nat := (natIn lo hi (argAt ts i)).toOption
    let at_ (ts : List Tok) : Option Nat := (addrTok (argAt ts 0)).toOption
    let flag (r : State) (lo len : Nat) : List Byte := dec (regF r Reg.sys_ARMSTAT lo len)
    Acts .idCmd s (row .id 0 false false 0 0 (fun c _ r u => u = lines c [codes "4816h 3Ah " ++ hexH 2 siliconRev, codes "OK"] r)) ∧
    Acts .ping s (row .ping 0 false false 0 0 (fun c _ r u => u = lines c [codes "OK"] r)) ∧
    Acts .help s (row .help 0 false false 0 0 (fun c _ r u => u = lines c [codes (helpText r), codes "OK"] r)) ∧
    Acts .echo s (row .echo 0 false true 1 1 (fun c ts r u => ∀ n, nat ts 0 0 1 = some n →
      u = setRegBit Reg.waili_CTL 0 (n == 1) (respond c (codes "OK") r))) ∧
    Acts .strict s (row .strict 0 false true 1 1 (fun c ts r u => ∀ n, nat ts 0 0 1 = some n →
      u = setRegBit Reg.waili_CTL 1 (n == 1) (respond (if n = 1 then { c with suffix := true } else c) (codes "OK") r))) ∧
    Acts .baud s (row .baud 0 false true 1 1 (fun c ts r u => ∀ n, nat ts 0 6 65535 = some n →
      (onBackup r = true → u = lines c [erText 7 []] r) ∧
      (onBackup r = false → u.waili.out = (respond c (codes "OK") r).waili.out ∧ u.waili.divPend = some (n, u.waili.out.length) ∧ u.regs = r.regs))) ∧
    Acts .bootCmd s (row .boot 0 false false 0 0 (fun c _ r u => u = lines c [codes "BOOT " ++ hexH 4 (reg r Reg.sys_BOOTSTAT).toNat
      ++ codes " IMGERR " ++ dec (regF r Reg.sys_BOOTSTAT 0 4) ++ codes " STEP " ++ dec (regF r Reg.sys_BOOTSTAT 4 4), codes "OK"] r)) ∧
    Acts .statCmd s (row .stat 1 false false 0 0 (fun c _ r u => u = lines c [codes "MODE " ++ codes (modeName r.modes.mode) ++ codes " SYNC "
      ++ codes (angName r.ang.st) ++ codes " RPM " ++ dec (peek r Reg.ang_RPM).toNat ++ codes " FSW " ++ hexH 4 (reg r Reg.fcol_FSW).toNat,
      codes "OK"] r)) ∧
    Acts .rd s (row .rd 0 true false 1 2 (fun c ts r u => ∀ a, at_ ts = some a →
      (ts.length = 1 → u = (match memRead .waili false a 1 r with
        | (.ok ws, r) => lines c [addrText a ++ codes " " ++ hexH 4 (ws.headD 0).toNat, codes "OK"] r
        | (.refused _, r) => lines c [erText 20 (codes " " ++ addrText a)] r
        | (.parity, r) => lines c [erText 22 (codes " " ++ addrText a)] r)) ∧
      (∀ n, nat ts 1 1 256 = some n → ts.length = 2 → u = wWords c addrText [] 0 a n r))) ∧
    Acts .rdx s (row .rdx 1 true false 1 1 (fun c ts r u => ∀ a, at_ ts = some a → u = (match memRead .waili true a 1 r with
        | (.ok ws, r) => lines c [addrText a ++ codes " " ++ hexH 4 ((ws.getD 1 0).toNat * 0x10000 + (ws.getD 0 0).toNat), codes "OK"] r
        | (.refused _, r) => lines c [erText 20 (codes " " ++ addrText a)] r
        | (.parity, r) => lines c [erText 22 (codes " " ++ addrText a)] r))) ∧
    Acts .rd32 s (row .rd32 1 true false 1 1 (fun c ts r u => ∀ a, at_ ts = some a → u = (match memRead .waili false a 2 r with
        | (.ok ws, r) => lines c [addrText a ++ codes " " ++ hexH 8 ((ws.getD 1 0).toNat * 0x10000 + (ws.getD 0 0).toNat), codes "OK"] r
        | (.refused _, r) => lines c [erText 20 (codes " " ++ addrText a)] r
        | (.parity, r) => lines c [erText 22 (codes " " ++ addrText a)] r))) ∧
    Acts .wr s (row .wr 1 true false 2 9 (fun c ts r u => ∀ a, at_ ts = some a →
      ∀ vs, (numsIn (-32768) 65535 (ts.drop 1)).toOption = some vs →
        u = (match memWrites .waili a (vs.map (BitVec.ofInt 16)) r with
        | (none, r) => lines c [codes "OK"] r
        | (some (b, .collision), r) => lines c [erText 21 (codes " " ++ addrText b)] r
        | (some (b, _), r) => lines c [erText 20 (codes " " ++ addrText b)] r))) ∧
    Acts .wr32 s (row .wr32 1 true false 2 2 (fun c ts r u => ∀ a, at_ ts = some a → ∀ n, nat ts 1 0 0xFFFFFFFF = some n →
        u = (match memWrite .waili a [wd n, wd (n / 0x10000)] r with
        | (.ok, r) => lines c [codes "OK"] r
        | (.collision, r) => lines c [erText 21 (codes " " ++ addrText a)] r
        | (_, r) => lines c [erText 20 (codes " " ++ addrText a)] r))) ∧
    Acts .wailiMode s (row .mode 1 false false 0 0 (fun c _ r u => u = lines c [codes "MODE " ++ codes (modeName r.modes.mode)
      ++ (if r.modes.pend then codes " PEND" else []) ++ codes " REFUSE " ++ dec (regF r Reg.sys_MODESTAT 0 4), codes "OK"] r)) ∧
    Acts .wailiModeRun s (row .modeRun 1 false false 0 0 (fun c _ r u =>
      u.modes = (modeRequest true .run r).modes ∧ u.waili.run.any (fun q => q.2 == c) = true ∧ u.waili.out = (modeRequest true .run r).waili.out)) ∧
    Acts .wailiModeSetup s (row .modeSetup 1 false false 0 0 (fun c _ r u =>
      u.modes = (modeRequest true .setup r).modes ∧ u.waili.run.any (fun q => q.2 == c) = true ∧ u.waili.out = (modeRequest true .setup r).waili.out)) ∧
    Acts .wailiModeLimp s (row .modeLimp 1 false false 0 0 (fun c _ r u =>
      u.modes = (modeRequest true .limp r).modes ∧ u.waili.run.any (fun q => q.2 == c) = true ∧ u.waili.out = (modeRequest true .limp r).waili.out)) ∧
    Acts .cfgStat s (row .cfgStat 1 false false 0 0 (fun c _ r u => u = lines c [codes "SLOT " ++ codes (slotText (regF r Reg.sys_ARMSTAT 14 2))
      ++ codes " GENA " ++ dec (reg32 r Reg.sys_GENA).toNat ++ codes " GENB " ++ dec (reg32 r Reg.sys_GENB).toNat ++ codes " WCV " ++ flag r 13 1
      ++ codes " DIRTY " ++ flag r 12 1 ++ codes " RSNA " ++ flag r 4 4 ++ codes " RSNB " ++ flag r 0 4, codes "OK"] r)) ∧
    Acts .cfgGet s (row .cfgGet 1 false false 1 2 (fun c ts r u => ∀ a, nat ts 0 0 4095 = some a →
      (ts.length = 1 → u = (match memRead .waili false (0x16000 + a) 1 r with
        | (.ok ws, r) => lines c [codes "W " ++ dec (0x16000 + a - 0x16000) ++ codes " " ++ hexH 4 (ws.headD 0).toNat, codes "OK"] r
        | (.refused _, r) => lines c [erText 20 (codes " " ++ addrText (0x16000 + a))] r
        | (.parity, r) => lines c [erText 22 (codes " " ++ addrText (0x16000 + a))] r)) ∧
      (∀ n, nat ts 1 1 256 = some n → ts.length = 2 → 4096 < a + n → u = lines c [erText 6 []] r))) ∧
    Acts .cfgSet s (row .cfgSet 2 false false 2 9 (fun c ts r u =>
      (commitBusy r = true → u = lines c [erText 32 []] r) ∧
      (commitBusy r = false → ∀ a, nat ts 0 0 4095 = some a → ∀ vs, (numsIn (-32768) 65535 (ts.drop 1)).toOption = some vs →
        if 4096 < a + vs.length then u = lines c [erText 6 []] r
        else u = (match memWrites .waili (0x16000 + a) (vs.map (BitVec.ofInt 16)) r with
          | (none, r) => lines c [codes "OK"] r
          | (some (b, .collision), r) => lines c [erText 21 (codes " " ++ addrText b)] r
          | (some (b, _), r) => lines c [erText 20 (codes " " ++ addrText b)] r)))) ∧
    Acts .cfgCheck s (row .cfgCheck 1 false false 0 0 (fun c _ r u =>
      if commitBusy r = true then u = lines c [erText 32 []] r
      else u = lines c [codes "RSN " ++ dec (wcCheck r).1 ++ codes " " ++ codes (reasonName (wcCheck r).1),
        if (wcCheck r).1 = 0 then codes "OK" else erText 30 []] (wcCheck r).2)) ∧
    Acts .cfgCommit s (row .cfgCommit 2 false false 0 0 (fun c _ r u =>
      if commitBusy r = true then u = lines c [erText 32 []] r
      else u.flash = (armCommit .waili r).flash ∧ u.waili.run = some (.commit, c) ∧ u.waili.progDue = r.now + 8000000 ∧ u.waili.out = r.waili.out)) ∧
    Acts .faultCmd s (row .fault 0 false false 0 0 (fun c _ r u => u = lines c ((codes "FSW " ++ hexH 4 (reg r Reg.fcol_FSW).toNat) ::
      r.fcol.hist.zipIdx.map (fun p => codes "H " ++ dec p.2 ++ codes " " ++ hexH 12 p.1.stamp.toNat ++ codes " "
        ++ codes (classNames.getD p.1.cls.val "") ++ codes " L" ++ dec p.1.level ++ codes " " ++ hexH 4 p.1.detail.toNat) ++ [codes "OK"]) r)) ∧
    Acts .faultClr s (row .faultClr 1 false false 1 1 (fun c ts r u =>
      (classNames.findIdx? (fun n => codes n == argAt ts 0) = none → u = lines c [erText 6 []] r) ∧
      ∀ i, classNames.findIdx? (fun n => codes n == argAt ts 0) = some i →
        u = lines c [codes "OK"] (fswWrite .waili (wd (2 ^ i)) (ackWrite .waili (wd (2 ^ i)) r)) ∧
        (handledNow r i = false → regBit u Reg.fcol_FSW i = false ∧ regBit u Reg.fcol_ACK i = false))) ∧
    Acts .abortCmd s (row .abort 1 false false 1 2 (fun c ts r u => ∀ p, (abortTok ts).toOption = some p →
      if abortPending r 8 = true then u = lines c [erText 6 []] r
      else u.fcol = (abortRequest 8 p.1 p.2 r).fcol ∧ u.waili.run = some (.abort p.1 p.2, c) ∧ u.waili.out = (abortRequest 8 p.1 p.2 r).waili.out)) ∧
    Acts .flId s (row .flId 0 true false 0 0 (fun c _ r u => u = lines c [codes "SFDP " ++ dec (regF r Reg.sys_BOOTSTAT 10 1) ++ codes " SIZE "
      ++ dec (flashCap r / 1024) ++ codes " ERASE " ++ dec (eraseSize r) ++ codes " ADDR " ++ dec (if regBit r Reg.flash_STAT 7 then 4 else 3),
      codes "OK"] r)) ∧
    Acts .flRd s (row .flRd 0 true false 1 2 (fun c ts r u => ∀ f, nat ts 0 0 0xFFFFFFFF = some f →
      ∀ n, (if ts.length = 1 then some 16 else nat ts 1 1 64) = some n →
        if flashCap r < f + n then u = lines c [erText 6 []] r
        else u.waili.run = some (.flashRead f n, c) ∧ u.waili.out = r.waili.out ∧ u.flash.cells = r.flash.cells ∧ u.regs = r.regs)) ∧
    Acts .flEr s (row .flEr 3 true false 1 1 (fun c ts r u => ∀ f, nat ts 0 0 0xFFFFFFFF = some f →
      let a := eraseBase r f
      let n := eraseSize r
      if flashCap r < f + 1 then u = lines c [erText 6 []] r
      else if r.modes.bootsu = false ∧ ¬ ((reg32 r Reg.cour_FWIN).toNat ≤ a ∧ a + n ≤ (reg32 r Reg.cour_FWLIM).toNat + 1) then
        u = lines c [erText 23 []] r
      else u.waili.run = some (.flash false a [], c) ∧ u.waili.out = r.waili.out ∧ u.flash.cells = r.flash.cells ∧ u.regs = r.regs)) ∧
    Acts .flPg s (row .flPg 3 true false 2 2 (fun c ts r u => ∀ f, nat ts 0 0 0xFFFFFFFF = some f → ∀ d, (dataTok (argAt ts 1)).toOption = some d →
      if f / 256 ≠ (f + d.length - 1) / 256 ∨ flashCap r < f + d.length then u = lines c [erText 6 []] r
      else if r.modes.bootsu = false ∧ ¬ ((reg32 r Reg.cour_FWIN).toNat ≤ f ∧ f + d.length ≤ (reg32 r Reg.cour_FWLIM).toNat + 1) then
        u = lines c [erText 23 []] r
      else u.waili.run = some (.flash true f d, c) ∧ u.waili.out = r.waili.out ∧ u.flash.cells = r.flash.cells ∧ u.regs = r.regs)) ∧
    ActsAfter dt (.wailiFlashPollEnd dt true) s (fun r u =>
      let due := r.waili.polling = true ∧ r.flash.answers = true ∧ r.now ≤ r.waili.pollDue
      (¬ due → u = r) ∧
      ∀ q, (match r.waili.run with | some (.flash page a d, c) => some (page, a, d, c) | _ => none) = some q → due →
        (r.waili.pollPre = true → u.flash.cut = none ∧ u.waili.run = r.waili.run ∧ u.waili.pollPre = false ∧ u.waili.out = r.waili.out) ∧
        (r.waili.pollPre = false → u.waili.run = none ∧ u.waili.polling = false ∧
          u.flash.cells = (if q.1 then flashProgram q.2.1 q.2.2.1 r else flashErase q.2.1 (eraseSize r) r).flash.cells ∧
          u.waili.out = (respond q.2.2.2 (codes "OK") r).waili.out)) ∧
    ActsAt (fun s => s.waili.pollDue + 1) (.wailiFlashPollEnd dt false) s (fun r u =>
      let due := r.waili.polling = true ∧ r.waili.pollDue < r.now
      (¬ due → u = r) ∧
      ∀ q, r.waili.run = some q → due → u.waili.run = none ∧ u.waili.polling = false ∧
        u.waili.out = (respond q.2 (erText 24 []) r).waili.out)

/-- A round starts at the head with SEQ + 1, its N, TURN0 and CRC, and the next is due T(N) later. A header with a good
CRC gives N, TURN0 and, with N at or below the address, address NONE; the letter falls due in the unit's slot; a bad
one gives neither letter nor epoch. A back leg with a valid header sets SEQ and N, signals source 36 and the threads
of NOTIFY, a damaged slot source 37 and LERR; its valid letters go to the mirror; a watched partner missing three
times is LOST with source 38. With no back leg in time the unit folds and counts; past 3 x T(N) it is SILENT with
source 39 and detail 0200h; RMISS counts periods. A unit takes the first empty slot, or NONE and OVER. A second head
sets HCONF, raised once. The epoch stamps Postmark, angle and speed. (19_linric_loop.md) -/
def Obligations.LoopKeepsItsRounds : Prop :=
  ∀ (s : State) (m : Master) (dt turn : Nat) (b : Bool) (h0 h1 h2 h3 t0 t1 v : Word) (slots : List (Vector Word 8)) (slot : Option (Fin 64)), Up s →
    let l (r : State) : Loop := r.loop
    let h : Header := ⟨h0, h1, h2, h3⟩
    let n := fld h1 0 7
    let okh := crc16 [h0, h1, h2] = h3
    let head (r : State) : Prop := regBit r Reg.sys_STRAP 15 = true
    let runs (r : State) : Prop := (l r).started = true ∧ onBackup r = false
    let first (a : Nat) : Nat := 16 * (64 + 128 * a)
    let cnt (w lo : Nat) (r u : State) : Prop := regF u (Reg.loop_ERRA + w) lo 8 = min 255 (regF r (Reg.loop_ERRA + w) lo 8 + 1)
    ActsAt roundDue .roundStart s (fun r u =>
      let enum := (l r).enumPend
      let n := if enum then 64 else (l r).headN
      let seq := ((l r).seq + 1) % 65536
      let rst := 0 < (l r).rstTx
      (¬ runs r ∨ ¬ head r ∨ (l r).enumWait = true → u = r) ∧
      (runs r → head r → (l r).enumWait = false →
        (l u).seq = seq ∧ (l u).n = n ∧ (l u).nextStart = r.now + 16 * (452 + 128 * n) ∧ (l u).enumPend = false ∧ (l u).enumWait = enum ∧
        (l u).outStart = some r.now ∧ (l u).letterDue = (loopAddr r).map (fun a => r.now + first a - 1) ∧
        regF u Reg.loop_RINFO 0 7 = n % 128 ∧ reg u Reg.loop_TURN0 = wd (headTurn0 r) ∧
        u.result.take 3 = [wd seq, wd (enum.toNat * 0x8000 + (if rst then 0x4000 + regF r Reg.loop_RSTREQ 0 7 * 128 else 0) + n), wd (headTurn0 r)] ∧
        u.result.drop 3 = [crc16 (u.result.take 3)] ∧ (l u).rstTx = (l r).rstTx - 1 ∧
        regBit u Reg.loop_RSTREQ 15 = (regBit r Reg.loop_RSTREQ 15 && decide ((l r).rstTx ≠ 1)))) ∧
    ActsAfter dt (.outLegStart dt h0 h1 h2 h3) s (fun r u =>
      let kept := (loopAddr r).filter (fun a => decide (a < n))
      (¬ runs r ∨ head r → u = r) ∧
      (runs r → ¬ head r → ¬ okh → (l u).letterDue = none ∧ (l u).epochDue = none ∧ (l u).outStart = none ∧ loopAddr u = loopAddr r ∧
        reg u Reg.loop_RINFO = reg r Reg.loop_RINFO) ∧
      (runs r → ¬ head r → okh → reg u Reg.loop_TURN0 = h2 ∧ regF u Reg.loop_RINFO 0 7 = n ∧ loopAddr u = kept ∧
        (l u).seq = h0.toNat ∧ (l u).n = n ∧ (l u).outStart = some r.now ∧ (l u).provis = none ∧
        (l u).letterDue = (if h1.getLsbD 15 then none else kept.map (fun a => r.now + 64 + first a - 1)) ∧
        (l u).trailer = (if kept.isSome then 0 else if regBit r Reg.loop_STAT 10 then 0x4000 else 0x8000))) ∧
    ActsAfter dt (.backLeg dt b turn h0 h1 h2 h3 slots t0 t1) s (fun r u =>
      let mine := slots.take n
      let turned := (l r).fold = true ∧ b = true
      let base := fld (reg32 r Reg.loop_MBASE) 3 17 * 8
      (¬ runs r ∨ (¬ turned ∧ (l r).outStart = none) → u = r) ∧
      (runs r → turned → u = { r with loop := { l r with
        dnGood := if okh ∧ h0.toNat = (l r).seq then (l r).dnGood + 1 else 0 } }) ∧
      (runs r → ¬ turned → (l r).outStart ≠ none → (l u).backSeen = true ∧
        (¬ okh → u.regs = r.regs ∧ u.intc = r.intc ∧ u.mem = r.mem ∧ (l u).goodBacks = 0 ∧
          ((l r).fold = false → (l u).badBacks = (l r).badBacks + 1 ∧ (l u).foldNext = decide (1 ≤ (l r).badBacks))) ∧
        (okh → reg u Reg.loop_SEQ = h0 ∧ regF u Reg.loop_RINFO 0 7 = n ∧ (l u).lastBack = r.now ∧ hasEvent u 36 ∧
          (l u).missDue = r.now + 16 * (452 + 128 * n) ∧
          (∀ t : Fin 8, regBit r Reg.loop_NOTIFY t = true → isStopped r t = false → (thread u t).latch.getLsbD 14 = true) ∧
          (mine.zipIdx.any (fun p => !slotEmpty p.1 && !letterOk p.2 p.1) = true → hasEvent u 37 ∧ cnt 1 8 r u) ∧
          (h1.getLsbD 15 = true → hasEvent u 40) ∧
          (∀ a : Fin 64, ∀ ws, mine[a.val]? = some ws → letterOk a ws = true → (reg32 r Reg.loop_MBASE).getLsbD 31 = true →
            (l r).dropMirror = false → ∀ i : Fin 8, let x := base + 8 * a.val + i.val
              isSpad x = true → refusal r .loop x 1 true = none → wLogNow r = [] →
                spadGet u x = (if i.val = 7 then h0 else ws[i])) ∧
          (∀ a : Fin 64, h1.getLsbD 15 = false → loopAddr r ≠ some a.val → watchBit r a = true → lostBit r a = false → 2 ≤ (l r).miss[a] →
            (mine[a.val]?.map (letterOk a)).getD false = false → lostBit u a = true ∧ hasEvent u 38)))) ∧
    ActsAt foldDue .foldTimeout s (fun r u =>
      let lost := 1024 * 16 < r.now - (l r).outStart.getD 0
      if ¬ runs r ∨ (l r).outStart = none ∨ (l r).fold = true ∨ (l r).backSeen = true then u = r
      else (l u).fold = true ∧ cnt 0 8 r u ∧ reg u Reg.loop_TURN = wd (r.now - (l r).outStart.getD 0) ∧
        (l u).outStart = (if lost then none else (l r).outStart) ∧ u.intc = r.intc) ∧
    ActsAfter dt (.enumeration dt slot) s (fun r u =>
      (¬ runs r ∨ head r ∨ (l r).enum = false ∨ (l r).provis ≠ none ∨ (l r).outStart = none → u = r) ∧
      (runs r → ¬ head r → (l r).enum = true → (l r).provis = none → ∀ t, (l r).outStart = some t →
        (∀ a, slot = some a → (l u).provis = some a.val ∧ (l u).letterDue = some (t + 64 + first a - 1) ∧ regBit u Reg.loop_STAT 10 = false ∧
          loopAddr u = loopAddr r) ∧
        (slot = none → loopAddr u = none ∧ regBit u Reg.loop_STAT 10 = true ∧ (l u).provis = none))) ∧
    Acts (.loopEnumerate m) s (fun r u =>
      u = if privileged m = true ∧ head r then { r with loop := { l r with enumPend := true } } else r) ∧
    ActsAfter dt (.secondHead dt) s (fun r u =>
      if ¬ runs r ∨ ¬ head r then u = r
      else regBit u Reg.loop_STAT 8 = true ∧ (l u).hconf = true ∧ RegsBut [Reg.loop_STAT] r u ∧
        u.fcol.raises = r.fcol.raises ++ (if (l r).hconf then [] else [{ cls := clsPartner, detail := 0x0400 }])) ∧
    ActsAt silentDue .silent s (fun r u =>
      if (l r).started = false ∨ regBit r Reg.loop_STAT 12 = true ∨ r.now < silentDue r then u = r
      else regBit u Reg.loop_STAT 12 = true ∧ hasEvent u 39 ∧ (l u).goodBacks = 0 ∧
        u.fcol.raises.any (fun x => x == { cls := clsPartner, detail := 0x0200 }) = true) ∧
    ActsAt epochTick .loopEpoch s (fun r u =>
      if (l r).epochDue = none then u = r
      else reg32 u Reg.loop_EPOST = BitVec.ofNat 32 r.now ∧ reg u Reg.loop_ERPM = wd r.ang.rpm ∧ reg u Reg.loop_EANG = wd (angleNow r) ∧
        (l u).epochDue = none ∧ (l u).epv = angSync r ∧ RegsBut [Reg.loop_EPOST, Reg.loop_EPOST + 1, Reg.loop_ERPM, Reg.loop_EANG] r u) ∧
    Acts (.rstreq m v) s (fun r u =>
      if privileged m = true ∧ head r then regF u Reg.loop_RSTREQ 0 7 = fld v 0 7 ∧ RegsBut [Reg.loop_RSTREQ] r u ∧
        (l u).rstTx = (if v.getLsbD 15 then 2 else (l r).rstTx)
      else u = r) ∧
    ActsAt rmissDue .rmissPeriod s (fun r u =>
      let n := if (l r).everBack then max 1 (regF r Reg.loop_RINFO 0 7) else 64
      if (l r).started = false ∨ r.now < (l r).missDue then u = r
      else cnt 1 0 r u ∧ (l u).missDue = r.now + 16 * (452 + 128 * n) ∧ (l u).goodBacks = 0 ∧ u.intc = r.intc)

/-- MCTL takes its options in OFF only, and a running mode only with a legal timing on the main clock; OFF clears every
request with ABT. A valid frame goes to the first matching object that is not full or may be overwritten: data, DLC,
stamp, FULL, RCNT, source 42 or 46; else it is lost and counted. A request that breaks a rule sets RFS; a cancelled
one ends with ABT unless it is being sent; a success clears it, sets TXDONE and stamps; a failed attempt under ONESHOT
or a cancel ends with ABT. An error is recorded, counted and signalled, and changes TEC or REC; above 255 the bus is
off, or MODE under BOHOLD. A protocol exception counts. Integration and recovery end as said; a recovered controller
has its counters at 0. (20_can_and_kline.md) -/
def Obligations.CanTakesSendsAndCountsErrors : Prop :=
  ∀ (s : State) (m : Master) (k : Fin 2) (dt : Nat) (v : Word) (p : Pair) (id : BitVec 29) (ide rtr fdf brs esi px dp tx sp : Bool) (dlc : BitVec 4)
      (data : List Byte) (delay : BitVec 7) (code : BitVec 3), Up s →
    let c (r : State) : Can := r.can[k]
    let ctl := canBase k
    let busst := canBase k + 6
    let mode (r : State) : Nat := regF r ctl 13 3
    let pend (r : State) (j : Fin 32) : Bool := (reg32 r (canBase k + 0x10)).getLsbD j
    let abt (r : State) (j : Fin 32) : Bool := regBit r (objAt k j 1) 9
    let w0 (r : State) (j : Fin 32) (i : Nat) : Bool := regBit r (objAt k j 0) i
    let src (i : Nat) : Fin 96 := Fin.ofNat 96 (i + 4 * k.val)
    let up1 (a : Nat) (r u : State) : Prop := (reg u a).toNat = min 0xFFFF ((reg r a).toNat + 1)
    let ends (r : State) : Prop := regBit r ctl 9 = true ∨ (c r).cancelled = true
    let err (dp : Bool) (x : Nat) (r u : State) : Prop :=
      regF u busst (if dp then 4 else 0) 3 = x ∧ up1 (canBase k + 0x0A) r u ∧ hasEvent u (src 44)
    Acts (.canModeWrite m k v) s (fun r u =>
      let n := fld v 13 3
      if privileged m = false then u = r
      else (k = 0 → u.plinth.cstby = v.getLsbD 12 ∧ regBit u ctl 12 = v.getLsbD 12) ∧
        (mode r ≠ 0 → regF u ctl 7 5 = regF r ctl 7 5) ∧ (mode r = 0 → regF u ctl 7 5 = fld v 7 5 ∧ u.can[otherConv k] = r.can[otherConv k]) ∧
        (mode r ≠ 0 → n ≠ 0 → mode u = mode r ∧ u.can = r.can) ∧
        (mode r ≠ 0 → n = 0 → mode u = 0 ∧ (c u).cur = none ∧ (c u).integrating = false ∧ (c u).tec = (c r).tec ∧ (c u).rec_ = (c r).rec_ ∧
          ∀ j : Fin 32, pend u j = false ∧ (pend r j = true → abt u j = true)) ∧
        (mode r = 0 → 1 ≤ n → n ≤ 3 →
          if canConfigOk r k = true then mode u = n ∧ (c u).integrating = !(c r).busOff ∧ (c u).recovering = (c r).busOff
          else mode u = 0 ∧ regBit u busst 13 = true ∧ u.can = r.can) ∧
        (mode r = 0 → n = 0 ∨ 3 < n → mode u = 0 ∧ u.can = r.can)) ∧
    ActsAfter dt (.canIntegrated dt k) s (fun r u =>
      if (c r).integrating = false then u = r
      else (c u).integrating = false ∧ (c u).tec = (c r).tec ∧ (c u).rec_ = (c r).rec_ ∧ (canState r k ≠ canState u k → hasEvent u (src 45))) ∧
    ActsAfter dt (.busOffRecovered dt k) s (fun r u =>
      if (c r).recovering = false then u = r
      else (c u).recovering = false ∧ (c u).tec = 0 ∧ (c u).rec_ = 0 ∧ (canState r k ≠ canState u k → hasEvent u (src 45))) ∧
    ActsAfter dt (.canFrameReceived dt k id ide rtr fdf brs esi dlc data) s (fun r u =>
      let f : CanFrame := ⟨id, ide, rtr, fdf, brs, esi, dlc, data⟩
      let len := if rtr then 0 else dlcBytes fdf dlc.toNat
      let fits (j : Fin 32) : Bool := w0 r j 15 && !w0 r j 14 && w0 r j 13 == ide && w0 r j 10 == rtr && decide (len ≤ objCap j) &&
        ((BitVec.ofNat 29 (frameId f) ^^^ (reg32 r (objAt k j 2)).setWidth 29) &&& (reg32 r (objAt k j 4)).setWidth 29) == 0
      let free (j : Fin 32) : Bool := !regBit r (objAt k j 1) 15 || w0 r j 8
      let on := canOnBus r k = true ∧ canMode r k ≠ 3
      (¬ on → u = r) ∧ (on → fdf = true → regBit r ctl 11 = false → err false 3 r u) ∧
      (on → fdf = false ∨ regBit r ctl 11 = true →
        ((c r).rec_ ≤ 127 → (c u).rec_ = (c r).rec_ - 1) ∧ (127 < (c r).rec_ → 119 ≤ (c u).rec_ ∧ (c u).rec_ ≤ 127) ∧
        (∀ j, (List.finRange 32).find? (fun j => fits j && free j) = some j →
          let a := objAt k j 1
          regBit u a 15 = true ∧ regBit u a 14 = (regBit r a 14 || regBit r a 15) ∧ regF u a 4 4 = (regF r a 4 4 + 1) % 16 ∧
          regF u a 0 4 = dlc.toNat ∧ regBit u a 13 = esi ∧ regBit u a 12 = fdf ∧ regBit u a 11 = brs ∧
          reg32 u (objAt k j 6) = BitVec.ofNat 32 r.now ∧
          (∀ i : Fin 64, i.val < len → regF u (objAt k j (8 + i.val / 2)) (8 * (i.val % 2)) 8 = (data.getD i 0).toNat) ∧
          (w0 r j 9 = true → hasEvent u (src 42)) ∧ reg u (canBase k + 9) = reg r (canBase k + 9)) ∧
        (∀ j, (List.finRange 32).find? (fun j => fits j) = some j → (List.finRange 32).find? (fun j => fits j && free j) = none →
          regBit u (objAt k j 1) 14 = true ∧ up1 (canBase k + 9) r u) ∧
        ((List.finRange 32).find? (fun j => fits j) = none → RegsBut runst r u))) ∧
    Acts (.txreq m k p) s (fun r u =>
      let bad (j : Fin 32) : Bool := !w0 r j 15 || !w0 r j 14 || (w0 r j 12 && !regBit r ctl 11) ||
        (w0 r j 11 && (!w0 r j 12 || !regBit r ctl 10)) || (w0 r j 10 && w0 r j 12) ||
        decide (objCap j < dlcBytes (w0 r j 12) (regF r (objAt k j 0) 0 4))
      if canWriter m = false then u = r
      else u.intc = r.intc ∧ ∀ j : Fin 32, pend u j = (pend r j || (p.getLsbD j && !bad j)) ∧
        (p.getLsbD j = true → pend r j = false → bad j = true → regBit u (objAt k j 1) 10 = true)) ∧
    Acts (.txcan m k p) s (fun r u =>
      if canWriter m = false then u = r
      else u.intc = r.intc ∧ ∀ j : Fin 32, pend u j = (pend r j && !(p.getLsbD j && decide ((c r).cur ≠ some j))) ∧
        (p.getLsbD j = true → pend r j = true → if (c r).cur = some j then (c u).cancelled = true else abt u j = true)) ∧
    ActsAfter dt (.canTxDone dt k delay) s (fun r u =>
      ((c r).cur = none → u = r) ∧
      ∀ j, (c r).cur = some j → pend u j = false ∧ regBit u (canBase k + 0x14 + j.val / 16) (j.val % 16) = true ∧
        (mode r ≠ 3 → reg32 u (objAt k j 6) = BitVec.ofNat 32 r.now) ∧ (c u).tec = (c r).tec - 1 ∧ (w0 r j 9 = true → hasEvent u (src 43)) ∧
        (w0 r j 12 = true → w0 r j 11 = true → regBit r (canBase k + 4) 7 = true → reg u (canBase k + 8) = wd delay.toNat)) ∧
    ActsAfter dt (.canArbitrationLost dt k) s (fun r u =>
      ((c r).cur = none → u = r) ∧
      ∀ j, (c r).cur = some j → (c u).busy = true ∧ (c u).cur = none ∧ (c u).tec = (c r).tec ∧ u.intc = r.intc ∧
        (ends r → pend u j = false ∧ abt u j = true) ∧ (¬ ends r → u.regs = r.regs)) ∧
    ActsAfter dt (.canError dt k px dp code tx sp) s (fun r u =>
      let plain := px = false ∧ code ≠ 0 ∧ code ≠ 7 ∧ (tx = true → (c r).cur ≠ none)
      let tec := if tx = true ∧ sp = false then (c r).tec + 8 else (c r).tec
      let on := canOnBus r k = true
      (¬ on ∨ (px = false ∧ ¬ plain) → u = r) ∧
      (on → px = true → regBit r ctl 7 = true → err false 3 r u) ∧
      (on → px = true → regBit r ctl 7 = false → (c u).integrating = true ∧ up1 (canBase k + 0x0B) r u ∧ hasEvent u (src 45)) ∧
      (on → plain → err dp code.toNat r u ∧ (c u).tec = tec ∧
        (c u).rec_ = (if tx = true then (c r).rec_ else min 255 ((c r).rec_ + if sp then 8 else 1)) ∧
        (tx = true → ends r → ∀ j, (c r).cur = some j → pend u j = false ∧ abt u j = true) ∧
        (255 < tec → if regBit r ctl 8 = true then mode u = 0 ∧ (c u).busOff = true else (c u).recovering = true)))

/-- A byte written to TXD enters the FIFO of 16 unless it is full or a helper runs. A byte sent leaves it: with ECHOSUP a
wrong or broken echo counts, flushes and signals source 53; without, the echo is received. A received byte enters the
RX FIFO with FE and signals source 50, or is lost with ROVF; a framing error counts and signals source 53. RXD gives
the oldest byte and pops it, but for a host that does not ask for the side effect. A helper starts while the interface
is on and none runs; its end, or a cancel with result 06h, signals source 52; a tester's 5-baud init leaves DIV and
KB, an ECU's KIND and ADR. (20_can_and_kline.md) -/
def Obligations.KlineMovesItsBytes : Prop :=
  ∀ (s : State) (m : Master) (dt bt : Nat) (b kb1 kb2 adr res : Byte) (fe five side : Bool), Up s →
    let k (r : State) : Kline := r.kline
    let on (r : State) : Prop := regBit r Reg.kline_CTL 15 = true
    let kept (r u : State) : Prop := (k u).tx = (k r).tx ∧ (k u).helper = (k r).helper
    let took (q : List Byte) (b : Byte) (r u : State) : Prop := (k u).tx = q ∧
      ((k r).rx.length < 16 → (k u).rx = (k r).rx ++ [wd (0x8000 + fe.toNat * 0x4000 + b.toNat)] ∧ hasEvent u 50) ∧
      (16 ≤ (k r).rx.length → (k u).rx = (k r).rx ∧ regBit u Reg.kline_STAT 7 = true) ∧
      (fe = true → hasEvent u 53 ∧ regF u Reg.kline_ERRC 0 8 = min 255 (regF r Reg.kline_ERRC 0 8 + 1))
    Acts (.txd m b) s (fun r u =>
      u = if threadOrHost m = true ∧ (k r).helper = none ∧ (k r).tx.length < 16 then { r with kline := { k r with tx := (k r).tx ++ [b] } } else r) ∧
    ActsAfter dt (.klineByteSent dt b fe) s (fun r u =>
      (¬ on r ∨ (k r).helper ≠ none ∨ (k r).tx = [] → u = r) ∧
      ∀ x, (k r).tx.head? = some x → on r → (k r).helper = none →
        let q := (k r).tx.tail
        (q = [] → hasEvent u 51) ∧
        (if regBit r Reg.kline_CTL 13 = true then (k u).rx = (k r).rx ∧
          (if b = x ∧ fe = false then (k u).tx = q ∧ reg u Reg.kline_ERRC = reg r Reg.kline_ERRC
          else (k u).tx = [] ∧ hasEvent u 53 ∧ hasEvent u 51 ∧ regF u Reg.kline_ERRC 8 8 = min 255 (regF r Reg.kline_ERRC 8 8 + 1))
        else took q b r u)) ∧
    ActsAfter dt (.klineByteReceived dt b fe) s (fun r u =>
      if on r ∧ (k r).helper = none then took (k r).tx b r u else u = r) ∧
    Acts (.rxd m side) s (fun r u =>
      let pops := isHost m = false ∨ side = true
      let lost := (k r).lostAt.any (fun x => x.1 == r.now) = true ∧ (k r).rx.length = 16
      u.result = [(k r).rx.headD 0] ∧ kept r u ∧
      (¬ pops → k u = k r ∧ u.regs = r.regs) ∧
      (pops → ¬ lost → (k u).rx = (k r).rx.tail ∧ u.regs = r.regs) ∧
      (pops → lost → ∀ x, (k r).lostAt = some x → (k u).rx = (k r).rx.tail ++ [x.2] ∧ regBit u Reg.kline_STAT 7 = false ∧ hasEvent u 50)) ∧
    Acts (.klineFast m) s (fun r u =>
      u = if threadOrHost m = true ∧ on r ∧ (k r).helper = none then { r with kline := { k r with helper := some false } } else r) ∧
    Acts (.kline5baud m) s (fun r u =>
      u = if threadOrHost m = true ∧ on r ∧ (k r).helper = none then { r with kline := { k r with helper := some true } } else r) ∧
    Acts (.klineCancel m) s (fun r u =>
      if threadOrHost m = true ∧ (k r).helper ≠ none then (k u).helper = none ∧ regF u Reg.kline_ISTAT 0 8 = 6 ∧ hasEvent u 52 ∧
        (k u).tx = (k r).tx ∧ (k u).rx = (k r).rx ∧ RegsBut (Reg.kline_ISTAT :: runst) r u
      else u = r) ∧
    ActsAfter dt (.klineInitEnd dt five res bt kb1 kb2 adr) s (fun r u =>
      let tester := regBit r Reg.kline_CTL 14 = true
      let other := tester ∧ (k r).helper ≠ some five
      ((k r).helper ≠ none → other → u = r) ∧
      ((k r).helper = none → (k r).cancelAt ≠ some r.now → u = r) ∧
      (((k r).helper ≠ none ∧ ¬ other) ∨ ((k r).helper = none ∧ (k r).cancelAt = some r.now) →
        (k u).helper = none ∧ regF u Reg.kline_ISTAT 0 8 = res.toNat ∧ ((k r).helper ≠ none → hasEvent u 52) ∧
        (tester → five = true → res ≠ 1 → res ≠ 2 → res ≠ 5 → reg u Reg.kline_DIV = wd ((bt + 8) / 16)) ∧
        (tester → five = true → res = 0 ∨ res = 4 → reg u Reg.kline_KB = kb2 ++ kb1) ∧
        (¬ tester → regF u Reg.kline_ISTAT 13 2 = (if five then 2 else 1) ∧ (five = true → regF u Reg.kline_ADDR 0 8 = adr.toNat)) ∧
        (k u).tx = (k r).tx ∧ (k u).rx = (k r).rx))

/-- A handled raise has the level of its class and unit, one more when it repeats unacknowledged, at least 3 for TH0, TH1
or the second converter; it enters the history of 16, signals source 1, and at level 1 FSW, LV and source 0; at 2 it
fences its unit, at 3 it forces LIMP, at 4 SETUP. ACK, FSW and HCLR act for a privileged master bit by bit, never on a
class handled in the tick. A service by TH0 or TH1 restarts the watchdog; half the period later source 2 comes once.
ABCMD is ignored while the requester's request is pending; else it is refused, is done at once at rest, or is
registered; reaching the end gives every requester ABORTED and event 15. DUMP writes words 0 to 767 with word 0 clear;
its end writes the CRC, 444Ch and SEQ. (21_faults_abort_dead_letter.md, 05_modes_and_fencing.md) -/
def Obligations.FaultsEscalateAndAbortsReport : Prop :=
  ∀ (s : State) (m : Master) (v : Word) (kind : Fin 8) (idx : Fin 512), Up s →
    let f (r : State) : Fcol := r.fcol
    let fsw (r : State) (c : Nat) : Bool := regBit r Reg.fcol_FSW c
    let ack (r : State) (c : Nat) : Bool := regBit r Reg.fcol_ACK c
    let now (r : State) (c : Nat) : Bool := (hwSetBits r Reg.fcol_FSW).getLsbD c
    let abrslt (q : Nat) : Nat := 0x44820 + q
    let out (u : State) (q k o i : Nat) : Prop := (reg u (abrslt q)).toNat = k * 0x1000 + o * 0x200 + i
    let event15 (r u : State) (q : Nat) : Prop := q < 8 → isStopped r (thrIdx q) = false → (thread u (thrIdx q)).latch.getLsbD 15 = true
    Acts .faultHandle s (fun r u =>
      let rs := (f r).raises
      (rs = [] → u = r) ∧
      ((f r).hist.length ≤ 16 → (f u).hist.length = min 16 ((f r).hist.length + rs.length)) ∧
      reg u Reg.fcol_HGEN = reg r Reg.fcol_HGEN + wd rs.length ∧
      (∀ c : Fin 16, (∀ x ∈ rs, x.cls ≠ c) → fsw u c.val = fsw r c.val ∧ lvOf u c.val = lvOf r c.val ∧ ack u c.val = ack r c.val) ∧
      ∀ x ∈ rs, rs.length = 1 →
        let b := max (polOf r x.cls) x.bmin
        let rep := x.note = false ∧ fsw r x.cls.val = true ∧ ack r x.cls.val = false
        let h0 := if x.note = true then 0 else if rep then min 4 (max b (lvOf r x.cls.val) + 1) else b
        let th01 := x.unit = some (.bit 16) ∨ x.unit = some (.bit 17)
        let second := (x.unit = some (.bit 32) ∧ fenceBit r 33 = true) ∨ (x.unit = some (.bit 33) ∧ fenceBit r 32 = true)
        let h := if 2 ≤ h0 ∧ (th01 ∨ second) then max h0 3 else h0
        let fen := 2 ≤ h ∧ x.unit ≠ none ∧ ¬ th01 ∧ ¬ second ∧ ∀ i : Fin 48, x.unit = some (.bit i) → fenceBit r i.val = false
        let e : HistEntry := { stamp := BitVec.ofNat 48 r.now, cls := x.cls, esc := decide rep, level := h, fen := decide fen, detail := x.detail }
        (f u).hist = ((f r).hist ++ [e]).drop (if 16 ≤ (f r).hist.length then 1 else 0) ∧ hasEvent u 1 ∧
        (16 ≤ (f r).hist.length → regF u Reg.fcol_HSTAT 8 8 = min 255 (regF r Reg.fcol_HSTAT 8 8 + 1)) ∧
        (1 ≤ h → fsw u x.cls.val = true ∧ lvOf u x.cls.val = max h (lvOf r x.cls.val) ∧ hasEvent u 0) ∧
        (h = 0 → fsw u x.cls.val = fsw r x.cls.val ∧ lvOf u x.cls.val = lvOf r x.cls.val) ∧
        (fen → ∀ i : Fin 48, x.unit = some (.bit i) → fenceBit u i.val = true) ∧
        (¬ fen → ∀ i : Fin 48, fenceBit u i.val = fenceBit r i.val) ∧
        (h = 4 → u.modes.mode = .setup) ∧ (h = 3 → r.modes.mode = .run → u.modes.mode = .limp) ∧ (h < 3 → u.modes.mode = r.modes.mode)) ∧
    Acts (.fswAck m v) s (fun r u =>
      u.fcol = r.fcol ∧ RegsBut [Reg.fcol_ACK] r u ∧
      ∀ c : Fin 16, ack u c.val = (ack r c.val || (privileged m && v.getLsbD c.val && fsw r c.val && !now r c.val))) ∧
    Acts (.fswClear m v) s (fun r u =>
      u.fcol = r.fcol ∧ ∀ c : Fin 16, if privileged m = true ∧ v.getLsbD c.val = true ∧ now r c.val = false then
          fsw u c.val = false ∧ ack u c.val = false ∧ lvOf u c.val = 0
        else fsw u c.val = fsw r c.val ∧ ack u c.val = ack r c.val ∧ lvOf u c.val = lvOf r c.val) ∧
    Acts (.hclr m) s (fun r u =>
      if privileged m = true then (f u).hist = [] ∧ regF u Reg.fcol_HSTAT 8 8 = 0 ∧ RegsBut [Reg.fcol_HSTAT] r u ∧
        (f u).raises = (f r).raises ∧ (f u).wdDue = (f r).wdDue ∧ (f u).aborts = (f r).aborts ∧ (f u).dump = (f r).dump
      else u = r) ∧
    Acts (.wdsvc m) s (fun r u =>
      let period := (reg r Reg.fcol_WDCFG).toNat % 1024 * 160000
      (m ≠ .thread 0 → m ≠ .thread 1 → u = r) ∧
      ((f r).wdDue = none → r.chisel.wdLeft = none → u = r) ∧
      (m = .thread 0 ∨ m = .thread 1 →
        (∀ d, (f r).wdDue = some d → if r.now < d then (f u).wdDue = some (r.now + period) ∧ (f u).wdEarly = false else u = r) ∧
        ((f r).wdDue = none → r.chisel.wdLeft ≠ none → u.chisel.wdLeft = some period ∧ (f u).wdEarly = false))) ∧
    ActsAt wdEarlyDue .watchdogEarly s (fun r u =>
      let half := (reg r Reg.fcol_WDCFG).toNat % 1024 * 160000 / 2
      ((f r).wdDue = none → u = r) ∧
      ∀ d, (f r).wdDue = some d → if (f r).wdEarly = true ∨ r.now < d - half then u = r
        else (f u).wdEarly = true ∧ hasEvent u 2 ∧ (f u).wdDue = some d ∧ RegsBut runst r u) ∧
    Acts (.abcmd m v) s (fun r u =>
      let k := fld v 12 4
      let i := fld v 0 9
      (requester m = none → u = r) ∧
      ∀ q : Fin 9, requester m = some q.val →
        let pending := regF r (abrslt q.val) 9 3 = 1
        let own := (k = 1 ∧ i = q.val) ∨ (k = 2 ∧ (chanOwner r (thrIdx i)).val = q.val) ∨ (k = 5 ∧ kpart r ≤ i ∧ entOwn r i = q.val)
        let refused := [0, 8, 8, 1, 2, 512, 1, 2].getD k 0 ≤ i ∨ (k = 1 ∧ (thread r (thrIdx i)).st = .halted) ∨
          (2 ≤ q.val ∧ q.val < 8 ∧ ¬ own)
        let waits := k = 1 ∧ i = 0 ∧ (f r).dump ≠ none
        let same (a : AbortReq) : Bool := a.kind == k && a.idx == i
        (pending → u = r) ∧
        (¬ pending → refused → out u q.val k 4 i ∧ u.fcol = r.fcol ∧ u.thr = r.thr ∧ RegsBut [abrslt q.val] r u) ∧
        (¬ pending → ¬ refused → waits → out u q.val 1 1 0 ∧ (f u).aborts = (f r).aborts ∧ u.thr = r.thr ∧
          (f u).abortWait = (f r).abortWait ++ [{ kind := 1, idx := 0, reqs := [q.val] }]) ∧
        (¬ pending → ¬ refused → ¬ waits → (f r).aborts.any same = true →
          out u q.val k 1 i ∧ u.thr = r.thr ∧ ∀ a ∈ (f u).aborts, same a = true → q.val ∈ a.reqs) ∧
        (¬ pending → ¬ refused → ¬ waits → (f r).aborts.any same = false →
          if abortAtRest r k i = true then out u q.val k 2 i ∧ event15 r u q.val ∧ u.fcol = r.fcol
          else out u q.val k 1 i ∧ (f u).aborts = (f r).aborts ++ [{ kind := k, idx := i, reqs := [q.val] }])) ∧
    Acts (.abortReached kind idx) s (fun r u =>
      let same (a : AbortReq) : Bool := a.kind == kind.val && a.idx == idx.val
      let there := if kind.val = 1 then isStopped r (thrIdx idx.val) = true
        else if kind.val = 3 then ∀ q, r.tile.run = some q → (thread r q.t).inTile = true else True
      if (f r).aborts.any same = true ∧ there then
        (f u).aborts.any same = false ∧ (∀ a ∈ (f r).aborts, same a = false → a ∈ (f u).aborts) ∧
        ∀ a ∈ (f r).aborts, same a = true → ∀ q ∈ a.reqs, q < 9 → out u q kind.val 3 idx.val ∧ event15 r u q
      else u = r) ∧
    Acts (.dumpWrite m) s (fun r u =>
      let at' (x : State) (i : Nat) : Word := spadGet x (0x17C00 + i)
      if m ≠ .thread 0 ∨ (f r).dump ≠ none then u = r
      else
        let q := if at' r 0 = 0x444C ∧ at' r 3 ≠ 0xFFFF then at' r 3 + 1 else 1
        (f u).dump = some q ∧ at' u 0 = 0 ∧ at' u 1 = 1 ∧ at' u 2 = 0x400 ∧ at' u 3 = q ∧
        at' u 6 ++ at' u 5 ++ at' u 4 = BitVec.ofNat 48 r.now ∧ at' u 7 = (thread r 0).r[0] ∧
        at' u 8 = peek r Reg.sys_MODE ∧ at' u 12 = reg r Reg.fcol_FSW ∧ at' u 13 = reg r Reg.fcol_ACK ∧
        (∀ j : Fin 96, (j.val % 6 < 5 → at' u (32 + j.val) = peek r (Reg.fcol_H (j.val / 6) + j.val % 6)) ∧
          (j.val % 6 = 5 → at' u (32 + j.val) = 0)) ∧
        (∀ t : Fin 8, ∀ x : Fin 16, at' u (128 + 48 * t.val) = (thread r t).psw ∧
          at' u (128 + 48 * t.val + 3 + x.val) = (thread r t).r[x]) ∧
        (∀ a, a < 0x17C00 ∨ 0x17F00 ≤ a → spadGet u a = spadGet r a) ∧ u.thr = r.thr) ∧
    Acts .dumpEnd s (fun r u =>
      let at' (x : State) (i : Nat) : Word := spadGet x (0x17C00 + i)
      ((f r).dump = none → u = r) ∧
      ∀ q, (f r).dump = some q →
        at' u 0 = 0x444C ∧ (∀ i : Fin 1022, 1 ≤ i.val → at' u i.val = at' r i.val) ∧
        at' u 1023 ++ at' u 1022 = crc32 ((List.range 1022).flatMap (fun i => wordBytes (at' u i))) ∧
        (f u).dump = none ∧ (f u).abortWait = [] ∧ regF u Reg.fcol_DSTAT 0 15 = q.toNat % 32768 ∧
        ∀ a, (a < 0x17C00 ∨ 0x18000 ≤ a) → spadGet u a = spadGet r a)

/-- A request without STOP kills the port until a line reset; else WAIT while an access runs, PARITY, ERROR 5 under
TESTEN, ERROR 8 for CDAT and LOCKED while locked, the held outcome, ERROR 7, 1 or 6, or its access, which may be late.
A halt request waits for its boundary, a resume and a step let the thread run, RDATA needs a halted thread, CDAT moves
on, and the terminal's queues hold 16. A right response unlocks; a wrong one raises SECURITY, counts and locks out for
a second; a relock needs DBGLOCK. An OTP command is refused with 1 or 2 and ERROR 8, or runs; its end programs the
field or leaves result 3. The order of the answers and ERROR 8 for a refused OTP command are the model's reading (log
entries 17 and 19). (22_chisel_debug_trace.md) -/
def Obligations.ChiselServesItsRequests : Prop :=
  ∀ (s : State) (m : Master) (req : BitVec 29) (data : Pair) (dpar late wr noint ok : Bool) (n : Fin 8) (dt : Nat) (v : Word) (c : Byte) (p : Fin 16), Up s →
    let ch (r : State) : Chisel := r.chisel
    let test (r : State) : Bool := xregBit r X.dstat 14
    let err (e : Nat) (r u : State) : Prop := u.result = [4] ∧ fld (xreg u X.dstat) 0 4 = e ∧ u.thr = r.thr ∧ u.mem = r.mem ∧ u.regs = r.regs
    let op := fld req 1 3
    let a := fld req 4 20
    let size := fld req 24 2
    let d : Pair := if size = 2 then data else data &&& 0xFFFF
    let good : Bool := ones d % 2 != dpar.toNat
    let served (rq : ChReq) (good : Bool) (acc : State → State → Prop) (r u : State) : Prop :=
      let f : State := { r with chisel := { ch r with held := none } }
      let ident := op = 0 ∧ a ≤ 2
      let open' := ident ∨ (op = 0 ∧ 0x400 ≤ a ∧ a < 0x410) ∨ (op = 1 ∧ (a = 0x400 ∨ (0x410 ≤ a ∧ a < 0x418)))
      if (ch r).dead = true ∨ req.getLsbD 0 = true then u = { r with result := [7] }
      else if req.getLsbD 28 = false then u = { r with chisel := { ch r with dead := true }, result := [7] }
      else if (ch r).prog ≠ none then u = { r with result := [5] }
      else if ones (req.extractLsb' 1 27) % 2 = 0 then u = { f with result := [3] }
      else if test r = true ∧ ¬ ident then err 5 r u
      else if (ch r).locked = true ∧ op < 2 ∧ a = 0x32 then err 8 r u
      else if (ch r).locked = true ∧ ¬ open' then u = { f with result := [1] }
      else if good = true ∧ (ch r).held.any (fun x => x.1 == rq) = true then
        ∀ x, (ch r).held = some x →
          u = { f with result := if x.2.ack = 6 then [6, x.2.data.extractLsb' 0 16, x.2.data.extractLsb' 16 16] else [wd x.2.ack] }
      else if 4 ≤ op ∨ (op < 2 ∧ 0x10000 ≤ a) then err 7 r u
      else if ¬ (size = 1 ∨ (size = 2 ∧ 2 ≤ op)) then err 1 r u
      else if good = false then err 6 r u
      else acc f u
    let wait (rq : ChReq) (f u : State) : Prop :=
      u = { f with chisel := { f.chisel with prog := some rq, drop := false }, result := [5] }
    let idle (r : State) : Prop := (ch r).dead = false ∧ (ch r).prog = none ∧ test r = false
    let free' (r : State) : Prop := idle r ∧ (ch r).held = none ∧ (ch r).locked = false
    let shut (r u : State) : Prop := idle r → (ch r).locked = true → u.result = [1] ∧ u.thr = r.thr ∧ (ch u).otp = (ch r).otp ∧ u.regs = r.regs
    let fine (u : State) : Prop := u.result = [6, 0, 0]
    let same (xs : List (Fin 8)) (r u : State) : Prop := ∀ t : Fin 8, t ∉ xs → thread u t = thread r t
    let isThread : Bool := match m with | .thread _ => true | _ => false
    let otp (k : Nat) (r u : State) : Prop :=
      let bad := [true, r.otp.keyprg, r.otp.dkey, r.otp.authen || !r.otp.keyprg, r.otp.dbglock || !r.otp.dkey].getD k true
      let volts := (reg r (Reg.mon_VAL 3)).toNat
      shut r u ∧ (free' r → if (ch r).otp ≠ none then u = { r with result := [6, 0, 0] }
        else if r.modes.mode ≠ .setup ∨ volts < 9000 ∨ 18000 < volts then err 8 r u ∧ fld (xreg u X.otpst) 0 2 = 1 ∧ u.otp = r.otp ∧ (ch u).otp = none
        else if bad = true then err 8 r u ∧ fld (xreg u X.otpst) 0 2 = 2 ∧ u.otp = r.otp ∧ (ch u).otp = none
        else fine u ∧ (ch u).otp = some k ∧ u.otp = r.otp)
    Acts .lineReset s (fun r u => (ch u).dead = false ∧ (ch u).held = none ∧ (ch u).prog = (ch r).prog ∧
      (ch u).drop = ((ch r).drop || (ch r).prog.isSome) ∧ (ch u).locked = (ch r).locked ∧ u.thr = r.thr ∧ u.xregs = r.xregs) ∧
    Acts (.xrd req) s (fun r u => if op = 0 ∨ 4 ≤ op then served { req := req, data := 0 } true (fun f u =>
        (a = 0 → u = { f with result := [6, 0x4816, 0] }) ∧ (a = 1 → u = { f with result := [6, reg f Reg.sys_ID, 0] }) ∧
        (a = 2 → u = { f with result := [6, 1, 0] }) ∧
        (a = X.dstat → u.result = [6, wd ((ch f).locked.toNat * 0x8000 + (test f).toNat * 0x4000 + fld (xreg f X.dstat) 0 4), 0]) ∧
        (∀ t : Fin 8, a = 0x12 → ∀ w ∈ (u.result[1]?).toList, w.getLsbD t.val = decide ((thread f t).st = .halted) ∧
          w.getLsbD (8 + t.val) = (thread f t).haltReq.isSome) ∧
        (a = 0x202 → u = { f with result := [6, wd ((ch f).vtIn.length * 256 + (ch f).vtOut.length), 0] }) ∧
        (∀ i : Fin 8, a = 0x408 + i.val → u = { f with result := [6, (ch f).chal.extractLsb' (16 * i.val) 16, 0] })) r u else u = r) ∧
    Acts (.xwr req data dpar) s (fun r u => if op = 1 then served { req := req, data := d } good (fun f u =>
        let w : Word := d.extractLsb' 0 16
        (∀ x ∈ [(X.dctl, 0xE000), (X.hpol, 0x3F), (X.hstart, 0xFF), (X.rsel, 0xFFFF), (X.cadrl, 0xFFFF), (X.cadrh, 1), (X.trstm, 0xFFFF)],
          a = x.1 → fine u ∧ xreg u a = w &&& wd x.2 ∧ ∀ b : Fin 32, b.val ≠ a → xreg u b.val = xreg f b.val) ∧
        (∀ k : Fin 8, ∀ o : Fin 8, a = 0x100 + 16 * k.val + o.val → fine u ∧ xreg u a = if o = 0 then w &&& 0xFFC0 else w) ∧
        (a ∈ [0, 1, 2, 0x12, 0x28, 0x201, 0x202, 0x303, 0x401, 0x501, 0x600] → u = { f with result := [6, 0, 0] })) r u else u = r) ∧
    Acts (.drd req late) s (fun r u => if op = 2 then served { req := req, data := 0 } true (fun f u =>
        if late = true then wait { req := req, data := 0 } f u
        else u = (match memRead .debug (req.getLsbD 26) a (if size = 2 then 2 else 1) f with
          | (.ok ws, g) => { g with result := [6, ws.getD 0 0, ws.getD 1 0] }
          | (.refused _, g) => setXregF X.dstat 0 4 2 { g with result := [4] }
          | (.parity, g) => setXregF X.dstat 0 4 3 { g with result := [4] })) r u else u = r) ∧
    Acts (.dwr req data dpar late) s (fun r u => if op = 3 then served { req := req, data := d } good (fun f u =>
        if late = true then wait { req := req, data := d } f u
        else u = (match memWrite .debug a (if size = 2 then [d.extractLsb' 0 16, d.extractLsb' 16 16] else [d.extractLsb' 0 16]) f with
          | (.ok, g) => { g with result := [6, 0, 0] }
          | (.collision, g) => { g with result := [2] }
          | (.refused _, g) => setXregF X.dstat 0 4 2 { g with result := [4] })) r u else u = r) ∧
    ActsAfter dt (.chiselAccessDone dt) s (fun r u => ((ch r).prog = none → u = r) ∧
      ((ch r).prog ≠ none → (ch u).prog = none ∧ (ch u).drop = false ∧ u.result = r.result ∧
        ∀ x, (ch r).prog = some x → if (ch r).drop = true then (ch u).held = none else (ch u).held.any (fun y => y.1 == x) = true)) ∧
    Acts (.haltReq n) s (fun r u => shut r u ∧ (free' r → fine u ∧ same [n] r u ∧
      let h := thread r n
      thread u n = if isStopped r n = true ∨ h.st = .halted ∨ h.stopReq = true then h
        else { h with haltReq := some (h.haltReq.getD { cause := 1 }) })) ∧
    ActsAfter dt (.threadHalted dt n) s (fun r u =>
      let h := thread r n
      let k := thread u n
      let there := h.st = .waiting ∨ (h.st = .ready ∧ h.span = 0 ∧ h.held = none ∧ h.micro = none ∧ h.starting = none)
      (h.haltReq = none ∨ ¬ there → u = r) ∧
      ∀ x, h.haltReq = some x → there → k.st = .halted ∧ k.kept = h.st ∧ k.haltedBy = x ∧ k.haltReq = none ∧ k.tmr = none ∧
        k.tmrLeft = h.tmr.map (fun d => d - r.now) ∧ k.r = h.r ∧ k.pc = h.pc ∧ k.psw = h.psw ∧ k.latch = h.latch ∧
        ∀ t : Fin 8, t ≠ n → isStopped r t = false → (thread r t).st ≠ .halted → (thread r t).stopReq = false →
          if xregBit r X.dctl 14 = true ∧ x.cause ≠ 1 then (thread u t).haltReq ≠ none else (thread u t).haltReq = (thread r t).haltReq) ∧
    Acts (.resume n) s (fun r u => shut r u ∧ (free' r → fine u ∧
      let h := thread r n
      let k := thread u n
      (h.st ≠ .halted → u.thr = r.thr) ∧
      (h.st = .halted → h.breakDue = none → h.mask = 0 ∨ h.kept = .waiting → k.st = h.kept ∧ k.r = h.r ∧ k.pc = h.pc ∧ k.psw = h.psw ∧
        k.tmr = h.tmrLeft.map (fun d => r.now + d) ∧ same [n] r u))) ∧
    Acts (.stepThread n noint) s (fun r u => shut r u ∧ (free' r → fine u ∧ xreg u X.step = wd (noint.toNat * 0x8000) ∧
      let h := thread r n
      let k := thread u n
      (h.st ≠ .halted ∨ h.kept ≠ .ready → u.thr = r.thr) ∧
      (h.st = .halted → h.kept = .ready → h.breakDue = none → h.mask = 0 → k.st = .ready ∧ k.stepping = true ∧ k.pc = h.pc ∧ k.r = h.r))) ∧
    Acts (.rdata wr v) s (fun r u => shut r u ∧ (free' r →
      let x := xreg r X.rsel
      let t := thrIdx (fld x 13 3)
      let high := x.getLsbD 12 = true
      let i := fld x 0 8
      let h := thread r t
      let k := thread u t
      if h.st ≠ .halted ∨ (0x2B ≤ i ∧ i < 0x30) ∨ 0x48 ≤ i then err 4 r u
      else same [t] r u ∧
        (wr = false → u.thr = r.thr ∧ (∀ y : Fin 16, i = y.val → u.result = [6, if high then 0 else h.r[y], 0]) ∧
          (i = 0x24 → u.result = [6, if high then wd (h.pc.toNat / 65536) else h.pc.setWidth 16, 0])) ∧
        (wr = true → fine u ∧ (∀ y : Fin 16, i = y.val → k.r[y] = (if high then h.r[y] else v) ∧ k.pc = h.pc ∧ k.psw = h.psw) ∧
          (i = 0x24 → k.pc = (if high then BitVec.ofNat 17 (v.toNat % 2 * 65536 + h.pc.toNat % 65536) else BitVec.ofNat 17 (h.pc.toNat / 65536 * 65536 + v.toNat))) ∧
          (i = 0x10 → high ∨ ∀ b : Fin 16, k.psw.getLsbD b.val =
            if b.val < 11 ∧ (b.val ≠ 7 ∨ fld x 13 3 < 2) then v.getLsbD b.val else h.psw.getLsbD b.val)))) ∧
    Acts (.cdat wr v) s (fun r u =>
      let at' := (xreg r X.cadrl).toNat + fld (xreg r X.cadrh) 0 1 * 65536
      (idle r → (ch r).locked = true → err 8 r u ∧ u.flash = r.flash ∧ xreg u X.cadrl = xreg r X.cadrl) ∧
      (free' r → (xreg u X.cadrl).toNat + (xreg u X.cadrh).toNat * 65536 = (at' + 1) % 0x20000 ∧
        if wr = true then fine u ∧ cget codeDefault u.flash.code at' = v.setWidth 8 ∧
          ∀ b, b ≠ at' → cget codeDefault u.flash.code b = cget codeDefault r.flash.code b
        else u.result = [6, (cget codeDefault r.flash.code at').setWidth 16, 0] ∧ u.flash = r.flash)) ∧
    Acts (.vtin c) s (fun r u => shut r u ∧ (free' r → (ch u).held = none ∧
      if 16 ≤ (ch r).vtIn.length then u.result = [5] ∧ (ch u).vtIn = (ch r).vtIn ∧ u.intc = r.intc
      else fine u ∧ (ch u).vtIn = (ch r).vtIn ++ [c] ∧ hasEvent u 57)) ∧
    Acts .vtout s (fun r u => shut r u ∧ (free' r → (ch u).vtOut = (ch r).vtOut.tail ∧ ((ch r).vtOut.length = 1 → hasEvent u 58) ∧
      u.result = [6, (if (ch r).vtOut = [] then 0 else wd (0x8000 + ((ch r).vtOut.headD 0).toNat)), 0])) ∧
    Acts (.vtrx m) s (fun r u => u.result = [if (ch r).vtIn = [] then 0 else wd (0x8000 + ((ch r).vtIn.headD 0).toNat)] ∧
      (ch u).vtIn = (if isThread = true then (ch r).vtIn.tail else (ch r).vtIn) ∧ u.regs = r.regs ∧ u.thr = r.thr) ∧
    Acts (.vttx m c) s (fun r u =>
      if isThread = false then u = r
      else if 16 ≤ (ch r).vtOut.length then (ch u).vtOut = (ch r).vtOut ∧ regBit u Reg.dbg_VTSTAT 15 = true ∧ RegsBut [Reg.dbg_VTSTAT] r u
      else u = { r with chisel := { ch r with vtOut := (ch r).vtOut ++ [c] } }) ∧
    Acts (.stamp m p v) s (fun r u =>
      if isThread = false ∨ xregBit r X.trctl 15 = false ∨ xregBit r X.trctl 5 = false ∨ xregBit r X.trstm p.val = false then u = r
      else u.thr = r.thr ∧ u.mem = r.mem ∧
        ((u.trace.fifo.drop (u.trace.fifo.length - 7)).map (fun x => x.toNat) =
            [0x10 + p.val, (u.trace.seq + 255) % 256, (match m with | .thread t => t.val | _ => 0), v.toNat % 256, v.toNat / 256,
              r.now % 256, r.now / 256 % 256] ∨
          (reg u Reg.dbg_STSTAT).toNat = min 0xFFFF ((reg r Reg.dbg_STSTAT).toNat + 1) ∧ hasEvent u 59)) ∧
    Acts .unlockAttempt s (fun r u => idle r → (ch r).held = none →
      let right := xregBit r X.lstat 14 = true ∧ aes128 (bytes128 r.otp.debugKey) (bytes128 (ch r).chal) =
        (List.range 16).map (fun i => (xreg r (0x410 + i / 2)).extractLsb' (8 * (i % 2)) 8)
      fine u ∧ ((ch r).lockout ≠ none → u = { r with result := [6, 0, 0] }) ∧
      ((ch r).lockout = none → if right then (ch u).locked = false ∧ (ch u).lockout = none ∧ u.fcol = r.fcol ∧ u.xregs = r.xregs
        else (ch u).locked = (ch r).locked ∧ (ch u).lockout = some (r.now + 160000000) ∧ Raised r u { cls := clsSecurity, detail := 0x0100 } ∧
          fld (xreg u X.lstat) 0 8 = min 255 (fld (xreg r X.lstat) 0 8 + 1))) ∧
    Acts .relock s (fun r u => idle r → (ch r).held = none →
      fine u ∧ ((ch r).lockout ≠ none ∨ regBit r Reg.sys_OTPSTAT 14 = false → u = { r with result := [6, 0, 0] }) ∧
      ((ch r).lockout = none → regBit r Reg.sys_OTPSTAT 14 = true → (ch u).locked = true ∧ xregBit u X.trctl 15 = false ∧ u.trace.fifo = [] ∧
        xreg u X.dctl = 0 ∧ xreg u X.hpol = 1 ∧ xreg u X.trdiv = 8 ∧ (∀ k : Fin 8, xreg u (0x100 + 16 * k.val) = 0) ∧ xreg u X.lstat = xreg r X.lstat ∧
        ((∀ t : Fin 8, (thread r t).stepping = false ∧ (thread r t).breakDue = none) →
          ∀ t : Fin 8, (thread u t).st ≠ .halted ∧ (thread u t).haltReq = none))) ∧
    ActsAt lockoutDue .lockoutEnd s (fun r u => ((ch r).lockout = none → u = r) ∧
      ∀ d, (ch r).lockout = some d → u = if d ≤ r.now then { r with chisel := { ch r with lockout := none } } else r) ∧
    Acts .otpProgramImageKey s (otp 1) ∧ Acts .otpProgramDebugKey s (otp 2) ∧ Acts .otpSetAuthen s (otp 3) ∧ Acts .otpSetDbglock s (otp 4) ∧
    ActsAfter dt (.otpCommandEnd dt ok) s (fun r u =>
      let key : BitVec 128 := xreg r 0x50F ++ xreg r 0x50E ++ xreg r 0x50D ++ xreg r 0x50C ++ xreg r 0x50B ++ xreg r 0x50A ++ xreg r 0x509 ++ xreg r 0x508
      let o := r.otp
      ((ch r).otp = none → u = r) ∧
      ∀ k, (ch r).otp = some k → (ch u).otp = none ∧ (∀ i : Fin 8, xreg u (0x508 + i.val) = 0) ∧ u.regs = r.regs ∧
        (ok = false → fld (xreg u X.otpst) 0 2 = 3) ∧
        (ok = true → fld (xreg u X.otpst) 0 2 = 0 ∧ (k = 1 → u.otp = { o with imageKey := key, keyprg := true }) ∧
          (k = 2 → u.otp = { o with debugKey := key, dkey := true }) ∧ (k = 3 → u.otp = { o with authen := true }) ∧
          (k = 4 → u.otp = { o with dbglock := true })))
end

