-- ==== Sys2Proof/Laws/Ops.lean ====
section
/-!
SUPPORT. What the sparse memories and the register words do: a read after a write, every other address, and the canonical
form, which every operation on them keeps.
-/

namespace Sys2Proof.Machine

section sparse
variable {α : Type}

theorem cget_cins_same (d : Nat → α) (m : List (Nat × α)) (a : Nat) (v : α) : cget d (cins m a v) a = v := by
  induction m with
  | nil => simp [cins, cget]
  | cons e t ih =>
    obtain ⟨k, w⟩ := e
    simp only [cins]
    split
    · simp [cget]
    · split
      · simp [cget]
      · rename_i h _
        simp [cget, h, ih]

theorem cget_cins_other (d : Nat → α) (m : List (Nat × α)) {a b : Nat} (v : α) (h : b ≠ a) :
    cget d (cins m a v) b = cget d m b := by
  induction m with
  | nil => simp [cins, cget, Ne.symm h]
  | cons e t ih =>
    obtain ⟨k, w⟩ := e
    simp only [cins]
    split
    · rename_i hk
      subst hk
      simp [cget, Ne.symm h]
    · split
      · simp [cget, Ne.symm h]
      · simp [cget, ih]

theorem cget_filter_same (d : Nat → α) (m : List (Nat × α)) (a : Nat) :
    cget d (m.filter (fun e => e.1 != a)) a = d a := by
  induction m with
  | nil => rfl
  | cons e t ih =>
    obtain ⟨k, w⟩ := e
    by_cases hk : k = a <;> simp [cget, hk, ih]

theorem cget_filter_other (d : Nat → α) (m : List (Nat × α)) {a b : Nat} (h : b ≠ a) :
    cget d (m.filter (fun e => e.1 != a)) b = cget d m b := by
  induction m with
  | nil => rfl
  | cons e t ih =>
    obtain ⟨k, w⟩ := e
    by_cases hk : k = a
    · subst hk
      simp [cget, ih, Ne.symm h]
    · simp [cget, hk, ih]

variable [DecidableEq α]

/-- A read after a write to the same address gives the value written. -/
@[simp] theorem cget_cset_same (d : Nat → α) (m : List (Nat × α)) (a : Nat) (v : α) : cget d (cset d m a v) a = v := by
  unfold cset
  split
  · rename_i h
    rw [cget_filter_same, h]
  · exact cget_cins_same d m a v

/-- A write leaves every other address alone. -/
theorem cget_cset_other (d : Nat → α) (m : List (Nat × α)) {a b : Nat} (v : α) (h : b ≠ a) :
    cget d (cset d m a v) b = cget d m b := by
  unfold cset
  split
  · exact cget_filter_other d m h
  · exact cget_cins_other d m v h

theorem cget_cset (d : Nat → α) (m : List (Nat × α)) (a b : Nat) (v : α) :
    cget d (cset d m a v) b = if b = a then v else cget d m b := by
  by_cases h : b = a
  · simp [h]
  · simp [h, cget_cset_other d m v h]

/-! ### The canonical form -/

theorem cwfFrom_mono (d : Nat → α) {lo lo' : Nat} (h : lo' ≤ lo) (m : List (Nat × α)) :
    cwfFrom d lo m = true → cwfFrom d lo' m = true := by
  cases m with
  | nil => intro _; rfl
  | cons e t =>
    obtain ⟨k, w⟩ := e
    simp only [cwfFrom, Bool.and_eq_true, decide_eq_true_eq]
    rintro ⟨⟨h1, h2⟩, h3⟩
    exact ⟨⟨by omega, h2⟩, h3⟩

theorem cwfFrom_filter (d : Nat → α) (p : Nat × α → Bool) (lo : Nat) (m : List (Nat × α)) :
    cwfFrom d lo m = true → cwfFrom d lo (m.filter p) = true := by
  induction m generalizing lo with
  | nil => intro h; exact h
  | cons e t ih =>
    obtain ⟨k, w⟩ := e
    simp only [cwfFrom, Bool.and_eq_true, decide_eq_true_eq]
    rintro ⟨⟨h1, h2⟩, h3⟩
    rw [List.filter_cons]
    split
    · simp only [cwfFrom, Bool.and_eq_true, decide_eq_true_eq]
      exact ⟨⟨h1, h2⟩, ih _ h3⟩
    · exact cwfFrom_mono d (by omega) _ (ih _ h3)

theorem cwfFrom_cins (d : Nat → α) (a : Nat) (v : α) (hv : v ≠ d a) (lo : Nat) (m : List (Nat × α)) (hlo : lo ≤ a) :
    cwfFrom d lo m = true → cwfFrom d lo (cins m a v) = true := by
  induction m generalizing lo with
  | nil => intro _; simp [cins, cwfFrom, hlo, hv]
  | cons e t ih =>
    obtain ⟨k, w⟩ := e
    simp only [cwfFrom, Bool.and_eq_true, decide_eq_true_eq]
    rintro ⟨⟨h1, h2⟩, h3⟩
    simp only [cins]
    split
    · rename_i hk
      subst hk
      simp only [cwfFrom, Bool.and_eq_true, decide_eq_true_eq]
      exact ⟨⟨h1, hv⟩, h3⟩
    · split
      · simp only [cwfFrom, Bool.and_eq_true, decide_eq_true_eq]
        exact ⟨⟨hlo, hv⟩, ⟨by omega, h2⟩, h3⟩
      · simp only [cwfFrom, Bool.and_eq_true, decide_eq_true_eq]
        exact ⟨⟨h1, h2⟩, ih _ (by omega) h3⟩

/-- A write keeps the canonical form. -/
theorem cwf_cset (d : Nat → α) (m : List (Nat × α)) (a : Nat) (v : α) (h : cwf d m = true) :
    cwf d (cset d m a v) = true := by
  unfold cset
  split
  · exact cwfFrom_filter d _ 0 m h
  · rename_i hv
    exact cwfFrom_cins d a v hv 0 m (Nat.zero_le _) h

/-- Writes of a list of values keep it. -/
theorem cwf_cwrite (d : Nat → α) (vs : List α) (m : List (Nat × α)) (a : Nat) (h : cwf d m = true) :
    cwf d (cwrite d m a vs) = true := by
  induction vs generalizing m a with
  | nil => exact h
  | cons v t ih => exact ih _ _ (cwf_cset d m a v h)

/-- Dropping entries keeps it. -/
theorem cwf_filter (d : Nat → α) (p : Nat × α → Bool) (m : List (Nat × α)) (h : cwf d m = true) :
    cwf d (m.filter p) = true := cwfFrom_filter d p 0 m h

end sparse

/-! ### Register words -/

@[simp] theorem reg_setReg_same (a : Nat) (v : Word) (s : State) : reg (setReg a v s) a = v := by simp [reg, setReg]

theorem reg_setReg_other {a b : Nat} (v : Word) (s : State) (h : b ≠ a) : reg (setReg a v s) b = reg s b := by
  simp [reg, setReg, cget_cset_other _ _ _ h]

theorem reg_setReg (a b : Nat) (v : Word) (s : State) : reg (setReg a v s) b = if b = a then v else reg s b := by
  simp [reg, setReg, cget_cset]

theorem reg_setRegF_other {a b : Nat} (lo len v : Nat) (s : State) (h : b ≠ a) : reg (setRegF a lo len v s) b = reg s b :=
  reg_setReg_other _ _ h

theorem reg_setRegBit_other {a b : Nat} (i : Nat) (v : Bool) (s : State) (h : b ≠ a) :
    reg (setRegBit a i v s) b = reg s b := reg_setReg_other _ _ h

@[simp] theorem reg_setRegF_same (a lo len v : Nat) (s : State) : reg (setRegF a lo len v s) a = putFld (reg s a) lo len v :=
  reg_setReg_same _ _ _

@[simp] theorem reg_setRegBit_same (a i : Nat) (b : Bool) (s : State) : reg (setRegBit a i b s) a = putBit (reg s a) i b :=
  reg_setReg_same _ _ _

/-- Hardware's setting of bits: the register holds them, and no other register changes. -/
@[simp] theorem reg_hwSet_same (a : Nat) (m : Word) (s : State) : reg (hwSet a m s) a = reg s a ||| m :=
  reg_setReg_same a _ s

theorem reg_hwSet_other {a b : Nat} (m : Word) (s : State) (h : b ≠ a) : reg (hwSet a m s) b = reg s b :=
  reg_setReg_other _ s h

/-- A count of hardware: the field saturates, and no other register changes. -/
@[simp] theorem reg_hwCountF_same (a lo len n : Nat) (s : State) :
    reg (hwCountF a lo len n s) a = putFld (reg s a) lo len (satAdd (2 ^ len - 1) (regF s a lo len) n) :=
  reg_setRegF_same a lo len _ s

theorem reg_hwCountF_other {a b : Nat} (lo len n : Nat) (s : State) (h : b ≠ a) :
    reg (hwCountF a lo len n s) b = reg s b := reg_setRegF_other lo len _ s h

theorem reg_hwCount_other {a b : Nat} (s : State) (h : b ≠ a) : reg (hwCount a s) b = reg s b := reg_hwCountF_other 0 16 1 s h

/-! ### Bits and fields -/

/-- Bit `j` of a word with a field replaced. -/
theorem getLsbD_putFld {n : Nat} (w : BitVec n) (lo len v j : Nat) (hj : j < n) :
    (putFld w lo len v).getLsbD j
      = if lo ≤ j ∧ j < lo + len then v.testBit (j - lo) else w.getLsbD j := by
  have h0 : ∀ x : Nat, (BitVec.ofNat n (x <<< lo)).getLsbD j = (decide (lo ≤ j) && x.testBit (j - lo)) := by
    intro x
    simp only [BitVec.getLsbD_ofNat, Nat.testBit_shiftLeft, hj, decide_true, Bool.true_and, ge_iff_le]
  unfold putFld
  rw [BitVec.getLsbD_or, BitVec.getLsbD_and, BitVec.getLsbD_not, h0, h0, Nat.testBit_two_pow_sub_one,
    Nat.testBit_mod_two_pow]
  by_cases h1 : lo ≤ j <;> by_cases h2 : j - lo < len
  · have : j < lo + len := by omega
    simp [h1, h2, this, hj]
  · have : ¬ j < lo + len := by omega
    simp [h1, h2, this, hj]
  · simp [h1, hj]
  · simp [h1, hj]

/-- Bit `j` of a word with its bit `i` set to `b`. -/
theorem getLsbD_putBit {n : Nat} (w : BitVec n) (i j : Nat) (b : Bool) (hj : j < n) :
    (putBit w i b).getLsbD j = if j = i then b else w.getLsbD j := by
  unfold putBit
  rw [getLsbD_putFld w i 1 _ j hj]
  by_cases h : j = i
  · subst h; cases b <;> simp
  · rw [if_neg (by omega), if_neg h]

/-- A field after it is replaced. -/
theorem fld_putFld {n : Nat} (w : BitVec n) (lo len v : Nat) (h : lo + len ≤ n) :
    fld (putFld w lo len v) lo len = v % 2 ^ len := by
  apply Nat.eq_of_testBit_eq
  intro i
  simp only [fld, Nat.testBit_mod_two_pow, Nat.testBit_shiftRight]
  by_cases hi : i < len
  · have := getLsbD_putFld w lo len v (lo + i) (by omega)
    rw [BitVec.testBit_toNat, this, if_pos (by omega)]
    simp [hi]
  · simp [hi]

/-- A field apart from the one replaced. -/
theorem fld_putFld_other {n : Nat} (w : BitVec n) (lo len v lo' len' : Nat) (h' : lo' + len' ≤ n)
    (hd : lo' + len' ≤ lo ∨ lo + len ≤ lo') : fld (putFld w lo len v) lo' len' = fld w lo' len' := by
  apply Nat.eq_of_testBit_eq
  intro i
  simp only [fld, Nat.testBit_mod_two_pow, Nat.testBit_shiftRight]
  by_cases hi : i < len'
  · have := getLsbD_putFld w lo len v (lo' + i) (by omega)
    rw [BitVec.testBit_toNat, this, if_neg (by omega), BitVec.testBit_toNat]
  · simp [hi]
end Sys2Proof.Machine
end

