-- ==== Sys2Proof/Laws/Act.lean ====
section
/-!
SUPPORT. What a command of each form answers, what follows it, and the invariant that every command keeps.
-/

namespace Sys2Proof.Machine

theorem act_eq {s : State} (h : Up s) (f : State → State) : act f s = .next (follow (f (ready (clkTicks s) s))) := by
  simp [act, perform, show s.power = .up from h]

theorem actAfter_eq {s : State} (h : Up s) (dt : Nat) (f : State → State) :
    actAfter dt f s = .next (follow (f (ready dt s))) := by
  simp [actAfter, perform, show s.power = .up from h]

theorem actDue_eq {s : State} (h : Up s) (due : State → Nat) (f : State → State) :
    actDue due f s = .next (follow (f (ready (ticksTo (due s) s) s))) := by
  simp [actDue, perform, show s.power = .up from h]

/-- A command of the form `act f`: `P` of the state after `f`. -/
theorem Acts.of {i : Instr} {s : State} {P : State → State → Prop} {f : State → State} (e : exec i s = act f s)
    (h : Up s) (hp : P (ready (clkTicks s) s) (f (ready (clkTicks s) s))) : Acts i s P :=
  ⟨_, e.trans (act_eq h f), hp⟩

theorem ActsAfter.of {dt : Nat} {i : Instr} {s : State} {P : State → State → Prop} {f : State → State}
    (e : exec i s = actAfter dt f s) (h : Up s) (hp : P (ready dt s) (f (ready dt s))) : ActsAfter dt i s P :=
  ⟨_, e.trans (actAfter_eq h dt f), hp⟩

theorem ActsAt.of {due : State → Nat} {i : Instr} {s : State} {P : State → State → Prop} {f : State → State}
    (e : exec i s = actDue due f s) (h : Up s)
    (hp : P (ready (ticksTo (due s) s) s) (f (ready (ticksTo (due s) s) s))) : ActsAt due i s P :=
  ⟨_, e.trans (actDue_eq h due f), hp⟩

end Sys2Proof.Machine
end

