-- ==== Sys2Proof/Laws/State.lean ====
section
/-!
SUPPORT. What each update of the state leaves alone: one lemma per field per update, so that no proof unfolds a record
update.
-/

namespace Sys2Proof.Machine

/-! ### `setReg` -/

@[simp] theorem setReg_pending (a : Nat) (v : Word) (s : State) : (setReg a v s).pending = s.pending := rfl
@[simp] theorem setReg_power (a : Nat) (v : Word) (s : State) : (setReg a v s).power = s.power := rfl
@[simp] theorem setReg_now (a : Nat) (v : Word) (s : State) : (setReg a v s).now = s.now := rfl
@[simp] theorem setReg_xregs (a : Nat) (v : Word) (s : State) : (setReg a v s).xregs = s.xregs := rfl
@[simp] theorem setReg_hw (a : Nat) (v : Word) (s : State) : (setReg a v s).hw = s.hw := rfl
@[simp] theorem setReg_lines (a : Nat) (v : Word) (s : State) : (setReg a v s).lines = s.lines := rfl
@[simp] theorem setReg_boot (a : Nat) (v : Word) (s : State) : (setReg a v s).boot = s.boot := rfl
@[simp] theorem setReg_plinth (a : Nat) (v : Word) (s : State) : (setReg a v s).plinth = s.plinth := rfl
@[simp] theorem setReg_modes (a : Nat) (v : Word) (s : State) : (setReg a v s).modes = s.modes := rfl
@[simp] theorem setReg_intc (a : Nat) (v : Word) (s : State) : (setReg a v s).intc = s.intc := rfl
@[simp] theorem setReg_fcol (a : Nat) (v : Word) (s : State) : (setReg a v s).fcol = s.fcol := rfl
@[simp] theorem setReg_mem (a : Nat) (v : Word) (s : State) : (setReg a v s).mem = s.mem := rfl
@[simp] theorem setReg_flash (a : Nat) (v : Word) (s : State) : (setReg a v s).flash = s.flash := rfl
@[simp] theorem setReg_cour (a : Nat) (v : Word) (s : State) : (setReg a v s).cour = s.cour := rfl
@[simp] theorem setReg_otp (a : Nat) (v : Word) (s : State) : (setReg a v s).otp = s.otp := rfl
@[simp] theorem setReg_out (a : Nat) (v : Word) (s : State) : (setReg a v s).out = s.out := rfl
@[simp] theorem setReg_ang (a : Nat) (v : Word) (s : State) : (setReg a v s).ang = s.ang := rfl
@[simp] theorem setReg_evt (a : Nat) (v : Word) (s : State) : (setReg a v s).evt = s.evt := rfl
@[simp] theorem setReg_adc (a : Nat) (v : Word) (s : State) : (setReg a v s).adc = s.adc := rfl
@[simp] theorem setReg_thr (a : Nat) (v : Word) (s : State) : (setReg a v s).thr = s.thr := rfl
@[simp] theorem setReg_tile (a : Nat) (v : Word) (s : State) : (setReg a v s).tile = s.tile := rfl
@[simp] theorem setReg_trace (a : Nat) (v : Word) (s : State) : (setReg a v s).trace = s.trace := rfl
@[simp] theorem setReg_kern (a : Nat) (v : Word) (s : State) : (setReg a v s).kern = s.kern := rfl
@[simp] theorem setReg_post (a : Nat) (v : Word) (s : State) : (setReg a v s).post = s.post := rfl
@[simp] theorem setReg_can (a : Nat) (v : Word) (s : State) : (setReg a v s).can = s.can := rfl
@[simp] theorem setReg_kline (a : Nat) (v : Word) (s : State) : (setReg a v s).kline = s.kline := rfl
@[simp] theorem setReg_loop (a : Nat) (v : Word) (s : State) : (setReg a v s).loop = s.loop := rfl
@[simp] theorem setReg_waili (a : Nat) (v : Word) (s : State) : (setReg a v s).waili = s.waili := rfl
@[simp] theorem setReg_chisel (a : Nat) (v : Word) (s : State) : (setReg a v s).chisel = s.chisel := rfl
@[simp] theorem setReg_free (a : Nat) (v : Word) (s : State) : (setReg a v s).free = s.free := rfl
@[simp] theorem setReg_result (a : Nat) (v : Word) (s : State) : (setReg a v s).result = s.result := rfl

/-! ### `setReg32` -/

@[simp] theorem setReg32_pending (a : Nat) (v : Pair) (s : State) : (setReg32 a v s).pending = s.pending := rfl
@[simp] theorem setReg32_power (a : Nat) (v : Pair) (s : State) : (setReg32 a v s).power = s.power := rfl
@[simp] theorem setReg32_now (a : Nat) (v : Pair) (s : State) : (setReg32 a v s).now = s.now := rfl
@[simp] theorem setReg32_xregs (a : Nat) (v : Pair) (s : State) : (setReg32 a v s).xregs = s.xregs := rfl
@[simp] theorem setReg32_hw (a : Nat) (v : Pair) (s : State) : (setReg32 a v s).hw = s.hw := rfl
@[simp] theorem setReg32_lines (a : Nat) (v : Pair) (s : State) : (setReg32 a v s).lines = s.lines := rfl
@[simp] theorem setReg32_boot (a : Nat) (v : Pair) (s : State) : (setReg32 a v s).boot = s.boot := rfl
@[simp] theorem setReg32_plinth (a : Nat) (v : Pair) (s : State) : (setReg32 a v s).plinth = s.plinth := rfl
@[simp] theorem setReg32_modes (a : Nat) (v : Pair) (s : State) : (setReg32 a v s).modes = s.modes := rfl
@[simp] theorem setReg32_intc (a : Nat) (v : Pair) (s : State) : (setReg32 a v s).intc = s.intc := rfl
@[simp] theorem setReg32_fcol (a : Nat) (v : Pair) (s : State) : (setReg32 a v s).fcol = s.fcol := rfl
@[simp] theorem setReg32_mem (a : Nat) (v : Pair) (s : State) : (setReg32 a v s).mem = s.mem := rfl
@[simp] theorem setReg32_flash (a : Nat) (v : Pair) (s : State) : (setReg32 a v s).flash = s.flash := rfl
@[simp] theorem setReg32_cour (a : Nat) (v : Pair) (s : State) : (setReg32 a v s).cour = s.cour := rfl
@[simp] theorem setReg32_otp (a : Nat) (v : Pair) (s : State) : (setReg32 a v s).otp = s.otp := rfl
@[simp] theorem setReg32_out (a : Nat) (v : Pair) (s : State) : (setReg32 a v s).out = s.out := rfl
@[simp] theorem setReg32_ang (a : Nat) (v : Pair) (s : State) : (setReg32 a v s).ang = s.ang := rfl
@[simp] theorem setReg32_evt (a : Nat) (v : Pair) (s : State) : (setReg32 a v s).evt = s.evt := rfl
@[simp] theorem setReg32_adc (a : Nat) (v : Pair) (s : State) : (setReg32 a v s).adc = s.adc := rfl
@[simp] theorem setReg32_thr (a : Nat) (v : Pair) (s : State) : (setReg32 a v s).thr = s.thr := rfl
@[simp] theorem setReg32_tile (a : Nat) (v : Pair) (s : State) : (setReg32 a v s).tile = s.tile := rfl
@[simp] theorem setReg32_trace (a : Nat) (v : Pair) (s : State) : (setReg32 a v s).trace = s.trace := rfl
@[simp] theorem setReg32_kern (a : Nat) (v : Pair) (s : State) : (setReg32 a v s).kern = s.kern := rfl
@[simp] theorem setReg32_post (a : Nat) (v : Pair) (s : State) : (setReg32 a v s).post = s.post := rfl
@[simp] theorem setReg32_can (a : Nat) (v : Pair) (s : State) : (setReg32 a v s).can = s.can := rfl
@[simp] theorem setReg32_kline (a : Nat) (v : Pair) (s : State) : (setReg32 a v s).kline = s.kline := rfl
@[simp] theorem setReg32_loop (a : Nat) (v : Pair) (s : State) : (setReg32 a v s).loop = s.loop := rfl
@[simp] theorem setReg32_waili (a : Nat) (v : Pair) (s : State) : (setReg32 a v s).waili = s.waili := rfl
@[simp] theorem setReg32_chisel (a : Nat) (v : Pair) (s : State) : (setReg32 a v s).chisel = s.chisel := rfl
@[simp] theorem setReg32_free (a : Nat) (v : Pair) (s : State) : (setReg32 a v s).free = s.free := rfl
@[simp] theorem setReg32_result (a : Nat) (v : Pair) (s : State) : (setReg32 a v s).result = s.result := rfl

/-! ### `setRegF` -/

@[simp] theorem setRegF_pending (a lo len v : Nat) (s : State) : (setRegF a lo len v s).pending = s.pending := rfl
@[simp] theorem setRegF_power (a lo len v : Nat) (s : State) : (setRegF a lo len v s).power = s.power := rfl
@[simp] theorem setRegF_now (a lo len v : Nat) (s : State) : (setRegF a lo len v s).now = s.now := rfl
@[simp] theorem setRegF_xregs (a lo len v : Nat) (s : State) : (setRegF a lo len v s).xregs = s.xregs := rfl
@[simp] theorem setRegF_hw (a lo len v : Nat) (s : State) : (setRegF a lo len v s).hw = s.hw := rfl
@[simp] theorem setRegF_lines (a lo len v : Nat) (s : State) : (setRegF a lo len v s).lines = s.lines := rfl
@[simp] theorem setRegF_boot (a lo len v : Nat) (s : State) : (setRegF a lo len v s).boot = s.boot := rfl
@[simp] theorem setRegF_plinth (a lo len v : Nat) (s : State) : (setRegF a lo len v s).plinth = s.plinth := rfl
@[simp] theorem setRegF_modes (a lo len v : Nat) (s : State) : (setRegF a lo len v s).modes = s.modes := rfl
@[simp] theorem setRegF_intc (a lo len v : Nat) (s : State) : (setRegF a lo len v s).intc = s.intc := rfl
@[simp] theorem setRegF_fcol (a lo len v : Nat) (s : State) : (setRegF a lo len v s).fcol = s.fcol := rfl
@[simp] theorem setRegF_mem (a lo len v : Nat) (s : State) : (setRegF a lo len v s).mem = s.mem := rfl
@[simp] theorem setRegF_flash (a lo len v : Nat) (s : State) : (setRegF a lo len v s).flash = s.flash := rfl
@[simp] theorem setRegF_cour (a lo len v : Nat) (s : State) : (setRegF a lo len v s).cour = s.cour := rfl
@[simp] theorem setRegF_otp (a lo len v : Nat) (s : State) : (setRegF a lo len v s).otp = s.otp := rfl
@[simp] theorem setRegF_out (a lo len v : Nat) (s : State) : (setRegF a lo len v s).out = s.out := rfl
@[simp] theorem setRegF_ang (a lo len v : Nat) (s : State) : (setRegF a lo len v s).ang = s.ang := rfl
@[simp] theorem setRegF_evt (a lo len v : Nat) (s : State) : (setRegF a lo len v s).evt = s.evt := rfl
@[simp] theorem setRegF_adc (a lo len v : Nat) (s : State) : (setRegF a lo len v s).adc = s.adc := rfl
@[simp] theorem setRegF_thr (a lo len v : Nat) (s : State) : (setRegF a lo len v s).thr = s.thr := rfl
@[simp] theorem setRegF_tile (a lo len v : Nat) (s : State) : (setRegF a lo len v s).tile = s.tile := rfl
@[simp] theorem setRegF_trace (a lo len v : Nat) (s : State) : (setRegF a lo len v s).trace = s.trace := rfl
@[simp] theorem setRegF_kern (a lo len v : Nat) (s : State) : (setRegF a lo len v s).kern = s.kern := rfl
@[simp] theorem setRegF_post (a lo len v : Nat) (s : State) : (setRegF a lo len v s).post = s.post := rfl
@[simp] theorem setRegF_can (a lo len v : Nat) (s : State) : (setRegF a lo len v s).can = s.can := rfl
@[simp] theorem setRegF_kline (a lo len v : Nat) (s : State) : (setRegF a lo len v s).kline = s.kline := rfl
@[simp] theorem setRegF_loop (a lo len v : Nat) (s : State) : (setRegF a lo len v s).loop = s.loop := rfl
@[simp] theorem setRegF_waili (a lo len v : Nat) (s : State) : (setRegF a lo len v s).waili = s.waili := rfl
@[simp] theorem setRegF_chisel (a lo len v : Nat) (s : State) : (setRegF a lo len v s).chisel = s.chisel := rfl
@[simp] theorem setRegF_free (a lo len v : Nat) (s : State) : (setRegF a lo len v s).free = s.free := rfl
@[simp] theorem setRegF_result (a lo len v : Nat) (s : State) : (setRegF a lo len v s).result = s.result := rfl

/-! ### `setRegBit` -/

@[simp] theorem setRegBit_pending (a i : Nat) (b : Bool) (s : State) : (setRegBit a i b s).pending = s.pending := rfl
@[simp] theorem setRegBit_power (a i : Nat) (b : Bool) (s : State) : (setRegBit a i b s).power = s.power := rfl
@[simp] theorem setRegBit_now (a i : Nat) (b : Bool) (s : State) : (setRegBit a i b s).now = s.now := rfl
@[simp] theorem setRegBit_xregs (a i : Nat) (b : Bool) (s : State) : (setRegBit a i b s).xregs = s.xregs := rfl
@[simp] theorem setRegBit_hw (a i : Nat) (b : Bool) (s : State) : (setRegBit a i b s).hw = s.hw := rfl
@[simp] theorem setRegBit_lines (a i : Nat) (b : Bool) (s : State) : (setRegBit a i b s).lines = s.lines := rfl
@[simp] theorem setRegBit_boot (a i : Nat) (b : Bool) (s : State) : (setRegBit a i b s).boot = s.boot := rfl
@[simp] theorem setRegBit_plinth (a i : Nat) (b : Bool) (s : State) : (setRegBit a i b s).plinth = s.plinth := rfl
@[simp] theorem setRegBit_modes (a i : Nat) (b : Bool) (s : State) : (setRegBit a i b s).modes = s.modes := rfl
@[simp] theorem setRegBit_intc (a i : Nat) (b : Bool) (s : State) : (setRegBit a i b s).intc = s.intc := rfl
@[simp] theorem setRegBit_fcol (a i : Nat) (b : Bool) (s : State) : (setRegBit a i b s).fcol = s.fcol := rfl
@[simp] theorem setRegBit_mem (a i : Nat) (b : Bool) (s : State) : (setRegBit a i b s).mem = s.mem := rfl
@[simp] theorem setRegBit_flash (a i : Nat) (b : Bool) (s : State) : (setRegBit a i b s).flash = s.flash := rfl
@[simp] theorem setRegBit_cour (a i : Nat) (b : Bool) (s : State) : (setRegBit a i b s).cour = s.cour := rfl
@[simp] theorem setRegBit_otp (a i : Nat) (b : Bool) (s : State) : (setRegBit a i b s).otp = s.otp := rfl
@[simp] theorem setRegBit_out (a i : Nat) (b : Bool) (s : State) : (setRegBit a i b s).out = s.out := rfl
@[simp] theorem setRegBit_ang (a i : Nat) (b : Bool) (s : State) : (setRegBit a i b s).ang = s.ang := rfl
@[simp] theorem setRegBit_evt (a i : Nat) (b : Bool) (s : State) : (setRegBit a i b s).evt = s.evt := rfl
@[simp] theorem setRegBit_adc (a i : Nat) (b : Bool) (s : State) : (setRegBit a i b s).adc = s.adc := rfl
@[simp] theorem setRegBit_thr (a i : Nat) (b : Bool) (s : State) : (setRegBit a i b s).thr = s.thr := rfl
@[simp] theorem setRegBit_tile (a i : Nat) (b : Bool) (s : State) : (setRegBit a i b s).tile = s.tile := rfl
@[simp] theorem setRegBit_trace (a i : Nat) (b : Bool) (s : State) : (setRegBit a i b s).trace = s.trace := rfl
@[simp] theorem setRegBit_kern (a i : Nat) (b : Bool) (s : State) : (setRegBit a i b s).kern = s.kern := rfl
@[simp] theorem setRegBit_post (a i : Nat) (b : Bool) (s : State) : (setRegBit a i b s).post = s.post := rfl
@[simp] theorem setRegBit_can (a i : Nat) (b : Bool) (s : State) : (setRegBit a i b s).can = s.can := rfl
@[simp] theorem setRegBit_kline (a i : Nat) (b : Bool) (s : State) : (setRegBit a i b s).kline = s.kline := rfl
@[simp] theorem setRegBit_loop (a i : Nat) (b : Bool) (s : State) : (setRegBit a i b s).loop = s.loop := rfl
@[simp] theorem setRegBit_waili (a i : Nat) (b : Bool) (s : State) : (setRegBit a i b s).waili = s.waili := rfl
@[simp] theorem setRegBit_chisel (a i : Nat) (b : Bool) (s : State) : (setRegBit a i b s).chisel = s.chisel := rfl
@[simp] theorem setRegBit_free (a i : Nat) (b : Bool) (s : State) : (setRegBit a i b s).free = s.free := rfl
@[simp] theorem setRegBit_result (a i : Nat) (b : Bool) (s : State) : (setRegBit a i b s).result = s.result := rfl

/-! ### `hwSet` -/

@[simp] theorem hwSet_pending (a : Nat) (m : Word) (s : State) : (hwSet a m s).pending = s.pending := rfl
@[simp] theorem hwSet_power (a : Nat) (m : Word) (s : State) : (hwSet a m s).power = s.power := rfl
@[simp] theorem hwSet_now (a : Nat) (m : Word) (s : State) : (hwSet a m s).now = s.now := rfl
@[simp] theorem hwSet_xregs (a : Nat) (m : Word) (s : State) : (hwSet a m s).xregs = s.xregs := rfl
@[simp] theorem hwSet_lines (a : Nat) (m : Word) (s : State) : (hwSet a m s).lines = s.lines := rfl
@[simp] theorem hwSet_boot (a : Nat) (m : Word) (s : State) : (hwSet a m s).boot = s.boot := rfl
@[simp] theorem hwSet_plinth (a : Nat) (m : Word) (s : State) : (hwSet a m s).plinth = s.plinth := rfl
@[simp] theorem hwSet_modes (a : Nat) (m : Word) (s : State) : (hwSet a m s).modes = s.modes := rfl
@[simp] theorem hwSet_intc (a : Nat) (m : Word) (s : State) : (hwSet a m s).intc = s.intc := rfl
@[simp] theorem hwSet_fcol (a : Nat) (m : Word) (s : State) : (hwSet a m s).fcol = s.fcol := rfl
@[simp] theorem hwSet_mem (a : Nat) (m : Word) (s : State) : (hwSet a m s).mem = s.mem := rfl
@[simp] theorem hwSet_flash (a : Nat) (m : Word) (s : State) : (hwSet a m s).flash = s.flash := rfl
@[simp] theorem hwSet_cour (a : Nat) (m : Word) (s : State) : (hwSet a m s).cour = s.cour := rfl
@[simp] theorem hwSet_otp (a : Nat) (m : Word) (s : State) : (hwSet a m s).otp = s.otp := rfl
@[simp] theorem hwSet_out (a : Nat) (m : Word) (s : State) : (hwSet a m s).out = s.out := rfl
@[simp] theorem hwSet_ang (a : Nat) (m : Word) (s : State) : (hwSet a m s).ang = s.ang := rfl
@[simp] theorem hwSet_evt (a : Nat) (m : Word) (s : State) : (hwSet a m s).evt = s.evt := rfl
@[simp] theorem hwSet_adc (a : Nat) (m : Word) (s : State) : (hwSet a m s).adc = s.adc := rfl
@[simp] theorem hwSet_thr (a : Nat) (m : Word) (s : State) : (hwSet a m s).thr = s.thr := rfl
@[simp] theorem hwSet_tile (a : Nat) (m : Word) (s : State) : (hwSet a m s).tile = s.tile := rfl
@[simp] theorem hwSet_trace (a : Nat) (m : Word) (s : State) : (hwSet a m s).trace = s.trace := rfl
@[simp] theorem hwSet_kern (a : Nat) (m : Word) (s : State) : (hwSet a m s).kern = s.kern := rfl
@[simp] theorem hwSet_post (a : Nat) (m : Word) (s : State) : (hwSet a m s).post = s.post := rfl
@[simp] theorem hwSet_can (a : Nat) (m : Word) (s : State) : (hwSet a m s).can = s.can := rfl
@[simp] theorem hwSet_kline (a : Nat) (m : Word) (s : State) : (hwSet a m s).kline = s.kline := rfl
@[simp] theorem hwSet_loop (a : Nat) (m : Word) (s : State) : (hwSet a m s).loop = s.loop := rfl
@[simp] theorem hwSet_waili (a : Nat) (m : Word) (s : State) : (hwSet a m s).waili = s.waili := rfl
@[simp] theorem hwSet_chisel (a : Nat) (m : Word) (s : State) : (hwSet a m s).chisel = s.chisel := rfl
@[simp] theorem hwSet_free (a : Nat) (m : Word) (s : State) : (hwSet a m s).free = s.free := rfl
@[simp] theorem hwSet_result (a : Nat) (m : Word) (s : State) : (hwSet a m s).result = s.result := rfl

/-! ### `hwCountF` -/

@[simp] theorem hwCountF_pending (a lo len n : Nat) (s : State) : (hwCountF a lo len n s).pending = s.pending := rfl
@[simp] theorem hwCountF_power (a lo len n : Nat) (s : State) : (hwCountF a lo len n s).power = s.power := rfl
@[simp] theorem hwCountF_now (a lo len n : Nat) (s : State) : (hwCountF a lo len n s).now = s.now := rfl
@[simp] theorem hwCountF_xregs (a lo len n : Nat) (s : State) : (hwCountF a lo len n s).xregs = s.xregs := rfl
@[simp] theorem hwCountF_lines (a lo len n : Nat) (s : State) : (hwCountF a lo len n s).lines = s.lines := rfl
@[simp] theorem hwCountF_boot (a lo len n : Nat) (s : State) : (hwCountF a lo len n s).boot = s.boot := rfl
@[simp] theorem hwCountF_plinth (a lo len n : Nat) (s : State) : (hwCountF a lo len n s).plinth = s.plinth := rfl
@[simp] theorem hwCountF_modes (a lo len n : Nat) (s : State) : (hwCountF a lo len n s).modes = s.modes := rfl
@[simp] theorem hwCountF_intc (a lo len n : Nat) (s : State) : (hwCountF a lo len n s).intc = s.intc := rfl
@[simp] theorem hwCountF_fcol (a lo len n : Nat) (s : State) : (hwCountF a lo len n s).fcol = s.fcol := rfl
@[simp] theorem hwCountF_mem (a lo len n : Nat) (s : State) : (hwCountF a lo len n s).mem = s.mem := rfl
@[simp] theorem hwCountF_flash (a lo len n : Nat) (s : State) : (hwCountF a lo len n s).flash = s.flash := rfl
@[simp] theorem hwCountF_cour (a lo len n : Nat) (s : State) : (hwCountF a lo len n s).cour = s.cour := rfl
@[simp] theorem hwCountF_otp (a lo len n : Nat) (s : State) : (hwCountF a lo len n s).otp = s.otp := rfl
@[simp] theorem hwCountF_out (a lo len n : Nat) (s : State) : (hwCountF a lo len n s).out = s.out := rfl
@[simp] theorem hwCountF_ang (a lo len n : Nat) (s : State) : (hwCountF a lo len n s).ang = s.ang := rfl
@[simp] theorem hwCountF_evt (a lo len n : Nat) (s : State) : (hwCountF a lo len n s).evt = s.evt := rfl
@[simp] theorem hwCountF_adc (a lo len n : Nat) (s : State) : (hwCountF a lo len n s).adc = s.adc := rfl
@[simp] theorem hwCountF_thr (a lo len n : Nat) (s : State) : (hwCountF a lo len n s).thr = s.thr := rfl
@[simp] theorem hwCountF_tile (a lo len n : Nat) (s : State) : (hwCountF a lo len n s).tile = s.tile := rfl
@[simp] theorem hwCountF_trace (a lo len n : Nat) (s : State) : (hwCountF a lo len n s).trace = s.trace := rfl
@[simp] theorem hwCountF_kern (a lo len n : Nat) (s : State) : (hwCountF a lo len n s).kern = s.kern := rfl
@[simp] theorem hwCountF_post (a lo len n : Nat) (s : State) : (hwCountF a lo len n s).post = s.post := rfl
@[simp] theorem hwCountF_can (a lo len n : Nat) (s : State) : (hwCountF a lo len n s).can = s.can := rfl
@[simp] theorem hwCountF_kline (a lo len n : Nat) (s : State) : (hwCountF a lo len n s).kline = s.kline := rfl
@[simp] theorem hwCountF_loop (a lo len n : Nat) (s : State) : (hwCountF a lo len n s).loop = s.loop := rfl
@[simp] theorem hwCountF_waili (a lo len n : Nat) (s : State) : (hwCountF a lo len n s).waili = s.waili := rfl
@[simp] theorem hwCountF_chisel (a lo len n : Nat) (s : State) : (hwCountF a lo len n s).chisel = s.chisel := rfl
@[simp] theorem hwCountF_free (a lo len n : Nat) (s : State) : (hwCountF a lo len n s).free = s.free := rfl
@[simp] theorem hwCountF_result (a lo len n : Nat) (s : State) : (hwCountF a lo len n s).result = s.result := rfl

/-! ### `hwCount` -/

@[simp] theorem hwCount_pending (a : Nat) (s : State) : (hwCount a s).pending = s.pending := rfl
@[simp] theorem hwCount_power (a : Nat) (s : State) : (hwCount a s).power = s.power := rfl
@[simp] theorem hwCount_now (a : Nat) (s : State) : (hwCount a s).now = s.now := rfl
@[simp] theorem hwCount_xregs (a : Nat) (s : State) : (hwCount a s).xregs = s.xregs := rfl
@[simp] theorem hwCount_lines (a : Nat) (s : State) : (hwCount a s).lines = s.lines := rfl
@[simp] theorem hwCount_boot (a : Nat) (s : State) : (hwCount a s).boot = s.boot := rfl
@[simp] theorem hwCount_plinth (a : Nat) (s : State) : (hwCount a s).plinth = s.plinth := rfl
@[simp] theorem hwCount_modes (a : Nat) (s : State) : (hwCount a s).modes = s.modes := rfl
@[simp] theorem hwCount_intc (a : Nat) (s : State) : (hwCount a s).intc = s.intc := rfl
@[simp] theorem hwCount_fcol (a : Nat) (s : State) : (hwCount a s).fcol = s.fcol := rfl
@[simp] theorem hwCount_mem (a : Nat) (s : State) : (hwCount a s).mem = s.mem := rfl
@[simp] theorem hwCount_flash (a : Nat) (s : State) : (hwCount a s).flash = s.flash := rfl
@[simp] theorem hwCount_cour (a : Nat) (s : State) : (hwCount a s).cour = s.cour := rfl
@[simp] theorem hwCount_otp (a : Nat) (s : State) : (hwCount a s).otp = s.otp := rfl
@[simp] theorem hwCount_out (a : Nat) (s : State) : (hwCount a s).out = s.out := rfl
@[simp] theorem hwCount_ang (a : Nat) (s : State) : (hwCount a s).ang = s.ang := rfl
@[simp] theorem hwCount_evt (a : Nat) (s : State) : (hwCount a s).evt = s.evt := rfl
@[simp] theorem hwCount_adc (a : Nat) (s : State) : (hwCount a s).adc = s.adc := rfl
@[simp] theorem hwCount_thr (a : Nat) (s : State) : (hwCount a s).thr = s.thr := rfl
@[simp] theorem hwCount_tile (a : Nat) (s : State) : (hwCount a s).tile = s.tile := rfl
@[simp] theorem hwCount_trace (a : Nat) (s : State) : (hwCount a s).trace = s.trace := rfl
@[simp] theorem hwCount_kern (a : Nat) (s : State) : (hwCount a s).kern = s.kern := rfl
@[simp] theorem hwCount_post (a : Nat) (s : State) : (hwCount a s).post = s.post := rfl
@[simp] theorem hwCount_can (a : Nat) (s : State) : (hwCount a s).can = s.can := rfl
@[simp] theorem hwCount_kline (a : Nat) (s : State) : (hwCount a s).kline = s.kline := rfl
@[simp] theorem hwCount_loop (a : Nat) (s : State) : (hwCount a s).loop = s.loop := rfl
@[simp] theorem hwCount_waili (a : Nat) (s : State) : (hwCount a s).waili = s.waili := rfl
@[simp] theorem hwCount_chisel (a : Nat) (s : State) : (hwCount a s).chisel = s.chisel := rfl
@[simp] theorem hwCount_free (a : Nat) (s : State) : (hwCount a s).free = s.free := rfl
@[simp] theorem hwCount_result (a : Nat) (s : State) : (hwCount a s).result = s.result := rfl

/-! ### `hwWrite` -/

@[simp] theorem hwWrite_pending (a : Nat) (v : Word) (s : State) : (hwWrite a v s).pending = s.pending := rfl
@[simp] theorem hwWrite_power (a : Nat) (v : Word) (s : State) : (hwWrite a v s).power = s.power := rfl
@[simp] theorem hwWrite_now (a : Nat) (v : Word) (s : State) : (hwWrite a v s).now = s.now := rfl
@[simp] theorem hwWrite_xregs (a : Nat) (v : Word) (s : State) : (hwWrite a v s).xregs = s.xregs := rfl
@[simp] theorem hwWrite_lines (a : Nat) (v : Word) (s : State) : (hwWrite a v s).lines = s.lines := rfl
@[simp] theorem hwWrite_boot (a : Nat) (v : Word) (s : State) : (hwWrite a v s).boot = s.boot := rfl
@[simp] theorem hwWrite_plinth (a : Nat) (v : Word) (s : State) : (hwWrite a v s).plinth = s.plinth := rfl
@[simp] theorem hwWrite_modes (a : Nat) (v : Word) (s : State) : (hwWrite a v s).modes = s.modes := rfl
@[simp] theorem hwWrite_intc (a : Nat) (v : Word) (s : State) : (hwWrite a v s).intc = s.intc := rfl
@[simp] theorem hwWrite_fcol (a : Nat) (v : Word) (s : State) : (hwWrite a v s).fcol = s.fcol := rfl
@[simp] theorem hwWrite_mem (a : Nat) (v : Word) (s : State) : (hwWrite a v s).mem = s.mem := rfl
@[simp] theorem hwWrite_flash (a : Nat) (v : Word) (s : State) : (hwWrite a v s).flash = s.flash := rfl
@[simp] theorem hwWrite_cour (a : Nat) (v : Word) (s : State) : (hwWrite a v s).cour = s.cour := rfl
@[simp] theorem hwWrite_otp (a : Nat) (v : Word) (s : State) : (hwWrite a v s).otp = s.otp := rfl
@[simp] theorem hwWrite_out (a : Nat) (v : Word) (s : State) : (hwWrite a v s).out = s.out := rfl
@[simp] theorem hwWrite_ang (a : Nat) (v : Word) (s : State) : (hwWrite a v s).ang = s.ang := rfl
@[simp] theorem hwWrite_evt (a : Nat) (v : Word) (s : State) : (hwWrite a v s).evt = s.evt := rfl
@[simp] theorem hwWrite_adc (a : Nat) (v : Word) (s : State) : (hwWrite a v s).adc = s.adc := rfl
@[simp] theorem hwWrite_thr (a : Nat) (v : Word) (s : State) : (hwWrite a v s).thr = s.thr := rfl
@[simp] theorem hwWrite_tile (a : Nat) (v : Word) (s : State) : (hwWrite a v s).tile = s.tile := rfl
@[simp] theorem hwWrite_trace (a : Nat) (v : Word) (s : State) : (hwWrite a v s).trace = s.trace := rfl
@[simp] theorem hwWrite_kern (a : Nat) (v : Word) (s : State) : (hwWrite a v s).kern = s.kern := rfl
@[simp] theorem hwWrite_post (a : Nat) (v : Word) (s : State) : (hwWrite a v s).post = s.post := rfl
@[simp] theorem hwWrite_can (a : Nat) (v : Word) (s : State) : (hwWrite a v s).can = s.can := rfl
@[simp] theorem hwWrite_kline (a : Nat) (v : Word) (s : State) : (hwWrite a v s).kline = s.kline := rfl
@[simp] theorem hwWrite_loop (a : Nat) (v : Word) (s : State) : (hwWrite a v s).loop = s.loop := rfl
@[simp] theorem hwWrite_waili (a : Nat) (v : Word) (s : State) : (hwWrite a v s).waili = s.waili := rfl
@[simp] theorem hwWrite_chisel (a : Nat) (v : Word) (s : State) : (hwWrite a v s).chisel = s.chisel := rfl
@[simp] theorem hwWrite_free (a : Nat) (v : Word) (s : State) : (hwWrite a v s).free = s.free := rfl
@[simp] theorem hwWrite_result (a : Nat) (v : Word) (s : State) : (hwWrite a v s).result = s.result := rfl

/-! ### `setXreg` -/

@[simp] theorem setXreg_pending (a : Nat) (v : Word) (s : State) : (setXreg a v s).pending = s.pending := rfl
@[simp] theorem setXreg_power (a : Nat) (v : Word) (s : State) : (setXreg a v s).power = s.power := rfl
@[simp] theorem setXreg_now (a : Nat) (v : Word) (s : State) : (setXreg a v s).now = s.now := rfl
@[simp] theorem setXreg_regs (a : Nat) (v : Word) (s : State) : (setXreg a v s).regs = s.regs := rfl
@[simp] theorem setXreg_hw (a : Nat) (v : Word) (s : State) : (setXreg a v s).hw = s.hw := rfl
@[simp] theorem setXreg_lines (a : Nat) (v : Word) (s : State) : (setXreg a v s).lines = s.lines := rfl
@[simp] theorem setXreg_boot (a : Nat) (v : Word) (s : State) : (setXreg a v s).boot = s.boot := rfl
@[simp] theorem setXreg_plinth (a : Nat) (v : Word) (s : State) : (setXreg a v s).plinth = s.plinth := rfl
@[simp] theorem setXreg_modes (a : Nat) (v : Word) (s : State) : (setXreg a v s).modes = s.modes := rfl
@[simp] theorem setXreg_intc (a : Nat) (v : Word) (s : State) : (setXreg a v s).intc = s.intc := rfl
@[simp] theorem setXreg_fcol (a : Nat) (v : Word) (s : State) : (setXreg a v s).fcol = s.fcol := rfl
@[simp] theorem setXreg_mem (a : Nat) (v : Word) (s : State) : (setXreg a v s).mem = s.mem := rfl
@[simp] theorem setXreg_flash (a : Nat) (v : Word) (s : State) : (setXreg a v s).flash = s.flash := rfl
@[simp] theorem setXreg_cour (a : Nat) (v : Word) (s : State) : (setXreg a v s).cour = s.cour := rfl
@[simp] theorem setXreg_otp (a : Nat) (v : Word) (s : State) : (setXreg a v s).otp = s.otp := rfl
@[simp] theorem setXreg_out (a : Nat) (v : Word) (s : State) : (setXreg a v s).out = s.out := rfl
@[simp] theorem setXreg_ang (a : Nat) (v : Word) (s : State) : (setXreg a v s).ang = s.ang := rfl
@[simp] theorem setXreg_evt (a : Nat) (v : Word) (s : State) : (setXreg a v s).evt = s.evt := rfl
@[simp] theorem setXreg_adc (a : Nat) (v : Word) (s : State) : (setXreg a v s).adc = s.adc := rfl
@[simp] theorem setXreg_thr (a : Nat) (v : Word) (s : State) : (setXreg a v s).thr = s.thr := rfl
@[simp] theorem setXreg_tile (a : Nat) (v : Word) (s : State) : (setXreg a v s).tile = s.tile := rfl
@[simp] theorem setXreg_trace (a : Nat) (v : Word) (s : State) : (setXreg a v s).trace = s.trace := rfl
@[simp] theorem setXreg_kern (a : Nat) (v : Word) (s : State) : (setXreg a v s).kern = s.kern := rfl
@[simp] theorem setXreg_post (a : Nat) (v : Word) (s : State) : (setXreg a v s).post = s.post := rfl
@[simp] theorem setXreg_can (a : Nat) (v : Word) (s : State) : (setXreg a v s).can = s.can := rfl
@[simp] theorem setXreg_kline (a : Nat) (v : Word) (s : State) : (setXreg a v s).kline = s.kline := rfl
@[simp] theorem setXreg_loop (a : Nat) (v : Word) (s : State) : (setXreg a v s).loop = s.loop := rfl
@[simp] theorem setXreg_waili (a : Nat) (v : Word) (s : State) : (setXreg a v s).waili = s.waili := rfl
@[simp] theorem setXreg_chisel (a : Nat) (v : Word) (s : State) : (setXreg a v s).chisel = s.chisel := rfl
@[simp] theorem setXreg_free (a : Nat) (v : Word) (s : State) : (setXreg a v s).free = s.free := rfl
@[simp] theorem setXreg_result (a : Nat) (v : Word) (s : State) : (setXreg a v s).result = s.result := rfl

/-! ### `setXregF` -/

@[simp] theorem setXregF_pending (a lo len v : Nat) (s : State) : (setXregF a lo len v s).pending = s.pending := rfl
@[simp] theorem setXregF_power (a lo len v : Nat) (s : State) : (setXregF a lo len v s).power = s.power := rfl
@[simp] theorem setXregF_now (a lo len v : Nat) (s : State) : (setXregF a lo len v s).now = s.now := rfl
@[simp] theorem setXregF_regs (a lo len v : Nat) (s : State) : (setXregF a lo len v s).regs = s.regs := rfl
@[simp] theorem setXregF_hw (a lo len v : Nat) (s : State) : (setXregF a lo len v s).hw = s.hw := rfl
@[simp] theorem setXregF_lines (a lo len v : Nat) (s : State) : (setXregF a lo len v s).lines = s.lines := rfl
@[simp] theorem setXregF_boot (a lo len v : Nat) (s : State) : (setXregF a lo len v s).boot = s.boot := rfl
@[simp] theorem setXregF_plinth (a lo len v : Nat) (s : State) : (setXregF a lo len v s).plinth = s.plinth := rfl
@[simp] theorem setXregF_modes (a lo len v : Nat) (s : State) : (setXregF a lo len v s).modes = s.modes := rfl
@[simp] theorem setXregF_intc (a lo len v : Nat) (s : State) : (setXregF a lo len v s).intc = s.intc := rfl
@[simp] theorem setXregF_fcol (a lo len v : Nat) (s : State) : (setXregF a lo len v s).fcol = s.fcol := rfl
@[simp] theorem setXregF_mem (a lo len v : Nat) (s : State) : (setXregF a lo len v s).mem = s.mem := rfl
@[simp] theorem setXregF_flash (a lo len v : Nat) (s : State) : (setXregF a lo len v s).flash = s.flash := rfl
@[simp] theorem setXregF_cour (a lo len v : Nat) (s : State) : (setXregF a lo len v s).cour = s.cour := rfl
@[simp] theorem setXregF_otp (a lo len v : Nat) (s : State) : (setXregF a lo len v s).otp = s.otp := rfl
@[simp] theorem setXregF_out (a lo len v : Nat) (s : State) : (setXregF a lo len v s).out = s.out := rfl
@[simp] theorem setXregF_ang (a lo len v : Nat) (s : State) : (setXregF a lo len v s).ang = s.ang := rfl
@[simp] theorem setXregF_evt (a lo len v : Nat) (s : State) : (setXregF a lo len v s).evt = s.evt := rfl
@[simp] theorem setXregF_adc (a lo len v : Nat) (s : State) : (setXregF a lo len v s).adc = s.adc := rfl
@[simp] theorem setXregF_thr (a lo len v : Nat) (s : State) : (setXregF a lo len v s).thr = s.thr := rfl
@[simp] theorem setXregF_tile (a lo len v : Nat) (s : State) : (setXregF a lo len v s).tile = s.tile := rfl
@[simp] theorem setXregF_trace (a lo len v : Nat) (s : State) : (setXregF a lo len v s).trace = s.trace := rfl
@[simp] theorem setXregF_kern (a lo len v : Nat) (s : State) : (setXregF a lo len v s).kern = s.kern := rfl
@[simp] theorem setXregF_post (a lo len v : Nat) (s : State) : (setXregF a lo len v s).post = s.post := rfl
@[simp] theorem setXregF_can (a lo len v : Nat) (s : State) : (setXregF a lo len v s).can = s.can := rfl
@[simp] theorem setXregF_kline (a lo len v : Nat) (s : State) : (setXregF a lo len v s).kline = s.kline := rfl
@[simp] theorem setXregF_loop (a lo len v : Nat) (s : State) : (setXregF a lo len v s).loop = s.loop := rfl
@[simp] theorem setXregF_waili (a lo len v : Nat) (s : State) : (setXregF a lo len v s).waili = s.waili := rfl
@[simp] theorem setXregF_chisel (a lo len v : Nat) (s : State) : (setXregF a lo len v s).chisel = s.chisel := rfl
@[simp] theorem setXregF_free (a lo len v : Nat) (s : State) : (setXregF a lo len v s).free = s.free := rfl
@[simp] theorem setXregF_result (a lo len v : Nat) (s : State) : (setXregF a lo len v s).result = s.result := rfl

/-! ### `regWriteBits` -/

@[simp] theorem regWriteBits_pending (a : Nat) (v : Word) (s : State) : (regWriteBits a v s).pending = s.pending := rfl
@[simp] theorem regWriteBits_power (a : Nat) (v : Word) (s : State) : (regWriteBits a v s).power = s.power := rfl
@[simp] theorem regWriteBits_now (a : Nat) (v : Word) (s : State) : (regWriteBits a v s).now = s.now := rfl
@[simp] theorem regWriteBits_xregs (a : Nat) (v : Word) (s : State) : (regWriteBits a v s).xregs = s.xregs := rfl
@[simp] theorem regWriteBits_hw (a : Nat) (v : Word) (s : State) : (regWriteBits a v s).hw = s.hw := rfl
@[simp] theorem regWriteBits_lines (a : Nat) (v : Word) (s : State) : (regWriteBits a v s).lines = s.lines := rfl
@[simp] theorem regWriteBits_boot (a : Nat) (v : Word) (s : State) : (regWriteBits a v s).boot = s.boot := rfl
@[simp] theorem regWriteBits_plinth (a : Nat) (v : Word) (s : State) : (regWriteBits a v s).plinth = s.plinth := rfl
@[simp] theorem regWriteBits_modes (a : Nat) (v : Word) (s : State) : (regWriteBits a v s).modes = s.modes := rfl
@[simp] theorem regWriteBits_intc (a : Nat) (v : Word) (s : State) : (regWriteBits a v s).intc = s.intc := rfl
@[simp] theorem regWriteBits_fcol (a : Nat) (v : Word) (s : State) : (regWriteBits a v s).fcol = s.fcol := rfl
@[simp] theorem regWriteBits_mem (a : Nat) (v : Word) (s : State) : (regWriteBits a v s).mem = s.mem := rfl
@[simp] theorem regWriteBits_flash (a : Nat) (v : Word) (s : State) : (regWriteBits a v s).flash = s.flash := rfl
@[simp] theorem regWriteBits_cour (a : Nat) (v : Word) (s : State) : (regWriteBits a v s).cour = s.cour := rfl
@[simp] theorem regWriteBits_otp (a : Nat) (v : Word) (s : State) : (regWriteBits a v s).otp = s.otp := rfl
@[simp] theorem regWriteBits_out (a : Nat) (v : Word) (s : State) : (regWriteBits a v s).out = s.out := rfl
@[simp] theorem regWriteBits_ang (a : Nat) (v : Word) (s : State) : (regWriteBits a v s).ang = s.ang := rfl
@[simp] theorem regWriteBits_evt (a : Nat) (v : Word) (s : State) : (regWriteBits a v s).evt = s.evt := rfl
@[simp] theorem regWriteBits_adc (a : Nat) (v : Word) (s : State) : (regWriteBits a v s).adc = s.adc := rfl
@[simp] theorem regWriteBits_thr (a : Nat) (v : Word) (s : State) : (regWriteBits a v s).thr = s.thr := rfl
@[simp] theorem regWriteBits_tile (a : Nat) (v : Word) (s : State) : (regWriteBits a v s).tile = s.tile := rfl
@[simp] theorem regWriteBits_trace (a : Nat) (v : Word) (s : State) : (regWriteBits a v s).trace = s.trace := rfl
@[simp] theorem regWriteBits_kern (a : Nat) (v : Word) (s : State) : (regWriteBits a v s).kern = s.kern := rfl
@[simp] theorem regWriteBits_post (a : Nat) (v : Word) (s : State) : (regWriteBits a v s).post = s.post := rfl
@[simp] theorem regWriteBits_can (a : Nat) (v : Word) (s : State) : (regWriteBits a v s).can = s.can := rfl
@[simp] theorem regWriteBits_kline (a : Nat) (v : Word) (s : State) : (regWriteBits a v s).kline = s.kline := rfl
@[simp] theorem regWriteBits_loop (a : Nat) (v : Word) (s : State) : (regWriteBits a v s).loop = s.loop := rfl
@[simp] theorem regWriteBits_waili (a : Nat) (v : Word) (s : State) : (regWriteBits a v s).waili = s.waili := rfl
@[simp] theorem regWriteBits_chisel (a : Nat) (v : Word) (s : State) : (regWriteBits a v s).chisel = s.chisel := rfl
@[simp] theorem regWriteBits_free (a : Nat) (v : Word) (s : State) : (regWriteBits a v s).free = s.free := rfl
@[simp] theorem regWriteBits_result (a : Nat) (v : Word) (s : State) : (regWriteBits a v s).result = s.result := rfl

/-! ### `advance` -/

@[simp] theorem advance_pending (n : Nat) (s : State) : (advance n s).pending = s.pending := rfl
@[simp] theorem advance_power (n : Nat) (s : State) : (advance n s).power = s.power := rfl
@[simp] theorem advance_regs (n : Nat) (s : State) : (advance n s).regs = s.regs := rfl
@[simp] theorem advance_xregs (n : Nat) (s : State) : (advance n s).xregs = s.xregs := rfl
@[simp] theorem advance_hw (n : Nat) (s : State) : (advance n s).hw = s.hw := rfl
@[simp] theorem advance_lines (n : Nat) (s : State) : (advance n s).lines = s.lines := rfl
@[simp] theorem advance_boot (n : Nat) (s : State) : (advance n s).boot = s.boot := rfl
@[simp] theorem advance_modes (n : Nat) (s : State) : (advance n s).modes = s.modes := rfl
@[simp] theorem advance_intc (n : Nat) (s : State) : (advance n s).intc = s.intc := rfl
@[simp] theorem advance_fcol (n : Nat) (s : State) : (advance n s).fcol = s.fcol := rfl
@[simp] theorem advance_mem (n : Nat) (s : State) : (advance n s).mem = s.mem := rfl
@[simp] theorem advance_flash (n : Nat) (s : State) : (advance n s).flash = s.flash := rfl
@[simp] theorem advance_cour (n : Nat) (s : State) : (advance n s).cour = s.cour := rfl
@[simp] theorem advance_otp (n : Nat) (s : State) : (advance n s).otp = s.otp := rfl
@[simp] theorem advance_out (n : Nat) (s : State) : (advance n s).out = s.out := rfl
@[simp] theorem advance_ang (n : Nat) (s : State) : (advance n s).ang = s.ang := rfl
@[simp] theorem advance_evt (n : Nat) (s : State) : (advance n s).evt = s.evt := rfl
@[simp] theorem advance_adc (n : Nat) (s : State) : (advance n s).adc = s.adc := rfl
@[simp] theorem advance_thr (n : Nat) (s : State) : (advance n s).thr = s.thr := rfl
@[simp] theorem advance_tile (n : Nat) (s : State) : (advance n s).tile = s.tile := rfl
@[simp] theorem advance_trace (n : Nat) (s : State) : (advance n s).trace = s.trace := rfl
@[simp] theorem advance_kern (n : Nat) (s : State) : (advance n s).kern = s.kern := rfl
@[simp] theorem advance_post (n : Nat) (s : State) : (advance n s).post = s.post := rfl
@[simp] theorem advance_can (n : Nat) (s : State) : (advance n s).can = s.can := rfl
@[simp] theorem advance_kline (n : Nat) (s : State) : (advance n s).kline = s.kline := rfl
@[simp] theorem advance_loop (n : Nat) (s : State) : (advance n s).loop = s.loop := rfl
@[simp] theorem advance_waili (n : Nat) (s : State) : (advance n s).waili = s.waili := rfl
@[simp] theorem advance_chisel (n : Nat) (s : State) : (advance n s).chisel = s.chisel := rfl
@[simp] theorem advance_free (n : Nat) (s : State) : (advance n s).free = s.free := rfl
@[simp] theorem advance_result (n : Nat) (s : State) : (advance n s).result = s.result := rfl
@[simp] theorem advance_now (n : Nat) (s : State) : (advance n s).now = s.now + n := rfl

/-! ### `raise` -/

@[simp] theorem raise_pending (r : Raise) (s : State) : (raise r s).pending = s.pending := rfl
@[simp] theorem raise_power (r : Raise) (s : State) : (raise r s).power = s.power := rfl
@[simp] theorem raise_now (r : Raise) (s : State) : (raise r s).now = s.now := rfl
@[simp] theorem raise_regs (r : Raise) (s : State) : (raise r s).regs = s.regs := rfl
@[simp] theorem raise_xregs (r : Raise) (s : State) : (raise r s).xregs = s.xregs := rfl
@[simp] theorem raise_hw (r : Raise) (s : State) : (raise r s).hw = s.hw := rfl
@[simp] theorem raise_lines (r : Raise) (s : State) : (raise r s).lines = s.lines := rfl
@[simp] theorem raise_boot (r : Raise) (s : State) : (raise r s).boot = s.boot := rfl
@[simp] theorem raise_plinth (r : Raise) (s : State) : (raise r s).plinth = s.plinth := rfl
@[simp] theorem raise_modes (r : Raise) (s : State) : (raise r s).modes = s.modes := rfl
@[simp] theorem raise_intc (r : Raise) (s : State) : (raise r s).intc = s.intc := rfl
@[simp] theorem raise_mem (r : Raise) (s : State) : (raise r s).mem = s.mem := rfl
@[simp] theorem raise_flash (r : Raise) (s : State) : (raise r s).flash = s.flash := rfl
@[simp] theorem raise_cour (r : Raise) (s : State) : (raise r s).cour = s.cour := rfl
@[simp] theorem raise_otp (r : Raise) (s : State) : (raise r s).otp = s.otp := rfl
@[simp] theorem raise_out (r : Raise) (s : State) : (raise r s).out = s.out := rfl
@[simp] theorem raise_ang (r : Raise) (s : State) : (raise r s).ang = s.ang := rfl
@[simp] theorem raise_evt (r : Raise) (s : State) : (raise r s).evt = s.evt := rfl
@[simp] theorem raise_adc (r : Raise) (s : State) : (raise r s).adc = s.adc := rfl
@[simp] theorem raise_thr (r : Raise) (s : State) : (raise r s).thr = s.thr := rfl
@[simp] theorem raise_tile (r : Raise) (s : State) : (raise r s).tile = s.tile := rfl
@[simp] theorem raise_trace (r : Raise) (s : State) : (raise r s).trace = s.trace := rfl
@[simp] theorem raise_kern (r : Raise) (s : State) : (raise r s).kern = s.kern := rfl
@[simp] theorem raise_post (r : Raise) (s : State) : (raise r s).post = s.post := rfl
@[simp] theorem raise_can (r : Raise) (s : State) : (raise r s).can = s.can := rfl
@[simp] theorem raise_kline (r : Raise) (s : State) : (raise r s).kline = s.kline := rfl
@[simp] theorem raise_loop (r : Raise) (s : State) : (raise r s).loop = s.loop := rfl
@[simp] theorem raise_waili (r : Raise) (s : State) : (raise r s).waili = s.waili := rfl
@[simp] theorem raise_chisel (r : Raise) (s : State) : (raise r s).chisel = s.chisel := rfl
@[simp] theorem raise_free (r : Raise) (s : State) : (raise r s).free = s.free := rfl
@[simp] theorem raise_result (r : Raise) (s : State) : (raise r s).result = s.result := rfl
@[simp] theorem raise_fcol (r : Raise) (s : State) : (raise r s).fcol = { s.fcol with raises := s.fcol.raises ++ [r] } := rfl

/-! ### `note` -/

@[simp] theorem note_pending (c : Fin 16) (d : Word) (s : State) : (note c d s).pending = s.pending := rfl
@[simp] theorem note_power (c : Fin 16) (d : Word) (s : State) : (note c d s).power = s.power := rfl
@[simp] theorem note_now (c : Fin 16) (d : Word) (s : State) : (note c d s).now = s.now := rfl
@[simp] theorem note_regs (c : Fin 16) (d : Word) (s : State) : (note c d s).regs = s.regs := rfl
@[simp] theorem note_xregs (c : Fin 16) (d : Word) (s : State) : (note c d s).xregs = s.xregs := rfl
@[simp] theorem note_hw (c : Fin 16) (d : Word) (s : State) : (note c d s).hw = s.hw := rfl
@[simp] theorem note_lines (c : Fin 16) (d : Word) (s : State) : (note c d s).lines = s.lines := rfl
@[simp] theorem note_boot (c : Fin 16) (d : Word) (s : State) : (note c d s).boot = s.boot := rfl
@[simp] theorem note_plinth (c : Fin 16) (d : Word) (s : State) : (note c d s).plinth = s.plinth := rfl
@[simp] theorem note_modes (c : Fin 16) (d : Word) (s : State) : (note c d s).modes = s.modes := rfl
@[simp] theorem note_intc (c : Fin 16) (d : Word) (s : State) : (note c d s).intc = s.intc := rfl
@[simp] theorem note_mem (c : Fin 16) (d : Word) (s : State) : (note c d s).mem = s.mem := rfl
@[simp] theorem note_flash (c : Fin 16) (d : Word) (s : State) : (note c d s).flash = s.flash := rfl
@[simp] theorem note_cour (c : Fin 16) (d : Word) (s : State) : (note c d s).cour = s.cour := rfl
@[simp] theorem note_otp (c : Fin 16) (d : Word) (s : State) : (note c d s).otp = s.otp := rfl
@[simp] theorem note_out (c : Fin 16) (d : Word) (s : State) : (note c d s).out = s.out := rfl
@[simp] theorem note_ang (c : Fin 16) (d : Word) (s : State) : (note c d s).ang = s.ang := rfl
@[simp] theorem note_evt (c : Fin 16) (d : Word) (s : State) : (note c d s).evt = s.evt := rfl
@[simp] theorem note_adc (c : Fin 16) (d : Word) (s : State) : (note c d s).adc = s.adc := rfl
@[simp] theorem note_thr (c : Fin 16) (d : Word) (s : State) : (note c d s).thr = s.thr := rfl
@[simp] theorem note_tile (c : Fin 16) (d : Word) (s : State) : (note c d s).tile = s.tile := rfl
@[simp] theorem note_trace (c : Fin 16) (d : Word) (s : State) : (note c d s).trace = s.trace := rfl
@[simp] theorem note_kern (c : Fin 16) (d : Word) (s : State) : (note c d s).kern = s.kern := rfl
@[simp] theorem note_post (c : Fin 16) (d : Word) (s : State) : (note c d s).post = s.post := rfl
@[simp] theorem note_can (c : Fin 16) (d : Word) (s : State) : (note c d s).can = s.can := rfl
@[simp] theorem note_kline (c : Fin 16) (d : Word) (s : State) : (note c d s).kline = s.kline := rfl
@[simp] theorem note_loop (c : Fin 16) (d : Word) (s : State) : (note c d s).loop = s.loop := rfl
@[simp] theorem note_waili (c : Fin 16) (d : Word) (s : State) : (note c d s).waili = s.waili := rfl
@[simp] theorem note_chisel (c : Fin 16) (d : Word) (s : State) : (note c d s).chisel = s.chisel := rfl
@[simp] theorem note_free (c : Fin 16) (d : Word) (s : State) : (note c d s).free = s.free := rfl
@[simp] theorem note_result (c : Fin 16) (d : Word) (s : State) : (note c d s).result = s.result := rfl

/-! ### `setPlinth` -/

@[simp] theorem setPlinth_pending (f : Plinth → Plinth) (s : State) : (setPlinth f s).pending = s.pending := rfl
@[simp] theorem setPlinth_power (f : Plinth → Plinth) (s : State) : (setPlinth f s).power = s.power := rfl
@[simp] theorem setPlinth_now (f : Plinth → Plinth) (s : State) : (setPlinth f s).now = s.now := rfl
@[simp] theorem setPlinth_regs (f : Plinth → Plinth) (s : State) : (setPlinth f s).regs = s.regs := rfl
@[simp] theorem setPlinth_xregs (f : Plinth → Plinth) (s : State) : (setPlinth f s).xregs = s.xregs := rfl
@[simp] theorem setPlinth_hw (f : Plinth → Plinth) (s : State) : (setPlinth f s).hw = s.hw := rfl
@[simp] theorem setPlinth_lines (f : Plinth → Plinth) (s : State) : (setPlinth f s).lines = s.lines := rfl
@[simp] theorem setPlinth_boot (f : Plinth → Plinth) (s : State) : (setPlinth f s).boot = s.boot := rfl
@[simp] theorem setPlinth_modes (f : Plinth → Plinth) (s : State) : (setPlinth f s).modes = s.modes := rfl
@[simp] theorem setPlinth_intc (f : Plinth → Plinth) (s : State) : (setPlinth f s).intc = s.intc := rfl
@[simp] theorem setPlinth_fcol (f : Plinth → Plinth) (s : State) : (setPlinth f s).fcol = s.fcol := rfl
@[simp] theorem setPlinth_mem (f : Plinth → Plinth) (s : State) : (setPlinth f s).mem = s.mem := rfl
@[simp] theorem setPlinth_flash (f : Plinth → Plinth) (s : State) : (setPlinth f s).flash = s.flash := rfl
@[simp] theorem setPlinth_cour (f : Plinth → Plinth) (s : State) : (setPlinth f s).cour = s.cour := rfl
@[simp] theorem setPlinth_otp (f : Plinth → Plinth) (s : State) : (setPlinth f s).otp = s.otp := rfl
@[simp] theorem setPlinth_out (f : Plinth → Plinth) (s : State) : (setPlinth f s).out = s.out := rfl
@[simp] theorem setPlinth_ang (f : Plinth → Plinth) (s : State) : (setPlinth f s).ang = s.ang := rfl
@[simp] theorem setPlinth_evt (f : Plinth → Plinth) (s : State) : (setPlinth f s).evt = s.evt := rfl
@[simp] theorem setPlinth_adc (f : Plinth → Plinth) (s : State) : (setPlinth f s).adc = s.adc := rfl
@[simp] theorem setPlinth_thr (f : Plinth → Plinth) (s : State) : (setPlinth f s).thr = s.thr := rfl
@[simp] theorem setPlinth_tile (f : Plinth → Plinth) (s : State) : (setPlinth f s).tile = s.tile := rfl
@[simp] theorem setPlinth_trace (f : Plinth → Plinth) (s : State) : (setPlinth f s).trace = s.trace := rfl
@[simp] theorem setPlinth_kern (f : Plinth → Plinth) (s : State) : (setPlinth f s).kern = s.kern := rfl
@[simp] theorem setPlinth_post (f : Plinth → Plinth) (s : State) : (setPlinth f s).post = s.post := rfl
@[simp] theorem setPlinth_can (f : Plinth → Plinth) (s : State) : (setPlinth f s).can = s.can := rfl
@[simp] theorem setPlinth_kline (f : Plinth → Plinth) (s : State) : (setPlinth f s).kline = s.kline := rfl
@[simp] theorem setPlinth_loop (f : Plinth → Plinth) (s : State) : (setPlinth f s).loop = s.loop := rfl
@[simp] theorem setPlinth_waili (f : Plinth → Plinth) (s : State) : (setPlinth f s).waili = s.waili := rfl
@[simp] theorem setPlinth_chisel (f : Plinth → Plinth) (s : State) : (setPlinth f s).chisel = s.chisel := rfl
@[simp] theorem setPlinth_free (f : Plinth → Plinth) (s : State) : (setPlinth f s).free = s.free := rfl
@[simp] theorem setPlinth_result (f : Plinth → Plinth) (s : State) : (setPlinth f s).result = s.result := rfl
@[simp] theorem setPlinth_plinth (f : Plinth → Plinth) (s : State) : (setPlinth f s).plinth = f s.plinth := rfl

/-! ### `setModes` -/

@[simp] theorem setModes_pending (f : Modes → Modes) (s : State) : (setModes f s).pending = s.pending := rfl
@[simp] theorem setModes_power (f : Modes → Modes) (s : State) : (setModes f s).power = s.power := rfl
@[simp] theorem setModes_now (f : Modes → Modes) (s : State) : (setModes f s).now = s.now := rfl
@[simp] theorem setModes_regs (f : Modes → Modes) (s : State) : (setModes f s).regs = s.regs := rfl
@[simp] theorem setModes_xregs (f : Modes → Modes) (s : State) : (setModes f s).xregs = s.xregs := rfl
@[simp] theorem setModes_hw (f : Modes → Modes) (s : State) : (setModes f s).hw = s.hw := rfl
@[simp] theorem setModes_lines (f : Modes → Modes) (s : State) : (setModes f s).lines = s.lines := rfl
@[simp] theorem setModes_boot (f : Modes → Modes) (s : State) : (setModes f s).boot = s.boot := rfl
@[simp] theorem setModes_plinth (f : Modes → Modes) (s : State) : (setModes f s).plinth = s.plinth := rfl
@[simp] theorem setModes_intc (f : Modes → Modes) (s : State) : (setModes f s).intc = s.intc := rfl
@[simp] theorem setModes_fcol (f : Modes → Modes) (s : State) : (setModes f s).fcol = s.fcol := rfl
@[simp] theorem setModes_mem (f : Modes → Modes) (s : State) : (setModes f s).mem = s.mem := rfl
@[simp] theorem setModes_flash (f : Modes → Modes) (s : State) : (setModes f s).flash = s.flash := rfl
@[simp] theorem setModes_cour (f : Modes → Modes) (s : State) : (setModes f s).cour = s.cour := rfl
@[simp] theorem setModes_otp (f : Modes → Modes) (s : State) : (setModes f s).otp = s.otp := rfl
@[simp] theorem setModes_out (f : Modes → Modes) (s : State) : (setModes f s).out = s.out := rfl
@[simp] theorem setModes_ang (f : Modes → Modes) (s : State) : (setModes f s).ang = s.ang := rfl
@[simp] theorem setModes_evt (f : Modes → Modes) (s : State) : (setModes f s).evt = s.evt := rfl
@[simp] theorem setModes_adc (f : Modes → Modes) (s : State) : (setModes f s).adc = s.adc := rfl
@[simp] theorem setModes_thr (f : Modes → Modes) (s : State) : (setModes f s).thr = s.thr := rfl
@[simp] theorem setModes_tile (f : Modes → Modes) (s : State) : (setModes f s).tile = s.tile := rfl
@[simp] theorem setModes_trace (f : Modes → Modes) (s : State) : (setModes f s).trace = s.trace := rfl
@[simp] theorem setModes_kern (f : Modes → Modes) (s : State) : (setModes f s).kern = s.kern := rfl
@[simp] theorem setModes_post (f : Modes → Modes) (s : State) : (setModes f s).post = s.post := rfl
@[simp] theorem setModes_can (f : Modes → Modes) (s : State) : (setModes f s).can = s.can := rfl
@[simp] theorem setModes_kline (f : Modes → Modes) (s : State) : (setModes f s).kline = s.kline := rfl
@[simp] theorem setModes_loop (f : Modes → Modes) (s : State) : (setModes f s).loop = s.loop := rfl
@[simp] theorem setModes_waili (f : Modes → Modes) (s : State) : (setModes f s).waili = s.waili := rfl
@[simp] theorem setModes_chisel (f : Modes → Modes) (s : State) : (setModes f s).chisel = s.chisel := rfl
@[simp] theorem setModes_free (f : Modes → Modes) (s : State) : (setModes f s).free = s.free := rfl
@[simp] theorem setModes_result (f : Modes → Modes) (s : State) : (setModes f s).result = s.result := rfl
@[simp] theorem setModes_modes (f : Modes → Modes) (s : State) : (setModes f s).modes = f s.modes := rfl

/-! ### `setFcol` -/

@[simp] theorem setFcol_pending (f : Fcol → Fcol) (s : State) : (setFcol f s).pending = s.pending := rfl
@[simp] theorem setFcol_power (f : Fcol → Fcol) (s : State) : (setFcol f s).power = s.power := rfl
@[simp] theorem setFcol_now (f : Fcol → Fcol) (s : State) : (setFcol f s).now = s.now := rfl
@[simp] theorem setFcol_regs (f : Fcol → Fcol) (s : State) : (setFcol f s).regs = s.regs := rfl
@[simp] theorem setFcol_xregs (f : Fcol → Fcol) (s : State) : (setFcol f s).xregs = s.xregs := rfl
@[simp] theorem setFcol_hw (f : Fcol → Fcol) (s : State) : (setFcol f s).hw = s.hw := rfl
@[simp] theorem setFcol_lines (f : Fcol → Fcol) (s : State) : (setFcol f s).lines = s.lines := rfl
@[simp] theorem setFcol_boot (f : Fcol → Fcol) (s : State) : (setFcol f s).boot = s.boot := rfl
@[simp] theorem setFcol_plinth (f : Fcol → Fcol) (s : State) : (setFcol f s).plinth = s.plinth := rfl
@[simp] theorem setFcol_modes (f : Fcol → Fcol) (s : State) : (setFcol f s).modes = s.modes := rfl
@[simp] theorem setFcol_intc (f : Fcol → Fcol) (s : State) : (setFcol f s).intc = s.intc := rfl
@[simp] theorem setFcol_mem (f : Fcol → Fcol) (s : State) : (setFcol f s).mem = s.mem := rfl
@[simp] theorem setFcol_flash (f : Fcol → Fcol) (s : State) : (setFcol f s).flash = s.flash := rfl
@[simp] theorem setFcol_cour (f : Fcol → Fcol) (s : State) : (setFcol f s).cour = s.cour := rfl
@[simp] theorem setFcol_otp (f : Fcol → Fcol) (s : State) : (setFcol f s).otp = s.otp := rfl
@[simp] theorem setFcol_out (f : Fcol → Fcol) (s : State) : (setFcol f s).out = s.out := rfl
@[simp] theorem setFcol_ang (f : Fcol → Fcol) (s : State) : (setFcol f s).ang = s.ang := rfl
@[simp] theorem setFcol_evt (f : Fcol → Fcol) (s : State) : (setFcol f s).evt = s.evt := rfl
@[simp] theorem setFcol_adc (f : Fcol → Fcol) (s : State) : (setFcol f s).adc = s.adc := rfl
@[simp] theorem setFcol_thr (f : Fcol → Fcol) (s : State) : (setFcol f s).thr = s.thr := rfl
@[simp] theorem setFcol_tile (f : Fcol → Fcol) (s : State) : (setFcol f s).tile = s.tile := rfl
@[simp] theorem setFcol_trace (f : Fcol → Fcol) (s : State) : (setFcol f s).trace = s.trace := rfl
@[simp] theorem setFcol_kern (f : Fcol → Fcol) (s : State) : (setFcol f s).kern = s.kern := rfl
@[simp] theorem setFcol_post (f : Fcol → Fcol) (s : State) : (setFcol f s).post = s.post := rfl
@[simp] theorem setFcol_can (f : Fcol → Fcol) (s : State) : (setFcol f s).can = s.can := rfl
@[simp] theorem setFcol_kline (f : Fcol → Fcol) (s : State) : (setFcol f s).kline = s.kline := rfl
@[simp] theorem setFcol_loop (f : Fcol → Fcol) (s : State) : (setFcol f s).loop = s.loop := rfl
@[simp] theorem setFcol_waili (f : Fcol → Fcol) (s : State) : (setFcol f s).waili = s.waili := rfl
@[simp] theorem setFcol_chisel (f : Fcol → Fcol) (s : State) : (setFcol f s).chisel = s.chisel := rfl
@[simp] theorem setFcol_free (f : Fcol → Fcol) (s : State) : (setFcol f s).free = s.free := rfl
@[simp] theorem setFcol_result (f : Fcol → Fcol) (s : State) : (setFcol f s).result = s.result := rfl
@[simp] theorem setFcol_fcol (f : Fcol → Fcol) (s : State) : (setFcol f s).fcol = f s.fcol := rfl

/-! ### `setAng` -/

@[simp] theorem setAng_pending (f : Ang → Ang) (s : State) : (setAng f s).pending = s.pending := rfl
@[simp] theorem setAng_power (f : Ang → Ang) (s : State) : (setAng f s).power = s.power := rfl
@[simp] theorem setAng_now (f : Ang → Ang) (s : State) : (setAng f s).now = s.now := rfl
@[simp] theorem setAng_regs (f : Ang → Ang) (s : State) : (setAng f s).regs = s.regs := rfl
@[simp] theorem setAng_xregs (f : Ang → Ang) (s : State) : (setAng f s).xregs = s.xregs := rfl
@[simp] theorem setAng_hw (f : Ang → Ang) (s : State) : (setAng f s).hw = s.hw := rfl
@[simp] theorem setAng_lines (f : Ang → Ang) (s : State) : (setAng f s).lines = s.lines := rfl
@[simp] theorem setAng_boot (f : Ang → Ang) (s : State) : (setAng f s).boot = s.boot := rfl
@[simp] theorem setAng_plinth (f : Ang → Ang) (s : State) : (setAng f s).plinth = s.plinth := rfl
@[simp] theorem setAng_modes (f : Ang → Ang) (s : State) : (setAng f s).modes = s.modes := rfl
@[simp] theorem setAng_intc (f : Ang → Ang) (s : State) : (setAng f s).intc = s.intc := rfl
@[simp] theorem setAng_fcol (f : Ang → Ang) (s : State) : (setAng f s).fcol = s.fcol := rfl
@[simp] theorem setAng_mem (f : Ang → Ang) (s : State) : (setAng f s).mem = s.mem := rfl
@[simp] theorem setAng_flash (f : Ang → Ang) (s : State) : (setAng f s).flash = s.flash := rfl
@[simp] theorem setAng_cour (f : Ang → Ang) (s : State) : (setAng f s).cour = s.cour := rfl
@[simp] theorem setAng_otp (f : Ang → Ang) (s : State) : (setAng f s).otp = s.otp := rfl
@[simp] theorem setAng_out (f : Ang → Ang) (s : State) : (setAng f s).out = s.out := rfl
@[simp] theorem setAng_evt (f : Ang → Ang) (s : State) : (setAng f s).evt = s.evt := rfl
@[simp] theorem setAng_adc (f : Ang → Ang) (s : State) : (setAng f s).adc = s.adc := rfl
@[simp] theorem setAng_thr (f : Ang → Ang) (s : State) : (setAng f s).thr = s.thr := rfl
@[simp] theorem setAng_tile (f : Ang → Ang) (s : State) : (setAng f s).tile = s.tile := rfl
@[simp] theorem setAng_trace (f : Ang → Ang) (s : State) : (setAng f s).trace = s.trace := rfl
@[simp] theorem setAng_kern (f : Ang → Ang) (s : State) : (setAng f s).kern = s.kern := rfl
@[simp] theorem setAng_post (f : Ang → Ang) (s : State) : (setAng f s).post = s.post := rfl
@[simp] theorem setAng_can (f : Ang → Ang) (s : State) : (setAng f s).can = s.can := rfl
@[simp] theorem setAng_kline (f : Ang → Ang) (s : State) : (setAng f s).kline = s.kline := rfl
@[simp] theorem setAng_loop (f : Ang → Ang) (s : State) : (setAng f s).loop = s.loop := rfl
@[simp] theorem setAng_waili (f : Ang → Ang) (s : State) : (setAng f s).waili = s.waili := rfl
@[simp] theorem setAng_chisel (f : Ang → Ang) (s : State) : (setAng f s).chisel = s.chisel := rfl
@[simp] theorem setAng_free (f : Ang → Ang) (s : State) : (setAng f s).free = s.free := rfl
@[simp] theorem setAng_result (f : Ang → Ang) (s : State) : (setAng f s).result = s.result := rfl
@[simp] theorem setAng_ang (f : Ang → Ang) (s : State) : (setAng f s).ang = f s.ang := rfl

/-! ### `setKern` -/

@[simp] theorem setKern_pending (f : Kern → Kern) (s : State) : (setKern f s).pending = s.pending := rfl
@[simp] theorem setKern_power (f : Kern → Kern) (s : State) : (setKern f s).power = s.power := rfl
@[simp] theorem setKern_now (f : Kern → Kern) (s : State) : (setKern f s).now = s.now := rfl
@[simp] theorem setKern_regs (f : Kern → Kern) (s : State) : (setKern f s).regs = s.regs := rfl
@[simp] theorem setKern_xregs (f : Kern → Kern) (s : State) : (setKern f s).xregs = s.xregs := rfl
@[simp] theorem setKern_hw (f : Kern → Kern) (s : State) : (setKern f s).hw = s.hw := rfl
@[simp] theorem setKern_lines (f : Kern → Kern) (s : State) : (setKern f s).lines = s.lines := rfl
@[simp] theorem setKern_boot (f : Kern → Kern) (s : State) : (setKern f s).boot = s.boot := rfl
@[simp] theorem setKern_plinth (f : Kern → Kern) (s : State) : (setKern f s).plinth = s.plinth := rfl
@[simp] theorem setKern_modes (f : Kern → Kern) (s : State) : (setKern f s).modes = s.modes := rfl
@[simp] theorem setKern_intc (f : Kern → Kern) (s : State) : (setKern f s).intc = s.intc := rfl
@[simp] theorem setKern_fcol (f : Kern → Kern) (s : State) : (setKern f s).fcol = s.fcol := rfl
@[simp] theorem setKern_mem (f : Kern → Kern) (s : State) : (setKern f s).mem = s.mem := rfl
@[simp] theorem setKern_flash (f : Kern → Kern) (s : State) : (setKern f s).flash = s.flash := rfl
@[simp] theorem setKern_cour (f : Kern → Kern) (s : State) : (setKern f s).cour = s.cour := rfl
@[simp] theorem setKern_otp (f : Kern → Kern) (s : State) : (setKern f s).otp = s.otp := rfl
@[simp] theorem setKern_out (f : Kern → Kern) (s : State) : (setKern f s).out = s.out := rfl
@[simp] theorem setKern_ang (f : Kern → Kern) (s : State) : (setKern f s).ang = s.ang := rfl
@[simp] theorem setKern_evt (f : Kern → Kern) (s : State) : (setKern f s).evt = s.evt := rfl
@[simp] theorem setKern_adc (f : Kern → Kern) (s : State) : (setKern f s).adc = s.adc := rfl
@[simp] theorem setKern_thr (f : Kern → Kern) (s : State) : (setKern f s).thr = s.thr := rfl
@[simp] theorem setKern_tile (f : Kern → Kern) (s : State) : (setKern f s).tile = s.tile := rfl
@[simp] theorem setKern_trace (f : Kern → Kern) (s : State) : (setKern f s).trace = s.trace := rfl
@[simp] theorem setKern_post (f : Kern → Kern) (s : State) : (setKern f s).post = s.post := rfl
@[simp] theorem setKern_can (f : Kern → Kern) (s : State) : (setKern f s).can = s.can := rfl
@[simp] theorem setKern_kline (f : Kern → Kern) (s : State) : (setKern f s).kline = s.kline := rfl
@[simp] theorem setKern_loop (f : Kern → Kern) (s : State) : (setKern f s).loop = s.loop := rfl
@[simp] theorem setKern_waili (f : Kern → Kern) (s : State) : (setKern f s).waili = s.waili := rfl
@[simp] theorem setKern_chisel (f : Kern → Kern) (s : State) : (setKern f s).chisel = s.chisel := rfl
@[simp] theorem setKern_free (f : Kern → Kern) (s : State) : (setKern f s).free = s.free := rfl
@[simp] theorem setKern_result (f : Kern → Kern) (s : State) : (setKern f s).result = s.result := rfl
@[simp] theorem setKern_kern (f : Kern → Kern) (s : State) : (setKern f s).kern = f s.kern := rfl

/-! ### `setKline` -/

@[simp] theorem setKline_pending (f : Kline → Kline) (s : State) : (setKline f s).pending = s.pending := rfl
@[simp] theorem setKline_power (f : Kline → Kline) (s : State) : (setKline f s).power = s.power := rfl
@[simp] theorem setKline_now (f : Kline → Kline) (s : State) : (setKline f s).now = s.now := rfl
@[simp] theorem setKline_regs (f : Kline → Kline) (s : State) : (setKline f s).regs = s.regs := rfl
@[simp] theorem setKline_xregs (f : Kline → Kline) (s : State) : (setKline f s).xregs = s.xregs := rfl
@[simp] theorem setKline_hw (f : Kline → Kline) (s : State) : (setKline f s).hw = s.hw := rfl
@[simp] theorem setKline_lines (f : Kline → Kline) (s : State) : (setKline f s).lines = s.lines := rfl
@[simp] theorem setKline_boot (f : Kline → Kline) (s : State) : (setKline f s).boot = s.boot := rfl
@[simp] theorem setKline_plinth (f : Kline → Kline) (s : State) : (setKline f s).plinth = s.plinth := rfl
@[simp] theorem setKline_modes (f : Kline → Kline) (s : State) : (setKline f s).modes = s.modes := rfl
@[simp] theorem setKline_intc (f : Kline → Kline) (s : State) : (setKline f s).intc = s.intc := rfl
@[simp] theorem setKline_fcol (f : Kline → Kline) (s : State) : (setKline f s).fcol = s.fcol := rfl
@[simp] theorem setKline_mem (f : Kline → Kline) (s : State) : (setKline f s).mem = s.mem := rfl
@[simp] theorem setKline_flash (f : Kline → Kline) (s : State) : (setKline f s).flash = s.flash := rfl
@[simp] theorem setKline_cour (f : Kline → Kline) (s : State) : (setKline f s).cour = s.cour := rfl
@[simp] theorem setKline_otp (f : Kline → Kline) (s : State) : (setKline f s).otp = s.otp := rfl
@[simp] theorem setKline_out (f : Kline → Kline) (s : State) : (setKline f s).out = s.out := rfl
@[simp] theorem setKline_ang (f : Kline → Kline) (s : State) : (setKline f s).ang = s.ang := rfl
@[simp] theorem setKline_evt (f : Kline → Kline) (s : State) : (setKline f s).evt = s.evt := rfl
@[simp] theorem setKline_adc (f : Kline → Kline) (s : State) : (setKline f s).adc = s.adc := rfl
@[simp] theorem setKline_thr (f : Kline → Kline) (s : State) : (setKline f s).thr = s.thr := rfl
@[simp] theorem setKline_tile (f : Kline → Kline) (s : State) : (setKline f s).tile = s.tile := rfl
@[simp] theorem setKline_trace (f : Kline → Kline) (s : State) : (setKline f s).trace = s.trace := rfl
@[simp] theorem setKline_kern (f : Kline → Kline) (s : State) : (setKline f s).kern = s.kern := rfl
@[simp] theorem setKline_post (f : Kline → Kline) (s : State) : (setKline f s).post = s.post := rfl
@[simp] theorem setKline_can (f : Kline → Kline) (s : State) : (setKline f s).can = s.can := rfl
@[simp] theorem setKline_loop (f : Kline → Kline) (s : State) : (setKline f s).loop = s.loop := rfl
@[simp] theorem setKline_waili (f : Kline → Kline) (s : State) : (setKline f s).waili = s.waili := rfl
@[simp] theorem setKline_chisel (f : Kline → Kline) (s : State) : (setKline f s).chisel = s.chisel := rfl
@[simp] theorem setKline_free (f : Kline → Kline) (s : State) : (setKline f s).free = s.free := rfl
@[simp] theorem setKline_result (f : Kline → Kline) (s : State) : (setKline f s).result = s.result := rfl
@[simp] theorem setKline_kline (f : Kline → Kline) (s : State) : (setKline f s).kline = f s.kline := rfl

/-! ### `setLoop` -/

@[simp] theorem setLoop_pending (f : Loop → Loop) (s : State) : (setLoop f s).pending = s.pending := rfl
@[simp] theorem setLoop_power (f : Loop → Loop) (s : State) : (setLoop f s).power = s.power := rfl
@[simp] theorem setLoop_now (f : Loop → Loop) (s : State) : (setLoop f s).now = s.now := rfl
@[simp] theorem setLoop_regs (f : Loop → Loop) (s : State) : (setLoop f s).regs = s.regs := rfl
@[simp] theorem setLoop_xregs (f : Loop → Loop) (s : State) : (setLoop f s).xregs = s.xregs := rfl
@[simp] theorem setLoop_hw (f : Loop → Loop) (s : State) : (setLoop f s).hw = s.hw := rfl
@[simp] theorem setLoop_lines (f : Loop → Loop) (s : State) : (setLoop f s).lines = s.lines := rfl
@[simp] theorem setLoop_boot (f : Loop → Loop) (s : State) : (setLoop f s).boot = s.boot := rfl
@[simp] theorem setLoop_plinth (f : Loop → Loop) (s : State) : (setLoop f s).plinth = s.plinth := rfl
@[simp] theorem setLoop_modes (f : Loop → Loop) (s : State) : (setLoop f s).modes = s.modes := rfl
@[simp] theorem setLoop_intc (f : Loop → Loop) (s : State) : (setLoop f s).intc = s.intc := rfl
@[simp] theorem setLoop_fcol (f : Loop → Loop) (s : State) : (setLoop f s).fcol = s.fcol := rfl
@[simp] theorem setLoop_mem (f : Loop → Loop) (s : State) : (setLoop f s).mem = s.mem := rfl
@[simp] theorem setLoop_flash (f : Loop → Loop) (s : State) : (setLoop f s).flash = s.flash := rfl
@[simp] theorem setLoop_cour (f : Loop → Loop) (s : State) : (setLoop f s).cour = s.cour := rfl
@[simp] theorem setLoop_otp (f : Loop → Loop) (s : State) : (setLoop f s).otp = s.otp := rfl
@[simp] theorem setLoop_out (f : Loop → Loop) (s : State) : (setLoop f s).out = s.out := rfl
@[simp] theorem setLoop_ang (f : Loop → Loop) (s : State) : (setLoop f s).ang = s.ang := rfl
@[simp] theorem setLoop_evt (f : Loop → Loop) (s : State) : (setLoop f s).evt = s.evt := rfl
@[simp] theorem setLoop_adc (f : Loop → Loop) (s : State) : (setLoop f s).adc = s.adc := rfl
@[simp] theorem setLoop_thr (f : Loop → Loop) (s : State) : (setLoop f s).thr = s.thr := rfl
@[simp] theorem setLoop_tile (f : Loop → Loop) (s : State) : (setLoop f s).tile = s.tile := rfl
@[simp] theorem setLoop_trace (f : Loop → Loop) (s : State) : (setLoop f s).trace = s.trace := rfl
@[simp] theorem setLoop_kern (f : Loop → Loop) (s : State) : (setLoop f s).kern = s.kern := rfl
@[simp] theorem setLoop_post (f : Loop → Loop) (s : State) : (setLoop f s).post = s.post := rfl
@[simp] theorem setLoop_can (f : Loop → Loop) (s : State) : (setLoop f s).can = s.can := rfl
@[simp] theorem setLoop_kline (f : Loop → Loop) (s : State) : (setLoop f s).kline = s.kline := rfl
@[simp] theorem setLoop_waili (f : Loop → Loop) (s : State) : (setLoop f s).waili = s.waili := rfl
@[simp] theorem setLoop_chisel (f : Loop → Loop) (s : State) : (setLoop f s).chisel = s.chisel := rfl
@[simp] theorem setLoop_free (f : Loop → Loop) (s : State) : (setLoop f s).free = s.free := rfl
@[simp] theorem setLoop_result (f : Loop → Loop) (s : State) : (setLoop f s).result = s.result := rfl
@[simp] theorem setLoop_loop (f : Loop → Loop) (s : State) : (setLoop f s).loop = f s.loop := rfl

/-! ### `setWaili` -/

@[simp] theorem setWaili_pending (f : Waili → Waili) (s : State) : (setWaili f s).pending = s.pending := rfl
@[simp] theorem setWaili_power (f : Waili → Waili) (s : State) : (setWaili f s).power = s.power := rfl
@[simp] theorem setWaili_now (f : Waili → Waili) (s : State) : (setWaili f s).now = s.now := rfl
@[simp] theorem setWaili_regs (f : Waili → Waili) (s : State) : (setWaili f s).regs = s.regs := rfl
@[simp] theorem setWaili_xregs (f : Waili → Waili) (s : State) : (setWaili f s).xregs = s.xregs := rfl
@[simp] theorem setWaili_hw (f : Waili → Waili) (s : State) : (setWaili f s).hw = s.hw := rfl
@[simp] theorem setWaili_lines (f : Waili → Waili) (s : State) : (setWaili f s).lines = s.lines := rfl
@[simp] theorem setWaili_boot (f : Waili → Waili) (s : State) : (setWaili f s).boot = s.boot := rfl
@[simp] theorem setWaili_plinth (f : Waili → Waili) (s : State) : (setWaili f s).plinth = s.plinth := rfl
@[simp] theorem setWaili_modes (f : Waili → Waili) (s : State) : (setWaili f s).modes = s.modes := rfl
@[simp] theorem setWaili_intc (f : Waili → Waili) (s : State) : (setWaili f s).intc = s.intc := rfl
@[simp] theorem setWaili_fcol (f : Waili → Waili) (s : State) : (setWaili f s).fcol = s.fcol := rfl
@[simp] theorem setWaili_mem (f : Waili → Waili) (s : State) : (setWaili f s).mem = s.mem := rfl
@[simp] theorem setWaili_flash (f : Waili → Waili) (s : State) : (setWaili f s).flash = s.flash := rfl
@[simp] theorem setWaili_cour (f : Waili → Waili) (s : State) : (setWaili f s).cour = s.cour := rfl
@[simp] theorem setWaili_otp (f : Waili → Waili) (s : State) : (setWaili f s).otp = s.otp := rfl
@[simp] theorem setWaili_out (f : Waili → Waili) (s : State) : (setWaili f s).out = s.out := rfl
@[simp] theorem setWaili_ang (f : Waili → Waili) (s : State) : (setWaili f s).ang = s.ang := rfl
@[simp] theorem setWaili_evt (f : Waili → Waili) (s : State) : (setWaili f s).evt = s.evt := rfl
@[simp] theorem setWaili_adc (f : Waili → Waili) (s : State) : (setWaili f s).adc = s.adc := rfl
@[simp] theorem setWaili_thr (f : Waili → Waili) (s : State) : (setWaili f s).thr = s.thr := rfl
@[simp] theorem setWaili_tile (f : Waili → Waili) (s : State) : (setWaili f s).tile = s.tile := rfl
@[simp] theorem setWaili_trace (f : Waili → Waili) (s : State) : (setWaili f s).trace = s.trace := rfl
@[simp] theorem setWaili_kern (f : Waili → Waili) (s : State) : (setWaili f s).kern = s.kern := rfl
@[simp] theorem setWaili_post (f : Waili → Waili) (s : State) : (setWaili f s).post = s.post := rfl
@[simp] theorem setWaili_can (f : Waili → Waili) (s : State) : (setWaili f s).can = s.can := rfl
@[simp] theorem setWaili_kline (f : Waili → Waili) (s : State) : (setWaili f s).kline = s.kline := rfl
@[simp] theorem setWaili_loop (f : Waili → Waili) (s : State) : (setWaili f s).loop = s.loop := rfl
@[simp] theorem setWaili_chisel (f : Waili → Waili) (s : State) : (setWaili f s).chisel = s.chisel := rfl
@[simp] theorem setWaili_free (f : Waili → Waili) (s : State) : (setWaili f s).free = s.free := rfl
@[simp] theorem setWaili_result (f : Waili → Waili) (s : State) : (setWaili f s).result = s.result := rfl
@[simp] theorem setWaili_waili (f : Waili → Waili) (s : State) : (setWaili f s).waili = f s.waili := rfl

/-! ### `setChisel` -/

@[simp] theorem setChisel_pending (f : Chisel → Chisel) (s : State) : (setChisel f s).pending = s.pending := rfl
@[simp] theorem setChisel_power (f : Chisel → Chisel) (s : State) : (setChisel f s).power = s.power := rfl
@[simp] theorem setChisel_now (f : Chisel → Chisel) (s : State) : (setChisel f s).now = s.now := rfl
@[simp] theorem setChisel_regs (f : Chisel → Chisel) (s : State) : (setChisel f s).regs = s.regs := rfl
@[simp] theorem setChisel_xregs (f : Chisel → Chisel) (s : State) : (setChisel f s).xregs = s.xregs := rfl
@[simp] theorem setChisel_hw (f : Chisel → Chisel) (s : State) : (setChisel f s).hw = s.hw := rfl
@[simp] theorem setChisel_lines (f : Chisel → Chisel) (s : State) : (setChisel f s).lines = s.lines := rfl
@[simp] theorem setChisel_boot (f : Chisel → Chisel) (s : State) : (setChisel f s).boot = s.boot := rfl
@[simp] theorem setChisel_plinth (f : Chisel → Chisel) (s : State) : (setChisel f s).plinth = s.plinth := rfl
@[simp] theorem setChisel_modes (f : Chisel → Chisel) (s : State) : (setChisel f s).modes = s.modes := rfl
@[simp] theorem setChisel_intc (f : Chisel → Chisel) (s : State) : (setChisel f s).intc = s.intc := rfl
@[simp] theorem setChisel_fcol (f : Chisel → Chisel) (s : State) : (setChisel f s).fcol = s.fcol := rfl
@[simp] theorem setChisel_mem (f : Chisel → Chisel) (s : State) : (setChisel f s).mem = s.mem := rfl
@[simp] theorem setChisel_flash (f : Chisel → Chisel) (s : State) : (setChisel f s).flash = s.flash := rfl
@[simp] theorem setChisel_cour (f : Chisel → Chisel) (s : State) : (setChisel f s).cour = s.cour := rfl
@[simp] theorem setChisel_otp (f : Chisel → Chisel) (s : State) : (setChisel f s).otp = s.otp := rfl
@[simp] theorem setChisel_out (f : Chisel → Chisel) (s : State) : (setChisel f s).out = s.out := rfl
@[simp] theorem setChisel_ang (f : Chisel → Chisel) (s : State) : (setChisel f s).ang = s.ang := rfl
@[simp] theorem setChisel_evt (f : Chisel → Chisel) (s : State) : (setChisel f s).evt = s.evt := rfl
@[simp] theorem setChisel_adc (f : Chisel → Chisel) (s : State) : (setChisel f s).adc = s.adc := rfl
@[simp] theorem setChisel_thr (f : Chisel → Chisel) (s : State) : (setChisel f s).thr = s.thr := rfl
@[simp] theorem setChisel_tile (f : Chisel → Chisel) (s : State) : (setChisel f s).tile = s.tile := rfl
@[simp] theorem setChisel_trace (f : Chisel → Chisel) (s : State) : (setChisel f s).trace = s.trace := rfl
@[simp] theorem setChisel_kern (f : Chisel → Chisel) (s : State) : (setChisel f s).kern = s.kern := rfl
@[simp] theorem setChisel_post (f : Chisel → Chisel) (s : State) : (setChisel f s).post = s.post := rfl
@[simp] theorem setChisel_can (f : Chisel → Chisel) (s : State) : (setChisel f s).can = s.can := rfl
@[simp] theorem setChisel_kline (f : Chisel → Chisel) (s : State) : (setChisel f s).kline = s.kline := rfl
@[simp] theorem setChisel_loop (f : Chisel → Chisel) (s : State) : (setChisel f s).loop = s.loop := rfl
@[simp] theorem setChisel_waili (f : Chisel → Chisel) (s : State) : (setChisel f s).waili = s.waili := rfl
@[simp] theorem setChisel_free (f : Chisel → Chisel) (s : State) : (setChisel f s).free = s.free := rfl
@[simp] theorem setChisel_result (f : Chisel → Chisel) (s : State) : (setChisel f s).result = s.result := rfl
@[simp] theorem setChisel_chisel (f : Chisel → Chisel) (s : State) : (setChisel f s).chisel = f s.chisel := rfl

/-! ### `setCan` -/

@[simp] theorem setCan_pending (k : Fin 2) (f : Can → Can) (s : State) : (setCan k f s).pending = s.pending := rfl
@[simp] theorem setCan_power (k : Fin 2) (f : Can → Can) (s : State) : (setCan k f s).power = s.power := rfl
@[simp] theorem setCan_now (k : Fin 2) (f : Can → Can) (s : State) : (setCan k f s).now = s.now := rfl
@[simp] theorem setCan_regs (k : Fin 2) (f : Can → Can) (s : State) : (setCan k f s).regs = s.regs := rfl
@[simp] theorem setCan_xregs (k : Fin 2) (f : Can → Can) (s : State) : (setCan k f s).xregs = s.xregs := rfl
@[simp] theorem setCan_hw (k : Fin 2) (f : Can → Can) (s : State) : (setCan k f s).hw = s.hw := rfl
@[simp] theorem setCan_lines (k : Fin 2) (f : Can → Can) (s : State) : (setCan k f s).lines = s.lines := rfl
@[simp] theorem setCan_boot (k : Fin 2) (f : Can → Can) (s : State) : (setCan k f s).boot = s.boot := rfl
@[simp] theorem setCan_plinth (k : Fin 2) (f : Can → Can) (s : State) : (setCan k f s).plinth = s.plinth := rfl
@[simp] theorem setCan_modes (k : Fin 2) (f : Can → Can) (s : State) : (setCan k f s).modes = s.modes := rfl
@[simp] theorem setCan_intc (k : Fin 2) (f : Can → Can) (s : State) : (setCan k f s).intc = s.intc := rfl
@[simp] theorem setCan_fcol (k : Fin 2) (f : Can → Can) (s : State) : (setCan k f s).fcol = s.fcol := rfl
@[simp] theorem setCan_mem (k : Fin 2) (f : Can → Can) (s : State) : (setCan k f s).mem = s.mem := rfl
@[simp] theorem setCan_flash (k : Fin 2) (f : Can → Can) (s : State) : (setCan k f s).flash = s.flash := rfl
@[simp] theorem setCan_cour (k : Fin 2) (f : Can → Can) (s : State) : (setCan k f s).cour = s.cour := rfl
@[simp] theorem setCan_otp (k : Fin 2) (f : Can → Can) (s : State) : (setCan k f s).otp = s.otp := rfl
@[simp] theorem setCan_out (k : Fin 2) (f : Can → Can) (s : State) : (setCan k f s).out = s.out := rfl
@[simp] theorem setCan_ang (k : Fin 2) (f : Can → Can) (s : State) : (setCan k f s).ang = s.ang := rfl
@[simp] theorem setCan_evt (k : Fin 2) (f : Can → Can) (s : State) : (setCan k f s).evt = s.evt := rfl
@[simp] theorem setCan_adc (k : Fin 2) (f : Can → Can) (s : State) : (setCan k f s).adc = s.adc := rfl
@[simp] theorem setCan_thr (k : Fin 2) (f : Can → Can) (s : State) : (setCan k f s).thr = s.thr := rfl
@[simp] theorem setCan_tile (k : Fin 2) (f : Can → Can) (s : State) : (setCan k f s).tile = s.tile := rfl
@[simp] theorem setCan_trace (k : Fin 2) (f : Can → Can) (s : State) : (setCan k f s).trace = s.trace := rfl
@[simp] theorem setCan_kern (k : Fin 2) (f : Can → Can) (s : State) : (setCan k f s).kern = s.kern := rfl
@[simp] theorem setCan_post (k : Fin 2) (f : Can → Can) (s : State) : (setCan k f s).post = s.post := rfl
@[simp] theorem setCan_kline (k : Fin 2) (f : Can → Can) (s : State) : (setCan k f s).kline = s.kline := rfl
@[simp] theorem setCan_loop (k : Fin 2) (f : Can → Can) (s : State) : (setCan k f s).loop = s.loop := rfl
@[simp] theorem setCan_waili (k : Fin 2) (f : Can → Can) (s : State) : (setCan k f s).waili = s.waili := rfl
@[simp] theorem setCan_chisel (k : Fin 2) (f : Can → Can) (s : State) : (setCan k f s).chisel = s.chisel := rfl
@[simp] theorem setCan_free (k : Fin 2) (f : Can → Can) (s : State) : (setCan k f s).free = s.free := rfl
@[simp] theorem setCan_result (k : Fin 2) (f : Can → Can) (s : State) : (setCan k f s).result = s.result := rfl
@[simp] theorem setCan_can (k : Fin 2) (f : Can → Can) (s : State) : (setCan k f s).can = s.can.set k (f s.can[k]) := rfl

/-! ### `setConv` -/

@[simp] theorem setConv_pending (k : Fin 2) (f : Conv → Conv) (s : State) : (setConv k f s).pending = s.pending := rfl
@[simp] theorem setConv_power (k : Fin 2) (f : Conv → Conv) (s : State) : (setConv k f s).power = s.power := rfl
@[simp] theorem setConv_now (k : Fin 2) (f : Conv → Conv) (s : State) : (setConv k f s).now = s.now := rfl
@[simp] theorem setConv_regs (k : Fin 2) (f : Conv → Conv) (s : State) : (setConv k f s).regs = s.regs := rfl
@[simp] theorem setConv_xregs (k : Fin 2) (f : Conv → Conv) (s : State) : (setConv k f s).xregs = s.xregs := rfl
@[simp] theorem setConv_hw (k : Fin 2) (f : Conv → Conv) (s : State) : (setConv k f s).hw = s.hw := rfl
@[simp] theorem setConv_lines (k : Fin 2) (f : Conv → Conv) (s : State) : (setConv k f s).lines = s.lines := rfl
@[simp] theorem setConv_boot (k : Fin 2) (f : Conv → Conv) (s : State) : (setConv k f s).boot = s.boot := rfl
@[simp] theorem setConv_plinth (k : Fin 2) (f : Conv → Conv) (s : State) : (setConv k f s).plinth = s.plinth := rfl
@[simp] theorem setConv_modes (k : Fin 2) (f : Conv → Conv) (s : State) : (setConv k f s).modes = s.modes := rfl
@[simp] theorem setConv_intc (k : Fin 2) (f : Conv → Conv) (s : State) : (setConv k f s).intc = s.intc := rfl
@[simp] theorem setConv_fcol (k : Fin 2) (f : Conv → Conv) (s : State) : (setConv k f s).fcol = s.fcol := rfl
@[simp] theorem setConv_mem (k : Fin 2) (f : Conv → Conv) (s : State) : (setConv k f s).mem = s.mem := rfl
@[simp] theorem setConv_flash (k : Fin 2) (f : Conv → Conv) (s : State) : (setConv k f s).flash = s.flash := rfl
@[simp] theorem setConv_cour (k : Fin 2) (f : Conv → Conv) (s : State) : (setConv k f s).cour = s.cour := rfl
@[simp] theorem setConv_otp (k : Fin 2) (f : Conv → Conv) (s : State) : (setConv k f s).otp = s.otp := rfl
@[simp] theorem setConv_out (k : Fin 2) (f : Conv → Conv) (s : State) : (setConv k f s).out = s.out := rfl
@[simp] theorem setConv_ang (k : Fin 2) (f : Conv → Conv) (s : State) : (setConv k f s).ang = s.ang := rfl
@[simp] theorem setConv_evt (k : Fin 2) (f : Conv → Conv) (s : State) : (setConv k f s).evt = s.evt := rfl
@[simp] theorem setConv_thr (k : Fin 2) (f : Conv → Conv) (s : State) : (setConv k f s).thr = s.thr := rfl
@[simp] theorem setConv_tile (k : Fin 2) (f : Conv → Conv) (s : State) : (setConv k f s).tile = s.tile := rfl
@[simp] theorem setConv_trace (k : Fin 2) (f : Conv → Conv) (s : State) : (setConv k f s).trace = s.trace := rfl
@[simp] theorem setConv_kern (k : Fin 2) (f : Conv → Conv) (s : State) : (setConv k f s).kern = s.kern := rfl
@[simp] theorem setConv_post (k : Fin 2) (f : Conv → Conv) (s : State) : (setConv k f s).post = s.post := rfl
@[simp] theorem setConv_can (k : Fin 2) (f : Conv → Conv) (s : State) : (setConv k f s).can = s.can := rfl
@[simp] theorem setConv_kline (k : Fin 2) (f : Conv → Conv) (s : State) : (setConv k f s).kline = s.kline := rfl
@[simp] theorem setConv_loop (k : Fin 2) (f : Conv → Conv) (s : State) : (setConv k f s).loop = s.loop := rfl
@[simp] theorem setConv_waili (k : Fin 2) (f : Conv → Conv) (s : State) : (setConv k f s).waili = s.waili := rfl
@[simp] theorem setConv_chisel (k : Fin 2) (f : Conv → Conv) (s : State) : (setConv k f s).chisel = s.chisel := rfl
@[simp] theorem setConv_free (k : Fin 2) (f : Conv → Conv) (s : State) : (setConv k f s).free = s.free := rfl
@[simp] theorem setConv_result (k : Fin 2) (f : Conv → Conv) (s : State) : (setConv k f s).result = s.result := rfl

/-! ### `setKnock` -/

@[simp] theorem setKnock_pending (n : Fin 2) (w : Option KnockWin) (s : State) : (setKnock n w s).pending = s.pending := rfl
@[simp] theorem setKnock_power (n : Fin 2) (w : Option KnockWin) (s : State) : (setKnock n w s).power = s.power := rfl
@[simp] theorem setKnock_now (n : Fin 2) (w : Option KnockWin) (s : State) : (setKnock n w s).now = s.now := rfl
@[simp] theorem setKnock_regs (n : Fin 2) (w : Option KnockWin) (s : State) : (setKnock n w s).regs = s.regs := rfl
@[simp] theorem setKnock_xregs (n : Fin 2) (w : Option KnockWin) (s : State) : (setKnock n w s).xregs = s.xregs := rfl
@[simp] theorem setKnock_hw (n : Fin 2) (w : Option KnockWin) (s : State) : (setKnock n w s).hw = s.hw := rfl
@[simp] theorem setKnock_lines (n : Fin 2) (w : Option KnockWin) (s : State) : (setKnock n w s).lines = s.lines := rfl
@[simp] theorem setKnock_boot (n : Fin 2) (w : Option KnockWin) (s : State) : (setKnock n w s).boot = s.boot := rfl
@[simp] theorem setKnock_plinth (n : Fin 2) (w : Option KnockWin) (s : State) : (setKnock n w s).plinth = s.plinth := rfl
@[simp] theorem setKnock_modes (n : Fin 2) (w : Option KnockWin) (s : State) : (setKnock n w s).modes = s.modes := rfl
@[simp] theorem setKnock_intc (n : Fin 2) (w : Option KnockWin) (s : State) : (setKnock n w s).intc = s.intc := rfl
@[simp] theorem setKnock_fcol (n : Fin 2) (w : Option KnockWin) (s : State) : (setKnock n w s).fcol = s.fcol := rfl
@[simp] theorem setKnock_mem (n : Fin 2) (w : Option KnockWin) (s : State) : (setKnock n w s).mem = s.mem := rfl
@[simp] theorem setKnock_flash (n : Fin 2) (w : Option KnockWin) (s : State) : (setKnock n w s).flash = s.flash := rfl
@[simp] theorem setKnock_cour (n : Fin 2) (w : Option KnockWin) (s : State) : (setKnock n w s).cour = s.cour := rfl
@[simp] theorem setKnock_otp (n : Fin 2) (w : Option KnockWin) (s : State) : (setKnock n w s).otp = s.otp := rfl
@[simp] theorem setKnock_out (n : Fin 2) (w : Option KnockWin) (s : State) : (setKnock n w s).out = s.out := rfl
@[simp] theorem setKnock_ang (n : Fin 2) (w : Option KnockWin) (s : State) : (setKnock n w s).ang = s.ang := rfl
@[simp] theorem setKnock_evt (n : Fin 2) (w : Option KnockWin) (s : State) : (setKnock n w s).evt = s.evt := rfl
@[simp] theorem setKnock_thr (n : Fin 2) (w : Option KnockWin) (s : State) : (setKnock n w s).thr = s.thr := rfl
@[simp] theorem setKnock_tile (n : Fin 2) (w : Option KnockWin) (s : State) : (setKnock n w s).tile = s.tile := rfl
@[simp] theorem setKnock_trace (n : Fin 2) (w : Option KnockWin) (s : State) : (setKnock n w s).trace = s.trace := rfl
@[simp] theorem setKnock_kern (n : Fin 2) (w : Option KnockWin) (s : State) : (setKnock n w s).kern = s.kern := rfl
@[simp] theorem setKnock_post (n : Fin 2) (w : Option KnockWin) (s : State) : (setKnock n w s).post = s.post := rfl
@[simp] theorem setKnock_can (n : Fin 2) (w : Option KnockWin) (s : State) : (setKnock n w s).can = s.can := rfl
@[simp] theorem setKnock_kline (n : Fin 2) (w : Option KnockWin) (s : State) : (setKnock n w s).kline = s.kline := rfl
@[simp] theorem setKnock_loop (n : Fin 2) (w : Option KnockWin) (s : State) : (setKnock n w s).loop = s.loop := rfl
@[simp] theorem setKnock_waili (n : Fin 2) (w : Option KnockWin) (s : State) : (setKnock n w s).waili = s.waili := rfl
@[simp] theorem setKnock_chisel (n : Fin 2) (w : Option KnockWin) (s : State) : (setKnock n w s).chisel = s.chisel := rfl
@[simp] theorem setKnock_free (n : Fin 2) (w : Option KnockWin) (s : State) : (setKnock n w s).free = s.free := rfl
@[simp] theorem setKnock_result (n : Fin 2) (w : Option KnockWin) (s : State) : (setKnock n w s).result = s.result := rfl

/-! ### `setIon` -/

@[simp] theorem setIon_pending (n : Fin 4) (e : Option IonEval) (s : State) : (setIon n e s).pending = s.pending := rfl
@[simp] theorem setIon_power (n : Fin 4) (e : Option IonEval) (s : State) : (setIon n e s).power = s.power := rfl
@[simp] theorem setIon_now (n : Fin 4) (e : Option IonEval) (s : State) : (setIon n e s).now = s.now := rfl
@[simp] theorem setIon_regs (n : Fin 4) (e : Option IonEval) (s : State) : (setIon n e s).regs = s.regs := rfl
@[simp] theorem setIon_xregs (n : Fin 4) (e : Option IonEval) (s : State) : (setIon n e s).xregs = s.xregs := rfl
@[simp] theorem setIon_hw (n : Fin 4) (e : Option IonEval) (s : State) : (setIon n e s).hw = s.hw := rfl
@[simp] theorem setIon_lines (n : Fin 4) (e : Option IonEval) (s : State) : (setIon n e s).lines = s.lines := rfl
@[simp] theorem setIon_boot (n : Fin 4) (e : Option IonEval) (s : State) : (setIon n e s).boot = s.boot := rfl
@[simp] theorem setIon_plinth (n : Fin 4) (e : Option IonEval) (s : State) : (setIon n e s).plinth = s.plinth := rfl
@[simp] theorem setIon_modes (n : Fin 4) (e : Option IonEval) (s : State) : (setIon n e s).modes = s.modes := rfl
@[simp] theorem setIon_intc (n : Fin 4) (e : Option IonEval) (s : State) : (setIon n e s).intc = s.intc := rfl
@[simp] theorem setIon_fcol (n : Fin 4) (e : Option IonEval) (s : State) : (setIon n e s).fcol = s.fcol := rfl
@[simp] theorem setIon_mem (n : Fin 4) (e : Option IonEval) (s : State) : (setIon n e s).mem = s.mem := rfl
@[simp] theorem setIon_flash (n : Fin 4) (e : Option IonEval) (s : State) : (setIon n e s).flash = s.flash := rfl
@[simp] theorem setIon_cour (n : Fin 4) (e : Option IonEval) (s : State) : (setIon n e s).cour = s.cour := rfl
@[simp] theorem setIon_otp (n : Fin 4) (e : Option IonEval) (s : State) : (setIon n e s).otp = s.otp := rfl
@[simp] theorem setIon_out (n : Fin 4) (e : Option IonEval) (s : State) : (setIon n e s).out = s.out := rfl
@[simp] theorem setIon_ang (n : Fin 4) (e : Option IonEval) (s : State) : (setIon n e s).ang = s.ang := rfl
@[simp] theorem setIon_evt (n : Fin 4) (e : Option IonEval) (s : State) : (setIon n e s).evt = s.evt := rfl
@[simp] theorem setIon_thr (n : Fin 4) (e : Option IonEval) (s : State) : (setIon n e s).thr = s.thr := rfl
@[simp] theorem setIon_tile (n : Fin 4) (e : Option IonEval) (s : State) : (setIon n e s).tile = s.tile := rfl
@[simp] theorem setIon_trace (n : Fin 4) (e : Option IonEval) (s : State) : (setIon n e s).trace = s.trace := rfl
@[simp] theorem setIon_kern (n : Fin 4) (e : Option IonEval) (s : State) : (setIon n e s).kern = s.kern := rfl
@[simp] theorem setIon_post (n : Fin 4) (e : Option IonEval) (s : State) : (setIon n e s).post = s.post := rfl
@[simp] theorem setIon_can (n : Fin 4) (e : Option IonEval) (s : State) : (setIon n e s).can = s.can := rfl
@[simp] theorem setIon_kline (n : Fin 4) (e : Option IonEval) (s : State) : (setIon n e s).kline = s.kline := rfl
@[simp] theorem setIon_loop (n : Fin 4) (e : Option IonEval) (s : State) : (setIon n e s).loop = s.loop := rfl
@[simp] theorem setIon_waili (n : Fin 4) (e : Option IonEval) (s : State) : (setIon n e s).waili = s.waili := rfl
@[simp] theorem setIon_chisel (n : Fin 4) (e : Option IonEval) (s : State) : (setIon n e s).chisel = s.chisel := rfl
@[simp] theorem setIon_free (n : Fin 4) (e : Option IonEval) (s : State) : (setIon n e s).free = s.free := rfl
@[simp] theorem setIon_result (n : Fin 4) (e : Option IonEval) (s : State) : (setIon n e s).result = s.result := rfl

/-! ### `setStage` -/

@[simp] theorem setStage_pending (i : Nat) (f : Stage → Stage) (s : State) : (setStage i f s).pending = s.pending := by unfold setStage; split <;> rfl
@[simp] theorem setStage_power (i : Nat) (f : Stage → Stage) (s : State) : (setStage i f s).power = s.power := by unfold setStage; split <;> rfl
@[simp] theorem setStage_now (i : Nat) (f : Stage → Stage) (s : State) : (setStage i f s).now = s.now := by unfold setStage; split <;> rfl
@[simp] theorem setStage_regs (i : Nat) (f : Stage → Stage) (s : State) : (setStage i f s).regs = s.regs := by unfold setStage; split <;> rfl
@[simp] theorem setStage_xregs (i : Nat) (f : Stage → Stage) (s : State) : (setStage i f s).xregs = s.xregs := by unfold setStage; split <;> rfl
@[simp] theorem setStage_hw (i : Nat) (f : Stage → Stage) (s : State) : (setStage i f s).hw = s.hw := by unfold setStage; split <;> rfl
@[simp] theorem setStage_lines (i : Nat) (f : Stage → Stage) (s : State) : (setStage i f s).lines = s.lines := by unfold setStage; split <;> rfl
@[simp] theorem setStage_boot (i : Nat) (f : Stage → Stage) (s : State) : (setStage i f s).boot = s.boot := by unfold setStage; split <;> rfl
@[simp] theorem setStage_plinth (i : Nat) (f : Stage → Stage) (s : State) : (setStage i f s).plinth = s.plinth := by unfold setStage; split <;> rfl
@[simp] theorem setStage_modes (i : Nat) (f : Stage → Stage) (s : State) : (setStage i f s).modes = s.modes := by unfold setStage; split <;> rfl
@[simp] theorem setStage_intc (i : Nat) (f : Stage → Stage) (s : State) : (setStage i f s).intc = s.intc := by unfold setStage; split <;> rfl
@[simp] theorem setStage_fcol (i : Nat) (f : Stage → Stage) (s : State) : (setStage i f s).fcol = s.fcol := by unfold setStage; split <;> rfl
@[simp] theorem setStage_mem (i : Nat) (f : Stage → Stage) (s : State) : (setStage i f s).mem = s.mem := by unfold setStage; split <;> rfl
@[simp] theorem setStage_flash (i : Nat) (f : Stage → Stage) (s : State) : (setStage i f s).flash = s.flash := by unfold setStage; split <;> rfl
@[simp] theorem setStage_cour (i : Nat) (f : Stage → Stage) (s : State) : (setStage i f s).cour = s.cour := by unfold setStage; split <;> rfl
@[simp] theorem setStage_otp (i : Nat) (f : Stage → Stage) (s : State) : (setStage i f s).otp = s.otp := by unfold setStage; split <;> rfl
@[simp] theorem setStage_ang (i : Nat) (f : Stage → Stage) (s : State) : (setStage i f s).ang = s.ang := by unfold setStage; split <;> rfl
@[simp] theorem setStage_evt (i : Nat) (f : Stage → Stage) (s : State) : (setStage i f s).evt = s.evt := by unfold setStage; split <;> rfl
@[simp] theorem setStage_adc (i : Nat) (f : Stage → Stage) (s : State) : (setStage i f s).adc = s.adc := by unfold setStage; split <;> rfl
@[simp] theorem setStage_thr (i : Nat) (f : Stage → Stage) (s : State) : (setStage i f s).thr = s.thr := by unfold setStage; split <;> rfl
@[simp] theorem setStage_tile (i : Nat) (f : Stage → Stage) (s : State) : (setStage i f s).tile = s.tile := by unfold setStage; split <;> rfl
@[simp] theorem setStage_trace (i : Nat) (f : Stage → Stage) (s : State) : (setStage i f s).trace = s.trace := by unfold setStage; split <;> rfl
@[simp] theorem setStage_kern (i : Nat) (f : Stage → Stage) (s : State) : (setStage i f s).kern = s.kern := by unfold setStage; split <;> rfl
@[simp] theorem setStage_post (i : Nat) (f : Stage → Stage) (s : State) : (setStage i f s).post = s.post := by unfold setStage; split <;> rfl
@[simp] theorem setStage_can (i : Nat) (f : Stage → Stage) (s : State) : (setStage i f s).can = s.can := by unfold setStage; split <;> rfl
@[simp] theorem setStage_kline (i : Nat) (f : Stage → Stage) (s : State) : (setStage i f s).kline = s.kline := by unfold setStage; split <;> rfl
@[simp] theorem setStage_loop (i : Nat) (f : Stage → Stage) (s : State) : (setStage i f s).loop = s.loop := by unfold setStage; split <;> rfl
@[simp] theorem setStage_waili (i : Nat) (f : Stage → Stage) (s : State) : (setStage i f s).waili = s.waili := by unfold setStage; split <;> rfl
@[simp] theorem setStage_chisel (i : Nat) (f : Stage → Stage) (s : State) : (setStage i f s).chisel = s.chisel := by unfold setStage; split <;> rfl
@[simp] theorem setStage_free (i : Nat) (f : Stage → Stage) (s : State) : (setStage i f s).free = s.free := by unfold setStage; split <;> rfl
@[simp] theorem setStage_result (i : Nat) (f : Stage → Stage) (s : State) : (setStage i f s).result = s.result := by unfold setStage; split <;> rfl

/-! ### `setStepper` -/

@[simp] theorem setStepper_pending (f : Stepper → Stepper) (s : State) : (setStepper f s).pending = s.pending := rfl
@[simp] theorem setStepper_power (f : Stepper → Stepper) (s : State) : (setStepper f s).power = s.power := rfl
@[simp] theorem setStepper_now (f : Stepper → Stepper) (s : State) : (setStepper f s).now = s.now := rfl
@[simp] theorem setStepper_regs (f : Stepper → Stepper) (s : State) : (setStepper f s).regs = s.regs := rfl
@[simp] theorem setStepper_xregs (f : Stepper → Stepper) (s : State) : (setStepper f s).xregs = s.xregs := rfl
@[simp] theorem setStepper_hw (f : Stepper → Stepper) (s : State) : (setStepper f s).hw = s.hw := rfl
@[simp] theorem setStepper_lines (f : Stepper → Stepper) (s : State) : (setStepper f s).lines = s.lines := rfl
@[simp] theorem setStepper_boot (f : Stepper → Stepper) (s : State) : (setStepper f s).boot = s.boot := rfl
@[simp] theorem setStepper_plinth (f : Stepper → Stepper) (s : State) : (setStepper f s).plinth = s.plinth := rfl
@[simp] theorem setStepper_modes (f : Stepper → Stepper) (s : State) : (setStepper f s).modes = s.modes := rfl
@[simp] theorem setStepper_intc (f : Stepper → Stepper) (s : State) : (setStepper f s).intc = s.intc := rfl
@[simp] theorem setStepper_fcol (f : Stepper → Stepper) (s : State) : (setStepper f s).fcol = s.fcol := rfl
@[simp] theorem setStepper_mem (f : Stepper → Stepper) (s : State) : (setStepper f s).mem = s.mem := rfl
@[simp] theorem setStepper_flash (f : Stepper → Stepper) (s : State) : (setStepper f s).flash = s.flash := rfl
@[simp] theorem setStepper_cour (f : Stepper → Stepper) (s : State) : (setStepper f s).cour = s.cour := rfl
@[simp] theorem setStepper_otp (f : Stepper → Stepper) (s : State) : (setStepper f s).otp = s.otp := rfl
@[simp] theorem setStepper_ang (f : Stepper → Stepper) (s : State) : (setStepper f s).ang = s.ang := rfl
@[simp] theorem setStepper_evt (f : Stepper → Stepper) (s : State) : (setStepper f s).evt = s.evt := rfl
@[simp] theorem setStepper_adc (f : Stepper → Stepper) (s : State) : (setStepper f s).adc = s.adc := rfl
@[simp] theorem setStepper_thr (f : Stepper → Stepper) (s : State) : (setStepper f s).thr = s.thr := rfl
@[simp] theorem setStepper_tile (f : Stepper → Stepper) (s : State) : (setStepper f s).tile = s.tile := rfl
@[simp] theorem setStepper_trace (f : Stepper → Stepper) (s : State) : (setStepper f s).trace = s.trace := rfl
@[simp] theorem setStepper_kern (f : Stepper → Stepper) (s : State) : (setStepper f s).kern = s.kern := rfl
@[simp] theorem setStepper_post (f : Stepper → Stepper) (s : State) : (setStepper f s).post = s.post := rfl
@[simp] theorem setStepper_can (f : Stepper → Stepper) (s : State) : (setStepper f s).can = s.can := rfl
@[simp] theorem setStepper_kline (f : Stepper → Stepper) (s : State) : (setStepper f s).kline = s.kline := rfl
@[simp] theorem setStepper_loop (f : Stepper → Stepper) (s : State) : (setStepper f s).loop = s.loop := rfl
@[simp] theorem setStepper_waili (f : Stepper → Stepper) (s : State) : (setStepper f s).waili = s.waili := rfl
@[simp] theorem setStepper_chisel (f : Stepper → Stepper) (s : State) : (setStepper f s).chisel = s.chisel := rfl
@[simp] theorem setStepper_free (f : Stepper → Stepper) (s : State) : (setStepper f s).free = s.free := rfl
@[simp] theorem setStepper_result (f : Stepper → Stepper) (s : State) : (setStepper f s).result = s.result := rfl

/-! ### `setChan` -/

@[simp] theorem setChan_pending (c : Fin 8) (f : Chan → Chan) (s : State) : (setChan c f s).pending = s.pending := rfl
@[simp] theorem setChan_power (c : Fin 8) (f : Chan → Chan) (s : State) : (setChan c f s).power = s.power := rfl
@[simp] theorem setChan_now (c : Fin 8) (f : Chan → Chan) (s : State) : (setChan c f s).now = s.now := rfl
@[simp] theorem setChan_regs (c : Fin 8) (f : Chan → Chan) (s : State) : (setChan c f s).regs = s.regs := rfl
@[simp] theorem setChan_xregs (c : Fin 8) (f : Chan → Chan) (s : State) : (setChan c f s).xregs = s.xregs := rfl
@[simp] theorem setChan_hw (c : Fin 8) (f : Chan → Chan) (s : State) : (setChan c f s).hw = s.hw := rfl
@[simp] theorem setChan_lines (c : Fin 8) (f : Chan → Chan) (s : State) : (setChan c f s).lines = s.lines := rfl
@[simp] theorem setChan_boot (c : Fin 8) (f : Chan → Chan) (s : State) : (setChan c f s).boot = s.boot := rfl
@[simp] theorem setChan_plinth (c : Fin 8) (f : Chan → Chan) (s : State) : (setChan c f s).plinth = s.plinth := rfl
@[simp] theorem setChan_modes (c : Fin 8) (f : Chan → Chan) (s : State) : (setChan c f s).modes = s.modes := rfl
@[simp] theorem setChan_intc (c : Fin 8) (f : Chan → Chan) (s : State) : (setChan c f s).intc = s.intc := rfl
@[simp] theorem setChan_fcol (c : Fin 8) (f : Chan → Chan) (s : State) : (setChan c f s).fcol = s.fcol := rfl
@[simp] theorem setChan_mem (c : Fin 8) (f : Chan → Chan) (s : State) : (setChan c f s).mem = s.mem := rfl
@[simp] theorem setChan_flash (c : Fin 8) (f : Chan → Chan) (s : State) : (setChan c f s).flash = s.flash := rfl
@[simp] theorem setChan_otp (c : Fin 8) (f : Chan → Chan) (s : State) : (setChan c f s).otp = s.otp := rfl
@[simp] theorem setChan_out (c : Fin 8) (f : Chan → Chan) (s : State) : (setChan c f s).out = s.out := rfl
@[simp] theorem setChan_ang (c : Fin 8) (f : Chan → Chan) (s : State) : (setChan c f s).ang = s.ang := rfl
@[simp] theorem setChan_evt (c : Fin 8) (f : Chan → Chan) (s : State) : (setChan c f s).evt = s.evt := rfl
@[simp] theorem setChan_adc (c : Fin 8) (f : Chan → Chan) (s : State) : (setChan c f s).adc = s.adc := rfl
@[simp] theorem setChan_thr (c : Fin 8) (f : Chan → Chan) (s : State) : (setChan c f s).thr = s.thr := rfl
@[simp] theorem setChan_tile (c : Fin 8) (f : Chan → Chan) (s : State) : (setChan c f s).tile = s.tile := rfl
@[simp] theorem setChan_trace (c : Fin 8) (f : Chan → Chan) (s : State) : (setChan c f s).trace = s.trace := rfl
@[simp] theorem setChan_kern (c : Fin 8) (f : Chan → Chan) (s : State) : (setChan c f s).kern = s.kern := rfl
@[simp] theorem setChan_post (c : Fin 8) (f : Chan → Chan) (s : State) : (setChan c f s).post = s.post := rfl
@[simp] theorem setChan_can (c : Fin 8) (f : Chan → Chan) (s : State) : (setChan c f s).can = s.can := rfl
@[simp] theorem setChan_kline (c : Fin 8) (f : Chan → Chan) (s : State) : (setChan c f s).kline = s.kline := rfl
@[simp] theorem setChan_loop (c : Fin 8) (f : Chan → Chan) (s : State) : (setChan c f s).loop = s.loop := rfl
@[simp] theorem setChan_waili (c : Fin 8) (f : Chan → Chan) (s : State) : (setChan c f s).waili = s.waili := rfl
@[simp] theorem setChan_chisel (c : Fin 8) (f : Chan → Chan) (s : State) : (setChan c f s).chisel = s.chisel := rfl
@[simp] theorem setChan_free (c : Fin 8) (f : Chan → Chan) (s : State) : (setChan c f s).free = s.free := rfl
@[simp] theorem setChan_result (c : Fin 8) (f : Chan → Chan) (s : State) : (setChan c f s).result = s.result := rfl

/-! ### `setTile` -/

@[simp] theorem setTile_pending (n : Fin 8) (f : Tile → Tile) (s : State) : (setTile n f s).pending = s.pending := rfl
@[simp] theorem setTile_power (n : Fin 8) (f : Tile → Tile) (s : State) : (setTile n f s).power = s.power := rfl
@[simp] theorem setTile_now (n : Fin 8) (f : Tile → Tile) (s : State) : (setTile n f s).now = s.now := rfl
@[simp] theorem setTile_regs (n : Fin 8) (f : Tile → Tile) (s : State) : (setTile n f s).regs = s.regs := rfl
@[simp] theorem setTile_xregs (n : Fin 8) (f : Tile → Tile) (s : State) : (setTile n f s).xregs = s.xregs := rfl
@[simp] theorem setTile_hw (n : Fin 8) (f : Tile → Tile) (s : State) : (setTile n f s).hw = s.hw := rfl
@[simp] theorem setTile_lines (n : Fin 8) (f : Tile → Tile) (s : State) : (setTile n f s).lines = s.lines := rfl
@[simp] theorem setTile_boot (n : Fin 8) (f : Tile → Tile) (s : State) : (setTile n f s).boot = s.boot := rfl
@[simp] theorem setTile_plinth (n : Fin 8) (f : Tile → Tile) (s : State) : (setTile n f s).plinth = s.plinth := rfl
@[simp] theorem setTile_modes (n : Fin 8) (f : Tile → Tile) (s : State) : (setTile n f s).modes = s.modes := rfl
@[simp] theorem setTile_intc (n : Fin 8) (f : Tile → Tile) (s : State) : (setTile n f s).intc = s.intc := rfl
@[simp] theorem setTile_fcol (n : Fin 8) (f : Tile → Tile) (s : State) : (setTile n f s).fcol = s.fcol := rfl
@[simp] theorem setTile_mem (n : Fin 8) (f : Tile → Tile) (s : State) : (setTile n f s).mem = s.mem := rfl
@[simp] theorem setTile_flash (n : Fin 8) (f : Tile → Tile) (s : State) : (setTile n f s).flash = s.flash := rfl
@[simp] theorem setTile_cour (n : Fin 8) (f : Tile → Tile) (s : State) : (setTile n f s).cour = s.cour := rfl
@[simp] theorem setTile_otp (n : Fin 8) (f : Tile → Tile) (s : State) : (setTile n f s).otp = s.otp := rfl
@[simp] theorem setTile_out (n : Fin 8) (f : Tile → Tile) (s : State) : (setTile n f s).out = s.out := rfl
@[simp] theorem setTile_ang (n : Fin 8) (f : Tile → Tile) (s : State) : (setTile n f s).ang = s.ang := rfl
@[simp] theorem setTile_evt (n : Fin 8) (f : Tile → Tile) (s : State) : (setTile n f s).evt = s.evt := rfl
@[simp] theorem setTile_adc (n : Fin 8) (f : Tile → Tile) (s : State) : (setTile n f s).adc = s.adc := rfl
@[simp] theorem setTile_thr (n : Fin 8) (f : Tile → Tile) (s : State) : (setTile n f s).thr = s.thr := rfl
@[simp] theorem setTile_trace (n : Fin 8) (f : Tile → Tile) (s : State) : (setTile n f s).trace = s.trace := rfl
@[simp] theorem setTile_kern (n : Fin 8) (f : Tile → Tile) (s : State) : (setTile n f s).kern = s.kern := rfl
@[simp] theorem setTile_post (n : Fin 8) (f : Tile → Tile) (s : State) : (setTile n f s).post = s.post := rfl
@[simp] theorem setTile_can (n : Fin 8) (f : Tile → Tile) (s : State) : (setTile n f s).can = s.can := rfl
@[simp] theorem setTile_kline (n : Fin 8) (f : Tile → Tile) (s : State) : (setTile n f s).kline = s.kline := rfl
@[simp] theorem setTile_loop (n : Fin 8) (f : Tile → Tile) (s : State) : (setTile n f s).loop = s.loop := rfl
@[simp] theorem setTile_waili (n : Fin 8) (f : Tile → Tile) (s : State) : (setTile n f s).waili = s.waili := rfl
@[simp] theorem setTile_chisel (n : Fin 8) (f : Tile → Tile) (s : State) : (setTile n f s).chisel = s.chisel := rfl
@[simp] theorem setTile_free (n : Fin 8) (f : Tile → Tile) (s : State) : (setTile n f s).free = s.free := rfl
@[simp] theorem setTile_result (n : Fin 8) (f : Tile → Tile) (s : State) : (setTile n f s).result = s.result := rfl

/-! ### `setThread` -/

@[simp] theorem setThread_pending (t : Fin 8) (f : Thread → Thread) (s : State) : (setThread t f s).pending = s.pending := rfl
@[simp] theorem setThread_power (t : Fin 8) (f : Thread → Thread) (s : State) : (setThread t f s).power = s.power := rfl
@[simp] theorem setThread_now (t : Fin 8) (f : Thread → Thread) (s : State) : (setThread t f s).now = s.now := rfl
@[simp] theorem setThread_regs (t : Fin 8) (f : Thread → Thread) (s : State) : (setThread t f s).regs = s.regs := rfl
@[simp] theorem setThread_xregs (t : Fin 8) (f : Thread → Thread) (s : State) : (setThread t f s).xregs = s.xregs := rfl
@[simp] theorem setThread_hw (t : Fin 8) (f : Thread → Thread) (s : State) : (setThread t f s).hw = s.hw := rfl
@[simp] theorem setThread_lines (t : Fin 8) (f : Thread → Thread) (s : State) : (setThread t f s).lines = s.lines := rfl
@[simp] theorem setThread_boot (t : Fin 8) (f : Thread → Thread) (s : State) : (setThread t f s).boot = s.boot := rfl
@[simp] theorem setThread_plinth (t : Fin 8) (f : Thread → Thread) (s : State) : (setThread t f s).plinth = s.plinth := rfl
@[simp] theorem setThread_modes (t : Fin 8) (f : Thread → Thread) (s : State) : (setThread t f s).modes = s.modes := rfl
@[simp] theorem setThread_intc (t : Fin 8) (f : Thread → Thread) (s : State) : (setThread t f s).intc = s.intc := rfl
@[simp] theorem setThread_fcol (t : Fin 8) (f : Thread → Thread) (s : State) : (setThread t f s).fcol = s.fcol := rfl
@[simp] theorem setThread_mem (t : Fin 8) (f : Thread → Thread) (s : State) : (setThread t f s).mem = s.mem := rfl
@[simp] theorem setThread_flash (t : Fin 8) (f : Thread → Thread) (s : State) : (setThread t f s).flash = s.flash := rfl
@[simp] theorem setThread_cour (t : Fin 8) (f : Thread → Thread) (s : State) : (setThread t f s).cour = s.cour := rfl
@[simp] theorem setThread_otp (t : Fin 8) (f : Thread → Thread) (s : State) : (setThread t f s).otp = s.otp := rfl
@[simp] theorem setThread_out (t : Fin 8) (f : Thread → Thread) (s : State) : (setThread t f s).out = s.out := rfl
@[simp] theorem setThread_ang (t : Fin 8) (f : Thread → Thread) (s : State) : (setThread t f s).ang = s.ang := rfl
@[simp] theorem setThread_evt (t : Fin 8) (f : Thread → Thread) (s : State) : (setThread t f s).evt = s.evt := rfl
@[simp] theorem setThread_adc (t : Fin 8) (f : Thread → Thread) (s : State) : (setThread t f s).adc = s.adc := rfl
@[simp] theorem setThread_tile (t : Fin 8) (f : Thread → Thread) (s : State) : (setThread t f s).tile = s.tile := rfl
@[simp] theorem setThread_trace (t : Fin 8) (f : Thread → Thread) (s : State) : (setThread t f s).trace = s.trace := rfl
@[simp] theorem setThread_kern (t : Fin 8) (f : Thread → Thread) (s : State) : (setThread t f s).kern = s.kern := rfl
@[simp] theorem setThread_post (t : Fin 8) (f : Thread → Thread) (s : State) : (setThread t f s).post = s.post := rfl
@[simp] theorem setThread_can (t : Fin 8) (f : Thread → Thread) (s : State) : (setThread t f s).can = s.can := rfl
@[simp] theorem setThread_kline (t : Fin 8) (f : Thread → Thread) (s : State) : (setThread t f s).kline = s.kline := rfl
@[simp] theorem setThread_loop (t : Fin 8) (f : Thread → Thread) (s : State) : (setThread t f s).loop = s.loop := rfl
@[simp] theorem setThread_waili (t : Fin 8) (f : Thread → Thread) (s : State) : (setThread t f s).waili = s.waili := rfl
@[simp] theorem setThread_chisel (t : Fin 8) (f : Thread → Thread) (s : State) : (setThread t f s).chisel = s.chisel := rfl
@[simp] theorem setThread_free (t : Fin 8) (f : Thread → Thread) (s : State) : (setThread t f s).free = s.free := rfl
@[simp] theorem setThread_result (t : Fin 8) (f : Thread → Thread) (s : State) : (setThread t f s).result = s.result := rfl

/-! ### `setEvent` -/

@[simp] theorem setEvent_pending (t : Fin 8) (b : Nat) (s : State) : (setEvent t b s).pending = s.pending := by unfold setEvent; split <;> rfl
@[simp] theorem setEvent_power (t : Fin 8) (b : Nat) (s : State) : (setEvent t b s).power = s.power := by unfold setEvent; split <;> rfl
@[simp] theorem setEvent_now (t : Fin 8) (b : Nat) (s : State) : (setEvent t b s).now = s.now := by unfold setEvent; split <;> rfl
@[simp] theorem setEvent_regs (t : Fin 8) (b : Nat) (s : State) : (setEvent t b s).regs = s.regs := by unfold setEvent; split <;> rfl
@[simp] theorem setEvent_xregs (t : Fin 8) (b : Nat) (s : State) : (setEvent t b s).xregs = s.xregs := by unfold setEvent; split <;> rfl
@[simp] theorem setEvent_hw (t : Fin 8) (b : Nat) (s : State) : (setEvent t b s).hw = s.hw := by unfold setEvent; split <;> rfl
@[simp] theorem setEvent_lines (t : Fin 8) (b : Nat) (s : State) : (setEvent t b s).lines = s.lines := by unfold setEvent; split <;> rfl
@[simp] theorem setEvent_boot (t : Fin 8) (b : Nat) (s : State) : (setEvent t b s).boot = s.boot := by unfold setEvent; split <;> rfl
@[simp] theorem setEvent_plinth (t : Fin 8) (b : Nat) (s : State) : (setEvent t b s).plinth = s.plinth := by unfold setEvent; split <;> rfl
@[simp] theorem setEvent_modes (t : Fin 8) (b : Nat) (s : State) : (setEvent t b s).modes = s.modes := by unfold setEvent; split <;> rfl
@[simp] theorem setEvent_intc (t : Fin 8) (b : Nat) (s : State) : (setEvent t b s).intc = s.intc := by unfold setEvent; split <;> rfl
@[simp] theorem setEvent_fcol (t : Fin 8) (b : Nat) (s : State) : (setEvent t b s).fcol = s.fcol := by unfold setEvent; split <;> rfl
@[simp] theorem setEvent_mem (t : Fin 8) (b : Nat) (s : State) : (setEvent t b s).mem = s.mem := by unfold setEvent; split <;> rfl
@[simp] theorem setEvent_flash (t : Fin 8) (b : Nat) (s : State) : (setEvent t b s).flash = s.flash := by unfold setEvent; split <;> rfl
@[simp] theorem setEvent_cour (t : Fin 8) (b : Nat) (s : State) : (setEvent t b s).cour = s.cour := by unfold setEvent; split <;> rfl
@[simp] theorem setEvent_otp (t : Fin 8) (b : Nat) (s : State) : (setEvent t b s).otp = s.otp := by unfold setEvent; split <;> rfl
@[simp] theorem setEvent_out (t : Fin 8) (b : Nat) (s : State) : (setEvent t b s).out = s.out := by unfold setEvent; split <;> rfl
@[simp] theorem setEvent_ang (t : Fin 8) (b : Nat) (s : State) : (setEvent t b s).ang = s.ang := by unfold setEvent; split <;> rfl
@[simp] theorem setEvent_evt (t : Fin 8) (b : Nat) (s : State) : (setEvent t b s).evt = s.evt := by unfold setEvent; split <;> rfl
@[simp] theorem setEvent_adc (t : Fin 8) (b : Nat) (s : State) : (setEvent t b s).adc = s.adc := by unfold setEvent; split <;> rfl
@[simp] theorem setEvent_tile (t : Fin 8) (b : Nat) (s : State) : (setEvent t b s).tile = s.tile := by unfold setEvent; split <;> rfl
@[simp] theorem setEvent_trace (t : Fin 8) (b : Nat) (s : State) : (setEvent t b s).trace = s.trace := by unfold setEvent; split <;> rfl
@[simp] theorem setEvent_kern (t : Fin 8) (b : Nat) (s : State) : (setEvent t b s).kern = s.kern := by unfold setEvent; split <;> rfl
@[simp] theorem setEvent_post (t : Fin 8) (b : Nat) (s : State) : (setEvent t b s).post = s.post := by unfold setEvent; split <;> rfl
@[simp] theorem setEvent_can (t : Fin 8) (b : Nat) (s : State) : (setEvent t b s).can = s.can := by unfold setEvent; split <;> rfl
@[simp] theorem setEvent_kline (t : Fin 8) (b : Nat) (s : State) : (setEvent t b s).kline = s.kline := by unfold setEvent; split <;> rfl
@[simp] theorem setEvent_loop (t : Fin 8) (b : Nat) (s : State) : (setEvent t b s).loop = s.loop := by unfold setEvent; split <;> rfl
@[simp] theorem setEvent_waili (t : Fin 8) (b : Nat) (s : State) : (setEvent t b s).waili = s.waili := by unfold setEvent; split <;> rfl
@[simp] theorem setEvent_chisel (t : Fin 8) (b : Nat) (s : State) : (setEvent t b s).chisel = s.chisel := by unfold setEvent; split <;> rfl
@[simp] theorem setEvent_free (t : Fin 8) (b : Nat) (s : State) : (setEvent t b s).free = s.free := by unfold setEvent; split <;> rfl
@[simp] theorem setEvent_result (t : Fin 8) (b : Nat) (s : State) : (setEvent t b s).result = s.result := by unfold setEvent; split <;> rfl

/-! ### `setCommit` -/

@[simp] theorem setCommit_pending (f : Commit → Commit) (s : State) : (setCommit f s).pending = s.pending := rfl
@[simp] theorem setCommit_power (f : Commit → Commit) (s : State) : (setCommit f s).power = s.power := rfl
@[simp] theorem setCommit_now (f : Commit → Commit) (s : State) : (setCommit f s).now = s.now := rfl
@[simp] theorem setCommit_regs (f : Commit → Commit) (s : State) : (setCommit f s).regs = s.regs := rfl
@[simp] theorem setCommit_xregs (f : Commit → Commit) (s : State) : (setCommit f s).xregs = s.xregs := rfl
@[simp] theorem setCommit_hw (f : Commit → Commit) (s : State) : (setCommit f s).hw = s.hw := rfl
@[simp] theorem setCommit_lines (f : Commit → Commit) (s : State) : (setCommit f s).lines = s.lines := rfl
@[simp] theorem setCommit_boot (f : Commit → Commit) (s : State) : (setCommit f s).boot = s.boot := rfl
@[simp] theorem setCommit_plinth (f : Commit → Commit) (s : State) : (setCommit f s).plinth = s.plinth := rfl
@[simp] theorem setCommit_modes (f : Commit → Commit) (s : State) : (setCommit f s).modes = s.modes := rfl
@[simp] theorem setCommit_intc (f : Commit → Commit) (s : State) : (setCommit f s).intc = s.intc := rfl
@[simp] theorem setCommit_fcol (f : Commit → Commit) (s : State) : (setCommit f s).fcol = s.fcol := rfl
@[simp] theorem setCommit_mem (f : Commit → Commit) (s : State) : (setCommit f s).mem = s.mem := rfl
@[simp] theorem setCommit_cour (f : Commit → Commit) (s : State) : (setCommit f s).cour = s.cour := rfl
@[simp] theorem setCommit_otp (f : Commit → Commit) (s : State) : (setCommit f s).otp = s.otp := rfl
@[simp] theorem setCommit_out (f : Commit → Commit) (s : State) : (setCommit f s).out = s.out := rfl
@[simp] theorem setCommit_ang (f : Commit → Commit) (s : State) : (setCommit f s).ang = s.ang := rfl
@[simp] theorem setCommit_evt (f : Commit → Commit) (s : State) : (setCommit f s).evt = s.evt := rfl
@[simp] theorem setCommit_adc (f : Commit → Commit) (s : State) : (setCommit f s).adc = s.adc := rfl
@[simp] theorem setCommit_thr (f : Commit → Commit) (s : State) : (setCommit f s).thr = s.thr := rfl
@[simp] theorem setCommit_tile (f : Commit → Commit) (s : State) : (setCommit f s).tile = s.tile := rfl
@[simp] theorem setCommit_trace (f : Commit → Commit) (s : State) : (setCommit f s).trace = s.trace := rfl
@[simp] theorem setCommit_kern (f : Commit → Commit) (s : State) : (setCommit f s).kern = s.kern := rfl
@[simp] theorem setCommit_post (f : Commit → Commit) (s : State) : (setCommit f s).post = s.post := rfl
@[simp] theorem setCommit_can (f : Commit → Commit) (s : State) : (setCommit f s).can = s.can := rfl
@[simp] theorem setCommit_kline (f : Commit → Commit) (s : State) : (setCommit f s).kline = s.kline := rfl
@[simp] theorem setCommit_loop (f : Commit → Commit) (s : State) : (setCommit f s).loop = s.loop := rfl
@[simp] theorem setCommit_waili (f : Commit → Commit) (s : State) : (setCommit f s).waili = s.waili := rfl
@[simp] theorem setCommit_chisel (f : Commit → Commit) (s : State) : (setCommit f s).chisel = s.chisel := rfl
@[simp] theorem setCommit_free (f : Commit → Commit) (s : State) : (setCommit f s).free = s.free := rfl
@[simp] theorem setCommit_result (f : Commit → Commit) (s : State) : (setCommit f s).result = s.result := rfl

/-! ### `spadPut` -/

@[simp] theorem spadPut_pending (a : Nat) (v : Word) (s : State) : (spadPut a v s).pending = s.pending := rfl
@[simp] theorem spadPut_power (a : Nat) (v : Word) (s : State) : (spadPut a v s).power = s.power := rfl
@[simp] theorem spadPut_now (a : Nat) (v : Word) (s : State) : (spadPut a v s).now = s.now := rfl
@[simp] theorem spadPut_regs (a : Nat) (v : Word) (s : State) : (spadPut a v s).regs = s.regs := rfl
@[simp] theorem spadPut_xregs (a : Nat) (v : Word) (s : State) : (spadPut a v s).xregs = s.xregs := rfl
@[simp] theorem spadPut_hw (a : Nat) (v : Word) (s : State) : (spadPut a v s).hw = s.hw := rfl
@[simp] theorem spadPut_lines (a : Nat) (v : Word) (s : State) : (spadPut a v s).lines = s.lines := rfl
@[simp] theorem spadPut_boot (a : Nat) (v : Word) (s : State) : (spadPut a v s).boot = s.boot := rfl
@[simp] theorem spadPut_plinth (a : Nat) (v : Word) (s : State) : (spadPut a v s).plinth = s.plinth := rfl
@[simp] theorem spadPut_modes (a : Nat) (v : Word) (s : State) : (spadPut a v s).modes = s.modes := rfl
@[simp] theorem spadPut_intc (a : Nat) (v : Word) (s : State) : (spadPut a v s).intc = s.intc := rfl
@[simp] theorem spadPut_fcol (a : Nat) (v : Word) (s : State) : (spadPut a v s).fcol = s.fcol := rfl
@[simp] theorem spadPut_flash (a : Nat) (v : Word) (s : State) : (spadPut a v s).flash = s.flash := rfl
@[simp] theorem spadPut_cour (a : Nat) (v : Word) (s : State) : (spadPut a v s).cour = s.cour := rfl
@[simp] theorem spadPut_otp (a : Nat) (v : Word) (s : State) : (spadPut a v s).otp = s.otp := rfl
@[simp] theorem spadPut_out (a : Nat) (v : Word) (s : State) : (spadPut a v s).out = s.out := rfl
@[simp] theorem spadPut_ang (a : Nat) (v : Word) (s : State) : (spadPut a v s).ang = s.ang := rfl
@[simp] theorem spadPut_evt (a : Nat) (v : Word) (s : State) : (spadPut a v s).evt = s.evt := rfl
@[simp] theorem spadPut_adc (a : Nat) (v : Word) (s : State) : (spadPut a v s).adc = s.adc := rfl
@[simp] theorem spadPut_thr (a : Nat) (v : Word) (s : State) : (spadPut a v s).thr = s.thr := rfl
@[simp] theorem spadPut_tile (a : Nat) (v : Word) (s : State) : (spadPut a v s).tile = s.tile := rfl
@[simp] theorem spadPut_trace (a : Nat) (v : Word) (s : State) : (spadPut a v s).trace = s.trace := rfl
@[simp] theorem spadPut_kern (a : Nat) (v : Word) (s : State) : (spadPut a v s).kern = s.kern := rfl
@[simp] theorem spadPut_post (a : Nat) (v : Word) (s : State) : (spadPut a v s).post = s.post := rfl
@[simp] theorem spadPut_can (a : Nat) (v : Word) (s : State) : (spadPut a v s).can = s.can := rfl
@[simp] theorem spadPut_kline (a : Nat) (v : Word) (s : State) : (spadPut a v s).kline = s.kline := rfl
@[simp] theorem spadPut_loop (a : Nat) (v : Word) (s : State) : (spadPut a v s).loop = s.loop := rfl
@[simp] theorem spadPut_waili (a : Nat) (v : Word) (s : State) : (spadPut a v s).waili = s.waili := rfl
@[simp] theorem spadPut_chisel (a : Nat) (v : Word) (s : State) : (spadPut a v s).chisel = s.chisel := rfl
@[simp] theorem spadPut_free (a : Nat) (v : Word) (s : State) : (spadPut a v s).free = s.free := rfl
@[simp] theorem spadPut_result (a : Nat) (v : Word) (s : State) : (spadPut a v s).result = s.result := rfl

/-! ### `popped` -/

@[simp] theorem popped_power (rest : List Instr) (s : State) : (popped rest s).power = s.power := rfl
@[simp] theorem popped_now (rest : List Instr) (s : State) : (popped rest s).now = s.now := rfl
@[simp] theorem popped_regs (rest : List Instr) (s : State) : (popped rest s).regs = s.regs := rfl
@[simp] theorem popped_xregs (rest : List Instr) (s : State) : (popped rest s).xregs = s.xregs := rfl
@[simp] theorem popped_hw (rest : List Instr) (s : State) : (popped rest s).hw = s.hw := rfl
@[simp] theorem popped_lines (rest : List Instr) (s : State) : (popped rest s).lines = s.lines := rfl
@[simp] theorem popped_boot (rest : List Instr) (s : State) : (popped rest s).boot = s.boot := rfl
@[simp] theorem popped_plinth (rest : List Instr) (s : State) : (popped rest s).plinth = s.plinth := rfl
@[simp] theorem popped_modes (rest : List Instr) (s : State) : (popped rest s).modes = s.modes := rfl
@[simp] theorem popped_intc (rest : List Instr) (s : State) : (popped rest s).intc = s.intc := rfl
@[simp] theorem popped_fcol (rest : List Instr) (s : State) : (popped rest s).fcol = s.fcol := rfl
@[simp] theorem popped_mem (rest : List Instr) (s : State) : (popped rest s).mem = s.mem := rfl
@[simp] theorem popped_flash (rest : List Instr) (s : State) : (popped rest s).flash = s.flash := rfl
@[simp] theorem popped_cour (rest : List Instr) (s : State) : (popped rest s).cour = s.cour := rfl
@[simp] theorem popped_otp (rest : List Instr) (s : State) : (popped rest s).otp = s.otp := rfl
@[simp] theorem popped_out (rest : List Instr) (s : State) : (popped rest s).out = s.out := rfl
@[simp] theorem popped_ang (rest : List Instr) (s : State) : (popped rest s).ang = s.ang := rfl
@[simp] theorem popped_evt (rest : List Instr) (s : State) : (popped rest s).evt = s.evt := rfl
@[simp] theorem popped_adc (rest : List Instr) (s : State) : (popped rest s).adc = s.adc := rfl
@[simp] theorem popped_thr (rest : List Instr) (s : State) : (popped rest s).thr = s.thr := rfl
@[simp] theorem popped_tile (rest : List Instr) (s : State) : (popped rest s).tile = s.tile := rfl
@[simp] theorem popped_trace (rest : List Instr) (s : State) : (popped rest s).trace = s.trace := rfl
@[simp] theorem popped_kern (rest : List Instr) (s : State) : (popped rest s).kern = s.kern := rfl
@[simp] theorem popped_post (rest : List Instr) (s : State) : (popped rest s).post = s.post := rfl
@[simp] theorem popped_can (rest : List Instr) (s : State) : (popped rest s).can = s.can := rfl
@[simp] theorem popped_kline (rest : List Instr) (s : State) : (popped rest s).kline = s.kline := rfl
@[simp] theorem popped_loop (rest : List Instr) (s : State) : (popped rest s).loop = s.loop := rfl
@[simp] theorem popped_waili (rest : List Instr) (s : State) : (popped rest s).waili = s.waili := rfl
@[simp] theorem popped_chisel (rest : List Instr) (s : State) : (popped rest s).chisel = s.chisel := rfl
@[simp] theorem popped_free (rest : List Instr) (s : State) : (popped rest s).free = s.free := rfl
@[simp] theorem popped_result (rest : List Instr) (s : State) : (popped rest s).result = s.result := rfl
@[simp] theorem popped_pending (rest : List Instr) (s : State) : (popped rest s).pending = rest := rfl

/-! ### `settle` -/

@[simp] theorem settle_pending (s : State) : (settle s).pending = s.pending := rfl
@[simp] theorem settle_power (s : State) : (settle s).power = s.power := rfl
@[simp] theorem settle_now (s : State) : (settle s).now = s.now := rfl
@[simp] theorem settle_regs (s : State) : (settle s).regs = s.regs := rfl
@[simp] theorem settle_xregs (s : State) : (settle s).xregs = s.xregs := rfl
@[simp] theorem settle_hw (s : State) : (settle s).hw = s.hw := rfl
@[simp] theorem settle_boot (s : State) : (settle s).boot = s.boot := rfl
@[simp] theorem settle_plinth (s : State) : (settle s).plinth = s.plinth := rfl
@[simp] theorem settle_modes (s : State) : (settle s).modes = s.modes := rfl
@[simp] theorem settle_intc (s : State) : (settle s).intc = s.intc := rfl
@[simp] theorem settle_fcol (s : State) : (settle s).fcol = s.fcol := rfl
@[simp] theorem settle_mem (s : State) : (settle s).mem = s.mem := rfl
@[simp] theorem settle_flash (s : State) : (settle s).flash = s.flash := rfl
@[simp] theorem settle_cour (s : State) : (settle s).cour = s.cour := rfl
@[simp] theorem settle_otp (s : State) : (settle s).otp = s.otp := rfl
@[simp] theorem settle_ang (s : State) : (settle s).ang = s.ang := rfl
@[simp] theorem settle_evt (s : State) : (settle s).evt = s.evt := rfl
@[simp] theorem settle_adc (s : State) : (settle s).adc = s.adc := rfl
@[simp] theorem settle_thr (s : State) : (settle s).thr = s.thr := rfl
@[simp] theorem settle_tile (s : State) : (settle s).tile = s.tile := rfl
@[simp] theorem settle_trace (s : State) : (settle s).trace = s.trace := rfl
@[simp] theorem settle_kern (s : State) : (settle s).kern = s.kern := rfl
@[simp] theorem settle_post (s : State) : (settle s).post = s.post := rfl
@[simp] theorem settle_can (s : State) : (settle s).can = s.can := rfl
@[simp] theorem settle_kline (s : State) : (settle s).kline = s.kline := rfl
@[simp] theorem settle_loop (s : State) : (settle s).loop = s.loop := rfl
@[simp] theorem settle_waili (s : State) : (settle s).waili = s.waili := rfl
@[simp] theorem settle_chisel (s : State) : (settle s).chisel = s.chisel := rfl
@[simp] theorem settle_free (s : State) : (settle s).free = s.free := rfl
@[simp] theorem settle_result (s : State) : (settle s).result = s.result := rfl

end Sys2Proof.Machine
end

