-- ==== Sys2Proof/WellFormed.lean ====
section
/-!
DEFINITION. Which commands are well formed: a macro instruction is one its encoding admits (spec/08, R350-R382), an operand
that a field of the spec bounds lies in its field, and a request of the Chisel port is one of its row.
-/

namespace Sys2Proof

open Machine

/-- The macro instruction of an instruction row: its thread, its prefixes and the instruction. -/
def macroOf : Instr → Option (Fin 8 × List Prefix × Op)
  | .addOp t pre rd src => some (t, pre, .alu .add rd src)
  | .adc t pre rd src => some (t, pre, .alu .adc rd src)
  | .subOp t pre rd src => some (t, pre, .alu .sub rd src)
  | .sbc t pre rd src => some (t, pre, .alu .sbc rd src)
  | .cmp t pre rd src => some (t, pre, .alu .cmp rd src)
  | .andOp t pre rd src => some (t, pre, .alu .and rd src)
  | .orOp t pre rd src => some (t, pre, .alu .or rd src)
  | .xorOp t pre rd src => some (t, pre, .alu .xor rd src)
  | .tst t pre rd src => some (t, pre, .alu .tst rd src)
  | .notOp t pre rd => some (t, pre, .not rd)
  | .negOp t pre rd => some (t, pre, .neg rd)
  | .shl t pre rd k => some (t, pre, .shift .shl rd k)
  | .shr t pre rd k => some (t, pre, .shift .shr rd k)
  | .sar t pre rd k => some (t, pre, .shift .sar rd k)
  | .rol t pre rd k => some (t, pre, .shift .rol rd k)
  | .mulOp t pre rs rt => some (t, pre, .mul rs rt)
  | .mac t pre rs rt => some (t, pre, .mac rs rt)
  | .msu t pre rs rt => some (t, pre, .msu rs rt)
  | .acld t pre (.reg r) => some (t, pre, .acldR r)
  | .acld t pre (.mem ea) => some (t, pre, .acldM ea)
  | .acst t pre (.reg r) => some (t, pre, .acstR false r)
  | .acst t pre (.mem ea) => some (t, pre, .acstM false ea)
  | .acstR t pre (.reg r) => some (t, pre, .acstR true r)
  | .acstR t pre (.mem ea) => some (t, pre, .acstM true ea)
  | .movRr t pre rd rs => some (t, pre, .movRR rd rs)
  | .movRi t pre rd v => some (t, pre, .movRI rd v)
  | .movRCr t pre rd c => some (t, pre, .movRC rd c)
  | .movCrR t pre c rs => some (t, pre, .movCR c rs)
  | .push t pre rs => some (t, pre, .push rs)
  | .pop t pre rd => some (t, pre, .pop rd)
  | .ld t pre rd ea => some (t, pre, .ld rd ea)
  | .st t pre rs ea => some (t, pre, .st rs ea)
  | .ldp t pre rd ea => some (t, pre, .ldp rd ea)
  | .stp t pre rs ea => some (t, pre, .stp rs ea)
  | .nop t pre => some (t, pre, .nop)
  | .brk t pre => some (t, pre, .brk)
  | .rts t pre => some (t, pre, .rts)
  | .retm t pre => some (t, pre, .retm)
  | .trap t pre n => some (t, pre, .trap n)
  | .bsr t pre d => some (t, pre, .bsr d)
  | .callm t pre mask d => some (t, pre, .callm mask d)
  | .loopOp t pre count e => some (t, pre, .loop count e)
  | .br t pre cc d => some (t, pre, .br cc d)
  | .wait t pre mask => some (t, pre, .wait mask)
  | .signalOp t pre a => some (t, pre, .signal a)
  | .sealOp t pre n => some (t, pre, .seal n)
  | .unsealOp t pre n => some (t, pre, .unseal n)
  | .setm t pre v => some (t, pre, .setm v)
  | .setbk t pre b => some (t, pre, .setbk b)
  | .stopOp t pre n => some (t, pre, .stop n)
  | .eret t pre => some (t, pre, .eret)
  | .ldsg t pre n ea => some (t, pre, .ldsg n ea)
  | .tcfg t pre n rp => some (t, pre, .tcfg n rp)
  | .tldr t pre n => some (t, pre, .tldr n)
  | .tstr t pre n => some (t, pre, .tstr n)
  | .tmap t pre rd n rx ry => some (t, pre, .tmap rd n rx ry)
  | .tmac t pre n m => some (t, pre, .tmac n m)
  | .trel t pre n => some (t, pre, .trel n)
  | _ => none

/-- The bytes of a macro instruction of the pages 0 to 2 decode (R353); FAR and SEALED may name what either discipline allows. -/
def macroWf (pre : List Prefix) (op : Op) : Bool :=
  match decodeInstr true (fun _ _ => microUnloaded) 0 (encodeInstr pre op) with
  | .inl _ => false
  | .inr _ => true

/-- A request of the Chisel port: START 0, and one of the operations of the row (R994). -/
def reqWf (req : BitVec 29) (op : Nat → Bool) : Bool := !req.getLsbD 0 && op (fld req 1 3)

/-- A command whose operands lie where the spec puts them. -/
def wf (i : Instr) : Bool :=
  match i with
  | .registerWrite _ addr _ => decide (addr < 0x100000)
  | .workingCopyWrite _ addr _ => decide (0x16000 ≤ addr ∧ addr < 0x17000)
  | .userInstruction _ bytes => decide (1 ≤ bytes.length ∧ bytes.length ≤ 8)
  | .tileRowStop _ row => decide (row ≤ 16)
  | .backLeg _ _ turn _ _ _ _ slots _ _ => decide (turn < 0x10000 ∧ slots.length ≤ 64)
  | .canFrameReceived _ _ id ide rtr fdf _ _ _ data =>
    (ide || decide (id.toNat < 0x800)) && !(rtr && fdf) && decide (data.length ≤ 64)
  | .klineInitEnd _ _ _ bitTime _ _ _ => decide (0 < bitTime)
  | .xrd req => reqWf req (fun op => decide (op = 0 ∨ 4 ≤ op))
  | .xwr req _ _ => reqWf req (· == 1)
  | .drd req _ => reqWf req (· == 2)
  | .dwr req _ _ _ => reqWf req (· == 3)
  | i =>
    match macroOf i with
    | some (_, pre, op) => macroWf pre op
    | none => true

end Sys2Proof
end

