-- ==== Sys2Proof/Tests/Slice0.lean ====
section
/-!
SUPPORT. Tests: ill-formed commands that the check refuses; worked examples of the spec and hand calculations from its rules;
and, for each statement with hypotheses, a state and operands that meet them, at the cases its clauses name.
-/

open Sys2Proof Sys2Proof.Machine

section Slice0Tests
set_option Elab.async false

/-- A command answers a next state, and `p` holds of it. -/
def Sys2Proof.Tests.runs (i : Instr) (s : State) (p : State → Bool) : Bool :=
  match exec i s with
  | .next u => p u
  | _ => false

/-- Thread `t` ready at an address with PSW, as the examples start. -/
def Sys2Proof.Tests.ready (t : Fin 8) (pc : BitVec 17) (psw : Word) (regs : List (Fin 16 × Word)) : State :=
  setThread t (fun h => { h with
    st := .ready, begun := true, pc := pc, psw := psw, r := regs.foldl (fun r p => r.set p.1 p.2) h.r }) State.reset

open Sys2Proof.Tests in
/-- Segment 7 of thread `t`, which covers 256 words from D:00100 on. -/
def Sys2Proof.Tests.withSeg (t : Fin 8) (s : State) : State :=
  setThread t (fun h => { h with sg := h.sg.map (fun _ => { base := 0x100, en := true, wr := true, limit := 0xFF }) })
    (setReg32 Reg.cour_FWLIM 0 s)

open Sys2Proof.Tests

/-! ### Well-formedness: one ill-formed term for each check -/

theorem test_wf_register_address : wf (.registerWrite .debug 0x100000 0) = false := by decide
theorem test_wf_working_copy_address : wf (.workingCopyWrite .debug 0x15FFF 0) = false := by decide
theorem test_wf_user_bytes : wf (.userInstruction 2 []) = false := by decide
theorem test_wf_tile_row : wf (.tileRowStop 0 17) = false := by decide
theorem test_wf_can_standard_id : wf (.canFrameReceived 0 0 0x800 false false false false false 0 []) = false := by decide
theorem test_wf_kline_bit_time : wf (.klineInitEnd 0 true 0 0 0 0 0) = false := by decide
theorem test_wf_request_start : wf (.xrd 1) = false := by decide
theorem test_wf_request_operation : wf (.xwr 0 0 false) = false := by decide
theorem test_wf_three_prefixes_at_most : wf (.nop 0 [.long, .pair, .sat, .far 0]) = false := by decide +kernel
theorem test_wf_accepts : wf (.addOp 2 [.ift 1, .sat, .long] 2 (.imm 0x1200)) = true := by decide +kernel

/-! ### Encodings (chapter 08 and 10 examples) -/

theorem test_encode_guarded_add :
    encodeInstr [.ift 1, .sat, .long] (.alu .add 2 (.imm 0x1200)) = [0xF2, 0x01, 0xF5, 0xF0, 0x31, 0x20, 0x00, 0x12] := by
  decide +kernel
theorem test_encode_tmap : encodeInstr [] (.tmap 4 1 1 2) = [0xF8, 0x03, 0x41, 0x12] := by decide +kernel
theorem test_no_row_gives_bits : decodeTableWord 16 0x1234 = none := by decide

/-! ### Instructions -/

/-- The guarded saturating correction of chapter 08. -/
theorem test_guarded_saturating_add :
    runs (.addOp 2 [.ift 1, .sat, .long] 2 (.imm 0x1200)) (ready 2 0x403 0x404 [(2, 0x7000)])
      (fun u => (thread u 2).r[2] == 0x7FFF && (thread u 2).psw == 0x0412 && (thread u 2).pc == 0x40B) = true := by
  decide +kernel
/-- A guard that fails skips the instruction (R355). -/
theorem test_guard_fails :
    runs (.addOp 2 [.iff 1, .sat, .long] 2 (.imm 0x1200)) (ready 2 0x403 0x404 [(2, 0x7000)])
      (fun u => (thread u 2).r[2] == 0x7000 && (thread u 2).pc == 0x40B) = true := by decide +kernel
theorem test_sub_borrow :
    runs (.subOp 2 [] 1 (.reg 2)) (ready 2 0x400 0 [(1, 0), (2, 1)])
      (fun u => (thread u 2).r[1] == 0xFFFF && (thread u 2).psw.getLsbD 0 && (thread u 2).psw.getLsbD 3) = true := by
  decide +kernel
theorem test_xor_with_itself :
    runs (.xorOp 3 [] 1 (.reg 1)) (ready 3 0x400 0 [(1, 0x5A5A)])
      (fun u => (thread u 3).r[1] == 0 && (thread u 3).psw.getLsbD 2) = true := by decide +kernel
theorem test_sar_keeps_sign :
    runs (.sar 3 [] 1 (.imm 1)) (ready 3 0x400 0 [(1, 0x8001)])
      (fun u => (thread u 3).r[1] == 0xC000 && (thread u 3).psw.getLsbD 0) = true := by decide +kernel
theorem test_mul_negative :
    runs (.mulOp 3 [] 1 2) (ready 3 0x400 0 [(1, 0xFFFF), (2, 3)])
      (fun u => (thread u 3).ac[0] == 0xFFFFFFFFFD) = true := by decide +kernel
theorem test_mov_immediate_sign_extends :
    runs (.movRi 3 [] 1 0xFF) (ready 3 0x400 0 []) (fun u => (thread u 3).r[1] == 0xFFFF) = true := by decide +kernel
theorem test_undefined_encoding_is_illegal :
    runs (.nop 2 [.long, .long]) (ready 2 0x400 0 []) (fun u => (thread u 2).ecause.toNat / 0x1000 == 1) = true := by
  decide +kernel
/-- SETM is privileged: in TH2 it enters PRIVILEGE (R336). -/
theorem test_setm_privilege :
    runs (.setm 2 [] 1) (ready 2 0x400 0 []) (fun u => (thread u 2).ecause.toNat / 0x1000 == 2 && inException (thread u 2))
      = true := by decide +kernel

/-! ### Hypotheses that are met -/

/-- The hypothesis of all the statements that ask for the rails. -/
theorem test_witness_up : Up State.reset := rfl
theorem test_witness_NothingActsWithoutItsRails :
    let s : State := { State.reset with power := .down }
    s.power ≠ .up ∧ (∀ a, Instr.ping ≠ .por a) ∧ (∀ a b d, Instr.ping ≠ .startEvent a b d) ∧ (∀ k, Instr.ping ≠ .wake k) :=
  ⟨by decide, fun _ => Instr.noConfusion, fun _ _ _ => Instr.noConfusion, fun _ => Instr.noConfusion⟩
theorem test_witness_StepKeepsSettled : Settled State.reset ∧ ∃ t, step { State.reset with pending := [.ping] } = .next t := by
  refine ⟨⟨?_, rfl, ?_⟩, _, rfl⟩
  · intro t; revert t; decide +kernel
  · intro i; revert i; decide +kernel
theorem test_witness_StepRunsTheFrontCommand : State.reset.pending = [] := rfl
theorem test_witness_PrefixesDecodeAsEncoded :
    ([.ift 1, .sat, .long] : List Prefix).length ≤ 3 := by decide
theorem test_witness_FollowOnlySettlesAQuietBlock :
    frozenBlock State.reset 0 = false ∧ State.reset.chisel.wdLeft = none ∧
      frozenBlock State.reset 1 = State.reset.chisel.evtFrozen ∧ (∀ k : Fin 2, canOnBus State.reset k = false) ∧
      State.reset.waili.on = false := by decide +kernel
theorem test_witness_InstructionsPassTheirChecksInOrder :
    instrOf (.nop 2 []) = some (2, [], .nop) ∧ Up (ready 2 0x400 0 []) := ⟨rfl, rfl⟩
/-- A load that is made: its address passes and the word is there. -/
theorem test_witness_LoadsLandOneInstructionLate :
    let s := withSeg 2 (ready 2 0x400 0 [])
    ((eaAccess (thread s 2) none false (.ind 0) 1 false).getRight?.any
      (fun a => (memDone (load1 2 false a (issued s 2 [] (.ld 1 (.ind 0))))).isSome)) = true := by decide +kernel
/-- A store that enters the buffer. -/
theorem test_witness_StoresEnterTheBuffer :
    runs (.st 2 [] 1 (.ind 0)) (withSeg 2 (ready 2 0x400 0 [(1, 0xABCD)])) (fun u => u.mem.sbuf.length == 1) = true := by
  decide +kernel
theorem test_witness_ClockMonitorSwitchesOnceAndNeverBack :
    let s : State := setReg Reg.sys_CLKSTAT 0 State.reset
    Up s ∧ (!regBit s Reg.sys_CLKSTAT 15 && runs (.lockLoss 0 false) s (fun u => regBit u Reg.sys_CLKSTAT 15)) = true := ⟨rfl, by decide +kernel⟩
theorem test_witness_BootRunsOnceToItsEnd :
    let s : State := State.reset
    Up s ∧ (s.boot.stage == .notStarted && runs .bootStart s (fun u => u.boot.stage != .notStarted)) = true := ⟨rfl, by decide +kernel⟩
theorem test_witness_ResetsKeepAndRestoreWhatTheirTablesSay :
    let s : State := setReg (Reg.mon_VAL 3) 7 State.reset
    Up s ∧ (runs (.por true) s (fun u => u.regs == [] || reg u (Reg.mon_VAL 3) == 0)) = true := ⟨rfl, by decide +kernel⟩
theorem test_witness_SupplyEventsSetTheirStatus :
    let s : State := State.reset
    Up s ∧ (runs (.vbSourceChange 0 true) s (fun u => regBit u Reg.plinth_STAT 15)) = true := ⟨rfl, by decide +kernel⟩
theorem test_witness_DipIsRiddenThroughOrEndsInHoldup :
    let s : State := State.reset
    Up s ∧ (s.plinth.holdDue.isNone && runs (.vbatDipStart 0) s (fun u => u.plinth.holdDue.isSome)) = true := ⟨rfl, by decide +kernel⟩
theorem test_witness_SleepIsRequestedHeldAndEntered :
    let s : State := State.reset
    Up s ∧ (privileged .debug && runs (.sleepRequest .debug true) s (fun u => u.plinth.keywake)) = true := ⟨rfl, by decide +kernel⟩
theorem test_witness_ChargingReferenceAndVoltageSteps :
    let s : State := setReg Reg.plinth_CHGCFG 0x0300 State.reset
    Up s ∧ (160000 / (fld (reg s Reg.plinth_CHGCFG) 8 4 + 1) == 40000) = true := ⟨rfl, by decide +kernel⟩
theorem test_witness_MonitorScanStoresAndJudges :
    let s : State := State.reset
    Up s ∧ (runs (.monitorScan (Vector.replicate 9 5) false) s (fun u => reg u (Reg.mon_VAL 3) != 7)) = true := ⟨rfl, by decide +kernel⟩
theorem test_witness_EngineHoursAndPinsFollowTheirRules :
    let s : State := { State.reset with plinth := { State.reset.plinth with turnTicks := 160000000 } }
    Up s ∧ (runs .engineSecond s (fun u => (reg32 u Reg.plinth_EHOURS).toNat == 1)) = true := ⟨rfl, by decide +kernel⟩
theorem test_witness_LeavingSetupMeetsEveryCondition :
    let s : State := State.reset
    Up s ∧ (inSetup s && runs (.modeRunRequest .debug) s (fun u => fld (reg u Reg.sys_MODESTAT) 0 4 == 1)) = true := ⟨rfl, by decide +kernel⟩
theorem test_witness_ModeRequestsTakeEffect :
    let s : State := State.reset
    Up s ∧ (runs (.modeSetupRequest (.thread 4)) s (fun u => fld (reg u Reg.sys_MODESTAT) 0 4 == 9)) = true := ⟨rfl, by decide +kernel⟩
theorem test_witness_WorkingCopyIsCheckedAndCommitted :
    let s : State := State.reset
    Up s ∧ (inSetup s && runs (.workingCopyWrite .debug 0x16010 5) s (fun u => spadGet u 0x16010 == 5 && regBit u Reg.sys_ARMSTAT 12)) = true := ⟨rfl, by decide +kernel⟩
theorem test_witness_FencesLiftOnlyWithTheirClassClear :
    let s : State := setReg Reg.sys_FENCEA 1 State.reset
    Up s ∧ (fenceBit s 0 && runs (.fenceLiftA .debug 1) s (fun u => !fenceBit u 0)) = true := ⟨rfl, by decide +kernel⟩
theorem test_witness_ThreadsStartStopAndWake :
    let s : State := State.reset
    Up s ∧ (isStopped s 3 && runs (.threadStart .debug 3) s (fun u => (thread u 3).st != .stopped)) = true := ⟨rfl, by decide +kernel⟩
theorem test_witness_WheelAndTimersKeepTheirRules :
    let s : State := State.reset
    Up s ∧ (runs (.wcmt .debug) s (fun u => u.thr.wpend)) = true := ⟨rfl, by decide +kernel⟩
theorem test_witness_ReadsClearTheirCounters :
    let s : State := setReg Reg.plinth_DIPS 3 State.reset
    Up s ∧ (runs (.dipsRead (.thread 0) true) s (fun u => u.result == [3])) = true := ⟨rfl, by decide +kernel⟩
theorem test_witness_SumsAndDifferencesAreExact :
    let s : State := ready 2 0x400 0 [(1, 0x1234), (2, 2)]
    Up s ∧ ((executes s 2 [] (.alu .add 1 (.reg 2))) && slotPlain (thread s 2) && dataQuiet s 2) = true := ⟨rfl, by decide +kernel⟩
theorem test_witness_LogicAndShiftsMoveTheirBits :
    let s : State := ready 2 0x400 0 [(1, 0x1234), (2, 2)]
    Up s ∧ ((executes s 2 [] (.shift .shl 1 (.imm 15))) && slotPlain (thread s 2) && dataQuiet s 2) = true := ⟨rfl, by decide +kernel⟩
theorem test_witness_AccumulatorsSumExactProducts :
    let s : State := ready 2 0x400 0 [(1, 0x1234), (2, 2)]
    Up s ∧ ((executes s 2 [] (.mac 1 2)) && slotPlain (thread s 2) && dataQuiet s 2) = true := ⟨rfl, by decide +kernel⟩
theorem test_witness_MovesCopyTheirOperand :
    let s : State := ready 2 0x400 0 [(1, 0x1234), (2, 2)]
    Up s ∧ ((executes s 2 [] (.movCR 0 1)) && slotPlain (thread s 2) && dataQuiet s 2) = true := ⟨rfl, by decide +kernel⟩
theorem test_witness_BranchesOpenTheirDelaySlot :
    let s : State := ready 2 0x400 0 [(1, 0x1234), (2, 2)]
    Up s ∧ ((executes s 2 [] (.br 0 5)) && slotPlain (thread s 2) && dataQuiet s 2) = true := ⟨rfl, by decide +kernel⟩
theorem test_witness_SlotsAndLoopEndsSteerThePc :
    let s : State := setThread 2 (fun h => { h with slot := some { pc := 0x3FD, cont := .jump (some 0x480) } }) (ready 2 0x400 0 [])
    Up s ∧ ((executes s 2 [] (.nop)) && slotPlain (thread s 2) && dataQuiet s 2) = true := ⟨rfl, by decide +kernel⟩
theorem test_witness_WaitsSignalsAndSealsAnswer :
    let s : State := ready 2 0x400 0 [(1, 0x1234), (2, 2)]
    Up s ∧ ((executes s 2 [] (.seal (.imm 7))) && slotPlain (thread s 2) && dataQuiet s 2) = true := ⟨rfl, by decide +kernel⟩
theorem test_witness_SystemInstructionsKeepTheirPrivilege :
    let s : State := ready 2 0x400 0 [(1, 0x1234), (2, 2)]
    Up s ∧ ((executes s 2 [] (.setm 1)) && slotPlain (thread s 2) && dataQuiet s 2) = true := ⟨rfl, by decide +kernel⟩
theorem test_witness_AsynchronousExceptionsEnter :
    let s : State := setThread 2 (fun h => { h with abortDue := true }) (ready 2 0x400 0 [])
    Up s ∧ (runs (.abortException 2) s (fun u => inException (thread u 2) && !(thread u 2).abortDue)) = true := ⟨rfl, by decide +kernel⟩
theorem test_witness_MicrowordsComputeAndSequence :
    let s : State := ready 2 0x400 0 []
    Up s ∧ (canIssue s 2 && runs (.userInstruction 2 [0xFA, 0x00, 0x00]) s (fun u => inException (thread u 2) && (thread u 2).ecause == 0x1007)) = true := ⟨rfl, by decide +kernel⟩
theorem test_witness_TileOperationsKeepTheirRules :
    let s : State := ready 2 0x400 0 [(1, 0x1234), (2, 2)]
    Up s ∧ ((executes s 2 [] (.tcfg 1 2)) && slotPlain (thread s 2) && dataQuiet s 2) = true := ⟨rfl, by decide +kernel⟩
theorem test_witness_WritesActByTheirAccessCodes :
    let s : State := State.reset
    Up s ∧ ((refusal s .debug 0x100 1 true).isNone && runs (.registerWrite .debug 0x100 9) s (fun u => spadGet u 0x100 == 9)) = true := ⟨rfl, by decide +kernel⟩
theorem test_witness_CourierMovesByItsDescriptors :
    let s : State := setReg (Reg.cour_HEAD 3) 0x200 State.reset
    Up s ∧ ((chan s 3).st == .idle && runs (.courStart .debug 3) s (fun u => (chan u 3).st == .run && reg u (Reg.cour_CUR 3) == 0x200)) = true := ⟨rfl, by decide +kernel⟩
theorem test_witness_ClaimTakesLowestClaimable :
    let s : State := { setReg (Reg.intc_TGT 21) 0x0008 State.reset with intc := { State.reset.intc with mask := 0, pend := BitVec.ofNat 96 (2 ^ 42) } }
    Up s ∧ ((s.intc.held[(3 : Fin 8)]).isNone && claimable s 3 42 && !claimable s 3 41) = true := ⟨rfl, by decide +kernel⟩
theorem test_witness_CompleteReleasesTheHeldSource :
    let s : State := { State.reset with intc := { State.reset.intc with held := State.reset.intc.held.set 3 (some 42), act := BitVec.ofNat 96 (2 ^ 42) } }
    Up s ∧ (runs (.compl (.thread 3) 3 42) s (fun u => (u.intc.held[(3 : Fin 8)]).isNone && u.intc.act == 0)) = true := ⟨rfl, by decide +kernel⟩
/-- The last source. -/
theorem test_witness_SignalledSourceHoldsItsEvent :
    let s : State := State.reset
    Up s ∧ (runs (.intcEvent 5 95) s (fun u => u.intc.pend.getLsbD 95)) = true := ⟨rfl, by decide +kernel⟩
theorem test_witness_RunawaySourceIsMasked :
    let s : State := setReg (Reg.intc_RUN 0) 1 State.reset
    Up s ∧ (runs (.intcEvent 0 0) s (fun u => u.intc.counts[0] == 1)) = true := ⟨rfl, by decide +kernel⟩
theorem test_witness_MaskAndPendWritesActPerBit :
    let s : State := State.reset
    Up s ∧ (runs (.maskclr .debug 5 0x8000) s (fun u => !u.intc.mask.getLsbD 95)) = true := ⟨rfl, by decide +kernel⟩
/-- The CAN burst of chapter 12 at 330 us. -/
theorem test_witness_ModerationHoldEnds :
    let s : State := { State.reset with intc := { State.reset.intc with raw := BitVec.ofNat 96 (2 ^ 44), modDue := State.reset.intc.modDue.set 5 (some 0) } }
    Up s ∧ (runs (.moderationExpiry 5) s (fun u => u.intc.pend.getLsbD 44 && u.intc.raw == 0)) = true := ⟨rfl, by decide +kernel⟩
theorem test_witness_AngleTrackerFollowsItsRules :
    let s : State := { State.reset with ang := { State.reset.ang with cfg := { State.reset.ang.cfg with teeth := 12, crkHall := true } } }
    Up s ∧ (runs (.crankEdge 9 0) s (fun u => u.ang.pendTooth == some 9)) = true := ⟨rfl, by decide +kernel⟩
theorem test_witness_EventTableAnswersAndFires :
    let s : State := State.reset
    Up s ∧ (runs (.evtAlloc (.thread 4)) s (fun u => (ent u (kpart s)).st == .cancelled && entOwn u (kpart s) == 4)) = true := ⟨rfl, by decide +kernel⟩
theorem test_witness_MeasurementRunsByItsRules :
    let s : State := State.reset
    Up s ∧ ((s.adc.conv[(0 : Fin 2)]).run.isNone && runs (.conversionEnd 0 5) s (fun u => (u.adc.conv[(0 : Fin 2)]).run.isNone)) = true := ⟨rfl, by decide +kernel⟩
theorem test_witness_StagesKeepTheirRules :
    let s : State := State.reset
    Up s ∧ (runs (.swcmdOn .debug 3) s (fun u => u.out.queue.length == 1)) = true := ⟨rfl, by decide +kernel⟩
theorem test_witness_StepperFollowsItsTarget :
    let s : State := State.reset
    Up s ∧ (stageBlocked s 12 && runs .stepperStep s (fun u => u.out.stepper == s.out.stepper)) = true := ⟨rfl, by decide +kernel⟩
theorem test_witness_KernelCommitsAndHandsOver :
    let s : State := setReg Reg.kern_MODE 0xFF00 State.reset
    Up s ∧ (!kEn State.reset 0 && kEn s 0) = true := ⟨rfl, by decide +kernel⟩
theorem test_witness_WailiReceivesRoutesAndSends :
    let s : State := setWaili (fun w => { w with on := true }) State.reset
    Up s ∧ (runs (.wailiCharacter 0 0x41 true) s (fun u => u.waili.edit == [0x41])) = true := ⟨rfl, by decide +kernel⟩
theorem test_witness_WailiCommandsAnswer :
    let s : State := setWaili (fun w => { w with on := true, hold := some (codes "id") }) State.reset
    Up s ∧ ((wTake .id s).isSome && runs .idCmd s (fun u => u.waili.hold.isNone)) = true := ⟨rfl, by decide +kernel⟩
theorem test_witness_LoopKeepsItsRounds :
    let s : State := setRegBit Reg.sys_STRAP 15 true State.reset
    Up s ∧ (isHead s) = true := ⟨rfl, by decide +kernel⟩
theorem test_witness_CanTakesSendsAndCountsErrors :
    let s : State := setReg (canBase 0) 0x2000 State.reset
    Up s ∧ (canMode s 0 == 1) = true := ⟨rfl, by decide +kernel⟩
theorem test_witness_KlineMovesItsBytes :
    let s : State := { setRegBit Reg.kline_CTL 15 true State.reset with kline := { State.reset.kline with tx := [0x55] } }
    Up s ∧ (klineOn s && runs (.klineByteSent 0 0x55 false) s (fun u => u.kline.tx == [] && (u.intc.pend.getLsbD 51 || u.intc.raw.getLsbD 51))) = true := ⟨rfl, by decide +kernel⟩
theorem test_witness_FaultsEscalateAndAbortsReport :
    let s : State := { setReg Reg.fcol_POL0 0x1111 State.reset with fcol := { State.reset.fcol with raises := [{ cls := 2, detail := 7 }] } }
    Up s ∧ (runs .faultHandle s (fun u => u.fcol.hist.length == 1 && lvOf u 2 == 1 && regBit u Reg.fcol_FSW 2)) = true := ⟨rfl, by decide +kernel⟩
theorem test_witness_ChiselServesItsRequests :
    let s : State := State.reset
    Up s ∧ (runs (.vtin 0x41) s (fun u => u.chisel.vtIn == [0x41] && u.result == [6, 0, 0])) = true := ⟨rfl, by decide +kernel⟩

/-! ### More of the spec's examples -/

/-- The CAN burst of chapter 12 at 330 us: the claim of TH3 takes 42, which outranks 44. -/
theorem test_claim_takes_the_lower_source :
    let s : State := { setReg (Reg.intc_TGT 21) 0x0008 (setReg (Reg.intc_TGT 22) 0x0008 State.reset) with
      intc := { State.reset.intc with mask := 0, pend := BitVec.ofNat 96 (2 ^ 42 + 2 ^ 44) } }
    runs (.claim (.thread 3) 3 true) s (fun u => u.result == [42] && u.intc.act == BitVec.ofNat 96 (2 ^ 42)) = true := by
  decide +kernel
/-- STRICT's dialogue of chapter 18: the suffixes of its lines. -/
theorem test_crc8_of_a_line : hexDigits 2 (crc8 (codes "OK")).toNat = codes "6E" ∧ hexDigits 2 (crc8 (codes "PING")).toNat = codes "1F" ∧
    hexDigits 2 (crc8 (codes "ID")).toNat = codes "3D" := by decide +kernel
/-- The ID answer of chapter 18. -/
theorem test_id_answers :
    runs .idCmd (setWaili (fun w => { w with on := true, hold := some (codes "ID") }) State.reset)
      (fun u => u.waili.out == codes "4816h 3Ah 01h" ++ [0x0D, 0x0A] ++ codes "OK" ++ [0x0D, 0x0A]) = true := by decide +kernel
/-- The request of chapter 22's packet: PAR is 1, and its ones are odd. -/
theorem test_angle_packet_parity :
    let req : BitVec 29 := BitVec.ofNat 29 (2 * 2 + 0x42011 * 16 + 2 ^ 24 + 2 ^ 27 + 2 ^ 28)
    parOk { req := req, data := 0 } = true ∧ fld req 1 3 = 2 ∧ fld req 4 20 = 0x42011 := by decide +kernel
/-- FIPS 197, appendix B: AES-128 of its example (a standard's vector, not the spec's). -/
theorem test_aes_vector :
    aes128 [0x2B, 0x7E, 0x15, 0x16, 0x28, 0xAE, 0xD2, 0xA6, 0xAB, 0xF7, 0x15, 0x88, 0x09, 0xCF, 0x4F, 0x3C]
        [0x32, 0x43, 0xF6, 0xA8, 0x88, 0x5A, 0x30, 0x8D, 0x31, 0x31, 0x98, 0xA2, 0xE0, 0x37, 0x07, 0x34]
      = [0x39, 0x25, 0x84, 0x1D, 0x02, 0xDC, 0x09, 0xFB, 0xDC, 0x11, 0x85, 0x97, 0x19, 0x6A, 0x0B, 0x32] := by decide +kernel
/-- CRC-32 of "123456789" is CBF43926h (the polynomial and form of R157). -/
theorem test_crc32_check : crc32 (codes "123456789") = 0xCBF43926 := by decide +kernel

end Slice0Tests
end

/-! ## Leaving SETUP (R199-R201) -/

namespace Sys2Proof.Machine

/-! ### The codes of R200 -/

theorem heldClass_isSome_iff (s : State) (l : Nat) :
    (heldClass s l).isSome = true ↔ ∃ c : Fin 16, regBit s Reg.fcol_FSW c = true ∧ l ≤ lvOf s c := by
  simp only [heldClass, List.find?_isSome, List.mem_range, Bool.and_eq_true, decide_eq_true_eq]
  exact ⟨fun ⟨c, hc, h⟩ => ⟨⟨c, hc⟩, h⟩, fun ⟨c, h⟩ => ⟨c, c.isLt, h⟩⟩

/-- Codes 1 to 5 in their order. -/
theorem leaveRefused_eq (s : State) :
    leaveRefused s =
      if regBit s Reg.sys_ARMSTAT 13 = false ∨ regBit s Reg.sys_ARMSTAT 12 = true then 1
      else if s.modes.bootsu = true then 2
      else if ∃ c : Fin 16, regBit s Reg.fcol_FSW c = true ∧ 4 ≤ lvOf s c then 3
      else if regBit s Reg.loop_STAT 9 = true then 4
      else if lossPolicy s = 2 then 5
      else 0 := by
  simp only [leaveRefused, heldClass_isSome_iff, Bool.or_eq_true, Bool.not_eq_true']

/-- Codes 6 to 8 in their order. -/
theorem runRefused_fst_eq (s : State) :
    (runRefused s).1 =
      if onBackup s = true then 6
      else if ∃ c : Fin 16, regBit s Reg.fcol_FSW c = true ∧ 3 ≤ lvOf s c then 7
      else if lossPolicy s = 1 then 8
      else 0 := by
  simp only [runRefused, ← heldClass_isSome_iff]
  cases heldClass s 3 with
  | none => cases onBackup s <;> by_cases hl : lossPolicy s = 1 <;> simp [hl]
  | some c => cases onBackup s <;> simp

theorem leaveRefused_lt (s : State) : leaveRefused s < 16 := by
  unfold leaveRefused
  split_ifs <;> decide

theorem runRefused_fst_lt (s : State) : (runRefused s).1 < 16 := by
  rw [runRefused_fst_eq]
  split_ifs <;> decide

/-! ### What a request does -/

theorem requestBy_of_not_privileged {m : Master} (hm : privileged m = false) (q : ModeReq) (s : State) :
    requestBy m q s = setRefuse 9 s := by
  simp [requestBy, hm]

/-- A permitted request to leave an idle SETUP is evaluated at once. -/
theorem requestBy_idle_setup {m : Master} {q : ModeReq} {s : State} (hm : privileged m = true) (hq : q ≠ .setup)
    (hmode : s.modes.mode = .setup) (happ : s.modes.reapply = none) (hbusy : regBit s Reg.sys_ARMSTAT 11 = false) :
    requestBy m q s = leaveSetup false q s := by
  cases q <;> simp_all [requestBy, modeRequest, commitBusy]

/-- The transition to `t` out of SETUP begins, with code `k` in REFUSE (R201, R206). -/
def beginTransition (w : Bool) (t : Mode) (src cause k : Nat) (s : State) : State :=
  setModes (fun m => { m with reapply := some { target := t, lsrc := src, lcause := cause, byW := w } }) (setRefuse k s)

theorem leaveSetup_of_refused {s : State} (h : leaveRefused s ≠ 0) (w : Bool) (q : ModeReq) :
    leaveSetup w q s = setRefuse (leaveRefused s) s := by
  simp [leaveSetup, h]

theorem leaveSetup_limp {s : State} (h : leaveRefused s = 0) (w : Bool) :
    leaveSetup w .limp s = beginTransition w .limp 2 0 0 s := by
  simp [leaveSetup, h, beginTransition]

theorem leaveSetup_run {s : State} (h : leaveRefused s = 0) (w : Bool) :
    ∃ src cause, leaveSetup w .run s =
      beginTransition w (if (runRefused s).1 = 0 then .run else .limp) src cause (runRefused s).1 s := by
  by_cases hk : (runRefused s).1 = 0
  · exact ⟨0, 0, by simp [leaveSetup, h, hk, beginTransition]⟩
  · exact ⟨(runRefused s).2.1, (runRefused s).2.2, by simp [leaveSetup, h, hk, beginTransition]⟩

/-! ### What REFUSE and a begun transition leave alone -/

theorem setRefuse_regsBut (k : Nat) (s : State) : RegsBut [Reg.sys_MODESTAT] s (setRefuse k s) :=
  fun _ ha => reg_setRegF_other 0 4 k s (List.ne_of_not_mem_cons ha)

/-- MODESTAT.REFUSE. -/
abbrev refuseOf (s : State) : Nat := fld (reg s Reg.sys_MODESTAT) 0 4

theorem refuseOf_setRefuse {k : Nat} (hk : k < 16) (s : State) : refuseOf (setRefuse k s) = k := by
  rw [refuseOf, setRefuse, reg_setRegF_same, fld_putFld _ _ _ _ (by decide)]
  exact Nat.mod_eq_of_lt hk

theorem refuseOf_beginTransition {k : Nat} (hk : k < 16) (w : Bool) (t : Mode) (src cause : Nat) (s : State) :
    refuseOf (beginTransition w t src cause k s) = k :=
  refuseOf_setRefuse hk s

theorem modes_of_reapply_none {s : State} (h : s.modes.reapply = none) : { s.modes with reapply := none } = s.modes := by
  rw [← h]

/-! ### The outcome of a request -/

/-- The outcome `u` of a request of `m` in `r`: refused with a code of R199 or R200 and without effect, or accepted, where
`go` relates REFUSE to the state left and nothing but the transition under way differs in the modes. -/
def RequestOutcome (m : Master) (go : Nat → State → Prop) (r u : State) : Prop :=
  RegsBut [Reg.sys_MODESTAT] r u ∧ { u with regs := r.regs, modes := r.modes } = r ∧
    if privileged m = false then refuseOf u = 9 ∧ u.modes = r.modes
    else if leaveRefused r ≠ 0 then refuseOf u = leaveRefused r ∧ u.modes = r.modes
    else { u.modes with reapply := none } = r.modes ∧ go (refuseOf u) u

/-- A request to leave SETUP meets the codes of R199 and R200 first; one that passes them begins its transition. -/
theorem requestBy_outcome {m : Master} {q : ModeReq} {r : State} {go : Nat → State → Prop} (hq : q ≠ .setup)
    (hidle : privileged m = false ∨
      (r.modes.mode = .setup ∧ r.modes.reapply = none ∧ regBit r Reg.sys_ARMSTAT 11 = false))
    (hgo : leaveRefused r = 0 → ∃ t src cause k, k < 16 ∧ leaveSetup false q r = beginTransition false t src cause k r ∧
      go k (beginTransition false t src cause k r)) :
    RequestOutcome m go r (requestBy m q r) := by
  unfold RequestOutcome
  by_cases hm : privileged m = false
  · rw [requestBy_of_not_privileged hm, if_pos hm]
    exact ⟨setRefuse_regsBut 9 r, rfl, refuseOf_setRefuse (by decide) r, rfl⟩
  · obtain ⟨hmode, happ, hbusy⟩ := hidle.resolve_left hm
    rw [requestBy_idle_setup (Bool.eq_true_of_not_eq_false hm) hq hmode happ hbusy, if_neg hm]
    by_cases hc : leaveRefused r = 0
    · obtain ⟨t, src, cause, k, hk, hu, hgo⟩ := hgo hc
      rw [hu, refuseOf_beginTransition hk, if_neg (not_not_intro hc)]
      exact ⟨setRefuse_regsBut k r, rfl, modes_of_reapply_none happ, hgo⟩
    · rw [leaveSetup_of_refused hc, refuseOf_setRefuse (leaveRefused_lt r), if_pos hc]
      exact ⟨setRefuse_regsBut _ r, rfl, rfl, rfl⟩

theorem exec_modeRunRequest (m : Master) (s : State) : exec (.modeRunRequest m) s = act (requestBy m .run) s := rfl

theorem exec_modeLimpRequest (m : Master) (s : State) : exec (.modeLimpRequest m) s = act (requestBy m .limp) s := rfl

/-- Settles O19: each request is evaluated by `requestBy_outcome`, its codes are those of `leaveRefused` and `runRefused`. -/
theorem leavingSetupMeetsEveryCondition : Obligations.LeavingSetupMeetsEveryCondition := by
  unfold Obligations.LeavingSetupMeetsEveryCondition
  intro s m hup
  simp only [← leaveRefused_eq, ← runRefused_fst_eq]
  refine ⟨Acts.of (exec_modeRunRequest m s) hup fun hidle => ?run,
    Acts.of (exec_modeLimpRequest m s) hup fun hidle => ?limp⟩
  case run =>
    refine requestBy_outcome (go := fun refuse u => refuse = (runRefused (ready (clkTicks s) s)).1 ∧
      u.modes.reapply.map (·.target) = some (if (runRefused (ready (clkTicks s) s)).1 = 0 then .run else .limp))
      (by decide) hidle fun hc => ?_
    obtain ⟨src, cause, hu⟩ := leaveSetup_run hc false
    exact ⟨_, src, cause, _, runRefused_fst_lt _, hu, rfl, rfl⟩
  case limp =>
    exact requestBy_outcome (go := fun refuse u => refuse = 0 ∧
      u.modes.reapply.map (fun p => (p.target, p.lsrc)) = some (.limp, 2))
      (by decide) hidle fun hc => ⟨.limp, 2, 0, 0, by decide, leaveSetup_limp hc false, rfl, rfl⟩

end Sys2Proof.Machine

/-! ## What signalling a source leaves alone (R539-R558) -/

namespace Sys2Proof.Machine

theorem takeEvent_eq (n : Fin 96) (s : State) : ∃ c, takeEvent n s = { s with intc := c } := ⟨_, rfl⟩

theorem moderated_eq (n : Fin 96) (s : State) : ∃ c, moderated n s = { s with intc := c } := by
  simp only [moderated]
  split
  · exact takeEvent_eq n s
  · exact ⟨_, rfl⟩

/-- All that counting an event can do beside the interrupt controller: a runaway source sets its RUNST bit and is noted. -/
theorem countEvent_cases (n : Fin 96) (s : State) :
    (∃ c, countEvent n s = { s with intc := c }) ∨
    ∃ c mask detail, countEvent n s =
      { note clsIntc detail (hwSet (Reg.intc_RUNST (n.val / 16)) mask s) with intc := c } := by
  simp only [countEvent]
  split
  · exact .inl ⟨_, rfl⟩
  · obtain ⟨c, hc⟩ := moderated_eq 63 _
    exact .inr ⟨c, _, _, hc⟩

/-- All that a signal can do. -/
theorem signal_cases (n : Fin 96) (s : State) :
    (∃ c, signal n s = { s with intc := c }) ∨
    ∃ c mask detail, signal n s =
      { note clsIntc detail (hwSet (Reg.intc_RUNST (n.val / 16)) mask s) with intc := c } := by
  obtain ⟨c, hc⟩ := moderated_eq n s
  rw [signal, hc]
  exact countEvent_cases n _

@[simp] theorem signal_thr (n : Fin 96) (s : State) : (signal n s).thr = s.thr := by
  rcases signal_cases n s with ⟨c, h⟩ | ⟨c, mask, detail, h⟩ <;> exact h ▸ rfl

@[simp] theorem signal_mem (n : Fin 96) (s : State) : (signal n s).mem = s.mem := by
  rcases signal_cases n s with ⟨c, h⟩ | ⟨c, mask, detail, h⟩ <;> exact h ▸ rfl

@[simp] theorem signal_modes (n : Fin 96) (s : State) : (signal n s).modes = s.modes := by
  rcases signal_cases n s with ⟨c, h⟩ | ⟨c, mask, detail, h⟩ <;> exact h ▸ rfl

@[simp] theorem signal_ang (n : Fin 96) (s : State) : (signal n s).ang = s.ang := by
  rcases signal_cases n s with ⟨c, h⟩ | ⟨c, mask, detail, h⟩ <;> exact h ▸ rfl

theorem ne_runst_of_not_mem {a : Nat} (ha : a ∉ runst) (n : Fin 96) : a ≠ Reg.intc_RUNST (n.val / 16) := by
  rintro rfl
  exact ha (List.mem_map.2 ⟨n.val / 16, List.mem_range.2 (by omega), rfl⟩)

/-- A signal changes no register word but one of INTC.RUNST. -/
theorem reg_signal {a : Nat} (ha : a ∉ runst) (n : Fin 96) (s : State) : reg (signal n s) a = reg s a := by
  rcases signal_cases n s with ⟨c, h⟩ | ⟨c, mask, detail, h⟩ <;> rw [h]
  · rfl
  · exact reg_hwSet_other mask s (ne_runst_of_not_mem ha n)

theorem hwNow_hwSet (a : Nat) (m : Word) (s : State) :
    hwNow (hwSet a m s) = { hwNow s with bits := { addr := a, set := m, fresh := m &&& ~~~reg s a } :: (hwNow s).bits } := by
  have htick : (hwNow s).tick = s.now := by
    unfold hwNow
    split <;> simp_all
  exact if_pos htick

theorem hwSetBits_hwSet_other {a b : Nat} (m : Word) (s : State) (h : b ≠ a) :
    hwSetBits (hwSet a m s) b = hwSetBits s b := by
  simp [hwSetBits, hwNow_hwSet, Ne.symm h]

/-- A signal sets no bit in this tick but in a word of INTC.RUNST. -/
theorem hwSetBits_signal {a : Nat} (ha : a ∉ runst) (n : Fin 96) (s : State) :
    hwSetBits (signal n s) a = hwSetBits s a := by
  rcases signal_cases n s with ⟨c, h⟩ | ⟨c, mask, detail, h⟩ <;> rw [h]
  · rfl
  · exact hwSetBits_hwSet_other mask s (ne_runst_of_not_mem ha n)

end Sys2Proof.Machine

/-! ## Lifting fences (R222) -/

namespace Sys2Proof.Machine

/-! ### Fence bits -/

/-- The register word that holds fence bit `i`. -/
def fenceWord (i : Nat) : Nat :=
  if i < 16 then Reg.sys_FENCEA else if i < 32 then Reg.sys_FENCEA + 1 else Reg.sys_FENCEB

/-- The place of fence bit `i` in its word. -/
def fencePos (i : Nat) : Nat := if i < 16 then i else if i < 32 then i - 16 else i - 32

theorem fenceBit_eq (s : State) (i : Nat) : fenceBit s i = regBit s (fenceWord i) (fencePos i) := by
  unfold fenceBit fenceWord fencePos
  split_ifs <;> rfl

theorem putFence_eq (i : Nat) (b : Bool) (s : State) : putFence i b s = setRegBit (fenceWord i) (fencePos i) b s := by
  unfold putFence fenceWord fencePos
  split_ifs <;> rfl

theorem fencePos_lt {i : Nat} (hi : i < 48) : fencePos i < 16 := by
  unfold fencePos
  split_ifs <;> omega

/-- Two fence bits do not share a place. -/
theorem fencePos_injective {i j : Nat} (hi : i < 48) (hj : j < 48) (hw : fenceWord j = fenceWord i)
    (hp : fencePos j = fencePos i) : j = i := by
  simp only [fenceWord, Reg.sys_FENCEA, Reg.sys_FENCEB] at hw
  simp only [fencePos] at hp
  split_ifs at hw hp <;> omega

/-- A write of fence bit `i`, read at bit `j`. -/
theorem fenceBit_putFence {i j : Nat} (hi : i < 48) (hj : j < 48) (b : Bool) (s : State) :
    fenceBit (putFence i b s) j = if j = i then b else fenceBit s j := by
  simp only [fenceBit_eq, putFence_eq, regBit]
  by_cases hw : fenceWord j = fenceWord i
  · rw [hw, reg_setRegBit_same, getLsbD_putBit _ _ _ _ (fencePos_lt hj)]
    exact if_congr ⟨fencePos_injective hi hj hw, fun h => by rw [h]⟩ rfl rfl
  · rw [reg_setRegBit_other _ _ _ hw, if_neg (fun h => hw (by rw [h]))]

theorem fsw_ne_fenceWord (i : Nat) : Reg.fcol_FSW ≠ fenceWord i := by
  unfold fenceWord
  split_ifs <;> decide

theorem fenceWord_not_mem_runst (i : Nat) : fenceWord i ∉ runst := by
  unfold fenceWord
  split_ifs <;> decide

theorem fsw_not_mem_runst : Reg.fcol_FSW ∉ runst := by decide

/-! ### The class that set a fence -/

/-- Forgetting the class of bit `j` keeps the class of every other. -/
theorem find?_filter_ne_fst {i j : Nat} (h : i ≠ j) (l : List (Nat × Nat)) :
    (l.filter (fun e => e.1 != j)).find? (fun e => e.1 == i) = l.find? (fun e => e.1 == i) := by
  rw [List.find?_filter]
  congr 1
  funext e
  by_cases he : e.1 = i <;> simp [he, h]

/-! ### One lift -/

/-- Fence bit `i` is set, and the class that set it is clear in the FSW and was not set in this tick. -/
def liftable (s : State) (i : Nat) : Bool :=
  fenceBit s i && !regBit s Reg.fcol_FSW (fenceClass s i) && !(hwSetBits s Reg.fcol_FSW).getLsbD (fenceClass s i)

/-- The unit of fence bit `i` waits for a cycle boundary or a cam edge before it returns. -/
def returnsLater (s : State) (i : Nat) : Bool := i == fbCam || ((i < 16 || (24 ≤ i && i < 34)) && angSync s)

/-- What 1s written to the fence bits of `w` do: `r` is the state before, `u` the state after. -/
structure Lifted (w : Nat → Bool) (r u : State) : Prop where
  thr : u.thr = r.thr
  mem : u.mem = r.mem
  mode : u.modes.mode = r.modes.mode
  ang : u.ang = r.ang
  fsw : reg u Reg.fcol_FSW = reg r Reg.fcol_FSW
  setBits : hwSetBits u Reg.fcol_FSW = hwSetBits r Reg.fcol_FSW
  bit : ∀ i < 48, fenceBit u i = (fenceBit r i && !(w i && liftable r i))
  cls : ∀ i < 48, w i = false → fenceClass u i = fenceClass r i
  returning : ∀ i < 48, u.modes.returning.contains i =
    (r.modes.returning.contains i || (w i && liftable r i && returnsLater r i))

namespace Lifted

theorem refl {w : Nat → Bool} {r : State} (h : ∀ i < 48, (w i && liftable r i) = false) : Lifted w r r where
  thr := rfl
  mem := rfl
  mode := rfl
  ang := rfl
  fsw := rfl
  setBits := rfl
  bit i hi := by simp [h i hi]
  cls _ _ _ := rfl
  returning i hi := by simp [h i hi]

variable {w w' : Nat → Bool} {r t u : State}

theorem liftable_eq (h : Lifted w r u) {i : Nat} (hi : i < 48) (hw : w i = false) : liftable u i = liftable r i := by
  simp [liftable, regBit, h.bit i hi, h.cls i hi hw, h.fsw, h.setBits, hw]

theorem returnsLater_eq (h : Lifted w r u) (i : Nat) : returnsLater u i = returnsLater r i := by
  simp [returnsLater, angSync, h.ang]

/-- Lifts of different bits one after the other. -/
theorem trans (h : Lifted w r t) (h' : Lifted w' t u) (hd : ∀ i, w' i = true → w i = false) :
    Lifted (fun i => w i || w' i) r u where
  thr := h'.thr.trans h.thr
  mem := h'.mem.trans h.mem
  mode := h'.mode.trans h.mode
  ang := h'.ang.trans h.ang
  fsw := h'.fsw.trans h.fsw
  setBits := h'.setBits.trans h.setBits
  bit i hi := by
    rw [h'.bit i hi, h.bit i hi]
    cases hi' : w' i with
    | false => simp
    | true => simp [hd i hi', h.liftable_eq hi (hd i hi')]
  cls i hi hno := by
    obtain ⟨hw, hw'⟩ := Bool.or_eq_false_iff.1 hno
    rw [h'.cls i hi hw', h.cls i hi hw]
  returning i hi := by
    rw [h'.returning i hi, h.returning i hi, h.returnsLater_eq]
    cases hi' : w' i with
    | false => simp
    | true => simp [hd i hi', h.liftable_eq hi (hd i hi')]

end Lifted

/-! ### The return of a unit -/

theorem reg_setModes (f : Modes → Modes) (s : State) (a : Nat) : reg (setModes f s) a = reg s a := rfl

theorem fenceBit_setModes (f : Modes → Modes) (s : State) (i : Nat) : fenceBit (setModes f s) i = fenceBit s i := rfl

/-- The three ways in which a unit returns (R222). -/
theorem returnUnit_induction {P : State → Prop} {j : Nat} {s : State}
    (later : returnsLater s j = true → P (setModes (fun m => { m with returning := m.returning ++ [j] }) s))
    (signals : returnsLater s j = false → P (signal 23 s)) (atOnce : returnsLater s j = false → P s) :
    P (returnUnit j s) := by
  have he : returnUnit j s = if returnsLater s j = true then setModes (fun m => { m with returning := m.returning ++ [j] }) s
      else if j = 32 ∨ j = 33 then signal 23 s else s := rfl
  rw [he]
  split_ifs with h
  · exact later h
  · exact signals (Bool.eq_false_of_not_eq_true h)
  · exact atOnce (Bool.eq_false_of_not_eq_true h)

@[simp] theorem returnUnit_thr (j : Nat) (s : State) : (returnUnit j s).thr = s.thr :=
  returnUnit_induction (P := fun u => u.thr = s.thr) (fun _ => rfl) (fun _ => signal_thr 23 s) (fun _ => rfl)

@[simp] theorem returnUnit_mem (j : Nat) (s : State) : (returnUnit j s).mem = s.mem :=
  returnUnit_induction (P := fun u => u.mem = s.mem) (fun _ => rfl) (fun _ => signal_mem 23 s) (fun _ => rfl)

@[simp] theorem returnUnit_ang (j : Nat) (s : State) : (returnUnit j s).ang = s.ang :=
  returnUnit_induction (P := fun u => u.ang = s.ang) (fun _ => rfl) (fun _ => signal_ang 23 s) (fun _ => rfl)

/-- Of the modes, the return of a unit changes at most the list of those that return later. -/
theorem returnUnit_modes (j : Nat) (s : State) : (returnUnit j s).modes =
    { s.modes with returning := s.modes.returning ++ if returnsLater s j = true then [j] else [] } :=
  returnUnit_induction (P := fun u => u.modes = _) (fun h => by simp [h]) (fun h => by simp [h]) (fun h => by simp [h])

theorem reg_returnUnit {a : Nat} (ha : a ∉ runst) (j : Nat) (s : State) : reg (returnUnit j s) a = reg s a :=
  returnUnit_induction (P := fun u => reg u a = reg s a) (fun _ => rfl) (fun _ => reg_signal ha 23 s) (fun _ => rfl)

theorem hwSetBits_returnUnit {a : Nat} (ha : a ∉ runst) (j : Nat) (s : State) :
    hwSetBits (returnUnit j s) a = hwSetBits s a :=
  returnUnit_induction (P := fun u => hwSetBits u a = hwSetBits s a) (fun _ => rfl) (fun _ => hwSetBits_signal ha 23 s)
    (fun _ => rfl)

theorem fenceBit_returnUnit (i j : Nat) (s : State) : fenceBit (returnUnit j s) i = fenceBit s i := by
  simp only [fenceBit_eq, regBit, reg_returnUnit (fenceWord_not_mem_runst i)]

/-! ### A write of fence bits -/

/-- The state in which the unit of fence bit `j` returns: the bit is clear and its class forgotten. -/
def unfenced (j : Nat) (s : State) : State :=
  setModes (fun m => { m with fenceCls := m.fenceCls.filter (·.1 != j) }) (putFence j false s)

theorem liftBit_eq (j : Nat) (s : State) :
    liftBit j s = if liftable s j = true then returnUnit j (unfenced j s) else s := rfl

theorem unfenced_eq (j : Nat) (s : State) : ∃ regs, unfenced j s =
    { s with regs := regs, modes := { s.modes with fenceCls := s.modes.fenceCls.filter (·.1 != j) } } := by
  rw [unfenced, putFence_eq]
  exact ⟨_, rfl⟩

theorem reg_fsw_unfenced (j : Nat) (s : State) : reg (unfenced j s) Reg.fcol_FSW = reg s Reg.fcol_FSW := by
  rw [unfenced, putFence_eq, reg_setModes, reg_setRegBit_other _ _ _ (fsw_ne_fenceWord j)]

theorem lifted_liftBit {j : Nat} (hj : j < 48) (r : State) : Lifted (· == j) r (liftBit j r) := by
  rw [liftBit_eq]
  by_cases hl : liftable r j = true
  · rw [if_pos hl]
    obtain ⟨regs, hu⟩ := unfenced_eq j r
    exact {
      thr := by rw [returnUnit_thr, hu]
      mem := by rw [returnUnit_mem, hu]
      mode := by rw [returnUnit_modes, hu]
      ang := by rw [returnUnit_ang, hu]
      fsw := by rw [reg_returnUnit fsw_not_mem_runst, reg_fsw_unfenced]
      setBits := by
        rw [hwSetBits_returnUnit fsw_not_mem_runst, hu]
        rfl
      bit := fun i hi => by
        rw [fenceBit_returnUnit]
        rw [unfenced, fenceBit_setModes, fenceBit_putFence hj hi]
        by_cases h : i = j <;> simp [h, hl]
      cls := fun i _ hi => by
        rw [fenceClass, returnUnit_modes, hu]
        simp only [find?_filter_ne_fst (ne_of_beq_false hi)]
        rfl
      returning := fun i _ => by
        have hlater : returnsLater (unfenced j r) j = returnsLater r j := by
          rw [hu]
          rfl
        rw [returnUnit_modes, hlater, hu]
        by_cases h : i = j
        · subst h
          cases returnsLater r i <;> simp [hl]
        · cases returnsLater r j <;> simp [h] }
  · rw [if_neg hl]
    exact Lifted.refl fun i _ => by
      by_cases h : i = j <;> simp [h, hl]

/-- The bits that the low `n` bits of a write of `v` at fence bit `lo` name. -/
def named (lo : Nat) (v : Word) (n i : Nat) : Bool := decide (lo ≤ i ∧ i < lo + n) && v.getLsbD (i - lo)

theorem named_succ (lo : Nat) (v : Word) (n : Nat) (hv : v.getLsbD n = true) :
    named lo v (n + 1) = fun i => named lo v n i || i == lo + n := by
  funext i
  by_cases h : i = lo + n
  · subst h
    simp [named, hv]
  · have : (i < lo + (n + 1)) = (i < lo + n) := propext (by omega)
    simp [named, h, this]

theorem named_succ_of_zero (lo : Nat) (v : Word) (n : Nat) (hv : v.getLsbD n = false) :
    named lo v (n + 1) = named lo v n := by
  funext i
  by_cases h : i = lo + n
  · subst h
    simp [named, hv]
  · have : (i < lo + (n + 1)) = (i < lo + n) := propext (by omega)
    simp [named, this]

/-- The bits of a write act one after the other, each on a fence bit of its own. -/
theorem lifted_foldl (lo : Nat) (v : Word) (r : State) (n : Nat) (hn : lo + n ≤ 48) :
    Lifted (named lo v n) r
      ((List.range n).foldl (fun s b => if v.getLsbD b then liftBit (lo + b) s else s) r) := by
  induction n with
  | zero => exact Lifted.refl fun i _ => by simp [named]
  | succ n ih =>
    have ih := ih (by omega)
    rw [List.range_succ, List.foldl_append, List.foldl_cons, List.foldl_nil]
    cases hv : v.getLsbD n with
    | false => rwa [if_neg Bool.false_ne_true, named_succ_of_zero lo v n hv]
    | true =>
      rw [if_pos rfl, named_succ lo v n hv]
      exact ih.trans (lifted_liftBit (by omega) _) fun i hi => by simp [named, eq_of_beq hi]

/-- A write to a fence word lifts the bits it names where the master is permitted. -/
theorem lifted_liftWrite (m : Master) (lo : Nat) (v : Word) (r : State) (hlo : lo + 16 ≤ 48) :
    Lifted (fun i => privileged m && named lo v 16 i) r (liftWrite m lo v r) := by
  unfold liftWrite
  cases privileged m with
  | false => exact Lifted.refl fun i _ => rfl
  | true => simpa using lifted_foldl lo v r 16 hlo

theorem named_low_or_high (v : Pair) (i : Nat) :
    (named 0 (lowWord v) 16 i || named 16 (highWord v) 16 i) = (decide (i < 32) && v.getLsbD i) := by
  simp only [named, lowWord, highWord, BitVec.getLsbD_extractLsb']
  rcases Nat.lt_or_ge i 16 with h | h
  · simp [h, Nat.not_le.2 h, show i < 32 by omega]
  · by_cases h' : i < 32
    · simp [h, h', Nat.not_lt.2 h, show i - 16 < 16 by omega, show 16 + (i - 16) = i by omega]
    · simp [h', Nat.not_lt.2 h]

theorem named_top (v : Word) {i : Nat} (hi : i < 48) : named 32 v 16 i = (decide (32 ≤ i) && v.getLsbD (i - 32)) := by
  simp [named, hi]

/-! ### The two commands -/

/-- Master `m` may lift fence bit `i` (R222). -/
def mayLift (m : Master) (r : State) (i : Nat) : Bool :=
  fenceBit r i && privileged m && !regBit r Reg.fcol_FSW (fenceClass r i) &&
    !(hwSetBits r Reg.fcol_FSW).getLsbD (fenceClass r i)

theorem mayLift_eq (m : Master) (r : State) (i : Nat) : mayLift m r i = (privileged m && liftable r i) := by
  simp only [mayLift, liftable]
  cases privileged m <;> simp

/-- What a lift write of `m` that names the bits of `w` claims. -/
def LiftClaims (m : Master) (p : Nat → Prop) [DecidablePred p] (v : Nat → Bool) (r u : State) : Prop :=
  (∀ i : Fin 48, fenceBit u i = (fenceBit r i && !(decide (p i.val) && v i && mayLift m r i))) ∧
  (∀ i : Fin 48, p i.val → v i = true → mayLift m r i = true →
    outOfService u i = (returnsLater r i || r.modes.returning.contains i.val)) ∧
  u.thr = r.thr ∧ u.mem = r.mem ∧ u.modes.mode = r.modes.mode

theorem Lifted.claims {m : Master} {p : Nat → Prop} [DecidablePred p] {v w : Nat → Bool} {r u : State}
    (hw : ∀ i < 48, w i = (privileged m && (decide (p i) && v i))) (h : Lifted w r u) : LiftClaims m p v r u := by
  have hbit (i : Fin 48) : fenceBit u i = (fenceBit r i && !(decide (p i.val) && v i && mayLift m r i)) := by
    rw [h.bit i i.isLt, hw i i.isLt, mayLift_eq]
    cases privileged m <;> simp [Bool.and_assoc]
  refine ⟨hbit, fun i hp hv hlift => ?_, h.thr, h.mem, h.mode⟩
  obtain ⟨hm, hl⟩ := Bool.and_eq_true_iff.1 (mayLift_eq m r i ▸ hlift)
  rw [outOfService, hbit i, h.returning i i.isLt, hw i i.isLt]
  simp [hp, hv, hm, hl, hlift, Bool.or_comm]

theorem exec_fenceLiftA (m : Master) (v : Pair) (s : State) :
    exec (.fenceLiftA m v) s = act (fun s => liftWrite m 16 (highWord v) (liftWrite m 0 (lowWord v) s)) s := rfl

theorem exec_fenceLiftB (m : Master) (v : Word) (s : State) : exec (.fenceLiftB m v) s = act (liftWrite m 32 v) s := rfl

/-- The two words of FENCEA, one after the other. -/
theorem lifted_fenceA (m : Master) (v : Pair) (r : State) :
    Lifted (fun i => (privileged m && named 0 (lowWord v) 16 i) || (privileged m && named 16 (highWord v) 16 i)) r
      (liftWrite m 16 (highWord v) (liftWrite m 0 (lowWord v) r)) :=
  (lifted_liftWrite m 0 (lowWord v) r (by decide)).trans (lifted_liftWrite m 16 (highWord v) _ (by decide)) fun i hi => by
    simp only [named, Bool.and_eq_true, decide_eq_true_eq] at hi
    simp [named, Nat.not_lt.2 hi.2.1.1]

/-- Settles O22: the bits a write names act one after the other (`lifted_foldl`), and each lifts its own fence only. -/
theorem fencesLiftOnlyWithTheirClassClear : Obligations.FencesLiftOnlyWithTheirClassClear := by
  unfold Obligations.FencesLiftOnlyWithTheirClassClear
  intro s m a b hup
  refine ⟨Acts.of (exec_fenceLiftA m a s) hup ?fenceA, Acts.of (exec_fenceLiftB m b s) hup ?fenceB⟩
  case fenceA =>
    exact (lifted_fenceA m a _).claims (p := (· < 32)) (v := a.getLsbD) fun i _ => by
      rw [← named_low_or_high, Bool.and_or_distrib_left]
  case fenceB =>
    exact (lifted_liftWrite m 32 b _ (by decide)).claims (p := (32 ≤ ·)) (v := fun i => b.getLsbD (i - 32)) fun i hi => by
      rw [named_top b hi]

end Sys2Proof.Machine

/-! ## Claims, completions and runaway sources (R544-R560) -/

namespace Sys2Proof.Machine

/-! ### The bits of a source -/

/-- Bit `k` of a field of source bits with bit `n` set to `b`. -/
theorem getLsbD_putBit_fin {m : Nat} (w : BitVec m) (n k : Fin m) (b : Bool) :
    (putBit w n b).getLsbD k = if k = n then b else w.getLsbD k := by
  simp only [getLsbD_putBit w n k b k.isLt, Fin.ext_iff]

theorem getLsbD_putBit_same {m : Nat} (w : BitVec m) (n : Fin m) (b : Bool) : (putBit w n b).getLsbD n = b :=
  (getLsbD_putBit_fin w n n b).trans (if_pos rfl)

theorem getLsbD_putBit_true {m : Nat} (w : BitVec m) (n k : Fin m) :
    (putBit w n true).getLsbD k = (w.getLsbD k || k == n) := by
  rw [getLsbD_putBit_fin]
  by_cases h : k = n <;> simp [h]

theorem getLsbD_putBit_false {m : Nat} (w : BitVec m) (n k : Fin m) :
    (putBit w n false).getLsbD k = (w.getLsbD k && k != n) := by
  rw [getLsbD_putBit_fin]
  by_cases h : k = n <;> simp [h]

/-- A bit joined by the same bit of another field. -/
theorem getLsbD_putBit_or {m : Nat} (w x : BitVec m) (n k : Fin m) :
    (putBit w n (w.getLsbD n || x.getLsbD n)).getLsbD k = (w.getLsbD k || (k == n && x.getLsbD k)) := by
  rw [getLsbD_putBit_fin]
  by_cases h : k = n <;> simp [h]

theorem beq_eq_decide_val {m : Nat} (k n : Fin m) : (k == n) = decide (k.val = n.val) :=
  decide_eq_decide.2 Fin.ext_iff

theorem bne_eq_decide_val {m : Nat} (k n : Fin m) : (k != n) = decide (k.val ≠ n.val) := by
  rw [bne, beq_eq_decide_val, decide_not]

/-- Thread `v` after the entry of thread `t` is replaced. -/
theorem held_set (l : Vector (Option (Fin 96)) 8) (t v : Fin 8) (x : Option (Fin 96)) :
    (l.set t x)[v] = if v = t then x else l[v] := by
  simp [Vector.getElem_set, Fin.ext_iff, eq_comm]

/-! ### The controller with the records of an earlier tick dropped -/

theorem intcNow_eq (s : State) : ∃ tick newPend newEv,
    intcNow s = { s.intc with evTick := tick, newPend := newPend, newEv := newEv } := by
  unfold intcNow
  split
  · exact ⟨_, _, _, rfl⟩
  · exact ⟨_, _, _, rfl⟩

@[simp] theorem intcNow_pend (s : State) : (intcNow s).pend = s.intc.pend := by
  obtain ⟨_, _, _, h⟩ := intcNow_eq s
  rw [h]

@[simp] theorem intcNow_act (s : State) : (intcNow s).act = s.intc.act := by
  obtain ⟨_, _, _, h⟩ := intcNow_eq s
  rw [h]

@[simp] theorem intcNow_apend (s : State) : (intcNow s).apend = s.intc.apend := by
  obtain ⟨_, _, _, h⟩ := intcNow_eq s
  rw [h]

@[simp] theorem intcNow_mask (s : State) : (intcNow s).mask = s.intc.mask := by
  obtain ⟨_, _, _, h⟩ := intcNow_eq s
  rw [h]

@[simp] theorem intcNow_held (s : State) : (intcNow s).held = s.intc.held := by
  obtain ⟨_, _, _, h⟩ := intcNow_eq s
  rw [h]

@[simp] theorem intcNow_counts (s : State) : (intcNow s).counts = s.intc.counts := by
  obtain ⟨_, _, _, h⟩ := intcNow_eq s
  rw [h]

/-- The bits and held sources of `s`, put back into a controller that differs in them alone. -/
theorem intcNow_restored (s : State) :
    { intcNow s with pend := s.intc.pend, act := s.intc.act, apend := s.intc.apend, held := s.intc.held } = intcNow s := by
  rw [← intcNow_pend s, ← intcNow_act s, ← intcNow_apend s, ← intcNow_held s]

/-! ### Claims (R544, R566) -/

/-- Thread `t` may claim source `n` in this tick. -/
def ClaimableNow (s : State) (t : Fin 8) (n : Fin 96) : Prop :=
  claimable s t n = true ∧ (intcNow s).newPend.getLsbD n = false

/-- The controller after thread `t` claimed source `n`. -/
def claimed (t : Fin 8) (n : Fin 96) (c : Intc) : Intc :=
  { c with
    pend := putBit c.pend n false
    act := putBit c.act n true
    apend := putBit c.apend n (c.apend.getLsbD n || c.newEv.getLsbD n)
    held := c.held.set t (some n) }

section
variable (t v : Fin 8) (n k : Fin 96) (s : State)

theorem claimed_pend : (claimed t n (intcNow s)).pend.getLsbD k = (s.intc.pend.getLsbD k && k != n) := by
  rw [← intcNow_pend]
  exact getLsbD_putBit_false _ n k

theorem claimed_act : (claimed t n (intcNow s)).act.getLsbD k = (s.intc.act.getLsbD k || k == n) := by
  rw [← intcNow_act]
  exact getLsbD_putBit_true _ n k

theorem claimed_apend : (claimed t n (intcNow s)).apend.getLsbD k =
    (s.intc.apend.getLsbD k || (k == n && (intcNow s).newEv.getLsbD k)) := by
  rw [← intcNow_apend]
  exact getLsbD_putBit_or _ _ n k

theorem claimed_held : (claimed t n (intcNow s)).held[v] = if v = t then some n else s.intc.held[v] := by
  rw [← intcNow_held]
  exact held_set _ t v _

end

/-- A thread that holds a source, or finds none that it may claim, is offered none. -/
theorem claimNumber_eq_none_iff (s : State) (t : Fin 8) :
    claimNumber s t = none ↔ ¬ (s.intc.held[t] = none ∧ ∃ n, ClaimableNow s t n) := by
  cases h : s.intc.held[t] <;> simp [claimNumber, h, ClaimableNow]

/-- The source offered to a thread is the lowest-numbered one that it may claim. -/
theorem claimNumber_eq_some {s : State} {t : Fin 8} {n : Fin 96} (h : claimNumber s t = some n) :
    ClaimableNow s t n ∧ ∀ k, ClaimableNow s t k → n ≤ k := by
  rw [claimNumber, ← Fin.find?_eq_find?_finRange] at h
  split at h
  · cases h
  · obtain ⟨hn, hlow⟩ := Fin.find?_eq_some_iff.1 h
    refine ⟨by simpa [ClaimableNow] using hn, fun k ⟨hc, hp⟩ => Fin.not_lt.1 fun hk => ?_⟩
    have hno := hlow k hk
    rw [hc, hp] at hno
    cases hno

theorem claimRead_of_some {s : State} {t : Fin 8} {n : Fin 96} (h : claimNumber s t = some n) :
    claimRead t s = (wd n.val, { s with intc := claimed t n (intcNow s) }) := by
  rw [claimRead, h]
  rfl

theorem claimRead_of_none {s : State} {t : Fin 8} (h : claimNumber s t = none) :
    claimRead t s = (127, hwCount Reg.intc_SPUR s) := by
  rw [claimRead, h]

theorem fld_all (w : Word) : fld w 0 16 = w.toNat := Nat.mod_eq_of_lt w.isLt

/-- A counter of 16 bits saturates at FFFFh. -/
theorem reg_hwCount_toNat (a : Nat) (s : State) : (reg (hwCount a s) a).toNat = min 0xFFFF ((reg s a).toNat + 1) := by
  rw [← fld_all, hwCount, reg_hwCountF_same, fld_putFld _ _ _ _ (by decide), regF, fld_all]
  exact Nat.mod_eq_of_lt (Nat.lt_of_le_of_lt (Nat.min_le_left _ _) (by decide))

theorem exec_claim (t : Fin 8) (side : Bool) (s : State) : exec (.claim (.thread t) t side) s = actRead (claimRead t) s :=
  have h : claimAccess (.thread t) t side = claimRead t := funext fun _ => if_pos rfl
  h ▸ rfl

/-- Settles O42: `claimNumber` offers the lowest-numbered source or none, and `claimRead` does what either says. -/
theorem claimTakesLowestClaimable : Obligations.ClaimTakesLowestClaimable := by
  unfold Obligations.ClaimTakesLowestClaimable
  intro s t side hup
  refine Acts.of (exec_claim t side s) hup ?_
  generalize ready (clkTicks s) s = r
  cases h : claimNumber r t with
  | none =>
    rw [claimRead_of_none h]
    exact ⟨fun hopen => absurd hopen ((claimNumber_eq_none_iff r t).1 h),
      fun _ => ⟨rfl, reg_hwCount_toNat _ r, fun _ ha => reg_hwCount_other r (List.ne_of_not_mem_cons ha), rfl⟩⟩
  | some n =>
    obtain ⟨hcan, hlow⟩ := claimNumber_eq_some h
    have hopen : r.intc.held[t] = none ∧ ∃ n, ClaimableNow r t n :=
      not_not.1 fun hno => by simp [(claimNumber_eq_none_iff r t).2 hno] at h
    rw [claimRead_of_some h]
    exact ⟨fun _ => ⟨n, hcan, hlow, rfl, fun k => claimed_pend t n k r, fun k => claimed_act t n k r,
      fun v => claimed_held t v n r, fun k => claimed_apend t n k r, intcNow_restored r, rfl⟩,
      fun hno => absurd hopen hno⟩

/-! ### Completions (R547, R560) -/

/-- The controller after thread `t` completed source `n`. -/
def completed (t : Fin 8) (n : Fin 96) (c : Intc) : Intc :=
  { c with
    act := putBit c.act n false
    held := c.held.set t none
    pend := putBit c.pend n (c.pend.getLsbD n || c.apend.getLsbD n)
    apend := putBit c.apend n false }

section
variable (t v : Fin 8) (n k : Fin 96) (s : State)

theorem completed_act :
    (completed t n (intcNow s)).act.getLsbD k = (s.intc.act.getLsbD k && decide (k.val ≠ n.val)) := by
  rw [← intcNow_act, ← bne_eq_decide_val]
  exact getLsbD_putBit_false _ n k

theorem completed_pend :
    (completed t n (intcNow s)).pend.getLsbD k =
      (s.intc.pend.getLsbD k || (decide (k.val = n.val) && s.intc.apend.getLsbD k)) := by
  rw [← intcNow_pend, ← intcNow_apend, ← beq_eq_decide_val]
  exact getLsbD_putBit_or _ _ n k

theorem completed_apend :
    (completed t n (intcNow s)).apend.getLsbD k = (s.intc.apend.getLsbD k && decide (k.val ≠ n.val)) := by
  rw [← intcNow_apend, ← bne_eq_decide_val]
  exact getLsbD_putBit_false _ n k

theorem completed_held : (completed t n (intcNow s)).held[v] = if v = t then none else s.intc.held[v] := by
  rw [← intcNow_held]
  exact held_set _ t v _

end

/-- What ERR records of a refused completion of number `n` by thread `t`, which holds number `h`. -/
def errRecord (t h n : Nat) : Pair := BitVec.ofNat 32 (t * 2 ^ 24 + h * 2 ^ 16 + n)

/-- The raise of a refused completion. -/
def complRaise (t : Fin 8) (n : Nat) : Raise :=
  { cls := clsIntc, detail := wd (t.val * 4096 + n), unit := some (.bit ⟨16 + t.val, by omega⟩) }

/-- The state after thread `t`, which holds number `h`, completed another number `n`. -/
def refusedCompletion (t : Fin 8) (h n : Nat) (s : State) : State :=
  raise (complRaise t n) (hwSet (Reg.intc_ERR + 1) 0x8000 (setReg32 Reg.intc_ERR (errRecord t h n) s))

theorem complWrite_of_ignored {w : Word} (hw : fld w 0 7 = 127) (t : Fin 8) (s : State) : complWrite t w s = s :=
  if_pos hw

theorem complWrite_of_held {w : Word} {t : Fin 8} {n : Fin 96} {s : State} (hn : s.intc.held[t] = some n)
    (h : n.val = fld w 0 7) : complWrite t w s = { s with intc := completed t n (intcNow s) } := by
  have hw : fld w 0 7 ≠ 127 := by omega
  have he : completeHeld t s = { s with intc := completed t n (intcNow s) } := by
    rw [completeHeld, hn]
    rfl
  rw [complWrite, if_neg hw, if_pos (by rw [hn, ← h]; rfl), he]

theorem complWrite_of_other {w : Word} {t : Fin 8} {s : State} (hw : fld w 0 7 ≠ 127)
    (h : s.intc.held[t].map (·.val) ≠ some (fld w 0 7)) :
    complWrite t w s = refusedCompletion t ((s.intc.held[t].map (·.val)).getD 127) (fld w 0 7) s := by
  rw [complWrite, if_neg hw, if_neg h]
  cases s.intc.held[t] <;> rfl

theorem intcWrite_compl (m : Master) (t : Fin 8) (w : Word) (s : State) :
    intcWrite m (Reg.intc_COMPL t) w s = if isHost m || m = .thread t then complWrite t w s else s := by
  have ho : 0x41088 + t.val - 0x41000 = 0x88 + t.val := by omega
  simp only [intcWrite, ho]
  rw [dif_neg (by omega), dif_neg (by omega), dif_neg (by omega), dif_neg (by omega), dif_pos (by omega)]
  simp only [Nat.add_sub_cancel_left]

/-- A thread that writes its own COMPL word completes a source. -/
theorem exec_compl_own (t : Fin 8) (w : Word) (s : State) :
    exec (.compl (.thread t) t w) s = act (complWrite t w) s := by
  have h : intcWrite (.thread t) (Reg.intc_COMPL t) w = complWrite t w :=
    funext fun s => by rw [intcWrite_compl, if_pos (by simp)]
  rw [← h]
  rfl

/-- A thread that writes another thread's COMPL word does nothing. -/
theorem exec_compl_other {t v : Fin 8} (hv : v ≠ t) (w : Word) (s : State) :
    exec (.compl (.thread v) t w) s = act id s := by
  have h : intcWrite (.thread v) (Reg.intc_COMPL t) w = id :=
    funext fun s => by rw [intcWrite_compl, if_neg (by simpa [isHost] using hv), id]
  rw [← h]
  rfl

theorem reg_refusedCompletion (t : Fin 8) (h n : Nat) (s : State) (a : Nat) :
    reg (refusedCompletion t h n s) a =
      if a = Reg.intc_ERR + 1 then highWord (errRecord t h n) ||| 0x8000
      else if a = Reg.intc_ERR then lowWord (errRecord t h n)
      else reg s a := by
  have hraise (x : Raise) (u : State) : reg (raise x u) a = reg u a := rfl
  rw [refusedCompletion, hraise]
  by_cases ha : a = Reg.intc_ERR + 1
  · rw [if_pos ha, ha, reg_hwSet_same, setReg32, reg_setReg_same]
  · rw [if_neg ha, reg_hwSet_other _ _ ha, setReg32, reg_setReg_other _ _ ha, reg_setReg]

theorem setReg32_eq (a : Nat) (p : Pair) (s : State) : ∃ regs, setReg32 a p s = { s with regs := regs } := ⟨_, rfl⟩

theorem hwSet_eq (a : Nat) (m : Word) (s : State) : ∃ regs hw, hwSet a m s = { s with regs := regs, hw := hw } :=
  ⟨_, _, rfl⟩

theorem refusedCompletion_eq (t : Fin 8) (h n : Nat) (s : State) :
    ∃ regs hw, refusedCompletion t h n s = raise (complRaise t n) { s with regs := regs, hw := hw } := by
  obtain ⟨regs, hregs⟩ := setReg32_eq Reg.intc_ERR (errRecord t h n) s
  obtain ⟨regs, hw, hhw⟩ := hwSet_eq (Reg.intc_ERR + 1) 0x8000 { s with regs := regs }
  exact ⟨regs, hw, by rw [refusedCompletion, hregs, hhw]⟩

theorem refusedCompletion_regsBut (t : Fin 8) (h n : Nat) (s : State) :
    RegsBut [Reg.intc_ERR, Reg.intc_ERR + 1] s (refusedCompletion t h n s) := by
  intro a ha
  rw [reg_refusedCompletion, if_neg (List.ne_of_not_mem_cons (List.not_mem_of_not_mem_cons ha)),
    if_neg (List.ne_of_not_mem_cons ha)]

theorem lowWord_errRecord (t h : Nat) {n : Nat} (hn : n < 2 ^ 16) :
    (lowWord (errRecord t h n)).toNat = n := by
  rw [lowWord, errRecord, BitVec.extractLsb'_toNat, BitVec.toNat_ofNat, Nat.shiftRight_zero]
  omega

theorem highWord_errRecord {t h n : Nat} (ht : t < 2 ^ 7) (hh : h < 2 ^ 8) (hn : n < 2 ^ 16) :
    (highWord (errRecord t h n)).toNat = t * 0x100 + h := by
  rw [highWord, errRecord, BitVec.extractLsb'_toNat, BitVec.toNat_ofNat, Nat.shiftRight_eq_div_pow]
  omega

/-- Bit 15 set in a word that does not have it. -/
theorem or_bit15_toNat {w : Word} (hw : w.toNat < 2 ^ 15) : (w ||| 0x8000).toNat = 0x8000 + w.toNat := by
  rw [BitVec.toNat_or, Nat.or_comm]
  exact (Nat.two_pow_add_eq_or_of_lt hw 1).symm

/-- ERR after a refused completion: the number written, and the thread with the number it holds under the valid bit. -/
theorem refusedCompletion_err (t : Fin 8) {h n : Nat} (hh : h < 2 ^ 8) (hn : n < 2 ^ 16) (s : State) :
    (reg (refusedCompletion t h n s) Reg.intc_ERR).toNat = n ∧
      (reg (refusedCompletion t h n s) (Reg.intc_ERR + 1)).toNat = 0x8000 + t.val * 0x100 + h := by
  have ht : t.val < 2 ^ 7 := Nat.lt_trans t.isLt (by decide)
  have hhigh := highWord_errRecord ht hh hn
  constructor
  · rw [reg_refusedCompletion, if_neg (by decide), if_pos rfl, lowWord_errRecord _ _ hn]
  · rw [reg_refusedCompletion, if_pos rfl, or_bit15_toNat (by omega), hhigh, Nat.add_assoc]

theorem heldOr127_lt (x : Option (Fin 96)) : (x.map (·.val)).getD 127 < 2 ^ 8 := by
  cases x with
  | none => decide
  | some n => exact Nat.lt_trans n.isLt (by decide)

/-- Settles O43: `complWrite` ignores 127, completes the number held, and refuses any other. -/
theorem completeReleasesTheHeldSource : Obligations.CompleteReleasesTheHeldSource := by
  unfold Obligations.CompleteReleasesTheHeldSource
  intro s t v w hup
  by_cases hv : v = t
  · subst hv
    refine Acts.of (exec_compl_own v w s) hup ?_
    generalize ready (clkTicks s) s = r
    dsimp only
    split_ifs with hignored hheld
    · exact complWrite_of_ignored (by simpa using hignored) v r
    · obtain ⟨n, hn, hnw⟩ := Option.map_eq_some_iff.1 hheld
      rw [complWrite_of_held hn hnw, ← hnw]
      exact ⟨fun k => completed_act v n k r, fun k => completed_pend v n k r, fun k => completed_apend v n k r,
        fun x => completed_held v x n r, intcNow_restored r, rfl⟩
    · have hn : fld w 0 7 < 2 ^ 7 := Nat.mod_lt _ (by decide)
      obtain ⟨herr, herr'⟩ := refusedCompletion_err v (heldOr127_lt r.intc.held[v]) (Nat.lt_trans hn (by decide)) r
      rw [complWrite_of_other (by simpa using hignored) hheld]
      obtain ⟨regs, hw, hu⟩ := refusedCompletion_eq v ((r.intc.held[v].map (·.val)).getD 127) (fld w 0 7) r
      refine ⟨?intc, herr, herr', ?raises, refusedCompletion_regsBut v _ _ r, ?frame⟩
      case intc => rw [hu, raise_intc]
      case raises =>
        rw [hu]
        rfl
      case frame =>
        rw [hu]
        rfl
  · exact Acts.of (exec_compl_other hv w s) hup ((if_pos (.inl hv)).mpr rfl)

/-! ### Runaway sources (R558, R559) -/

/-- The event of `n` being counted puts it past the limit of its group, and it was not stopped before. -/
def RunsAway (n : Fin 96) (s : State) : Prop :=
  n.val ≠ 63 ∧ regF s (Reg.intc_RUN (n.val / 8)) 0 10 ≠ 0 ∧
    regF s (Reg.intc_RUN (n.val / 8)) 0 10 < s.intc.counts[n] + 1 ∧
    regBit s (Reg.intc_RUNST (n.val / 16)) (n.val % 16) = false

/-- One more event of `n` in this window. -/
def counted (n : Fin 96) (s : State) : State :=
  { s with intc := { s.intc with counts := s.intc.counts.set n (s.intc.counts[n] + 1) } }

/-- The RUNST bit of `n` set by hardware, and its note on the error lines. -/
def runawayNoted (n : Fin 96) (s : State) : State :=
  note clsIntc (wd (0x100 + n.val)) (hwSet (Reg.intc_RUNST (n.val / 16)) (wd (2 ^ (n.val % 16))) s)

theorem runsAway_iff (n : Fin 96) (s : State) :
    RunsAway n s ↔ ¬ (n.val = 63 ∨ regF s (Reg.intc_RUN (n.val / 8)) 0 10 = 0 ∨
      s.intc.counts[n] + 1 ≤ regF s (Reg.intc_RUN (n.val / 8)) 0 10 ∨
      regBit s (Reg.intc_RUNST (n.val / 16)) (n.val % 16) = true) := by
  simp only [RunsAway, not_or, Nat.not_le, Bool.not_eq_true, ne_eq]

theorem countEvent_of_runsAway {n : Fin 96} {s : State} (h : RunsAway n s) :
    countEvent n s = moderated 63 (runawayNoted n (maskSet n (counted n s))) :=
  if_neg ((runsAway_iff n s).1 h)

theorem countEvent_of_not_runsAway {n : Fin 96} {s : State} (h : ¬ RunsAway n s) : countEvent n s = counted n s :=
  if_pos (not_not.1 (mt (runsAway_iff n s).2 h))

/-- An event that moderation does not delay leaves the masks and the counts alone, and its source holds it. -/
theorem takeEvent_spec (n : Fin 96) (s : State) : ∃ c, takeEvent n s = { s with intc := c } ∧
    c.mask = s.intc.mask ∧ c.counts = s.intc.counts ∧ (c.pend.getLsbD n = true ∨ c.apend.getLsbD n = true) := by
  refine ⟨_, rfl, ?_⟩
  dsimp only
  split_ifs with hact hpend
  · exact ⟨intcNow_mask s, intcNow_counts s, .inr (getLsbD_putBit_same _ n true)⟩
  · exact ⟨intcNow_mask s, intcNow_counts s, .inl hpend⟩
  · exact ⟨intcNow_mask s, intcNow_counts s, .inl (getLsbD_putBit_same _ n true)⟩

/-- Delayed by moderation or not, an event leaves the masks and the counts alone, and its source holds it. -/
theorem moderated_spec (n : Fin 96) (s : State) : ∃ c, moderated n s = { s with intc := c } ∧
    c.mask = s.intc.mask ∧ c.counts = s.intc.counts ∧
    (c.raw.getLsbD n = true ∨ c.pend.getLsbD n = true ∨ c.apend.getLsbD n = true) := by
  simp only [moderated]
  split_ifs
  · obtain ⟨c, hc, hmask, hcounts, hev⟩ := takeEvent_spec n s
    exact ⟨c, hc, hmask, hcounts, .inr hev⟩
  · exact ⟨_, rfl, intcNow_mask s, intcNow_counts s, .inl (getLsbD_putBit_same _ n true)⟩

/-- Whether a source runs away does not depend on its bits. -/
theorem runsAway_moderated (n k : Fin 96) (s : State) : RunsAway n (moderated k s) ↔ RunsAway n s := by
  obtain ⟨c, hc, -, hcounts, -⟩ := moderated_spec k s
  rw [hc]
  simp only [RunsAway, hcounts]
  rfl

theorem counted_counts (n : Fin 96) (s : State) : (counted n s).intc.counts[n] = s.intc.counts[n] + 1 := by
  simp [counted]

theorem getLsbD_maskSet (n : Fin 96) (s : State) : (maskSet n s).intc.mask.getLsbD n = true :=
  getLsbD_putBit_same _ n true

theorem regBit_runawayNoted (n : Fin 96) (s : State) :
    regBit (runawayNoted n s) (Reg.intc_RUNST (n.val / 16)) (n.val % 16) = true := by
  have hlt : n.val % 16 < 16 := Nat.mod_lt _ (by decide)
  have hreg : reg (runawayNoted n s) (Reg.intc_RUNST (n.val / 16)) =
      reg s (Reg.intc_RUNST (n.val / 16)) ||| wd (2 ^ (n.val % 16)) := reg_hwSet_same _ _ s
  rw [regBit, hreg, BitVec.getLsbD_or, wd, BitVec.getLsbD_ofNat, Nat.testBit_two_pow_self]
  simp [hlt]

theorem runawayNoted_raises (n : Fin 96) (s : State) : (runawayNoted n s).fcol.raises =
    s.fcol.raises ++ [{ cls := clsIntc, detail := wd (0x100 + n.val), note := true }] := rfl

/-- A signal that puts its source past the limit stops the source and tells of it. -/
theorem signal_of_runsAway {n : Fin 96} {s : State} (h : RunsAway n s) :
    (signal n s).intc.counts[n] = s.intc.counts[n] + 1 ∧ (signal n s).intc.mask.getLsbD n = true ∧
      regBit (signal n s) (Reg.intc_RUNST (n.val / 16)) (n.val % 16) = true ∧ hasEvent (signal n s) 63 ∧
      (signal n s).fcol.raises = s.fcol.raises ++ [{ cls := clsIntc, detail := wd (0x100 + n.val), note := true }] := by
  obtain ⟨c, hc, -, hcounts, -⟩ := moderated_spec n s
  obtain ⟨d, hd, hmask, hdcounts, hev⟩ :=
    moderated_spec 63 (runawayNoted n (maskSet n (counted n (moderated n s))))
  rw [signal, countEvent_of_runsAway ((runsAway_moderated n n s).2 h), hd]
  refine ⟨?counts, ?mask, regBit_runawayNoted n _, hev, ?raises⟩
  case counts => exact (congrArg (·[n]) hdcounts).trans ((counted_counts n _).trans (by rw [hc, hcounts]))
  case mask => exact (congrArg (·.getLsbD n) hmask).trans (getLsbD_maskSet n _)
  case raises =>
    refine (runawayNoted_raises n _).trans ?_
    rw [hc]
    rfl

/-- A signal that does not put its source past the limit is counted, and stops nothing. -/
theorem signal_of_not_runsAway {n : Fin 96} {s : State} (h : ¬ RunsAway n s) :
    (signal n s).intc.counts[n] = s.intc.counts[n] + 1 ∧ (signal n s).intc.mask = s.intc.mask ∧
      (signal n s).regs = s.regs ∧ (signal n s).fcol = s.fcol := by
  obtain ⟨c, hc, hmask, hcounts, -⟩ := moderated_spec n s
  rw [signal, countEvent_of_not_runsAway (mt (runsAway_moderated n n s).1 h), hc]
  exact ⟨(counted_counts n _).trans (by rw [hcounts]), hmask, rfl, rfl⟩

theorem exec_intcEvent (dt : Nat) (n : Fin 96) (s : State) : exec (.intcEvent dt n) s = actAfter dt (signal n) s := rfl

/-- Settles O45: a signal counts its event and stops a source that runs away (`signal_of_runsAway`), and no other. -/
theorem runawaySourceIsMasked : Obligations.RunawaySourceIsMasked := by
  unfold Obligations.RunawaySourceIsMasked
  intro s dt n hup
  refine ActsAfter.of (exec_intcEvent dt n s) hup ?_
  by_cases h : RunsAway n (ready dt s)
  · obtain ⟨hcounts, hstopped⟩ := signal_of_runsAway h
    exact ⟨hcounts, (if_pos h).mpr hstopped⟩
  · obtain ⟨hcounts, hkept⟩ := signal_of_not_runsAway h
    exact ⟨hcounts, (if_neg h).mpr hkept⟩

end Sys2Proof.Machine

/-! ## Forms of a command (log entry 1) -/

namespace Sys2Proof.Machine

/-- All that a command can do but for the three that act whatever the rails are: time passes, and one operation acts. -/
theorem exec_eq_perform (c : Instr) (hpor : ∀ a, c ≠ .por a) (hstart : ∀ a b d, c ≠ .startEvent a b d)
    (hwake : ∀ k, c ≠ .wake k) (s : State) : ∃ dt f, exec c s = .next (perform dt f s) := by
  cases c with
  | por a => exact absurd rfl (hpor a)
  | startEvent a b d => exact absurd rfl (hstart a b d)
  | wake k => exact absurd rfl (hwake k)
  | wailiFlashPollEnd dt idle => cases idle <;> exact ⟨_, _, rfl⟩
  | _ => exact ⟨_, _, rfl⟩

/-- What `exec` answers: the end of a row that settles the block, or the state as it was. -/
theorem exec_cases (c : Instr) (s : State) : (∃ u, exec c s = .next (settle u)) ∨ exec c s = .next s := by
  by_cases hpor : ∃ a, c = .por a
  · obtain ⟨a, rfl⟩ := hpor
    exact .inl ⟨_, rfl⟩
  by_cases hstart : ∃ a b d, c = .startEvent a b d
  · obtain ⟨a, b, d, rfl⟩ := hstart
    have he : exec (.startEvent a b d) s = .next (if s.power = .down then settle (startEvent a b d s) else s) := rfl
    rw [he]
    split_ifs
    · exact .inl ⟨_, rfl⟩
    · exact .inr rfl
  by_cases hwake : ∃ k, c = .wake k
  · obtain ⟨k, rfl⟩ := hwake
    exact .inl ⟨_, rfl⟩
  push Not at hpor hstart hwake
  obtain ⟨dt, f, he⟩ := exec_eq_perform c hpor hstart hwake s
  rw [he, perform]
  split_ifs
  · exact .inl ⟨_, rfl⟩
  · exact .inr rfl

/-! ### Settling -/

theorem settle_stage (s : State) (i : Fin 16) :
    (settle s).out.stages[i] =
      if stageBlocked s i then safeStage s.now i s.out.stages[i] else s.out.stages[i] := by
  simp [settle, safeStages]

theorem settle_irq (s : State) (t : Fin 8) : (settle s).lines.irq.getLsbD t = irqLine s t := by
  simp [settle]

theorem settle_faultLow (s : State) : (settle s).lines.faultLow = faultPinLow s := rfl

theorem settle_stageOn (s : State) (i : Fin 16) :
    (settle s).lines.stageOn.getLsbD i = stagePin (settle s).out.stages[i] s.now := by
  simp [settle]

/-- A blocked stage is off, and so is its pin. -/
theorem settle_blocked {s : State} {i : Fin 16} (h : stageBlocked s i = true) :
    (settle s).out.stages[i].on = false ∧ (settle s).lines.stageOn.getLsbD i = false := by
  have hon : (settle s).out.stages[i].on = false := by rw [settle_stage, if_pos h]; rfl
  exact ⟨hon, by rw [settle_stageOn, stagePin, hon, Bool.false_and]⟩

/-- The end of a row leaves the lines and the stages as the registers give them. -/
theorem settled_settle (s : State) : Settled (settle s) :=
  ⟨settle_irq s, settle_faultLow s, fun _ h => settle_blocked h⟩

/-- Settles O3: a command either ends by settling, or leaves the state, and the queue is no part of the lines. -/
theorem stepKeepsSettled : Obligations.StepKeepsSettled := by
  unfold Obligations.StepKeepsSettled
  intro s t hs hstep
  unfold step at hstep
  split at hstep
  · cases hstep
    exact hs
  · next i rest _ =>
    rcases exec_cases i (popped rest s) with ⟨u, hu⟩ | hu <;> rw [hu] at hstep <;> cases hstep
    · exact settled_settle u
    · exact hs

/-- Settles O4: both outcomes of `exec_cases` are next states. -/
theorem everyCommandAnswersANextState : Obligations.EveryCommandAnswersANextState := by
  unfold Obligations.EveryCommandAnswersANextState
  intro c s
  rcases exec_cases c s with ⟨u, hu⟩ | hu
  · exact ⟨_, hu⟩
  · exact ⟨_, hu⟩

/-- Settles O5: a command that waits for the rails is of the form `perform`. -/
theorem nothingActsWithoutItsRails : Obligations.NothingActsWithoutItsRails := by
  unfold Obligations.NothingActsWithoutItsRails
  intro c s hdown hpor hstart hwake
  obtain ⟨dt, f, he⟩ := exec_eq_perform c hpor hstart hwake s
  rw [he, perform, if_neg hdown]

/-- Settles O1: by the two cases of `step`. -/
theorem stepRunsTheFrontCommand : Obligations.StepRunsTheFrontCommand := by
  unfold Obligations.StepRunsTheFrontCommand
  refine ⟨fun c rest s => rfl, fun s hs => ?_⟩
  rw [step, hs]

/-! ### The reset state -/

theorem irqSettled_reset : IrqSettled State.reset := by
  unfold IrqSettled
  decide +kernel

theorem stagesSafe_reset : StagesSafe State.reset := by
  unfold StagesSafe
  decide +kernel

theorem memory_wf_reset : Memory.wf State.reset = true := by decide +kernel

/-- Settles O2: no register word is listed at reset, and the lines are evaluated. -/
theorem resetStateIsSettledAndCanonical : Obligations.ResetStateIsSettledAndCanonical := by
  unfold Obligations.ResetStateIsSettledAndCanonical
  refine ⟨⟨irqSettled_reset, rfl, stagesSafe_reset⟩, memory_wf_reset, rfl, rfl, fun a => rfl, rfl, rfl, ?masks, ?threads⟩
  case masks => decide +kernel
  case threads => decide +kernel

/-! ### A quiet block (R1022, R925) -/

theorem watchdogFreeze_of_quiet {s : State} (h : frozenBlock s 0 = false) (hleft : s.chisel.wdLeft = none) :
    watchdogFreeze s = s := by
  unfold watchdogFreeze
  rw [h, hleft]

theorem eventFreeze_of_quiet {s : State} (h : frozenBlock s 1 = s.chisel.evtFrozen) : eventFreeze s = s :=
  if_pos h

theorem canPick_of_offBus {k : Fin 2} {s : State} (h : canOnBus s k = false) : canPick k s = s := by
  simp [canPick, h]

theorem wailiPump_of_off {s : State} (h : s.waili.on = false) : wailiPump s = s := by
  simp [wailiPump, h]

theorem freezeEdge_of_quiet {s : State} (h0 : frozenBlock s 0 = false) (hleft : s.chisel.wdLeft = none)
    (h1 : frozenBlock s 1 = s.chisel.evtFrozen) (hcan : ∀ k : Fin 2, canOnBus s k = false) : freezeEdge s = s := by
  rw [freezeEdge, watchdogFreeze_of_quiet h0 hleft, eventFreeze_of_quiet h1, canPick_of_offBus (hcan 0),
    canPick_of_offBus (hcan 1)]

/-- Settles O7: with nothing owed, what follows a command is `settle`. -/
theorem followOnlySettlesAQuietBlock : Obligations.FollowOnlySettlesAQuietBlock := by
  unfold Obligations.FollowOnlySettlesAQuietBlock
  intro u h0 hleft h1 hcan hw
  have hf : follow u = settle u := by
    rw [follow, freezeEdge_of_quiet h0 hleft h1 hcan, wailiPump_of_off hw]
  rw [hf]
  refine ⟨rfl, fun i => ?_, settle_irq u, settle_faultLow u⟩
  split_ifs with h
  · exact settle_blocked h
  · rw [settle_stage, if_neg h]

end Sys2Proof.Machine

/-! ## The scratchpad (R485-R488) -/

namespace Sys2Proof.Machine

theorem spadGet_spadPut (s : State) (a b : Nat) (v : Word) :
    spadGet (spadPut a v s) b = if b = a then v else spadGet s b :=
  cget_cset spadDefault s.mem.spad a b v

theorem parityBad_spadPut (s : State) (a b : Nat) (v : Word) :
    parityBad (spadPut a v s) b = if b = a then false else parityBad s b := by
  rw [Bool.eq_iff_iff]
  by_cases h : b = a <;> simp [parityBad, spadPut, h]

/-- A run of words reads back in order, and every other word is what it was. -/
theorem spadGet_spadPuts (s : State) (a b : Nat) (vs : List Word) :
    spadGet (spadPuts a vs s) b = if a ≤ b ∧ b < a + vs.length then vs.getD (b - a) 0 else spadGet s b := by
  induction vs generalizing a s with
  | nil => simp [spadPuts]
  | cons v vs ih =>
    rw [spadPuts, ih, spadGet_spadPut, List.length_cons]
    rcases Nat.lt_trichotomy b a with h | h | h
    · rw [if_neg (by omega), if_neg (by omega), if_neg (by omega)]
    · subst h
      rw [if_neg (by omega), if_pos rfl, if_pos (by omega), Nat.sub_self, List.getD_cons_zero]
    · obtain ⟨k, rfl⟩ := Nat.exists_eq_add_of_lt h
      have hk : a + k + 1 - a = k + 1 := by omega
      have hk' : a + k + 1 - (a + 1) = k := by omega
      rw [hk, hk', List.getD_cons_succ, if_neg (show a + k + 1 ≠ a by omega)]
      exact if_congr (by omega) rfl rfl

/-- Settles O8: by the laws of the sparse memories. -/
theorem scratchpadReadsWhatWasWritten : Obligations.ScratchpadReadsWhatWasWritten := by
  unfold Obligations.ScratchpadReadsWhatWasWritten
  exact ⟨fun s a b v => ⟨spadGet_spadPut s a b v, parityBad_spadPut s a b v, cwf_cset spadDefault s.mem.spad a v⟩,
    spadGet_spadPuts⟩

end Sys2Proof.Machine

/-! ## Prefixes (R350-R354) -/

namespace Sys2Proof.Machine

/-- Prefixes of different kinds: IFT and IFF count as one (R357). -/
def kindsDiffer (p q : Prefix) : Prop :=
  prefixCode p ≠ prefixCode q ∧
    ¬ ((prefixCode p = 0xF2 ∨ prefixCode p = 0xF3) ∧ (prefixCode q = 0xF2 ∨ prefixCode q = 0xF3))

/-- The argument of a prefix lies in its range (R354). -/
def prefixInRange : Prefix → Bool
  | .ift c => decide (c ≤ 15)
  | .iff c => decide (c ≤ 15)
  | .sealed n => decide (n ≤ 31)
  | _ => true

/-- A prefix of the kind of byte `b` was found. -/
def kindFound (acc : List Prefix) (b : Byte) : Bool :=
  acc.any (fun p => prefixCode p == b || ((b == 0xF2 || b == 0xF3) && (prefixCode p == 0xF2 || prefixCode p == 0xF3)))

theorem kindFound_eq_false {acc : List Prefix} {p : Prefix} (hd : ∀ q ∈ acc, kindsDiffer q p) :
    kindFound acc (prefixCode p) = false := by
  rw [kindFound, List.any_eq_false]
  intro q hq
  obtain ⟨hne, hguard⟩ := hd q hq
  simp only [Bool.or_eq_true, Bool.and_eq_true, beq_iff_eq]
  tauto

/-- What the scan does with a prefix byte of a kind not found yet. -/
theorem scanPrefixes_fresh {acc : List Prefix} (hlen : acc.length ≠ 3) {b : Byte} (hb : 0xF0 ≤ b) (hb' : b < 0xF8)
    (hfresh : kindFound acc b = false) (fuel : Nat) (rest : List Byte) :
    scanPrefixes true (fuel + 1) acc (b :: rest) =
      let a := rest.getD 0 0xFF
      if b = 0xF2 then (if 15 < a then .inl 1 else scanPrefixes true fuel (acc ++ [.ift a]) rest.tail)
      else if b = 0xF3 then (if 15 < a then .inl 1 else scanPrefixes true fuel (acc ++ [.iff a]) rest.tail)
      else if b = 0xF4 then scanPrefixes true fuel (acc ++ [.far a]) rest.tail
      else if b = 0xF7 then (if 31 < a then .inl 1 else scanPrefixes true fuel (acc ++ [.sealed a]) rest.tail)
      else scanPrefixes true fuel
        (acc ++ [if b = 0xF0 then .long else if b = 0xF1 then .pair else if b = 0xF5 then .sat else .ac1]) rest := by
  have hlow : ¬ 0xFC ≤ b := by bv_omega
  have hpage : ¬ 0xF8 ≤ b := by bv_omega
  have hop : ¬ b < 0xF0 := by bv_omega
  rw [kindFound] at hfresh
  simp only [scanPrefixes, if_neg hlow, if_neg hop, if_neg hlen, if_neg hpage, hfresh, Bool.false_eq_true, if_false,
    Bool.not_true, Bool.false_and]

theorem prefixCode_bounds (p : Prefix) : 0xF0 ≤ prefixCode p ∧ prefixCode p < 0xF8 := by
  cases p <;> simp [prefixCode]

/-- One more prefix of a kind not found yet joins those found. -/
theorem scanPrefixes_prefix {acc : List Prefix} (hlen : acc.length ≠ 3) {p : Prefix} (hp : prefixInRange p = true)
    (hd : ∀ q ∈ acc, kindsDiffer q p) (fuel : Nat) (rest : List Byte) :
    scanPrefixes true (fuel + 1) acc (prefixBytes p ++ rest) = scanPrefixes true fuel (acc ++ [p]) rest := by
  have hfresh := kindFound_eq_false hd
  have hb := prefixCode_bounds p
  refine (scanPrefixes_fresh hlen hb.1 hb.2 hfresh fuel _).trans ?_
  cases p with
  | ift c => exact if_neg (BitVec.not_lt.2 (of_decide_eq_true hp))
  | iff c => exact if_neg (BitVec.not_lt.2 (of_decide_eq_true hp))
  | sealed n => exact if_neg (BitVec.not_lt.2 (of_decide_eq_true hp))
  | _ => rfl

/-- Prefixes in a row join those found, in byte order. -/
theorem scanPrefixes_prefixes (pre : List Prefix) {acc : List Prefix} (hlen : acc.length + pre.length ≤ 3)
    (hr : pre.all prefixInRange = true) (hp : (acc ++ pre).Pairwise kindsDiffer) (fuel : Nat) (rest : List Byte) :
    scanPrefixes true (fuel + pre.length) acc (pre.flatMap prefixBytes ++ rest) =
      scanPrefixes true fuel (acc ++ pre) rest := by
  induction pre generalizing acc with
  | nil => simp
  | cons p pre ih =>
    obtain ⟨hp0, hr⟩ := Bool.and_eq_true_iff.1 hr
    rw [List.length_cons] at hlen
    have hd : ∀ q ∈ acc, kindsDiffer q p := fun q hq =>
      (List.pairwise_append.1 hp).2.2 q hq p List.mem_cons_self
    rw [List.append_cons] at hp
    rw [List.flatMap_cons, List.append_assoc, List.length_cons, ← Nat.add_assoc,
      scanPrefixes_prefix (by omega) hp0 hd, ih (by simp; omega) hr hp, ← List.append_cons]

theorem scanPrefixes_page0 {o : Byte} (ho : o < 0xF0) (fuel : Nat) (acc : List Prefix) (rest : List Byte) :
    scanPrefixes true (fuel + 1) acc (o :: rest) = .inr (acc, 0, o :: rest) := by
  have hlow : ¬ 0xFC ≤ o := by bv_omega
  simp only [scanPrefixes, if_neg hlow, if_pos ho]

theorem scanPrefixes_page {acc : List Prefix} (hlen : acc.length ≠ 3) {pg o : Byte} (hpg : 0xF8 ≤ pg) (hpg' : pg < 0xFC)
    (ho : o < 0xFC) (fuel : Nat) (rest : List Byte) :
    scanPrefixes true (fuel + 1) acc (pg :: o :: rest) = .inr (acc, pg.toNat - 0xF7, o :: rest) := by
  have hlow : ¬ 0xFC ≤ pg := by bv_omega
  have hhigh : ¬ pg < 0xF0 := by bv_omega
  have ho' : ¬ 0xFC ≤ o := by bv_omega
  simp only [scanPrefixes, if_neg hlow, if_neg hhigh, if_neg hlen, if_pos hpg, if_neg ho']

/-- Settles O9: the prefixes are found one by one (`scanPrefixes_prefixes`), then the opcode or the page ends the scan. -/
theorem prefixesDecodeAsEncoded : Obligations.PrefixesDecodeAsEncoded := by
  unfold Obligations.PrefixesDecodeAsEncoded
  intro pre o rest hlen hp hr
  have hr : pre.all prefixInRange = true := hr
  have hp : pre.Pairwise kindsDiffer := hp
  have hscan : ∀ bytes, scanPrefixes true 5 [] (pre.flatMap prefixBytes ++ bytes) =
      scanPrefixes true (4 - pre.length + 1) pre bytes := fun bytes => by
    have hfuel : 5 = 4 - pre.length + 1 + pre.length := by omega
    rw [hfuel, scanPrefixes_prefixes pre (acc := []) (by simpa using hlen) hr hp, List.nil_append]
  refine ⟨fun ho => ?_, fun pg hpg hpg' ho hlen' => ?_⟩
  · rw [hscan, scanPrefixes_page0 ho]
  · rw [hscan, scanPrefixes_page (by omega) hpg hpg' ho]

end Sys2Proof.Machine

/-! ## What signals, raises and changes of a CAN controller leave alone -/

namespace Sys2Proof.Machine

/-- A signal changes the interrupt controller, the words of INTC.RUNST and the error lines only. -/
theorem signal_eq (n : Fin 96) (s : State) : ∃ regs hw intc raises, signal n s =
    { s with regs := regs, hw := hw, intc := intc, fcol := { s.fcol with raises := raises } } := by
  rcases signal_cases n s with ⟨c, h⟩ | ⟨c, mask, detail, h⟩
  · exact ⟨s.regs, s.hw, c, s.fcol.raises, h⟩
  · exact ⟨_, _, c, _, h⟩

/-- The error lines keep what stands on them; a signal can only put a note behind it. -/
theorem signal_raises (n : Fin 96) (s : State) : s.fcol.raises <+: (signal n s).fcol.raises := by
  rcases signal_cases n s with ⟨c, h⟩ | ⟨c, mask, detail, h⟩ <;> rw [h]
  exact List.prefix_append _ _

section
variable (n : Fin 96) (s : State)

@[simp] theorem signal_pending : (signal n s).pending = s.pending := by
  obtain ⟨_, _, _, _, h⟩ := signal_eq n s
  rw [h]
@[simp] theorem signal_power : (signal n s).power = s.power := by
  obtain ⟨_, _, _, _, h⟩ := signal_eq n s
  rw [h]
@[simp] theorem signal_now : (signal n s).now = s.now := by
  obtain ⟨_, _, _, _, h⟩ := signal_eq n s
  rw [h]
@[simp] theorem signal_plinth : (signal n s).plinth = s.plinth := by
  obtain ⟨_, _, _, _, h⟩ := signal_eq n s
  rw [h]
@[simp] theorem signal_boot : (signal n s).boot = s.boot := by
  obtain ⟨_, _, _, _, h⟩ := signal_eq n s
  rw [h]
@[simp] theorem signal_flash : (signal n s).flash = s.flash := by
  obtain ⟨_, _, _, _, h⟩ := signal_eq n s
  rw [h]
@[simp] theorem signal_cour : (signal n s).cour = s.cour := by
  obtain ⟨_, _, _, _, h⟩ := signal_eq n s
  rw [h]
@[simp] theorem signal_out : (signal n s).out = s.out := by
  obtain ⟨_, _, _, _, h⟩ := signal_eq n s
  rw [h]
@[simp] theorem signal_lines : (signal n s).lines = s.lines := by
  obtain ⟨_, _, _, _, h⟩ := signal_eq n s
  rw [h]
@[simp] theorem signal_adc : (signal n s).adc = s.adc := by
  obtain ⟨_, _, _, _, h⟩ := signal_eq n s
  rw [h]
@[simp] theorem signal_evt : (signal n s).evt = s.evt := by
  obtain ⟨_, _, _, _, h⟩ := signal_eq n s
  rw [h]
@[simp] theorem signal_tile : (signal n s).tile = s.tile := by
  obtain ⟨_, _, _, _, h⟩ := signal_eq n s
  rw [h]
@[simp] theorem signal_can : (signal n s).can = s.can := by
  obtain ⟨_, _, _, _, h⟩ := signal_eq n s
  rw [h]
@[simp] theorem signal_kline : (signal n s).kline = s.kline := by
  obtain ⟨_, _, _, _, h⟩ := signal_eq n s
  rw [h]
@[simp] theorem signal_loop : (signal n s).loop = s.loop := by
  obtain ⟨_, _, _, _, h⟩ := signal_eq n s
  rw [h]
@[simp] theorem signal_waili : (signal n s).waili = s.waili := by
  obtain ⟨_, _, _, _, h⟩ := signal_eq n s
  rw [h]
@[simp] theorem signal_chisel : (signal n s).chisel = s.chisel := by
  obtain ⟨_, _, _, _, h⟩ := signal_eq n s
  rw [h]
@[simp] theorem signal_kern : (signal n s).kern = s.kern := by
  obtain ⟨_, _, _, _, h⟩ := signal_eq n s
  rw [h]
@[simp] theorem signal_xregs : (signal n s).xregs = s.xregs := by
  obtain ⟨_, _, _, _, h⟩ := signal_eq n s
  rw [h]
@[simp] theorem signal_result : (signal n s).result = s.result := by
  obtain ⟨_, _, _, _, h⟩ := signal_eq n s
  rw [h]
@[simp] theorem signal_otp : (signal n s).otp = s.otp := by
  obtain ⟨_, _, _, _, h⟩ := signal_eq n s
  rw [h]
@[simp] theorem signal_trace : (signal n s).trace = s.trace := by
  obtain ⟨_, _, _, _, h⟩ := signal_eq n s
  rw [h]
@[simp] theorem signal_post : (signal n s).post = s.post := by
  obtain ⟨_, _, _, _, h⟩ := signal_eq n s
  rw [h]
@[simp] theorem signal_free : (signal n s).free = s.free := by
  obtain ⟨_, _, _, _, h⟩ := signal_eq n s
  rw [h]

end

/-- An address below every block that signals record in is no word of INTC.RUNST. -/
theorem not_mem_runst {a : Nat} (h : a < Reg.intc_RUNST 0 ∨ Reg.intc_RUNST 5 < a) : a ∉ runst := by
  simp only [runst, List.mem_map, List.mem_range, not_exists, not_and, Reg.intc_RUNST] at h ⊢
  omega

/-! ### CAN controllers (R918, R921, R928) -/

/-- A change of a controller is what it is, with a signal where BUSST.STATE changes. -/
theorem canChange_induction {P : State → Prop} {k : Fin 2} {f : State → State} {s : State} (plain : P (f s))
    (signals : ∀ n, P (signal n (f s))) : P (canChange k f s) := by
  unfold canChange
  dsimp only
  split_ifs
  · exact plain
  · exact signals _

theorem eachObj_induction {P : State → Prop} {f : Fin 32 → State → State} (v : Pair) {s : State} (start : P s)
    (next : ∀ j s, P s → P (f j s)) : P (eachObj v f s) := by
  unfold eachObj
  generalize List.finRange 32 = l
  induction l generalizing s with
  | nil => exact start
  | cons j l ih =>
    rw [List.foldl_cons]
    split_ifs
    · exact ih (next j s start)
    · exact ih start

theorem canBase_ge (k : Fin 2) : 0x43C00 ≤ canBase k := Nat.le_add_right _ _

theorem objAt_ge (k : Fin 2) (j : Fin 32) (w : Nat) : canBase k + 0x100 ≤ objAt k j w := by
  unfold objAt objOff
  split_ifs <;> omega

/-- The words of a controller from `o` on are the words of its registers and objects. -/
theorem objAt_lt (k : Fin 2) (j : Fin 32) {w : Nat} (hw : w < 0x0C) : objAt k j w < canBase k + 0x400 := by
  unfold objAt objOff
  split_ifs <;> omega

/-- The requests of a controller that enters OFF end with ABT. -/
def abtAll (k : Fin 2) (s : State) : State := eachObj (reg32 s (canAt k cTXREQ)) (fun j s => setAbt k j s) s

/-- The registers of a controller that enters OFF (R928). -/
def offRegs (k : Fin 2) (s : State) : State := setRegF (canAt k cMCTL) 13 3 0 (setReg32 (canAt k cTXREQ) 0 (abtAll k s))

theorem setAbt_eq (k : Fin 2) (j : Fin 32) (s : State) : ∃ regs hw, setAbt k j s = { s with regs := regs, hw := hw } :=
  ⟨_, _, rfl⟩

theorem abtAll_eq (k : Fin 2) (s : State) : ∃ regs hw, abtAll k s = { s with regs := regs, hw := hw } :=
  eachObj_induction (P := fun u => ∃ regs hw, u = { s with regs := regs, hw := hw }) _ ⟨s.regs, s.hw, rfl⟩
    fun j u ⟨regs, hw, hu⟩ => by
      obtain ⟨regs', hw', h⟩ := setAbt_eq k j u
      exact ⟨regs', hw', by rw [h, hu]⟩

theorem reg_abtAll {k : Fin 2} {a : Nat} (ha : a < canBase k + 0x100 ∨ canBase k + 0x400 ≤ a) (s : State) :
    reg (abtAll k s) a = reg s a :=
  eachObj_induction (P := fun u => reg u a = reg s a) _ rfl fun j u hu => by
    have h1 := objAt_ge k j 1
    have h2 := objAt_lt k j (w := 1) (by decide)
    rw [setAbt, reg_hwSet_other _ _ (by omega), hu]

theorem offRegs_eq (k : Fin 2) (s : State) : ∃ regs hw, offRegs k s = { s with regs := regs, hw := hw } := by
  obtain ⟨regs, hw, h⟩ := abtAll_eq k s
  rw [offRegs, h]
  exact ⟨_, _, rfl⟩

theorem reg_offRegs {k : Fin 2} {a : Nat} (ha : a < canBase k ∨ canBase k + 0x400 ≤ a) (s : State) :
    reg (offRegs k s) a = reg s a := by
  have h0 : a ≠ canBase k + 0x00 := by omega
  have h10 : a ≠ canBase k + 0x10 := by omega
  have h11 : a ≠ canBase k + 0x10 + 1 := by omega
  rw [offRegs, canAt, canAt, reg_setRegF_other _ _ _ _ h0, setReg32, reg_setReg_other _ _ h11, reg_setReg_other _ _ h10,
    reg_abtAll (by omega)]

theorem reg_setCan (k : Fin 2) (f : Can → Can) (s : State) (a : Nat) : reg (setCan k f s) a = reg s a := rfl

/-- A controller enters OFF with the registers of `offRegs`; a signal may tell of it. -/
theorem canOff_cases (k : Fin 2) (s : State) : ∃ f, canOff k s = setCan k f (offRegs k s) ∨
    ∃ n, canOff k s = signal n (setCan k f (offRegs k s)) := by
  rw [canOff, canChange]
  dsimp only
  split_ifs
  · exact ⟨_, .inl rfl⟩
  · exact ⟨_, .inr ⟨_, rfl⟩⟩

theorem reg_canOff {k : Fin 2} {a : Nat} (ha : a < canBase k ∨ canBase k + 0x400 ≤ a) (hr : a ∉ runst) (s : State) :
    reg (canOff k s) a = reg s a := by
  obtain ⟨f, h | ⟨n, h⟩⟩ := canOff_cases k s
  · rw [h, reg_setCan, reg_offRegs ha]
  · rw [h, reg_signal hr, reg_setCan, reg_offRegs ha]

theorem mctl_not_mem_runst (k : Fin 2) : canAt k cMCTL ∉ runst := by
  revert k
  decide

/-- A controller that is turned off has MODE 0. -/
theorem canMode_canOff (k : Fin 2) (s : State) : canMode (canOff k s) k = 0 := by
  have hmode : fld (reg (offRegs k s) (canAt k cMCTL)) 13 3 = 0 := by
    rw [offRegs, reg_setRegF_same, fld_putFld _ _ _ _ (by decide), Nat.zero_mod]
  obtain ⟨f, h | ⟨n, h⟩⟩ := canOff_cases k s
  · rw [canMode, regF, h, reg_setCan, hmode]
  · rw [canMode, regF, h, reg_signal (mctl_not_mem_runst k), reg_setCan, hmode]

theorem mctl_of_other {k j : Fin 2} (h : j ≠ k) : canAt j cMCTL < canBase k ∨ canBase k + 0x400 ≤ canAt j cMCTL := by
  have hne : j.val ≠ k.val := fun hv => h (Fin.ext hv)
  simp only [canAt, canBase, cMCTL]
  omega

theorem canMode_canOff_other {k j : Fin 2} (h : j ≠ k) (s : State) : canMode (canOff k s) j = canMode s j := by
  rw [canMode, regF, reg_canOff (mctl_of_other h) (mctl_not_mem_runst j), canMode, regF]

theorem canState_of_off {s : State} {k : Fin 2} (h : canMode s k = 0) : canState s k = 3 := if_pos (.inl h)

/-- What turning a controller off changes. -/
theorem canOff_eq (k : Fin 2) (s : State) : ∃ regs hw can intc raises, canOff k s =
    { s with regs := regs, hw := hw, can := can, intc := intc, fcol := { s.fcol with raises := raises } } := by
  obtain ⟨regs, hw, hoff⟩ := offRegs_eq k s
  obtain ⟨f, h | ⟨n, h⟩⟩ := canOff_cases k s
  · rw [h, hoff]
    exact ⟨_, _, _, s.intc, s.fcol.raises, rfl⟩
  · obtain ⟨regs', hw', intc, raises, hs⟩ := signal_eq n (setCan k f (offRegs k s))
    rw [h, hs, hoff]
    exact ⟨_, _, _, _, _, rfl⟩

theorem canOff_raises (k : Fin 2) (s : State) : s.fcol.raises <+: (canOff k s).fcol.raises := by
  obtain ⟨regs, hw, hoff⟩ := offRegs_eq k s
  have hraises : (offRegs k s).fcol.raises = s.fcol.raises := by rw [hoff]
  obtain ⟨f, h | ⟨n, h⟩⟩ := canOff_cases k s
  · rw [h, setCan_fcol, hraises]
  · have hsig := signal_raises n (setCan k f (offRegs k s))
    rwa [setCan_fcol, hraises, ← h] at hsig

@[simp] theorem canOff_now (k : Fin 2) (s : State) : (canOff k s).now = s.now := by
  obtain ⟨_, _, _, _, _, h⟩ := canOff_eq k s
  rw [h]

@[simp] theorem canOff_mem (k : Fin 2) (s : State) : (canOff k s).mem = s.mem := by
  obtain ⟨_, _, _, _, _, h⟩ := canOff_eq k s
  rw [h]

end Sys2Proof.Machine

/-! ## The clock monitor (R33-R47) -/

namespace Sys2Proof.Machine

theorem regBit_setRegBit (a i j : Nat) (b : Bool) (s : State) (hj : j < 16) :
    regBit (setRegBit a i b s) a j = if j = i then b else regBit s a j := by
  rw [regBit, reg_setRegBit_same, getLsbD_putBit _ _ _ _ hj]
  rfl

theorem regBit_setRegF (a lo len v j : Nat) (s : State) (hj : j < 16) :
    regBit (setRegF a lo len v s) a j = if lo ≤ j ∧ j < lo + len then v.testBit (j - lo) else regBit s a j := by
  rw [regBit, reg_setRegF_same, getLsbD_putFld _ _ _ _ _ hj]
  rfl

theorem onBackup_eq (s : State) : onBackup s = regBit s Reg.sys_CLKSTAT 15 := rfl

/-- CLKSTAT and the error lines after a loss of lock. -/
def lockLost (gone : Bool) (s : State) : State :=
  clockFailure 1 (setRegBit Reg.sys_CLKSTAT clkPLLLK false (setRegBit Reg.sys_CLKSTAT clkXTAL (!gone)
    (setRegBit Reg.sys_CLKSTAT clkBKUP true (slotSync s))))

theorem regBit_lockLost (gone : Bool) (s : State) :
    regBit (lockLost gone s) Reg.sys_CLKSTAT 15 = true ∧ regBit (lockLost gone s) Reg.sys_CLKSTAT 14 = false ∧
      regBit (lockLost gone s) Reg.sys_CLKSTAT 13 = !gone := by
  have hreg (u : State) (x : Raise) (j : Nat) : regBit (raise x u) Reg.sys_CLKSTAT j = regBit u Reg.sys_CLKSTAT j := rfl
  simp only [lockLost, clockFailure, hreg, regBit_setRegF _ _ _ _ _ _ (show 15 < 16 by decide),
    regBit_setRegF _ _ _ _ _ _ (show 14 < 16 by decide), regBit_setRegF _ _ _ _ _ _ (show 13 < 16 by decide),
    regBit_setRegBit _ _ _ _ _ (show 15 < 16 by decide), regBit_setRegBit _ _ _ _ _ (show 14 < 16 by decide),
    regBit_setRegBit _ _ _ _ _ (show 13 < 16 by decide)]
  simp

/-- The low byte of CLKSTAT counts the failure, up to 255. -/
theorem swcnt_lockLost (gone : Bool) (s : State) :
    fld (reg (lockLost gone s) Reg.sys_CLKSTAT) 0 8 = min 255 (fld (reg s Reg.sys_CLKSTAT) 0 8 + 1) := by
  have hold (i : Nat) (hi : 8 ≤ i) (b : Bool) (u : State) :
      fld (reg (setRegBit Reg.sys_CLKSTAT i b u) Reg.sys_CLKSTAT) 0 8 = fld (reg u Reg.sys_CLKSTAT) 0 8 := by
    rw [reg_setRegBit_same, putBit, fld_putFld_other _ _ _ _ _ _ (by decide) (.inl hi)]
  have hreg (u : State) (x : Raise) : reg (raise x u) Reg.sys_CLKSTAT = reg u Reg.sys_CLKSTAT := rfl
  rw [lockLost, clockFailure, hreg, reg_setRegF_same, fld_putFld _ _ _ _ (by decide), satAdd, regF, hold _ (by decide), hold _ (by decide),
    hold _ (by decide), Nat.mod_eq_of_lt (by omega)]
  rfl

/-- The state in which the CAN controllers are turned off: boot that has not ended notes the loss too (R190). -/
def lossNoted (gone : Bool) (s : State) : State :=
  if s.boot.stage == .finished then lockLost gone s
  else setRegBit Reg.sys_BOOTSTAT 11 true (setRegF Reg.flash_RDCFG 0 4 0 (lockLost gone s))

theorem lockLoss_of_lock {s : State} (h : regBit s Reg.sys_CLKSTAT 15 = false) (gone : Bool) :
    lockLoss gone s = wailiDiscard (canOff 1 (canOff 0 (lossNoted gone s))) := by
  rw [lockLoss, if_neg (by rw [onBackup_eq, h]; decide)]
  rfl

theorem setReg_eq (a : Nat) (v : Word) (s : State) : ∃ regs, setReg a v s = { s with regs := regs } := ⟨_, rfl⟩

theorem setRegF_eq (a lo len v : Nat) (s : State) : ∃ regs, setRegF a lo len v s = { s with regs := regs } :=
  setReg_eq a _ s

theorem setRegBit_eq (a i : Nat) (b : Bool) (s : State) : ∃ regs, setRegBit a i b s = { s with regs := regs } :=
  setReg_eq a _ s

theorem lockLost_eq (gone : Bool) (s : State) : ∃ regs thr, lockLost gone s =
    raise { cls := clsClock, bmin := 3, detail := 1 } { s with regs := regs, thr := thr } := by
  rw [lockLost]
  obtain ⟨r1, h1⟩ := setRegBit_eq Reg.sys_CLKSTAT clkBKUP true (slotSync s)
  obtain ⟨r2, h2⟩ := setRegBit_eq Reg.sys_CLKSTAT clkXTAL (!gone) { slotSync s with regs := r1 }
  obtain ⟨r3, h3⟩ := setRegBit_eq Reg.sys_CLKSTAT clkPLLLK false { slotSync s with regs := r2 }
  rw [h1, h2, h3, clockFailure]
  obtain ⟨r4, h4⟩ := setRegF_eq Reg.sys_CLKSTAT 0 8
    (satAdd 255 (regF { slotSync s with regs := r3 } Reg.sys_CLKSTAT 0 8) 1) { slotSync s with regs := r3 }
  rw [h4]
  exact ⟨r4, (slotSync s).thr, rfl⟩

theorem lossNoted_eq (gone : Bool) (s : State) : ∃ regs thr, lossNoted gone s =
    raise { cls := clsClock, bmin := 3, detail := 1 } { s with regs := regs, thr := thr } := by
  obtain ⟨regs, thr, h⟩ := lockLost_eq gone s
  rw [lossNoted, h]
  split_ifs
  · exact ⟨regs, thr, rfl⟩
  · obtain ⟨r1, h1⟩ := setRegF_eq Reg.flash_RDCFG 0 4 0
      (raise { cls := clsClock, bmin := 3, detail := 1 } { s with regs := regs, thr := thr })
    rw [h1]
    obtain ⟨r2, h2⟩ := setRegBit_eq Reg.sys_BOOTSTAT 11 true
      { raise { cls := clsClock, bmin := 3, detail := 1 } { s with regs := regs, thr := thr } with regs := r1 }
    rw [h2]
    exact ⟨r2, thr, rfl⟩

theorem reg_clkstat_lossNoted (gone : Bool) (s : State) :
    reg (lossNoted gone s) Reg.sys_CLKSTAT = reg (lockLost gone s) Reg.sys_CLKSTAT := by
  unfold lossNoted
  split_ifs
  · rfl
  · rw [reg_setRegBit_other _ _ _ (by decide), reg_setRegF_other _ _ _ _ (by decide)]

theorem reg_wailiDiscard (s : State) (a : Nat) : reg (wailiDiscard s) a = reg s a := rfl

theorem canMode_wailiDiscard (s : State) (k : Fin 2) : canMode (wailiDiscard s) k = canMode s k := rfl

theorem reg_clkstat_lockLoss {s : State} (h : regBit s Reg.sys_CLKSTAT 15 = false) (gone : Bool) :
    reg (lockLoss gone s) Reg.sys_CLKSTAT = reg (lockLost gone s) Reg.sys_CLKSTAT := by
  have hr : Reg.sys_CLKSTAT ∉ runst := by decide
  have hlow (k : Fin 2) : Reg.sys_CLKSTAT < canBase k := Nat.lt_of_lt_of_le (by decide) (canBase_ge k)
  rw [lockLoss_of_lock h, reg_wailiDiscard, reg_canOff (.inl (hlow 1)) hr, reg_canOff (.inl (hlow 0)) hr,
    reg_clkstat_lossNoted]

theorem lockLoss_raised {s : State} (h : regBit s Reg.sys_CLKSTAT 15 = false) (gone : Bool) :
    Raised s (lockLoss gone s) { cls := clsClock, bmin := 3, detail := 1 } := by
  obtain ⟨regs, thr, hu⟩ := lossNoted_eq gone s
  have hraise : (lossNoted gone s).fcol.raises = s.fcol.raises ++ [{ cls := clsClock, bmin := 3, detail := 1 }] := by
    rw [hu]
    rfl
  rw [lockLoss_of_lock h, Raised, ← hraise]
  exact (canOff_raises 0 _).trans (canOff_raises 1 _)

theorem lockLoss_canState {s : State} (h : regBit s Reg.sys_CLKSTAT 15 = false) (gone : Bool) (k : Fin 2) :
    canState (lockLoss gone s) k = 3 := by
  apply canState_of_off
  rw [lockLoss_of_lock h, canMode_wailiDiscard]
  by_cases hk : k = 1
  · rw [hk, canMode_canOff]
  · have hk0 : k = 0 := by omega
    rw [canMode_canOff_other hk, hk0, canMode_canOff]

theorem lockLoss_kept {s : State} (h : regBit s Reg.sys_CLKSTAT 15 = false) (gone : Bool) :
    (lockLoss gone s).waili.edit = [] ∧ (lockLoss gone s).now = s.now ∧ (lockLoss gone s).mem = s.mem := by
  obtain ⟨regs, thr, hu⟩ := lossNoted_eq gone s
  have hnow (u : State) : (wailiDiscard u).now = u.now := rfl
  have hmem (u : State) : (wailiDiscard u).mem = u.mem := rfl
  rw [lockLoss_of_lock h, hnow, hmem, canOff_now, canOff_now, canOff_mem, canOff_mem, hu]
  exact ⟨rfl, rfl, rfl⟩

/-! ### The crystal -/

/-- A write of bit `i` of a register, where it acts: the other bits, registers and blocks stay. -/
theorem setRegBit_spec (a i : Nat) (b : Bool) (s : State) (hi : i < 16) :
    regBit (setRegBit a i b s) a i = b ∧ (∀ k < 16, k ≠ i → regBit (setRegBit a i b s) a k = regBit s a k) ∧
      RegsBut [a] s (setRegBit a i b s) ∧ { setRegBit a i b s with regs := s.regs } = s :=
  ⟨by rw [regBit_setRegBit _ _ _ _ _ hi, if_pos rfl],
    fun k hk hne => by rw [regBit_setRegBit _ _ _ _ _ hk, if_neg hne],
    fun _ hc => reg_setRegBit_other _ _ _ (List.ne_of_not_mem_cons hc), rfl⟩

theorem crystalLost_of_backup {s : State} (h : regBit s Reg.sys_CLKSTAT 15 = true) (gone : Bool) :
    let u := crystalLost gone s
    regBit u Reg.sys_CLKSTAT 14 = false ∧ regBit u Reg.sys_CLKSTAT 13 = (regBit s Reg.sys_CLKSTAT 13 && !gone) ∧
      regBit u Reg.sys_CLKSTAT 15 = true ∧ RegsBut [Reg.sys_CLKSTAT] s u ∧ { u with regs := s.regs } = s := by
  obtain ⟨hbit, hbits, hregs, hframe⟩ := setRegBit_spec Reg.sys_CLKSTAT clkPLLLK false s (by decide)
  dsimp only
  rw [crystalLost, if_pos (by rw [onBackup_eq, h])]
  dsimp only
  cases gone with
  | false =>
    exact ⟨hbit, by rw [Bool.not_false, Bool.and_true]; exact hbits 13 (by decide) (by decide),
      (hbits 15 (by decide) (by decide)).trans h, hregs, hframe⟩
  | true =>
    obtain ⟨hbit', hbits', hregs', -⟩ := setRegBit_spec Reg.sys_CLKSTAT clkXTAL false
      (setRegBit Reg.sys_CLKSTAT clkPLLLK false s) (by decide)
    exact ⟨(hbits' 14 (by decide) (by decide)).trans hbit, by rw [Bool.not_true, Bool.and_false]; exact hbit',
      ((hbits' 15 (by decide) (by decide)).trans (hbits 15 (by decide) (by decide))).trans h,
      fun a ha => (hregs' a ha).trans (hregs a ha), rfl⟩

theorem exec_lockLoss (dt : Nat) (gone : Bool) (s : State) :
    exec (.lockLoss dt gone) s = actAfter dt (lockLoss gone) s := rfl
theorem exec_crystalEdgesReturn (dt : Nat) (s : State) :
    exec (.crystalEdgesReturn dt) s = actAfter dt crystalReturn s := rfl
theorem exec_pllRelock (dt : Nat) (s : State) : exec (.pllRelock dt) s = actAfter dt pllRelock s := rfl
theorem exec_crystalEdgesLost (dt : Nat) (gone : Bool) (s : State) :
    exec (.crystalEdgesLost dt gone) s = actAfter dt (crystalLost gone) s := rfl

/-- Settles O10: `lockLoss` acts off the backup clock only, the crystal's events on it only. -/
theorem clockMonitorSwitchesOnceAndNeverBack : Obligations.ClockMonitorSwitchesOnceAndNeverBack := by
  unfold Obligations.ClockMonitorSwitchesOnceAndNeverBack
  intro s dt gone hup
  dsimp only
  refine ⟨ActsAfter.of (exec_lockLoss dt gone s) hup ?lost, ActsAfter.of (exec_crystalEdgesReturn dt s) hup ?edges,
    ActsAfter.of (exec_pllRelock dt s) hup ?relock, ActsAfter.of (exec_crystalEdgesLost dt gone s) hup ?gone⟩ <;>
    generalize ready dt s = r
  case lost =>
    split_ifs with h
    · exact if_pos h
    · have h := Bool.eq_false_of_not_eq_true h
      have hreg := reg_clkstat_lockLoss h gone
      obtain ⟨hbkup, hlock, hxtal⟩ := regBit_lockLost gone r
      obtain ⟨hedit, hnow, hmem⟩ := lockLoss_kept h gone
      simp only [regBit, hreg]
      exact ⟨hbkup, hlock, hxtal, swcnt_lockLost gone r, lockLoss_raised h gone, hedit, hnow, hmem, fun k => (lockLoss_canState h gone k).symm ▸ (by decide)⟩
  case edges =>
    split_ifs with h
    · rw [crystalReturn, if_pos (by rw [onBackup_eq, h])]
      exact setRegBit_spec Reg.sys_CLKSTAT clkXTAL true r (by decide)
    · exact if_neg h
  case relock =>
    have he : pllRelock r = if regBit r Reg.sys_CLKSTAT 15 = true ∧ regBit r Reg.sys_CLKSTAT 13 = true then
        setRegBit Reg.sys_CLKSTAT clkPLLLK true r else r := by
      simp only [pllRelock, onBackup_eq, Bool.and_eq_true]
    rw [he]
    split_ifs with h
    · exact setRegBit_spec Reg.sys_CLKSTAT clkPLLLK true r (by decide)
    · rfl
  case gone =>
    split_ifs with h
    · exact crystalLost_of_backup h gone
    · exact if_neg h

end Sys2Proof.Machine

/-! ## Moderation (R554-R558) -/

namespace Sys2Proof.Machine

/-! ### An event of a source -/

/-- What the sources of `w` do when they take an event that was held back. -/
structure Released (w : Fin 96 → Bool) (s u : State) : Prop where
  raw : ∀ k : Fin 96, u.intc.raw.getLsbD k = (s.intc.raw.getLsbD k && !w k)
  pend : ∀ k : Fin 96, u.intc.pend.getLsbD k = (s.intc.pend.getLsbD k || (w k && !s.intc.act.getLsbD k))
  apend : ∀ k : Fin 96, u.intc.apend.getLsbD k = (s.intc.apend.getLsbD k || (w k && s.intc.act.getLsbD k))
  act : u.intc.act = s.intc.act
  mask : u.intc.mask = s.intc.mask
  held : u.intc.held = s.intc.held
  modDue : u.intc.modDue = s.intc.modDue
  frame : { u with intc := s.intc } = s

@[simp] theorem intcNow_raw (s : State) : (intcNow s).raw = s.intc.raw := by
  obtain ⟨_, _, _, h⟩ := intcNow_eq s
  rw [h]

@[simp] theorem intcNow_modDue (s : State) : (intcNow s).modDue = s.intc.modDue := by
  obtain ⟨_, _, _, h⟩ := intcNow_eq s
  rw [h]

namespace Released

theorem refl (s : State) : Released (fun _ => false) s s where
  raw _ := by simp
  pend _ := by simp
  apend _ := by simp
  act := rfl
  mask := rfl
  held := rfl
  modDue := rfl
  frame := rfl

theorem trans {w w' : Fin 96 → Bool} {s t u : State} (h : Released w s t) (h' : Released w' t u) :
    Released (fun k => w k || w' k) s u where
  raw k := by rw [h'.raw, h.raw, Bool.not_or, Bool.and_assoc]
  pend k := by rw [h'.pend, h.pend, h.act, Bool.or_assoc, Bool.and_or_distrib_right]
  apend k := by rw [h'.apend, h.apend, h.act, Bool.or_assoc, Bool.and_or_distrib_right]
  act := h'.act.trans h.act
  mask := h'.mask.trans h.mask
  held := h'.held.trans h.held
  modDue := h'.modDue.trans h.modDue
  frame := by
    have h1 := congrArg (fun v : State => { v with intc := s.intc }) h'.frame
    exact h1.trans h.frame

end Released

/-- A source that takes an event holds it: behind the one in service, or pending. -/
theorem takeEvent_bits (n k : Fin 96) (s : State) :
    (takeEvent n s).intc.pend.getLsbD k = (s.intc.pend.getLsbD k || (k == n && !s.intc.act.getLsbD k)) ∧
      (takeEvent n s).intc.apend.getLsbD k = (s.intc.apend.getLsbD k || (k == n && s.intc.act.getLsbD k)) := by
  unfold takeEvent
  dsimp only
  rw [intcNow_act, intcNow_pend]
  by_cases hk : k = n
  · subst hk
    split_ifs with hact hpend <;>
      simp [getLsbD_putBit_same, *, -BitVec.getLsbD_eq_getElem, -Fin.getElem_fin]
  · have hne : (k == n) = false := beq_eq_false_iff_ne.2 hk
    split_ifs <;> simp [getLsbD_putBit_fin, hk, hne, -BitVec.getLsbD_eq_getElem]

theorem takeEvent_kept (n : Fin 96) (s : State) :
    (takeEvent n s).intc.raw = s.intc.raw ∧ (takeEvent n s).intc.act = s.intc.act ∧
      (takeEvent n s).intc.mask = s.intc.mask ∧ (takeEvent n s).intc.held = s.intc.held ∧
      (takeEvent n s).intc.modDue = s.intc.modDue := by
  unfold takeEvent
  dsimp only
  split_ifs <;> simp

/-- One source of a group whose hold ends. -/
def releaseOne (raws : BitVec 96) (n : Fin 96) (s : State) : State :=
  if raws.getLsbD n then takeEvent n { s with intc := { s.intc with raw := putBit s.intc.raw n false } } else s

theorem released_releaseOne (raws : BitVec 96) (n : Fin 96) (s : State) :
    Released (fun k => k == n && raws.getLsbD k) s (releaseOne raws n s) := by
  unfold releaseOne
  split_ifs with h
  · have hw (k : Fin 96) : (k == n && raws.getLsbD k) = (k == n) := by
      by_cases hk : k = n <;> simp [hk, h]
    obtain ⟨hraw, hact, hmask, hheld, hdue⟩ :=
      takeEvent_kept n { s with intc := { s.intc with raw := putBit s.intc.raw n false } }
    obtain ⟨c, hc⟩ := takeEvent_eq n { s with intc := { s.intc with raw := putBit s.intc.raw n false } }
    exact {
      raw := fun k => by rw [hraw, hw, getLsbD_putBit_false, bne]
      pend := fun k => by rw [hw]; exact (takeEvent_bits n k _).1
      apend := fun k => by rw [hw]; exact (takeEvent_bits n k _).2
      act := hact
      mask := hmask
      held := hheld
      modDue := hdue
      frame := by rw [hc] }
  · have hw (k : Fin 96) : (k == n && raws.getLsbD k) = false := by
      by_cases hk : k = n <;> simp [hk, h, -BitVec.getLsbD_eq_getElem]
    simpa only [hw] using Released.refl s

/-- The sources of a list take their events one after the other. -/
theorem released_foldl (raws : BitVec 96) (src : Fin 8 → Fin 96) (l : List (Fin 8)) (s : State) :
    Released (fun k => l.any (fun i => k == src i) && raws.getLsbD k) s
      (l.foldl (fun s i => releaseOne raws (src i) s) s) := by
  induction l generalizing s with
  | nil => simpa using Released.refl s
  | cons i l ih =>
    have h := (released_releaseOne raws (src i) s).trans (ih (releaseOne raws (src i) s))
    simpa only [List.foldl_cons, List.any_cons, Bool.and_or_distrib_right] using h

/-! ### The end of a hold -/

/-- Source `i` of group `g`. -/
def groupSource (g : Fin 12) (i : Fin 8) : Fin 96 := ⟨g.val * 8 + i.val, by omega⟩

/-- The timer of group `g` is idle. -/
def timerIdle (g : Fin 12) (s : State) : State :=
  { s with intc := { s.intc with modDue := s.intc.modDue.set g none } }

theorem endHold_eq (g : Fin 12) (s : State) :
    endHold g s = (List.finRange 8).foldl (fun u i => releaseOne s.intc.raw (groupSource g i) u) (timerIdle g s) := rfl

theorem mem_group_iff (g : Fin 12) (k : Fin 96) :
    (List.finRange 8).any (fun i => k == groupSource g i) = decide (k.val / 8 = g.val) := by
  rw [Bool.eq_iff_iff, List.any_eq_true, decide_eq_true_eq]
  constructor
  · rintro ⟨i, -, hi⟩
    rw [eq_of_beq hi]
    simp only [groupSource]
    omega
  · intro h
    exact ⟨⟨k.val % 8, by omega⟩, List.mem_finRange _, beq_iff_eq.2 (Fin.ext (by simp only [groupSource]; omega))⟩


theorem released_endHold (g : Fin 12) (s : State) :
    Released (fun k => decide (k.val / 8 = g.val) && s.intc.raw.getLsbD k) (timerIdle g s) (endHold g s) := by
  rw [endHold_eq]
  simpa only [mem_group_iff] using released_foldl s.intc.raw (groupSource g) (List.finRange 8) (timerIdle g s)

/-- What the end of a hold of group `g` claims. -/
def HoldEnded (g : Fin 12) (r u : State) : Prop :=
  (∀ h : Fin 12, u.intc.modDue[h] = if h = g then none else r.intc.modDue[h]) ∧
  (∀ n : Fin 96, n.val / 8 = g.val → u.intc.raw.getLsbD n = false ∧ (r.intc.raw.getLsbD n = true →
    if r.intc.act.getLsbD n then u.intc.apend.getLsbD n = true else u.intc.pend.getLsbD n = true)) ∧
  (∀ n : Fin 96, n.val / 8 ≠ g.val → u.intc.raw.getLsbD n = r.intc.raw.getLsbD n ∧
    u.intc.pend.getLsbD n = r.intc.pend.getLsbD n ∧ u.intc.apend.getLsbD n = r.intc.apend.getLsbD n) ∧
  u.intc.act = r.intc.act ∧ u.intc.mask = r.intc.mask ∧ u.intc.held = r.intc.held ∧ { u with intc := r.intc } = r

theorem holdEnded_endHold (g : Fin 12) (r : State) : HoldEnded g r (endHold g r) := by
  have hrel := released_endHold g r
  have hraw (n : Fin 96) := hrel.raw n
  have hpend (n : Fin 96) := hrel.pend n
  have hapend (n : Fin 96) := hrel.apend n
  simp only [timerIdle] at hraw hpend hapend
  refine ⟨fun h => ?_, fun n hn => ⟨?_, fun hset => ?_⟩, fun n hn => ?_, hrel.act, hrel.mask, hrel.held, ?_⟩
  · rw [hrel.modDue]
    simp [timerIdle, Vector.getElem_set, Fin.ext_iff, eq_comm]
  · rw [hraw, decide_eq_true hn]
    cases r.intc.raw.getLsbD n <;> rfl
  · rw [hpend, hapend, decide_eq_true hn, hset]
    cases r.intc.act.getLsbD n <;> simp [-BitVec.getLsbD_eq_getElem]
  · rw [hraw, hpend, hapend, decide_eq_false hn]
    simp [-BitVec.getLsbD_eq_getElem]
  · exact congrArg (fun v : State => { v with intc := r.intc }) hrel.frame

/-- A thread waits for an unmasked source of group `g` that is held back. -/
def Awaited (g : Fin 12) (r : State) : Prop :=
  ∃ (n : Fin 96) (t : Fin 8), n.val / 8 = g.val ∧ r.intc.raw.getLsbD n = true ∧ r.intc.mask.getLsbD n = false ∧
    (thread r t).st = .waiting ∧ (targetOf r n).testBit t = true

theorem modBypass_eq (g : Fin 12) (s : State) [Decidable (Awaited g s)] :
    modBypass g s = if Awaited g s then endHold g s else s := by
  unfold modBypass
  refine if_congr ?_ rfl rfl
  simp only [List.any_eq_true, List.mem_range, List.mem_finRange, true_and, Bool.and_eq_true, Bool.not_eq_true',
    beq_iff_eq, Awaited]
  constructor
  · rintro ⟨i, hi, ⟨hraw, hmask⟩, t, hst, htgt⟩
    exact ⟨⟨g.val * 8 + i, by omega⟩, t, by dsimp only; omega, hraw, hmask, hst, htgt⟩
  · rintro ⟨n, t, hn, hraw, hmask, hst, htgt⟩
    have he : g.val * 8 + n.val % 8 = n.val := by omega
    exact ⟨n.val % 8, by omega, by rw [he]; exact ⟨hraw, hmask⟩, t, hst, by rw [he]; exact htgt⟩

theorem exec_moderationExpiry (g : Fin 12) (s : State) :
    exec (.moderationExpiry g) s = actDue (fun s => modDueTick s g) (modExpiry g) s := rfl
theorem exec_moderationBypass (g : Fin 12) (s : State) :
    exec (.moderationBypass g) s = actAfter 0 (modBypass g) s := rfl
theorem exec_runawayWindow (s : State) : exec .runawayWindow s = actDue windowDue runawayWindow s := rfl

/-- Settles O47: what ends a hold is `endHold`, which releases the sources of the group one by one. -/
theorem moderationHoldEnds : Obligations.ModerationHoldEnds := by
  unfold Obligations.ModerationHoldEnds
  intro s g hup
  refine ⟨ActsAt.of (exec_moderationExpiry g s) hup ⟨fun h => ?run, fun h => ?idle⟩,
    ActsAfter.of (exec_moderationBypass g s) hup ⟨fun h => ?waits, fun h => ?none⟩,
    ActsAt.of (exec_runawayWindow s) hup ⟨fun n => ?counts, rfl⟩⟩
  case run =>
    rw [modExpiry, if_pos h]
    exact holdEnded_endHold g _
  case idle => rw [modExpiry, h, if_neg (by decide)]
  case waits =>
    classical
    have h : Awaited g (ready 0 s) := h
    rw [modBypass_eq, if_pos h]
    exact holdEnded_endHold g _
  case none =>
    classical
    have h : ¬ Awaited g (ready 0 s) := h
    rw [modBypass_eq, if_neg h]
  case counts => simp [runawayWindow]

end Sys2Proof.Machine

/-! ## Sleep, charging, SREF and AVS (R108-R122) -/

namespace Sys2Proof.Machine

/-! ### Single bits set by hardware -/

theorem getLsbD_wd_two_pow (b j : Nat) (hj : j < 16) : (wd (2 ^ b)).getLsbD j = decide (b = j) := by
  rw [wd, BitVec.getLsbD_ofNat, Nat.testBit_two_pow]
  simp [hj]

/-- A single bit that hardware sets. -/
theorem regBit_hwSet_bit (a b j : Nat) (s : State) (hj : j < 16) :
    regBit (hwSet a (wd (2 ^ b)) s) a j = (regBit s a j || decide (b = j)) := by
  rw [regBit, reg_hwSet_same, BitVec.getLsbD_or, getLsbD_wd_two_pow _ _ hj]
  rfl

theorem regBit_hwSet_bit_same (a b : Nat) (s : State) (hb : b < 16) : regBit (hwSet a (wd (2 ^ b)) s) a b = true := by
  rw [regBit_hwSet_bit _ _ _ _ hb, decide_eq_true rfl, Bool.or_true]

theorem regsBut_setRegBit (a i : Nat) (b : Bool) (s : State) : RegsBut [a] s (setRegBit a i b s) :=
  fun _ hc => reg_setRegBit_other _ _ _ (List.ne_of_not_mem_cons hc)

theorem regsBut_hwSet (a : Nat) (m : Word) (s : State) : RegsBut [a] s (hwSet a m s) :=
  fun _ hc => reg_hwSet_other _ _ (List.ne_of_not_mem_cons hc)

theorem reg_setPlinth (f : Plinth → Plinth) (s : State) (a : Nat) : reg (setPlinth f s) a = reg s a := rfl

theorem regBit_setPlinth (f : Plinth → Plinth) (s : State) (a i : Nat) : regBit (setPlinth f s) a i = regBit s a i := rfl

theorem regBit_setRegBit_same (a i : Nat) (b : Bool) (s : State) (hi : i < 16) : regBit (setRegBit a i b s) a i = b := by
  rw [regBit_setRegBit _ _ _ _ _ hi, if_pos rfl]

/-! ### Sleep (R108-R111) -/

theorem sleepRequest_ignored {m : Master} {s : State} (h : privileged m = false ∨ regBit s Reg.sys_ARMSTAT 11 = true ∨
    regBit s Reg.plinth_STAT 9 = true ∨ s.plinth.sleepGo = true) : sleepRequest m s = s := by
  refine if_pos ?_
  simp only [commitBusy, pstat, Bool.or_eq_true, Bool.not_eq_true']
  tauto

theorem sleepRequest_considered {m : Master} {s : State} (h : ¬ (privileged m = false ∨ regBit s Reg.sys_ARMSTAT 11 = true ∨
    regBit s Reg.plinth_STAT 9 = true ∨ s.plinth.sleepGo = true)) :
    sleepRequest m s =
      if s.modes.mode ≠ .setup ∨ s.ang.st ≠ .stop then hwSet Reg.plinth_STAT (wd (2 ^ pstSLPREF)) s
      else if s.plinth.keywake then
        setPstat pstSLPPND true (setPlinth (fun p => { p with sleepDue := some (s.now + 10000 * msTicks) }) s)
      else setPlinth (fun p => { p with sleepGo := true }) s := by
  rw [sleepRequest, if_neg]
  · refine if_congr ?_ rfl rfl
    simp only [inSetup, Bool.not_eq_true', Bool.and_eq_false_iff, beq_eq_false_iff_ne]
  · simp only [commitBusy, pstat, Bool.or_eq_true, Bool.not_eq_true']
    tauto

/-- KWSTK is set and the wait for KEYWAKE is over. -/
def keyMarked (s : State) : State :=
  hwSet Reg.plinth_STAT (wd (2 ^ pstKWSTK)) (setPlinth (fun p => { p with sleepDue := none }) s)

theorem keywakeStuck_eq {s : State} (h : s.plinth.sleepDue.isSome = true) : keywakeStuck s =
    if s.plinth.keyStuckLogged then keyMarked s
    else note clsPower 0x21 (setPlinth (fun p => { p with keyStuckLogged := true }) (keyMarked s)) := if_pos h

theorem keywakeStuck_of_due {s : State} (h : s.plinth.sleepDue.isSome = true) :
    let u := keywakeStuck s
    regBit u Reg.plinth_STAT 7 = true ∧ RegsBut [Reg.plinth_STAT] s u ∧ u.plinth.sleepDue = none ∧
      u.plinth.keyStuckLogged = true ∧ u.fcol.raises = s.fcol.raises ++
        (if s.plinth.keyStuckLogged then [] else [{ cls := clsPower, detail := 0x21, note := true }]) := by
  have hbit : regBit (keyMarked s) Reg.plinth_STAT 7 = true := regBit_hwSet_bit_same _ pstKWSTK _ (by decide)
  have hregs : RegsBut [Reg.plinth_STAT] s (keyMarked s) := regsBut_hwSet _ _ _
  rw [keywakeStuck_eq h]
  split_ifs with hlog
  · exact ⟨hbit, hregs, rfl, hlog, (List.append_nil _).symm⟩
  · exact ⟨hbit, hregs, rfl, rfl, rfl⟩

/-- Source `src` meets its condition: WAKEMET records it. -/
def wakeRecorded (src : Fin 4) (s : State) : State := setPlinth (fun p => { p with wakeMet := putBit p.wakeMet src true }) s

/-- A wake source is heard, KEYWAKE's level known. -/
def wakeHeard (src : Fin 4) (s : State) : State :=
  match s.power with
  | .up => if s.plinth.sleepGo && regBit s Reg.plinth_WAKEEN src then wakeRecorded src s else s
  | .asleep => if s.plinth.wakeLatch.getLsbD src then { wakeRecorded src s with power := .down } else s
  | .down => if s.plinth.wakeMet != 0 && s.plinth.wakeLatch.getLsbD src then wakeRecorded src s else s

theorem wakeMeets_eq (src : Fin 4) (s : State) :
    wakeMeets src s = wakeHeard src (if src = 0 then setPlinth (fun p => { p with keywake := true }) s else s) := rfl

theorem wakeHeard_asleep {s : State} (h : s.power = .asleep) (src : Fin 4) : wakeHeard src s =
    if s.plinth.wakeLatch.getLsbD src then { wakeRecorded src s with power := .down } else s := by
  rw [wakeHeard, h]

/-- Out of sleep a wake source can only be recorded. -/
theorem wakeHeard_awake {s : State} (h : s.power ≠ .asleep) (src : Fin 4) :
    wakeHeard src s = wakeRecorded src s ∨ wakeHeard src s = s := by
  rw [wakeHeard]
  split
  · split_ifs <;> simp
  · contradiction
  · split_ifs <;> simp

/-- What a wake source does. -/
def WakeClaims (src : Fin 4) (s t : State) : Prop :=
  t.regs = s.regs ∧ t.now = s.now ∧
  (s.power = .asleep → t.power = if s.plinth.wakeLatch.getLsbD src then .down else .asleep) ∧
  (s.power ≠ .asleep → t.power = s.power) ∧
  (s.power = .asleep → s.plinth.wakeLatch.getLsbD src = true → t.plinth.wakeMet.getLsbD src = true)

theorem wakeHeard_claims (src : Fin 4) (s : State) : WakeClaims src s (wakeHeard src s) := by
  unfold WakeClaims
  by_cases h : s.power = .asleep
  · rw [wakeHeard_asleep h]
    split_ifs with hl
    · exact ⟨rfl, rfl, fun _ => rfl, fun hne => absurd h hne, fun _ _ => getLsbD_putBit_same _ src true⟩
    · exact ⟨rfl, rfl, fun _ => h, fun _ => rfl, fun _ hl' => absurd hl' hl⟩
  · rcases wakeHeard_awake h src with he | he <;> rw [he]
    · exact ⟨rfl, rfl, fun h' => absurd h' h, fun _ => rfl, fun h' => absurd h' h⟩
    · exact ⟨rfl, rfl, fun h' => absurd h' h, fun _ => rfl, fun h' => absurd h' h⟩

theorem wakeMeets_claims (src : Fin 4) (s : State) : WakeClaims src s (wakeMeets src s) := by
  rw [wakeMeets_eq]
  split_ifs
  · exact wakeHeard_claims src (setPlinth (fun p => { p with keywake := true }) s)
  · exact wakeHeard_claims src s

/-- KEYWAKE at the level `kw`. -/
def keyAt (kw : Bool) (s : State) : State := setPlinth (fun p => { p with keywake := kw }) s

theorem exec_sleepRequest (m : Master) (kw : Bool) (s : State) :
    exec (.sleepRequest m kw) s = act (fun s => sleepRequest m (keyAt kw s)) s := rfl
theorem exec_sleepWithdraw (m : Master) (s : State) : exec (.sleepWithdraw m) s = act (sleepWithdraw m) s := rfl
theorem exec_keywakeRelease (dt : Nat) (s : State) : exec (.keywakeRelease dt) s = actAfter dt keywakeRelease s := rfl
theorem exec_keywakeStuck (s : State) : exec .keywakeStuck s = actDue keywakeStuckDue keywakeStuck s := rfl
theorem exec_sleepEntry (s : State) : exec .sleepEntry s = act sleepEntry s := rfl
theorem exec_wake (src : Fin 4) (s : State) : exec (.wake src) s = .next (settle (wakeMeets src s)) := rfl

/-- Settles O15: each request and event by the cases of its operation. -/
theorem sleepIsRequestedHeldAndEntered : Obligations.SleepIsRequestedHeldAndEntered := by
  unfold Obligations.SleepIsRequestedHeldAndEntered
  intro s dt m kw src
  refine ⟨fun hup => Acts.of (exec_sleepRequest m kw s) hup ?request, fun hup => Acts.of (exec_sleepWithdraw m s) hup ?withdraw,
    fun hup => ActsAfter.of (exec_keywakeRelease dt s) hup ?release, fun hup => ActsAt.of (exec_keywakeStuck s) hup ?stuck,
    fun hup => Acts.of (exec_sleepEntry s) hup ?entry, ⟨_, exec_wake src s, wakeMeets_claims src s⟩⟩
  case request =>
    generalize ready (clkTicks s) s = r
    dsimp only
    split_ifs with hno href hkw
    · exact sleepRequest_ignored (s := keyAt kw r) hno
    · have he := (sleepRequest_considered (s := keyAt kw r) hno).trans (if_pos href)
      rw [he]
      exact ⟨regBit_hwSet_bit_same Reg.plinth_STAT pstSLPREF _ (by decide), regsBut_hwSet Reg.plinth_STAT _ (keyAt kw r), rfl⟩
    · have he := (sleepRequest_considered (s := keyAt kw r) hno).trans ((if_neg href).trans (if_pos hkw))
      rw [he]
      exact ⟨regBit_setRegBit_same _ _ _ _ (by decide), regsBut_setRegBit Reg.plinth_STAT _ _ _, rfl, rfl⟩
    · exact (sleepRequest_considered (s := keyAt kw r) hno).trans ((if_neg href).trans (if_neg hkw))
  case withdraw =>
    generalize ready (clkTicks s) s = r
    split_ifs with hm
    · rw [sleepWithdraw, if_pos hm]
      exact ⟨regBit_setRegBit_same _ _ _ _ (by decide), rfl, regsBut_setRegBit Reg.plinth_STAT _ _ _, rfl⟩
    · exact if_neg hm
  case release =>
    generalize ready dt s = r
    have hp : pstat (setPlinth (fun p => { p with keywake := false }) r) pstSLPPND = regBit r Reg.plinth_STAT 9 := rfl
    rw [keywakeRelease, hp]
    split_ifs with h
    · rw [h, Bool.or_true]
      exact ⟨regBit_setRegBit_same _ _ _ _ (by decide), regsBut_setRegBit Reg.plinth_STAT _ _ _, rfl, rfl, rfl⟩
    · have h := Bool.eq_false_of_not_eq_true h
      rw [h, Bool.or_false]
      exact ⟨h, fun _ _ => rfl, rfl, rfl, rfl⟩
  case stuck =>
    generalize ready _ s = r
    split
    next h => exact keywakeStuck_of_due h
    next h => exact if_neg h
  case entry =>
    generalize ready (clkTicks s) s = r
    split
    next h =>
      rw [sleepEntry, if_pos h]
      exact ⟨rfl, Nat.mod_eq_of_lt (Nat.mod_lt _ (by decide)), rfl, rfl, rfl, rfl⟩
    next h => exact if_neg h

end Sys2Proof.Machine

/-! ## Diagnostics of the output stages (R734, R737-R739) -/

namespace Sys2Proof.Machine

/-- A DIAG bit and the latch it causes. -/
def diagLatched (i : Fin 16) (b : Nat) (s : State) : State :=
  let s := hwSet (Reg.out_DIAG i) (wd (2 ^ b)) s
  if b = dShort ∨ b = dOt ∨ b = dDwell then setRegBit Reg.out_LATCH i true s
  else if b = dGate then setRegBit Reg.out_LATCH 15 true (setRegBit Reg.out_LATCH 14 true s)
  else s

/-- The raise of a newly set DIAG bit (R739). -/
def diagRaise (i : Fin 16) (b : Nat) : Raise :=
  { cls := clsOutput, detail := wd (diagKind b * 0x1000 + i.val), unit := some (stageUnit i) }

theorem setDiag_cases (i : Fin 16) (b : Nat) (s : State) : setDiag i b s =
    if regBit s (Reg.out_DIAG i) b = true ∨ b = dPkto then diagLatched i b s
    else signal (stageSource i) (raise (diagRaise i b) (diagLatched i b s)) := rfl

theorem diagLatched_eq (i : Fin 16) (b : Nat) (s : State) : ∃ regs hw, diagLatched i b s =
    { s with regs := regs, hw := hw } := by
  obtain ⟨regs, hw, h⟩ := hwSet_eq (Reg.out_DIAG i) (wd (2 ^ b)) s
  rw [diagLatched, h]
  split_ifs <;> exact ⟨_, _, rfl⟩

/-- What a state differs in after hardware wrote registers, signalled and raised. -/
def Noted (s u : State) : Prop := ∃ regs hw intc raises,
  u = { s with regs := regs, hw := hw, intc := intc, fcol := { s.fcol with raises := raises } }

theorem Noted.refl (s : State) : Noted s s := ⟨s.regs, s.hw, s.intc, s.fcol.raises, rfl⟩

theorem Noted.trans {s t u : State} (h : Noted s t) (h' : Noted t u) : Noted s u := by
  obtain ⟨_, _, _, _, rfl⟩ := h
  obtain ⟨_, _, _, _, rfl⟩ := h'
  exact ⟨_, _, _, _, rfl⟩

theorem noted_signal (n : Fin 96) (s : State) : Noted s (signal n s) := signal_eq n s

theorem noted_raise (x : Raise) (s : State) : Noted s (raise x s) := ⟨s.regs, s.hw, s.intc, _, rfl⟩

/-- What a DIAG bit does beside the registers: it may signal and raise. -/
theorem noted_setDiag (i : Fin 16) (b : Nat) (s : State) : Noted s (setDiag i b s) := by
  have hlatch : Noted s (diagLatched i b s) := by
    obtain ⟨regs, hw, h⟩ := diagLatched_eq i b s
    exact ⟨regs, hw, s.intc, s.fcol.raises, h⟩
  rw [setDiag_cases]
  split_ifs
  · exact hlatch
  · exact hlatch.trans ((noted_raise _ _).trans (noted_signal _ _))

/-- An induction over a list of updates that each only note something. -/
theorem noted_foldl {α : Type} {f : State → α → State} (hf : ∀ s x, Noted s (f s x)) (l : List α) (s : State) :
    Noted s (l.foldl f s) := by
  induction l generalizing s with
  | nil => exact .refl s
  | cons x l ih => exact (hf s x).trans (ih _)

/-- The edge checks of the CHG gates touch no stage. -/
theorem noted_chgChecks (openG gateG : BitVec 2) (s : State) : Noted s (chgChecks openG gateG s) := by
  refine noted_foldl (fun s k => ?_) _ s
  dsimp only
  split_ifs
  · exact .refl s
  · exact (noted_setDiag _ _ s).trans (noted_setDiag _ _ _)
  · exact noted_setDiag _ _ s
  · exact noted_setDiag _ _ s
  · exact .refl s

/-! ### Stage records -/

theorem setStage_eq (i : Fin 16) (f : Stage → Stage) (s : State) : ∃ out, setStage i f s = { s with out := out } :=
  ⟨_, dif_pos i.isLt⟩

theorem setStage_stage (i j : Fin 16) (f : Stage → Stage) (s : State) :
    (setStage i f s).out.stages[j] = if j = i then f s.out.stages[i] else s.out.stages[j] := by
  rw [setStage, dif_pos i.isLt]
  simp [Vector.getElem_set, Fin.ext_iff, eq_comm]

theorem setStage_periodDue (i j : Fin 16) (f : Stage → Stage) (s : State) (hf : ∀ x, (f x).periodDue = x.periodDue) :
    (setStage i f s).out.stages[j].periodDue = s.out.stages[j].periodDue := by
  rw [setStage_stage]
  split_ifs with h
  · rw [hf, h]
  · rfl

end Sys2Proof.Machine

/-! ## Charging (R114-R117) -/

namespace Sys2Proof.Machine

/-- The stage of CHG gate `g`. -/
def chgStage (g : Fin 2) : Fin 16 := ⟨14 + g.val, by omega⟩

/-- The periods of the CHG gates once a period of gate `g` has begun. -/
def chgTimed (g : Fin 2) (s : State) : State :=
  let t := setStage (chgStage g) (fun x => { x with periodDue := s.now + chgPeriodTicks s }) s
  if g = 0 then setStage (15 : Fin 16) (fun x => { x with periodDue := t.now + chgPeriodTicks s / 2 }) t else t

/-- The gate driven for the on-time of its period of `p` ticks. -/
def chgDriven (g : Fin 2) (p : Nat) (s : State) : State :=
  setStage (chgStage g) (fun x => { x with
    on := decide (0 < chgOnTicks s)
    onSince := if x.on then x.onSince else s.now
    offSince := if x.on && chgOnTicks s == 0 then s.now else x.offSince
    offAt := if chgOnTicks s = p then none else some (s.now + chgOnTicks s) }) s

theorem chgTimed_eq (g : Fin 2) (s : State) : ∃ out, chgTimed g s = { s with out := out } := by
  rw [chgTimed]
  obtain ⟨o1, h1⟩ := setStage_eq (chgStage g) (fun x => { x with periodDue := s.now + chgPeriodTicks s }) s
  rw [h1]
  split_ifs
  · exact setStage_eq 15 _ { s with out := o1 }
  · exact ⟨o1, rfl⟩

theorem chgTimed_stage (g : Fin 2) (s : State) :
    (chgTimed g s).out.stages[chgStage g] = { s.out.stages[chgStage g] with periodDue := s.now + chgPeriodTicks s } := by
  rw [chgTimed]
  split_ifs with hg
  · subst hg
    exact (setStage_stage 15 (chgStage 0) _ _).trans ((if_neg (by decide)).trans
      ((setStage_stage (chgStage 0) (chgStage 0) _ s).trans (if_pos rfl)))
  · exact (setStage_stage (chgStage g) (chgStage g) _ s).trans (if_pos rfl)

theorem chgTimed_other (s : State) : (chgTimed 0 s).out.stages[(15 : Fin 16)].periodDue = s.now + chgPeriodTicks s / 2 := by
  rw [chgTimed, if_pos rfl, setStage_stage, if_pos rfl, setStage_now]

/-- Gate `g` of a block that is not kept OFF is driven: forced by the clamp, or for its on-time. -/
def chgActed (g : Fin 2) (p : Nat) (s : State) : State :=
  if pstat s pstCLAMP then chgForce (chgStage g) s else chgDriven g p s

theorem chgPeriodStart_eq (g : Fin 2) (openG gateG : BitVec 2) (s : State) : chgPeriodStart g openG gateG s =
    if stageBlocked (chgTimed g s) (chgStage g) then chgTimed g s
    else chgChecks (openG &&& BitVec.ofNat 2 (2 ^ g.val)) (gateG &&& BitVec.ofNat 2 (2 ^ g.val))
      (chgActed g (chgPeriodTicks s) (chgTimed g s)) := rfl

theorem chgActed_eq (g : Fin 2) (p : Nat) (s : State) : ∃ out, chgActed g p s = { s with out := out } := by
  rw [chgActed, chgForce]
  split_ifs
  · exact ⟨s.out, rfl⟩
  · exact setStage_eq (chgStage g) _ s
  · exact setStage_eq (chgStage g) _ s

/-- Driving a gate leaves the periods as they were timed. -/
theorem chgActed_periodDue (g : Fin 2) (p : Nat) (j : Fin 16) (s : State) :
    (chgActed g p s).out.stages[j].periodDue = s.out.stages[j].periodDue := by
  rw [chgActed, chgForce]
  split_ifs
  · rfl
  · exact setStage_periodDue (chgStage g) j _ s fun _ => rfl
  · exact setStage_periodDue (chgStage g) j _ s fun _ => rfl

theorem stageBlocked_chgTimed (g : Fin 2) (s : State) (i : Nat) : stageBlocked (chgTimed g s) i = stageBlocked s i := by
  obtain ⟨out, h⟩ := chgTimed_eq g s
  rw [h]
  rfl

/-- A charging period in all its cases: the stages are those of `chgTimed`, driven where nothing keeps the gate OFF. -/
theorem chgPeriodStart_out (g : Fin 2) (openG gateG : BitVec 2) (s : State) : (chgPeriodStart g openG gateG s).out =
    if stageBlocked s (chgStage g) then (chgTimed g s).out else (chgActed g (chgPeriodTicks s) (chgTimed g s)).out := by
  rw [chgPeriodStart_eq, stageBlocked_chgTimed]
  split_ifs
  · rfl
  · obtain ⟨_, _, _, _, h⟩ := noted_chgChecks (openG &&& BitVec.ofNat 2 (2 ^ g.val)) (gateG &&& BitVec.ofNat 2 (2 ^ g.val))
      (chgActed g (chgPeriodTicks s) (chgTimed g s))
    rw [h]

theorem chgPeriodStart_frame (g : Fin 2) (openG gateG : BitVec 2) (s : State) :
    let u := chgPeriodStart g openG gateG s
    u.thr = s.thr ∧ u.mem = s.mem ∧ u.modes = s.modes ∧ u.plinth = s.plinth := by
  obtain ⟨o1, h1⟩ := chgTimed_eq g s
  obtain ⟨o2, h2⟩ := chgActed_eq g (chgPeriodTicks s) (chgTimed g s)
  obtain ⟨_, _, _, _, h3⟩ := noted_chgChecks (openG &&& BitVec.ofNat 2 (2 ^ g.val)) (gateG &&& BitVec.ofNat 2 (2 ^ g.val))
    (chgActed g (chgPeriodTicks s) (chgTimed g s))
  dsimp only
  rw [chgPeriodStart_eq]
  split_ifs
  · rw [h1]
    exact ⟨rfl, rfl, rfl, rfl⟩
  · rw [h3, h2, h1]
    exact ⟨rfl, rfl, rfl, rfl⟩

/-! ### The on-time (R115) -/

/-- The period of a CHG gate in ticks is at least that of the highest frequency. -/
theorem chgPeriodTicks_pos (s : State) : 0 < chgPeriodTicks s := by
  have h : regF s Reg.plinth_CHGCFG 8 4 < 16 := Nat.mod_lt _ (by decide)
  exact Nat.div_pos (by rw [msTicks]; omega) (by omega)

/-- The on-time that the duty gives, before MINON. -/
def chgWanted (s : State) : Nat := (reg s Reg.plinth_CHGDUTY).toNat * chgPeriodTicks s / 65536

/-- MINON in ticks. -/
def chgLeast (s : State) : Nat := regF s Reg.plinth_CHGCFG 0 8 * 80

theorem chgOnTicks_eq (s : State) : chgOnTicks s =
    if chgWanted s < chgLeast s then 0
    else if chgPeriodTicks s - chgWanted s < chgLeast s then chgPeriodTicks s else chgWanted s := rfl

theorem chgWanted_lt (s : State) : chgWanted s < chgPeriodTicks s := by
  have hpos := chgPeriodTicks_pos s
  have hduty : (reg s Reg.plinth_CHGDUTY).toNat < 65536 := (reg s Reg.plinth_CHGDUTY).isLt
  exact Nat.div_lt_of_lt_mul (Nat.mul_lt_mul_of_pos_right hduty hpos)

/-- Whether a pulse is given. -/
theorem chgOnTicks_pos_iff (s : State) : 0 < chgOnTicks s ↔
    chgLeast s ≤ chgWanted s ∧ 0 < chgWanted s ∨
      chgPeriodTicks s < chgWanted s + chgLeast s ∧ chgLeast s ≤ chgWanted s := by
  have hpos := chgPeriodTicks_pos s
  have hlt := chgWanted_lt s
  rw [chgOnTicks_eq]
  split_ifs <;> omega

/-- An unblocked gate without clamp: its on-time by MINON. -/
theorem chgPeriodStart_driven {g : Fin 2} {s : State} (h : stageBlocked s (chgStage g) = false)
    (hclamp : regBit s Reg.plinth_STAT 11 = false) (openG gateG : BitVec 2) :
    let x := (chgPeriodStart g openG gateG s).out.stages[chgStage g]
    x.on = decide (0 < chgOnTicks s) ∧
      x.offAt = if chgOnTicks s = chgPeriodTicks s then none else some (s.now + chgOnTicks s) := by
  obtain ⟨out, ht⟩ := chgTimed_eq g s
  have hacted : chgActed g (chgPeriodTicks s) (chgTimed g s) = chgDriven g (chgPeriodTicks s) (chgTimed g s) := by
    rw [chgActed, if_neg]
    rw [ht]
    exact Bool.eq_false_iff.1 hclamp
  have hon : chgOnTicks (chgTimed g s) = chgOnTicks s := by rw [ht]; rfl
  have hnow : (chgTimed g s).now = s.now := by rw [ht]
  dsimp only
  rw [chgPeriodStart_out, if_neg (Bool.eq_false_iff.1 h), hacted, chgDriven, setStage_stage, if_pos rfl, hon, hnow]
  exact ⟨rfl, rfl⟩

end Sys2Proof.Machine

/-! ## Writes by access codes, and events kept (R16, R17, R540) -/

namespace Sys2Proof.Machine

@[simp] theorem reg_regWriteBits_other {a b : Nat} (v : Word) (s : State) (h : b ≠ a) :
    reg (regWriteBits a v s) b = reg s b := reg_setReg_other _ s h

/-- Each bit of a write acts by its access code. -/
theorem regBit_regWriteBits (a j : Nat) (v : Word) (s : State) (hj : j < 16) :
    regBit (regWriteBits a v s) a j =
      (((regBit s a j && !(regMask RegRow.rw a).getLsbD j) || (v.getLsbD j && (regMask RegRow.rw a).getLsbD j))
        && !(v.getLsbD j && (regMask RegRow.w1c a).getLsbD j && !(hwSetBits s a).getLsbD j)
        || (v.getLsbD j && (regMask RegRow.w1s a).getLsbD j)) := by
  rw [regBit, regWriteBits, reg_setReg_same]
  simp [hj, regBit, -BitVec.getLsbD_eq_getElem]

/-- A bit that is RW and nothing else takes the value written. -/
theorem regBit_regWriteBits_rw {a j : Nat} (v : Word) (s : State) (hj : j < 16) (hrw : (regMask RegRow.rw a).getLsbD j = true)
    (hc : (regMask RegRow.w1c a).getLsbD j = false) (hs : (regMask RegRow.w1s a).getLsbD j = false) :
    regBit (regWriteBits a v s) a j = v.getLsbD j := by
  rw [regBit_regWriteBits a j v s hj, hrw, hc, hs]
  simp [-BitVec.getLsbD_eq_getElem]

/-! ### A source that holds an event keeps it -/

theorem hasEvent_takeEvent {k : Fin 96} {s : State} (h : hasEvent s k) (n : Fin 96) : hasEvent (takeEvent n s) k := by
  obtain ⟨hpend, hapend⟩ := takeEvent_bits n k s
  obtain ⟨hraw, -⟩ := takeEvent_kept n s
  unfold hasEvent
  rw [hraw, hpend, hapend]
  rcases h with h | h | h <;> simp [h, -BitVec.getLsbD_eq_getElem]

theorem hasEvent_moderated {k : Fin 96} {s : State} (h : hasEvent s k) (n : Fin 96) : hasEvent (moderated n s) k := by
  simp only [moderated]
  split_ifs
  · exact hasEvent_takeEvent h n
  · unfold hasEvent at h ⊢
    dsimp only
    rw [getLsbD_putBit_true, intcNow_raw, intcNow_pend, intcNow_apend]
    rcases h with h | h | h <;> simp [h, -BitVec.getLsbD_eq_getElem]

theorem hasEvent_countEvent {k : Fin 96} {s : State} (h : hasEvent s k) (n : Fin 96) : hasEvent (countEvent n s) k := by
  simp only [countEvent]
  split_ifs
  · exact h
  · refine hasEvent_moderated ?_ 63
    unfold hasEvent at h ⊢
    simpa only [note_intc, hwSet_intc] using h

/-- A signal takes no event from another source. -/
theorem hasEvent_signal {k : Fin 96} {s : State} (h : hasEvent s k) (n : Fin 96) : hasEvent (signal n s) k :=
  hasEvent_countEvent (hasEvent_moderated h n) n

/-- The source signalled holds its event. -/
theorem hasEvent_signal_same (n : Fin 96) (s : State) : hasEvent (signal n s) n := by
  obtain ⟨c, hc, -, -, hev⟩ := moderated_spec n s
  refine hasEvent_countEvent ?_ n
  rw [hc]
  exact hev

theorem regsBut_signal (n : Fin 96) (s : State) : RegsBut runst s (signal n s) := fun _ ha => reg_signal ha n s

end Sys2Proof.Machine

/-! ## SREF and AVS (R118-R122) -/

namespace Sys2Proof.Machine

/-- SREF at its limit or off it, with the timer of R118. -/
def srefMarked (e : Bool) (s : State) : State :=
  setPstat pstSRLIM e (setPlinth (fun p => { p with srefDue := if e then some (s.now + 10 * msTicks) else none }) s)

theorem srefLimit_eq (e : Bool) (s : State) :
    srefLimit e s = if regBit s Reg.plinth_STAT 10 = e then s else signal 33 (srefMarked e s) := by
  rw [srefLimit]
  exact if_congr beq_iff_eq rfl rfl

theorem srefLimit_of_change {e : Bool} {s : State} (h : regBit s Reg.plinth_STAT 10 ≠ e) :
    let u := srefLimit e s
    regBit u Reg.plinth_STAT 10 = e ∧ hasEvent u 33 ∧ RegsBut (Reg.plinth_STAT :: runst) s u ∧
      u.plinth = { s.plinth with srefDue := if e then some (s.now + 1600000) else none } ∧
      { u with regs := s.regs, hw := s.hw, intc := s.intc, fcol := s.fcol, plinth := s.plinth } = s := by
  have hbit : regBit (signal 33 (srefMarked e s)) Reg.plinth_STAT 10 = e := by
    rw [regBit, reg_signal (by decide)]
    exact regBit_setRegBit_same Reg.plinth_STAT 10 e _ (by decide)
  have hregs : RegsBut (Reg.plinth_STAT :: runst) s (signal 33 (srefMarked e s)) := fun a ha => by
    rw [reg_signal (List.not_mem_of_not_mem_cons ha)]
    exact reg_setRegBit_other _ _ _ (List.ne_of_not_mem_cons ha)
  obtain ⟨regs, hw, intc, raises, hsig⟩ := signal_eq 33 (srefMarked e s)
  dsimp only
  rw [srefLimit_eq, if_neg h]
  refine ⟨hbit, hasEvent_signal_same 33 _, hregs, ?_, ?_⟩
  · rw [hsig]
    rfl
  · rw [hsig]
    rfl

/-- SREFCFG written by a permitted master: EN and OFFSC take the value. -/
theorem srefWrite_of_privileged {m : Master} (hm : privileged m = true) (v : Word) (s : State) :
    let u := srefWrite m v s
    u.plinth = { s.plinth with srefOn := v.getLsbD 15 } ∧ regBit u Reg.plinth_SREFCFG 15 = v.getLsbD 15 ∧
      regBit u Reg.plinth_SREFCFG 14 = v.getLsbD 14 ∧ RegsBut [Reg.plinth_SREFCFG] s u ∧
      { u with regs := s.regs, plinth := s.plinth } = s := by
  rw [srefWrite, if_pos hm]
  exact ⟨rfl, regBit_regWriteBits_rw v s (by decide) (by decide) (by decide) (by decide),
    regBit_regWriteBits_rw v s (by decide) (by decide) (by decide) (by decide),
    fun a ha => reg_regWriteBits_other v s (List.ne_of_not_mem_cons ha), rfl⟩

/-! ### Adaptive voltage (R120-R122) -/

/-- The next step of AVS is due in 1 ms. -/
def avsTimed (s : State) : State := setPlinth (fun p => { p with avsDue := s.now + msTicks }) s

/-- AVS stands at an end of its range: noted once. -/
def avsLimit (s : State) : State :=
  if s.plinth.avsLogged then s else note clsPower 0x25 (setPlinth (fun p => { p with avsLogged := true }) s)

/-- The channel's value, the target and the present step. -/
def avsValue (s : State) : Nat := (reg s (Reg.mon_VAL 8)).toNat
def avsTarget (s : State) : Nat := (reg s Reg.plinth_AVSTGT).toNat
def avsVset (s : State) : Nat := min 30 (regF s Reg.plinth_CORECFG 0 5)

theorem avsStep_eq (s : State) : avsStep s =
    if !regBit s Reg.plinth_CORECFG 15 || onBackup s then avsTimed s
    else if avsValue s + 32 < avsTarget s then
      (if avsVset s = 30 then avsLimit (avsTimed s) else setRegF Reg.plinth_CORECFG 0 5 (avsVset s + 1) (avsTimed s))
    else if avsTarget s + 32 < avsValue s then
      (if avsVset s = 0 then avsLimit (avsTimed s) else setRegF Reg.plinth_CORECFG 0 5 (avsVset s - 1) (avsTimed s))
    else avsTimed s := rfl

/-- What a step of AVS leaves, where it writes VSET `k` or does not. -/
structure AvsStepped (s u : State) : Prop where
  due : u.plinth.avsDue = s.now + 160000
  regs : RegsBut [Reg.plinth_CORECFG] s u

theorem avsStepped_timed (s : State) : AvsStepped s (avsTimed s) := ⟨rfl, fun _ _ => rfl⟩

theorem avsStepped_limit (s : State) : AvsStepped s (avsLimit (avsTimed s)) := by
  rw [avsLimit]
  split_ifs
  · exact avsStepped_timed s
  · exact ⟨rfl, fun _ _ => rfl⟩

theorem avsStepped_set (k : Nat) (s : State) : AvsStepped s (setRegF Reg.plinth_CORECFG 0 5 k (avsTimed s)) :=
  ⟨rfl, fun _ ha => reg_setRegF_other 0 5 k (avsTimed s) (List.ne_of_not_mem_cons ha)⟩

theorem avsStepped_avsStep (s : State) : AvsStepped s (avsStep s) := by
  rw [avsStep_eq]
  split_ifs
  · exact avsStepped_timed s
  · exact avsStepped_limit s
  · exact avsStepped_set _ s
  · exact avsStepped_limit s
  · exact avsStepped_set _ s
  · exact avsStepped_timed s

theorem avsLimit_spec (s : State) : (avsLimit (avsTimed s)).regs = s.regs ∧ (avsLimit (avsTimed s)).fcol.raises =
    s.fcol.raises ++ (if s.plinth.avsLogged = false then [{ cls := clsPower, detail := 0x25, note := true }] else []) := by
  have hlog : (avsTimed s).plinth.avsLogged = s.plinth.avsLogged := rfl
  rw [avsLimit, hlog]
  cases s.plinth.avsLogged
  · exact ⟨rfl, rfl⟩
  · exact ⟨rfl, (List.append_nil _).symm⟩

theorem vset_of_set {k : Nat} (hk : k < 32) (s : State) :
    fld (reg (setRegF Reg.plinth_CORECFG 0 5 k s) Reg.plinth_CORECFG) 0 5 = k := by
  rw [reg_setRegF_same, fld_putFld _ _ _ _ (by decide)]
  exact Nat.mod_eq_of_lt hk

/-- VSET moves by at most one towards the target, and never out of 0 to 30. -/
theorem avsStep_moves (s : State) :
    let c := avsValue s
    let t := avsTarget s
    let k := avsVset s
    let k' := fld (reg (avsStep s) Reg.plinth_CORECFG) 0 5
    if regBit s Reg.plinth_CORECFG 15 = false ∨ onBackup s = true then
      (avsStep s).regs = s.regs ∧ (avsStep s).fcol = s.fcol
    else if c + 32 < t ∧ k < 30 then k' = k + 1 ∧ (avsStep s).fcol = s.fcol
    else if t + 32 < c ∧ 0 < k ∧ ¬ c + 32 < t then k' = k - 1 ∧ (avsStep s).fcol = s.fcol
    else (avsStep s).regs = s.regs ∧ (avsStep s).fcol.raises = s.fcol.raises ++
      (if (c + 32 < t ∨ t + 32 < c) ∧ s.plinth.avsLogged = false then
        [{ cls := clsPower, detail := 0x25, note := true }] else []) := by
  have hk : avsVset s ≤ 30 := Nat.min_le_left _ _
  have hoff : (!regBit s Reg.plinth_CORECFG 15 || onBackup s) = true ↔
      regBit s Reg.plinth_CORECFG 15 = false ∨ onBackup s = true := by simp
  obtain ⟨hregs, hraises⟩ := avsLimit_spec s
  dsimp only
  rw [avsStep_eq, if_congr hoff rfl rfl]
  by_cases h0 : regBit s Reg.plinth_CORECFG 15 = false ∨ onBackup s = true
  · rw [if_pos h0, if_pos h0]
    exact ⟨rfl, rfl⟩
  rw [if_neg h0, if_neg h0]
  by_cases hup : avsValue s + 32 < avsTarget s
  · rw [if_pos hup]
    by_cases hend : avsVset s = 30
    · rw [if_pos hend, if_neg (by omega), if_neg (by omega)]
      simp only [hup, true_or, true_and]
      exact ⟨hregs, hraises⟩
    · rw [if_neg hend, if_pos ⟨hup, by omega⟩]
      exact ⟨vset_of_set (by omega) _, rfl⟩
  rw [if_neg hup, if_neg (fun h => hup h.1)]
  by_cases hdown : avsTarget s + 32 < avsValue s
  · rw [if_pos hdown]
    by_cases hend : avsVset s = 0
    · rw [if_pos hend, if_neg (by omega)]
      simp only [hdown, or_true, true_and]
      exact ⟨hregs, hraises⟩
    · rw [if_neg hend, if_pos ⟨hdown, by omega, hup⟩]
      exact ⟨vset_of_set (by omega) _, rfl⟩
  · rw [if_neg hdown, if_neg (fun h => hdown h.1), if_neg (fun h => h.1.elim hup hdown)]
    exact ⟨rfl, (List.append_nil _).symm⟩

/-! ### The commands -/

theorem exec_chgPwmPeriod (g : Fin 2) (a b : BitVec 2) (s : State) :
    exec (.chgPwmPeriod g a b) s = actDue (fun s => chgDue s g) (chgPeriodStart g a b) s := rfl
theorem exec_srefCurrentLimit (dt : Nat) (e : Bool) (s : State) :
    exec (.srefCurrentLimit dt e) s = actAfter dt (srefLimit e) s := rfl
theorem exec_srefShort (s : State) : exec .srefShort s = actDue srefShortDue srefShort s := rfl
theorem exec_srefEnableWrite (m : Master) (v : Word) (s : State) :
    exec (.srefEnableWrite m v) s = act (srefWrite m v) s := rfl
theorem exec_avsStep (s : State) : exec .avsStep s = actDue avsDue avsStep s := rfl

/-- Settles O16: each command by the cases of its operation; the on-time is `chgOnTicks`. -/
theorem chargingReferenceAndVoltageSteps : Obligations.ChargingReferenceAndVoltageSteps := by
  unfold Obligations.ChargingReferenceAndVoltageSteps
  intro s dt g a b m v e hup
  refine ⟨ActsAt.of (due := fun s => chgDue s g) (exec_chgPwmPeriod g a b s) hup ?charge,
    ActsAfter.of (exec_srefCurrentLimit dt e s) hup ?limit, ActsAt.of (exec_srefShort s) hup ?short,
    Acts.of (exec_srefEnableWrite m v s) hup ?write, ActsAt.of (exec_avsStep s) hup ?avs⟩
  case charge =>
    generalize ready _ s = r
    have hout := chgPeriodStart_out g a b r
    refine ⟨?due, fun hg => ?half, fun hblocked => ?blocked, fun hfree hclamp => ⟨?on, fun hmin hoff => ?pulse,
      fun hmin hoff => ?full⟩, chgPeriodStart_frame g a b r⟩
    case due =>
      rw [hout]
      split_ifs
      · exact congrArg Stage.periodDue (chgTimed_stage g r)
      · exact (chgActed_periodDue g _ (chgStage g) _).trans (congrArg Stage.periodDue (chgTimed_stage g r))
    case half =>
      subst hg
      rw [hout]
      split_ifs
      · exact chgTimed_other r
      · exact (chgActed_periodDue 0 _ 15 _).trans (chgTimed_other r)
    case blocked =>
      obtain ⟨out, ht⟩ := chgTimed_eq g r
      have he : chgPeriodStart g a b r = chgTimed g r := by
        rw [chgPeriodStart_eq, stageBlocked_chgTimed]
        exact if_pos hblocked
      rw [he]
      exact ⟨(congrArg Stage.on (chgTimed_stage g r) :), by rw [ht], by rw [ht]⟩
    case on =>
      obtain ⟨hon, -⟩ := chgPeriodStart_driven (g := g) hfree hclamp a b
      exact hon.trans (decide_eq_decide.2 (chgOnTicks_pos_iff r))
    case pulse =>
      obtain ⟨-, hoffAt⟩ := chgPeriodStart_driven (g := g) hfree hclamp a b
      have hticks : chgOnTicks r = chgWanted r :=
        (chgOnTicks_eq r).trans ((if_neg (Nat.not_lt.2 hmin)).trans (if_neg (Nat.not_lt.2 hoff)))
      rw [hticks] at hoffAt
      exact hoffAt
    case full =>
      obtain ⟨-, hoffAt⟩ := chgPeriodStart_driven (g := g) hfree hclamp a b
      have hticks : chgOnTicks r = chgPeriodTicks r :=
        (chgOnTicks_eq r).trans ((if_neg (Nat.not_lt.2 hmin)).trans (if_pos hoff))
      exact hoffAt.trans (if_pos hticks)
  case limit =>
    generalize ready dt s = r
    split
    next h => rw [srefLimit_eq, if_pos h]
    next h => exact srefLimit_of_change h
  case short =>
    generalize ready _ s = r
    split
    next h =>
      rw [srefShort, if_pos h]
      exact ⟨rfl, rfl, rfl⟩
    next h => exact if_neg h
  case write =>
    generalize ready _ s = r
    split
    next h => exact srefWrite_of_privileged h v r
    next h => exact if_neg h
  case avs =>
    generalize ready _ s = r
    obtain ⟨hdue, hregs⟩ := avsStepped_avsStep r
    exact ⟨hdue, hregs, avsStep_moves r⟩

end Sys2Proof.Machine

/-! ## Monitor scans (R116, R123-R127) -/

namespace Sys2Proof.Machine

theorem regBit_setReg_other {a b : Nat} (v : Word) (s : State) (i : Nat) (h : b ≠ a) :
    regBit (setReg a v s) b i = regBit s b i := by
  rw [regBit, reg_setReg_other v s h]
  rfl

/-- The LO check of channel `n` is suspended: VB low for channel 7, no limit for channel 4 (R126, R142). -/
def loSuspended (vbLow : Bool) (s : State) (n : Fin 9) : Bool :=
  n == 7 && vbLow || n == 4 && reg s (Reg.mon_WIN0 + 8) == 0

/-- A value of channel `n` lies outside its window. -/
def monOut (vals : Vector Word 9) (vbLow : Bool) (s : State) (n : Fin 9) : Bool :=
  !loSuspended vbLow s n && monBelow s n vals[n] || monAbove s n vals[n]

/-- Channel 8 is not measured on the backup clock (R122). -/
def monSkipped (s : State) (n : Fin 9) : Bool := n == 8 && onBackup s

/-- The registers that a scan's channels write. -/
def monRegs : List Nat := Reg.mon_OUT :: (List.range 9).map (fun n => Reg.mon_VAL n)

/-- The channels of `w` stored and judged. -/
structure Scanned (w : Fin 9 → Bool) (vals : Vector Word 9) (vbLow : Bool) (s u : State) : Prop where
  val : ∀ n : Fin 9, reg u (Reg.mon_VAL n) = if w n then vals[n] else reg s (Reg.mon_VAL n)
  out : ∀ n : Fin 9, regBit u Reg.mon_OUT n = if w n then monOut vals vbLow s n else regBit s Reg.mon_OUT n
  regs : RegsBut monRegs s u
  frame : { u with regs := s.regs, plinth := s.plinth, fcol := s.fcol } = s

theorem monVal_mem_monRegs (n : Fin 9) : Reg.mon_VAL n ∈ monRegs := by
  revert n
  decide

theorem monWin_not_mem_monRegs {k : Nat} (hk : k < 18) : Reg.mon_WIN0 + k ∉ monRegs := by
  revert k
  decide

theorem Scanned.judged_eq {w : Fin 9 → Bool} {vals : Vector Word 9} {vbLow : Bool} {s u : State}
    (h : Scanned w vals vbLow s u) (n : Fin 9) :
    monOut vals vbLow u n = monOut vals vbLow s n ∧ monSkipped u n = monSkipped s n := by
  have hlo : reg u (Reg.mon_WIN0 + 2 * n.val) = reg s (Reg.mon_WIN0 + 2 * n.val) :=
    h.regs _ (monWin_not_mem_monRegs (by omega))
  have hhi : reg u (Reg.mon_WIN0 + 2 * n.val + 1) = reg s (Reg.mon_WIN0 + 2 * n.val + 1) :=
    h.regs _ (monWin_not_mem_monRegs (k := 2 * n.val + 1) (by omega))
  have h4 : reg u (Reg.mon_WIN0 + 8) = reg s (Reg.mon_WIN0 + 8) := h.regs _ (monWin_not_mem_monRegs (by decide))
  have hclk : reg u Reg.sys_CLKSTAT = reg s Reg.sys_CLKSTAT := h.regs _ (by decide)
  simp only [monOut, loSuspended, monBelow, monAbove, monSkipped, onBackup_eq, regBit, hlo, hhi, h4, hclk, and_self]

/-- One channel of a scan. -/
def scanOne (vals : Vector Word 9) (vbLow : Bool) (s : State) (n : Fin 9) : State :=
  if n = 8 ∧ onBackup s then s else monChannel n vals[n] (loSuspended vbLow s n) s

/-- The registers of a channel stored and judged, before its run of scans is counted. -/
def monStored (n : Fin 9) (v : Word) (noLo : Bool) (s : State) : State :=
  setRegBit Reg.mon_OUT n (!noLo && monBelow s n v || monAbove s n v) (setReg (Reg.mon_VAL n) v s)

/-- Channel `n`'s run of scans outside or inside its window counted, and the raise at its end. -/
def monCounted (n : Fin 9) (lo hi : Bool) (s : State) : State :=
  let r := s.plinth.mon[n]
  let put (r : MonRun) (s : State) : State := setPlinth (fun p => { p with mon := p.mon.set n r }) s
  if lo && n == 3 then put { r with outRun := 0, inRun := 0 } s
  else if lo || hi then
    let k := r.outRun + 1
    if filt s ≤ k ∧ !r.raised then
      raise { cls := if n < 3 then clsThermal else clsPower, detail := wd (n.val + if lo then 0 else 0x10) }
        (put { outRun := k, inRun := 0, raised := true } s)
    else put { r with outRun := k, inRun := 0 } s
  else
    let k := r.inRun + 1
    put { outRun := 0, inRun := k, raised := r.raised && decide (k < filt s) } s

theorem monChannel_cases (n : Fin 9) (v : Word) (noLo : Bool) (s : State) : monChannel n v noLo s =
    monCounted n (!noLo && monBelow s n v) (monAbove s n v) (monStored n v noLo s) := rfl

/-- The run of scans of a channel is counted in the Plinth's record, and may raise. -/
theorem monCounted_eq (n : Fin 9) (lo hi : Bool) (s : State) : ∃ plinth fcol, monCounted n lo hi s =
    { s with plinth := plinth, fcol := fcol } := by
  rw [monCounted]
  dsimp only
  split_ifs <;> exact ⟨_, _, rfl⟩

theorem reg_monChannel (n : Fin 9) (v : Word) (noLo : Bool) (s : State) (a : Nat) :
    reg (monChannel n v noLo s) a = reg (monStored n v noLo s) a := by
  obtain ⟨plinth, fcol, h⟩ := monCounted_eq n (!noLo && monBelow s n v) (monAbove s n v) (monStored n v noLo s)
  rw [monChannel_cases, h]
  rfl

theorem monVal_ne_out (n : Fin 9) : Reg.mon_VAL n ≠ Reg.mon_OUT := by
  revert n
  decide

theorem monVal_inj {n k : Fin 9} (h : k ≠ n) : Reg.mon_VAL k ≠ Reg.mon_VAL n := by
  revert n k
  decide

/-- One channel stored and judged. -/
theorem scanned_monChannel (vals : Vector Word 9) (vbLow : Bool) (s : State) (n : Fin 9) :
    Scanned (· == n) vals vbLow s (monChannel n vals[n] (loSuspended vbLow s n) s) := by
  refine ⟨fun k => ?_, fun k => ?_, fun a ha => ?_, ?_⟩
  · rw [reg_monChannel, monStored, reg_setRegBit_other _ _ _ (monVal_ne_out k)]
    by_cases hk : k = n
    · simp [hk]
    · simp [hk, reg_setReg_other _ _ (monVal_inj hk)]
  · rw [regBit, reg_monChannel, monStored]
    by_cases hk : k = n
    · subst hk
      exact (regBit_setRegBit_same Reg.mon_OUT k _ _ (by omega)).trans (if_pos (beq_self_eq_true k)).symm
    · have hne : k.val ≠ n.val := fun h => hk (Fin.ext h)
      have hbit := regBit_setRegBit Reg.mon_OUT n k (monOut vals vbLow s n) (setReg (Reg.mon_VAL n) vals[n] s) (by omega)
      rw [if_neg hne, regBit_setReg_other _ _ _ (monVal_ne_out n).symm] at hbit
      exact hbit.trans (by simp [hk])
  · rw [reg_monChannel, monStored, reg_setRegBit_other _ _ _ (fun h => ha (by simp [monRegs, h])),
      reg_setReg_other _ _ (fun h => ha (by rw [h]; exact monVal_mem_monRegs n))]
  · obtain ⟨plinth, fcol, h⟩ := monCounted_eq n (!loSuspended vbLow s n && monBelow s n vals[n]) (monAbove s n vals[n])
      (monStored n vals[n] (loSuspended vbLow s n) s)
    rw [monChannel_cases, h]
    rfl

theorem Scanned.refl (vals : Vector Word 9) (vbLow : Bool) (s : State) : Scanned (fun _ => false) vals vbLow s s :=
  ⟨fun _ => rfl, fun _ => rfl, fun _ _ => rfl, rfl⟩

theorem Scanned.trans {w w' : Fin 9 → Bool} {vals : Vector Word 9} {vbLow : Bool} {s t u : State}
    (h : Scanned w vals vbLow s t) (h' : Scanned w' vals vbLow t u) :
    Scanned (fun n => w n || w' n) vals vbLow s u where
  val n := by
    rw [h'.val, h.val]
    cases w n <;> cases w' n <;> rfl
  out n := by
    rw [h'.out, h.out, (h.judged_eq n).1]
    cases w n <;> cases w' n <;> rfl
  regs a ha := (h'.regs a ha).trans (h.regs a ha)
  frame := (congrArg (fun v : State => { v with regs := s.regs, plinth := s.plinth, fcol := s.fcol }) h'.frame).trans h.frame

theorem scanned_scanOne (vals : Vector Word 9) (vbLow : Bool) (s : State) (n : Fin 9) :
    Scanned (fun k => k == n && !monSkipped s n) vals vbLow s (scanOne vals vbLow s n) := by
  by_cases h : n = 8 ∧ onBackup s = true
  · have hw : (fun k => k == n && !monSkipped s n) = fun _ : Fin 9 => false := by
      funext k
      simp [monSkipped, h.1, h.2]
    rw [scanOne, if_pos h, hw]
    exact .refl vals vbLow s
  · have hw : (fun k => k == n && !monSkipped s n) = fun k : Fin 9 => k == n := by
      funext k
      have : monSkipped s n = false := by
        rw [monSkipped, Bool.and_eq_false_iff]
        by_cases h8 : n = 8
        · exact .inr (Bool.eq_false_of_not_eq_true fun hb => h ⟨h8, hb⟩)
        · exact .inl (beq_eq_false_iff_ne.2 h8)
      rw [this, Bool.not_false, Bool.and_true]
    rw [scanOne, if_neg h, hw]
    exact scanned_monChannel vals vbLow s n

theorem scanned_foldl (vals : Vector Word 9) (vbLow : Bool) (l : List (Fin 9)) (s : State) :
    Scanned (fun k => l.contains k && !monSkipped s k) vals vbLow s (l.foldl (scanOne vals vbLow) s) := by
  induction l generalizing s with
  | nil => exact .refl vals vbLow s
  | cons n l ih =>
    have h1 := scanned_scanOne vals vbLow s n
    have h2 := h1.trans (ih (scanOne vals vbLow s n))
    have hw : (fun k => (n :: l).contains k && !monSkipped s k) =
        fun k => (k == n && !monSkipped s n) || (l.contains k && !monSkipped (scanOne vals vbLow s n) k) := by
      funext k
      rw [(h1.judged_eq k).2, List.contains_cons]
      by_cases hk : k = n
      · subst hk
        simp
      · rw [beq_eq_false_iff_ne.2 hk, Bool.false_or, Bool.false_and, Bool.false_or]
    rw [List.foldl_cons, hw]
    exact h2

/-- Every channel of a scan. -/
theorem scanned_all (vals : Vector Word 9) (vbLow : Bool) (s : State) :
    Scanned (fun k => !monSkipped s k) vals vbLow s ((List.finRange 9).foldl (scanOne vals vbLow) s) := by
  have h := scanned_foldl vals vbLow (List.finRange 9) s
  have hw : (fun k => (List.finRange 9).contains k && !monSkipped s k) = fun k => !monSkipped s k := by
    funext k
    rw [List.contains_iff_mem.2 (List.mem_finRange k), Bool.true_and]
  rwa [hw] at h

/-! ### The clamp (R116) -/

theorem chgForce_eq {i : Nat} (hi : i < 16) (s : State) : ∃ out, chgForce i s = { s with out := out } := by
  rw [chgForce]
  split_ifs
  · exact ⟨s.out, rfl⟩
  · exact setStage_eq ⟨i, hi⟩ _ s

/-- The words that a scan's clamp may change. -/
def clampRegs : List Nat := Reg.plinth_STAT :: (Reg.plinth_CLAMP + 1) :: runst

/-- What a scan's clamp may change: PLINTH.STAT, its count, the gates, and what a signal changes. -/
structure Clamped (s u : State) : Prop where
  regs : RegsBut clampRegs s u
  eq : ∃ regs hw intc raises out, u =
    { s with regs := regs, hw := hw, intc := intc, fcol := { s.fcol with raises := raises }, out := out }

/-- The clamp begins: it is shown, counted and signalled. -/
def clampBegun (s : State) : State := signal 31 (hwCount (Reg.plinth_CLAMP + 1) (setPstat pstCLAMP true s))

theorem clampScan_cases (s : State) : clampScan s = s ∨ clampScan s = setPstat pstCLAMP false s ∨
    clampScan s = chgForce 15 (chgForce 14 (clampBegun s)) := by
  unfold clampScan clampBegun
  dsimp only
  split_ifs <;> simp only [eq_self, true_or, or_true]

theorem clamped_begun (s : State) : Clamped s (clampBegun s) := by
  constructor
  · intro a ha
    have hrest := List.not_mem_of_not_mem_cons ha
    rw [clampBegun, reg_signal (List.not_mem_of_not_mem_cons hrest),
      reg_hwCount_other _ (List.ne_of_not_mem_cons hrest)]
    exact reg_setRegBit_other _ _ _ (List.ne_of_not_mem_cons ha)
  · obtain ⟨regs, hw, intc, raises, h⟩ := signal_eq 31 (hwCount (Reg.plinth_CLAMP + 1) (setPstat pstCLAMP true s))
    exact ⟨regs, hw, intc, raises, s.out, h⟩

theorem clamped_clampScan (s : State) : Clamped s (clampScan s) := by
  rcases clampScan_cases s with h | h | h <;> rw [h]
  · exact ⟨fun _ _ => rfl, s.regs, s.hw, s.intc, s.fcol.raises, s.out, rfl⟩
  · exact ⟨fun a ha => reg_setRegBit_other _ _ _ (List.ne_of_not_mem_cons ha), _, s.hw, s.intc, s.fcol.raises, s.out, rfl⟩
  · obtain ⟨hregs, regs, hw, intc, raises, out, hb⟩ := clamped_begun s
    obtain ⟨o1, h1⟩ := chgForce_eq (i := 14) (by decide) (clampBegun s)
    obtain ⟨o2, h2⟩ := chgForce_eq (i := 15) (by decide) { clampBegun s with out := o1 }
    rw [h1, h2]
    refine ⟨fun a ha => hregs a ha, regs, hw, intc, raises, o2, ?_⟩
    rw [hb]

/-! ### The scan -/

/-- The next scan is due 250 us later. -/
def scanTimed (s : State) : State := setPlinth (fun p => { p with scanDue := s.now + 250 * usTicks }) s

theorem scanTimed_due (s : State) : (scanTimed s).plinth.scanDue = s.now + 40000 := by
  rw [scanTimed, setPlinth, usTicks]

/-- The channels stored, and the clamp acted on them. -/
def scanStored (vals : Vector Word 9) (vbLow : Bool) (s : State) : State :=
  clampScan (scanTimed ((List.finRange 9).foldl (scanOne vals vbLow) s))

/-- Source 34 is signalled where a bit of MON.OUT changed. -/
def outSignalled (out : Word) (s : State) : State := if reg s Reg.mon_OUT = out then s else signal 34 s

theorem monitorScan_eq (vals : Vector Word 9) (vbLow : Bool) (s : State) :
    monitorScan vals vbLow s = signal 35 (outSignalled (reg s Reg.mon_OUT) (scanStored vals vbLow s)) := rfl

theorem monRegs_not_mem_clampRegs {a : Nat} (ha : a ∈ monRegs) : a ∉ clampRegs := by
  revert a
  decide

theorem noted_outSignalled (out : Word) (s : State) : Noted s (outSignalled out s) := by
  rw [outSignalled]
  split_ifs
  · exact .refl s
  · exact noted_signal 34 s

theorem regsBut_outSignalled (out : Word) (s : State) : RegsBut runst s (outSignalled out s) := by
  rw [outSignalled]
  split_ifs
  · exact fun _ _ => rfl
  · exact regsBut_signal 34 s

/-- The channels' words after a scan are those that its channels stored. -/
theorem reg_monitorScan {a : Nat} (ha : a ∈ monRegs) (vals : Vector Word 9) (vbLow : Bool) (s : State) :
    reg (monitorScan vals vbLow s) a = reg ((List.finRange 9).foldl (scanOne vals vbLow) s) a := by
  have hclamp := monRegs_not_mem_clampRegs ha
  have hrun : a ∉ runst := List.not_mem_of_not_mem_cons (List.not_mem_of_not_mem_cons hclamp)
  rw [monitorScan_eq, reg_signal hrun, regsBut_outSignalled _ _ a hrun, scanStored]
  exact (clamped_clampScan _).regs a hclamp

theorem Noted.scan_kept {s u : State} (h : Noted s u) :
    u.plinth = s.plinth ∧ u.thr = s.thr ∧ u.mem = s.mem ∧ u.modes = s.modes ∧ u.flash = s.flash := by
  obtain ⟨_, _, _, _, rfl⟩ := h
  exact ⟨rfl, rfl, rfl, rfl, rfl⟩

theorem Clamped.scan_kept {s u : State} (h : Clamped s u) :
    u.plinth = s.plinth ∧ u.thr = s.thr ∧ u.mem = s.mem ∧ u.modes = s.modes ∧ u.flash = s.flash := by
  obtain ⟨-, _, _, _, _, _, rfl⟩ := h
  exact ⟨rfl, rfl, rfl, rfl, rfl⟩

theorem Scanned.scan_kept {w : Fin 9 → Bool} {vals : Vector Word 9} {vbLow : Bool} {s u : State}
    (h : Scanned w vals vbLow s u) :
    u.now = s.now ∧ u.thr = s.thr ∧ u.mem = s.mem ∧ u.modes = s.modes ∧ u.flash = s.flash :=
  ⟨(congrArg State.now h.frame :), (congrArg State.thr h.frame :), (congrArg State.mem h.frame :),
    (congrArg State.modes h.frame :), (congrArg State.flash h.frame :)⟩

/-- What a scan leaves alone. -/
theorem monitorScan_kept (vals : Vector Word 9) (vbLow : Bool) (s : State) :
    let u := monitorScan vals vbLow s
    u.plinth.scanDue = s.now + 40000 ∧ u.thr = s.thr ∧ u.mem = s.mem ∧ u.modes = s.modes ∧ u.flash = s.flash := by
  obtain ⟨hnow, hthr, hmem, hmodes, hflash⟩ := (scanned_all vals vbLow s).scan_kept
  obtain ⟨hp, ht, hm, hd, hf⟩ :=
    (clamped_clampScan (scanTimed ((List.finRange 9).foldl (scanOne vals vbLow) s))).scan_kept
  obtain ⟨hp', ht', hm', hd', hf'⟩ := ((noted_outSignalled (reg s Reg.mon_OUT) (scanStored vals vbLow s)).trans
    (noted_signal 35 _)).scan_kept
  exact ⟨by rw [monitorScan_eq, hp', scanStored, hp, scanTimed_due, hnow], ht'.trans (ht.trans hthr),
    hm'.trans (hm.trans hmem), hd'.trans (hd.trans hmodes), hf'.trans (hf.trans hflash)⟩

theorem exec_monitorScan (vals : Vector Word 9) (vbLow : Bool) (s : State) :
    exec (.monitorScan vals vbLow) s = actDue scanDue (monitorScan vals vbLow) s := rfl

theorem monSkipped_eq (s : State) (n : Fin 9) : monSkipped s n = (decide (n.val = 8) && onBackup s) := by
  rw [monSkipped, beq_eq_decide_val]
  rfl

theorem loSuspended_eq (vbLow : Bool) (s : State) (n : Fin 9) : loSuspended vbLow s n =
    ((decide (n.val = 7) && vbLow) || (decide (n.val = 4) && reg s (Reg.mon_WIN0 + 2 * n.val) == 0)) := by
  have h7 : (n == 7) = decide (n.val = 7) := beq_eq_decide_val n 7
  have h4 : (n == 4) = decide (n.val = 4) := beq_eq_decide_val n 4
  rw [loSuspended, h7, h4]
  by_cases h : n.val = 4
  · have ha : Reg.mon_WIN0 + 2 * n.val = Reg.mon_WIN0 + 8 := by rw [h]
    rw [ha]
  · rw [decide_eq_false h, Bool.false_and, Bool.false_and]

/-- Settles O17: the channels one by one (`scanned_all`), then the clamp and the two sources. -/
theorem monitorScanStoresAndJudges : Obligations.MonitorScanStoresAndJudges := by
  unfold Obligations.MonitorScanStoresAndJudges
  intro s vals vbLow hup
  refine ActsAt.of (exec_monitorScan vals vbLow s) hup ?_
  generalize ready _ s = r
  have hs := scanned_all vals vbLow r
  refine ⟨fun n => ?val, fun n => ?out, hasEvent_signal_same 35 _, fun hne => ?changed, monitorScan_kept vals vbLow r⟩
  case val =>
    rw [reg_monitorScan (monVal_mem_monRegs n), hs.val n, monSkipped_eq]
    dsimp only
    by_cases h : (decide (n.val = 8) && onBackup r) = true <;> simp only [h, Bool.not_true, Bool.not_false] <;> rfl
  case out =>
    have hjudge : monOut vals vbLow r n = (monBelow r n vals[n] && !loSuspended vbLow r n || monAbove r n vals[n]) := by
      rw [monOut, Bool.and_comm]
    rw [regBit, reg_monitorScan (by decide), ← regBit, hs.out n, hjudge, monSkipped_eq, loSuspended_eq]
    dsimp only
    by_cases h : (decide (n.val = 8) && onBackup r) = true <;> simp only [h, Bool.not_true, Bool.not_false] <;> rfl
  case changed =>
    have hout : reg (monitorScan vals vbLow r) Reg.mon_OUT = reg (scanStored vals vbLow r) Reg.mon_OUT := by
      rw [monitorScan_eq, reg_signal (by decide), regsBut_outSignalled _ _ _ (by decide)]
    rw [hout] at hne
    rw [monitorScan_eq, outSignalled, if_neg hne]
    exact hasEvent_signal (hasEvent_signal_same 34 _) 35

end Sys2Proof.Machine

/-! ## What a transition does beside the mode (R206, R208, R772, R773, R786) -/

namespace Sys2Proof.Machine

/-- The registers of the clock, of boot, of a commit and of the Loop's rounds, which a change of the modes leaves alone. -/
def besideRegs : List Nat := [Reg.sys_CLKSTAT, Reg.sys_BOOTSTAT, Reg.sys_ARMSTAT, Reg.flash_CMT, Reg.loop_RINFO, Reg.loop_SEQ,
  Reg.loop_LOST 0, Reg.loop_LOST 1, Reg.loop_LOST 2, Reg.loop_LOST 3, Reg.loop_ERRA + 1]

/-- Of the threads, the flash, the memory, boot, the Loop and Waili nothing changed, nor any of those registers, of LOOP.STAT
at most PINMM; raises and events were only added. -/
structure BesideModes (s u : State) : Prop where
  thr : u.thr = s.thr
  flash : u.flash = s.flash
  mem : u.mem = s.mem
  boot : u.boot = s.boot
  loop : u.loop = s.loop
  waili : u.waili = s.waili
  now : u.now = s.now
  regs : ∀ a ∈ besideRegs, reg u a = reg s a
  stat : ∀ i, i ≠ 9 → regBit u Reg.loop_STAT i = regBit s Reg.loop_STAT i
  raises : s.fcol.raises <+: u.fcol.raises
  events : ∀ k, hasEvent s k → hasEvent u k

theorem BesideModes.refl (s : State) : BesideModes s s :=
  ⟨rfl, rfl, rfl, rfl, rfl, rfl, rfl, fun _ _ => rfl, fun _ _ => rfl, List.prefix_rfl, fun _ h => h⟩

theorem BesideModes.trans {s t u : State} (h : BesideModes s t) (h' : BesideModes t u) : BesideModes s u where
  thr := h'.thr.trans h.thr
  flash := h'.flash.trans h.flash
  mem := h'.mem.trans h.mem
  boot := h'.boot.trans h.boot
  loop := h'.loop.trans h.loop
  waili := h'.waili.trans h.waili
  now := h'.now.trans h.now
  regs a ha := (h'.regs a ha).trans (h.regs a ha)
  stat i hi := (h'.stat i hi).trans (h.stat i hi)
  raises := h.raises.trans h'.raises
  events k hk := h'.events k (h.events k hk)

theorem BesideModes.ite {c : Prop} [Decidable c] {s u v : State} (hu : BesideModes s u) (hv : BesideModes s v) :
    BesideModes s (if c then u else v) := by
  split
  · exact hu
  · exact hv

/-- The blocks that a change of the modes may write. -/
theorem besideModes_rest (s : State) (ang : Ang) (evt : Evt) (adc : Adc) (out : Out) (kern : Kern) (plinth : Plinth)
    (trace : Trace) (modes : Modes) (xregs : List (Nat × Word)) :
    BesideModes s { s with
      ang := ang, evt := evt, adc := adc, out := out, kern := kern, plinth := plinth, trace := trace, modes := modes
      xregs := xregs } :=
  ⟨rfl, rfl, rfl, rfl, rfl, rfl, rfl, fun _ _ => rfl, fun _ _ => rfl, List.prefix_rfl, fun _ h => h⟩

/-- Nor did the modes, their record or the LIVE pin change. -/
structure Aside (s u : State) : Prop extends BesideModes s u where
  modes : u.modes = s.modes
  livePin : u.plinth.livePin = s.plinth.livePin
  modestat : reg u Reg.sys_MODESTAT = reg s Reg.sys_MODESTAT

/-- The registers that none of what follows writes. -/
def asideRegs : List Nat := Reg.sys_MODESTAT :: Reg.loop_STAT :: besideRegs

/-- An address is none of those records'. -/
theorem not_mem_asideRegs {a : Nat} (h : 0x40013 ≤ a) (h' : a < 0x43800 ∨ 0x43820 ≤ a ∧ a < 0x45000) : a ∉ asideRegs := by
  simp only [asideRegs, besideRegs, List.mem_cons, List.not_mem_nil, or_false, Reg.sys_CLKSTAT, Reg.sys_BOOTSTAT,
    Reg.sys_MODESTAT, Reg.sys_ARMSTAT, Reg.flash_CMT, Reg.loop_STAT, Reg.loop_RINFO, Reg.loop_SEQ, Reg.loop_LOST, Reg.loop_ERRA]
  omega

theorem Aside.refl (s : State) : Aside s s := ⟨.refl s, rfl, rfl, rfl⟩

theorem Aside.trans {s t u : State} (h : Aside s t) (h' : Aside t u) : Aside s u :=
  ⟨h.toBesideModes.trans h'.toBesideModes, h'.modes.trans h.modes, h'.livePin.trans h.livePin, h'.modestat.trans h.modestat⟩

theorem Aside.ite {c : Prop} [Decidable c] {s u v : State} (hu : Aside s u) (hv : Aside s v) :
    Aside s (if c then u else v) := by
  split
  · exact hu
  · exact hv

theorem aside_foldl {α : Type} {f : State → α → State} (l : List α) (hf : ∀ s, ∀ x ∈ l, Aside s (f s x)) (s : State) :
    Aside s (l.foldl f s) := by
  induction l generalizing s with
  | nil => exact .refl s
  | cons x l ih => exact (hf s x List.mem_cons_self).trans (ih (fun s y hy => hf s y (List.mem_cons_of_mem x hy)) _)

/-- Of the blocks that may be written, the modes and the LIVE pin are left out. -/
theorem aside_rest (s : State) (ang : Ang) (evt : Evt) (adc : Adc) (out : Out) (kern : Kern) (trace : Trace)
    (xregs : List (Nat × Word)) :
    Aside s { s with ang := ang, evt := evt, adc := adc, out := out, kern := kern, trace := trace, xregs := xregs } :=
  ⟨besideModes_rest s _ _ _ _ _ _ _ _ _, rfl, rfl, rfl⟩

/-- A change of registers alone, none of them one of `asideRegs`. -/
theorem aside_of_regs {s u : State} (h : ∀ a ∈ asideRegs, reg u a = reg s a) (hu : ∃ regs hw, u = { s with regs := regs, hw := hw }) :
    Aside s u := by
  have hstat : reg u Reg.loop_STAT = reg s Reg.loop_STAT := h _ (by decide)
  have hmode : reg u Reg.sys_MODESTAT = reg s Reg.sys_MODESTAT := h _ (by decide)
  have hbeside : ∀ a ∈ besideRegs, reg u a = reg s a := fun a ha =>
    h a (List.mem_cons_of_mem _ (List.mem_cons_of_mem _ ha))
  obtain ⟨regs, hw, rfl⟩ := hu
  exact ⟨⟨rfl, rfl, rfl, rfl, rfl, rfl, rfl, hbeside, fun i _ => congrArg (BitVec.getLsbD · i) hstat, List.prefix_rfl,
    fun _ h => h⟩, rfl, rfl, hmode⟩

theorem aside_setReg {a : Nat} (ha : a ∉ asideRegs) (v : Word) (s : State) : Aside s (setReg a v s) :=
  aside_of_regs (fun _ hb => reg_setReg_other v s (ne_of_mem_of_not_mem hb ha)) ⟨_, s.hw, rfl⟩

theorem aside_setReg32 {a : Nat} (ha : a ∉ asideRegs) (ha' : a + 1 ∉ asideRegs) (p : Pair) (s : State) :
    Aside s (setReg32 a p s) := (aside_setReg ha _ s).trans (aside_setReg ha' _ _)

theorem aside_setRegF {a : Nat} (ha : a ∉ asideRegs) (lo len v : Nat) (s : State) :
    Aside s (setRegF a lo len v s) := aside_setReg ha _ s

theorem aside_setRegBit {a : Nat} (ha : a ∉ asideRegs) (i : Nat) (b : Bool) (s : State) :
    Aside s (setRegBit a i b s) := aside_setReg ha _ s

theorem aside_hwSet {a : Nat} (ha : a ∉ asideRegs) (v : Word) (s : State) : Aside s (hwSet a v s) :=
  aside_of_regs (fun _ hb => reg_hwSet_other v s (ne_of_mem_of_not_mem hb ha)) (hwSet_eq a v s)

/-- No run state of the interrupt controller is among them. -/
theorem not_mem_runst_of_asideRegs {a : Nat} (ha : a ∈ asideRegs) : a ∉ runst :=
  not_mem_runst (by
    simp only [asideRegs, besideRegs, List.mem_cons, List.not_mem_nil, or_false, Reg.sys_CLKSTAT, Reg.sys_BOOTSTAT,
      Reg.sys_MODESTAT, Reg.sys_ARMSTAT, Reg.flash_CMT, Reg.loop_STAT, Reg.loop_RINFO, Reg.loop_SEQ, Reg.loop_LOST,
      Reg.loop_ERRA] at ha
    simp only [Reg.intc_RUNST]
    omega)

theorem aside_signal (n : Fin 96) (s : State) : Aside s (signal n s) :=
  have hreg : ∀ a ∈ asideRegs, reg (signal n s) a = reg s a := fun _ ha => reg_signal (not_mem_runst_of_asideRegs ha) n s
  ⟨⟨signal_thr n s, signal_flash n s, signal_mem n s, signal_boot n s, signal_loop n s, signal_waili n s, signal_now n s,
    fun a ha => hreg a (List.mem_cons_of_mem _ (List.mem_cons_of_mem _ ha)),
    fun i _ => congrArg (BitVec.getLsbD · i) (hreg _ (by decide)), signal_raises n s, fun _ h => hasEvent_signal h n⟩,
    signal_modes n s, congrArg Plinth.livePin (signal_plinth n s), hreg _ (by decide)⟩

theorem aside_raise (x : Raise) (s : State) : Aside s (raise x s) :=
  ⟨⟨rfl, rfl, rfl, rfl, rfl, rfl, rfl, fun _ _ => rfl, fun _ _ => rfl, List.prefix_append _ _, fun _ h => h⟩, rfl, rfl, rfl⟩

theorem aside_setKern (f : Kern → Kern) (s : State) : Aside s (setKern f s) := aside_rest s _ _ _ _ _ _ _

theorem aside_setEnt (n : Nat) (e : Ent) (s : State) : Aside s (setEnt n e s) := aside_rest s _ _ _ _ _ _ _

theorem aside_setEntWord (n i : Nat) (v : Word) (s : State) : Aside s (setEntWord n i v s) :=
  aside_rest s _ _ _ _ _ _ _

theorem aside_armEnt (n : Nat) (s : State) : Aside s (armEnt n s) := aside_setEnt n _ s

/-! ### Event Table and Kernel -/

theorem aside_targetOff (t : Nat) (pk : Byte) (s : State) : Aside s (targetOff t pk s) := by
  rw [targetOff]
  split
  · exact .refl s
  · exact aside_rest s _ _ _ _ _ _ _

theorem aside_endPulse (t : Nat) (s : State) : Aside s (endPulse t s) := aside_rest s _ _ _ _ _ _ _

theorem aside_knockAbort (n : Fin 2) (s : State) : Aside s (knockAbort n s) := by
  have ha : Reg.adc_KNS n ∉ asideRegs := not_mem_asideRegs (by simp only [Reg.adc_KNS]; omega) (by simp only [Reg.adc_KNS]; omega)
  rw [knockAbort]
  split
  · exact .refl s
  · exact Aside.trans (t := setKnock n none s) (aside_rest s _ _ _ _ _ _ _) (aside_hwSet ha _ _)

/-- The pulses an entry holds end. -/
theorem aside_endPulses (n : Nat) (l : List (Nat × Nat × Nat)) (s : State) :
    Aside s (l.foldl (fun s p => if p.2.2 = n then targetOff p.1 0 (endPulse p.1 s) else s) s) := by
  refine aside_foldl l (fun s p _ => ?_) s
  split
  · exact (aside_endPulse _ s).trans (aside_targetOff _ _ _)
  · exact .refl s

theorem aside_endHolds (n : Nat) (s : State) : Aside s (endHolds n s) := by
  have hpulses := aside_endPulses n s.evt.pulses s
  simp only [endHolds]
  split_ifs
  · exact hpulses.trans (aside_targetOff _ _ _)
  · exact hpulses.trans (aside_knockAbort _ _)
  · exact hpulses
  · exact hpulses

theorem aside_cancelEnt (n : Nat) (s : State) : Aside s (cancelEnt n s) := (aside_endHolds n s).trans (aside_setEnt _ _ _)

theorem aside_cancelWhere (p : Nat → Ent → Bool) (s : State) : Aside s (cancelWhere p s) :=
  aside_foldl (f := fun s (x : Nat × Ent) => cancelEnt x.1 s) _ (fun s x _ => aside_cancelEnt x.1 s) s

theorem aside_kernFree (s : State) : Aside s (kernFree s) := by
  unfold kernFree
  exact (aside_foldl (f := fun s (e : KEntry) => setEnt e.idx {} s) _ (fun s e _ => aside_setEnt _ _ s) s).trans
    (aside_setKern _ _)

theorem aside_clearPh (s : State) : Aside s (clearPh s) := by
  refine Aside.trans (aside_foldl _ (fun s k _ => aside_foldl _ (fun s n _ => ?_) s) s)
    (aside_setReg32 (by decide) (by decide) _ _)
  exact aside_setReg (not_mem_asideRegs (by simp only [phAddr]; omega) (by simp only [phAddr]; omega)) _ s

theorem aside_evalCut (s : State) : Aside s (evalCut s) := by
  refine .ite (aside_setKern _ s) ?_
  exact (aside_setKern _ s).trans ((aside_setKern _ _).trans (aside_signal 14 _))

theorem aside_kernArmModes (s : State) : Aside s (kernArmModes s) := by
  unfold kernArmModes
  exact (aside_setRegF (a := Reg.kern_MODE) (by decide) _ _ _ s).trans
    ((aside_setReg (a := Reg.kern_MPEND) (by decide) _ _).trans (aside_setKern _ _))

theorem aside_putEntry (i w0 w1 w2 w3 : Nat) (s : State) : Aside s (putEntry i w0 w1 w2 w3 s) :=
  (aside_setEntWord i 0 _ s).trans <| (aside_setEntWord i 1 _ _).trans <|
    (aside_setEntWord i 2 _ _).trans (aside_setEntWord i 3 _ _)

theorem aside_placeFixed (what n i : Nat) (s : State) : Aside s (placeFixed what n i s) := by
  simp only [placeFixed]
  split <;> exact aside_putEntry _ _ _ _ _ s

theorem aside_allocGo (l : List (Nat × Nat × Nat)) (failed : List Nat) (s : State) : Aside s (allocGo l failed s) := by
  induction l generalizing failed s with
  | nil => exact .refl s
  | cons x t ih =>
    obtain ⟨k, n, what⟩ := x
    rw [allocGo]
    split
    · exact ih _ _
    · split
      · exact ((aside_signal 11 s).trans ((aside_raise _ _).trans (aside_hwSet (by decide) _ _))).trans (ih _ _)
      · next i hi =>
        have htaken : Aside s (setEnt i { st := .cancelled } (setKern (fun q => { q with ents := q.ents ++ [⟨k, n, what, i⟩] }) s)) :=
          (aside_setKern _ s).trans (aside_setEnt _ _ _)
        refine (htaken.trans ?_).trans (ih _ _)
        split
        · exact (aside_placeFixed _ _ _ _).trans (aside_armEnt _ _)
        · exact aside_putEntry _ _ _ _ _ _

theorem aside_kernAlloc (s : State) : Aside s (kernAlloc s) := by
  rw [kernAlloc]
  split
  · exact aside_allocGo _ _ s
  · exact .refl s

theorem aside_firstHoming (s : State) : Aside s (firstHoming s) := by
  rw [firstHoming, startHoming]
  split_ifs
  · exact .refl s
  · exact aside_rest s _ _ _ _ _ _ _
  · exact .refl s

/-! ### The trace -/

theorem aside_traceDrain (s : State) : Aside s (traceDrain s) := by
  rw [traceDrain]
  split
  · exact aside_rest s _ _ _ _ _ _ _
  · exact .refl s

theorem aside_tracePut (hdr : Nat) (body : List Byte) (s : State) : Aside s (tracePut hdr body false s) := by
  simp only [tracePut]
  split
  · exact aside_rest s _ _ _ _ _ _ _
  · exact aside_rest s _ _ _ _ _ _ _

theorem aside_trace (f : Trace → Trace) (s : State) : Aside s { s with trace := f s.trace } :=
  aside_rest s _ _ _ _ _ _ _

theorem aside_traceTime (s : State) : Aside s (traceTime s) :=
  (aside_tracePut _ _ s).trans (aside_rest _ _ _ _ _ _ _ _)

theorem aside_traceSync (s : State) : Aside s (traceSync s) :=
  ((aside_tracePut _ _ s).trans (aside_trace (fun t => { t with since := 0 }) _)).trans (aside_traceTime _)

theorem aside_traceEmit (hdr : Nat) (body : List Byte) (s : State) : Aside s (traceEmit hdr body false s) := by
  have hlost : ∀ s : State, Aside s (if s.trace.lost ≠ 0 ∧ s.trace.fifo.length + 3 ≤ 64 then
      tracePut 0x90 [BitVec.ofNat 8 s.trace.lost] false { s with trace := { s.trace with lost := 0 } } else s) := by
    intro s
    split
    · exact (aside_trace (fun t => { t with lost := 0 }) s).trans (aside_tracePut _ _ _)
    · exact .refl s
  have hsync : ∀ s : State, Aside s (if 256 ≤ s.trace.since then traceSync s else s) := by
    intro s
    split
    · exact aside_traceSync s
    · exact .refl s
  have htime : ∀ s : State, Aside s (if s.trace.hi = some ((postmark s).toNat / 65536) then s else traceTime s) := by
    intro s
    split
    · exact .refl s
    · exact aside_traceTime s
  exact ((((aside_traceDrain s).trans (hlost _)).trans (hsync _)).trans (htime _)).trans (aside_tracePut _ _ _)

theorem aside_traceMode (code : Nat) (s : State) : Aside s (traceMode code s) := by
  rw [traceMode]
  split
  · exact aside_traceEmit _ _ s
  · exact .refl s

theorem aside_modeSignal (code : Nat) (s : State) : Aside s (modeSignal code s) :=
  (aside_signal 3 s).trans (aside_traceMode _ _)

theorem hasEvent_modeSignal (code : Nat) (s : State) : hasEvent (modeSignal code s) 3 :=
  (aside_traceMode _ _).events 3 (hasEvent_signal_same 3 s)

/-! ### The Armature applied (R170, R174, R180) -/

theorem aside_loadWord {a : Nat} (ha : a ∉ asideRegs) (ty i : Nat) (f : Word → Word) (s : State) :
    Aside s (loadWord ty i a f s) := by
  rw [loadWord]
  split
  · exact aside_setReg ha _ s
  · exact .refl s

theorem aside_srefOn (b : Bool) (s : State) : Aside s { s with plinth := { s.plinth with srefOn := b } } :=
  ⟨besideModes_rest s _ _ _ _ _ _ _ _ _, rfl, rfl, rfl⟩

theorem aside_loadSystem (s : State) : Aside s (loadSystem s) := by
  rw [loadSystem]
  split
  · exact .refl s
  · refine (aside_setRegBit (a := Reg.plinth_CORECFG) (by decide) _ _ s).trans <|
      (aside_setReg (a := Reg.plinth_AVSTGT) (by decide) _ _).trans <|
      (aside_setReg (a := Reg.plinth_HOLD) (by decide) _ _).trans <|
      (aside_setReg (a := Reg.plinth_WAKEEN) (by decide) _ _).trans <|
      (aside_setReg (a := Reg.plinth_SREFCFG) (by decide) _ _).trans <|
      (aside_srefOn _ _).trans <|
      (aside_setReg (a := Reg.waili_DIV) (by decide) _ _).trans <|
      (aside_setReg (a := Reg.waili_CTL) (by decide) _ _).trans (aside_setReg (a := Reg.fcol_WDCFG) (by decide) _ _)

theorem aside_loadPolicy (s : State) : Aside s (loadPolicy s) := by
  rw [loadPolicy]
  split
  · exact .refl s
  · refine (aside_foldl _ (fun s k hk => ?_) s).trans (aside_setReg (by decide) _ _)
    have hk := List.mem_range.mp hk
    exact aside_setReg (not_mem_asideRegs (by simp only [Reg.fcol_POL0]; omega) (by simp only [Reg.fcol_POL0]; omega)) _ s

theorem aside_loadAngleRegs (s : State) : Aside s (loadAngleRegs s) := by
  rw [loadAngleRegs]
  split
  · exact .refl s
  · refine (aside_setReg (a := Reg.ang_WHEEL) (by decide) _ s).trans <|
      (aside_setReg (a := Reg.ang_REFANG) (by decide) _ _).trans <|
      (aside_setReg (a := Reg.ang_CAMANG) (by decide) _ _).trans <|
      (aside_setReg (a := Reg.ang_MINPER) (by decide) _ _).trans <|
      (aside_setReg (a := Reg.ang_STALLT) (by decide) _ _).trans (aside_foldl _ (fun s n hn => ?_) _)
    have hn := List.mem_range.mp hn
    exact aside_setReg (not_mem_asideRegs (by simp only [Reg.ang_TDC]; omega) (by simp only [Reg.ang_TDC]; omega)) _ s

theorem aside_ang (a : Ang) (s : State) : Aside s { s with ang := a } := aside_rest s _ _ _ _ _ _ _

theorem aside_cycleChanged (old : Nat) (s : State) : Aside s (cycleChanged old s) := by
  rw [cycleChanged]
  split
  · exact .refl s
  · exact aside_cancelWhere _ s

theorem aside_angCfgWritten (s : State) : Aside s (angCfgWritten s) := by
  rw [angCfgWritten]
  split
  · exact aside_ang _ s
  · exact (aside_ang _ s).trans (aside_cycleChanged _ _)

theorem aside_loadAngle (s : State) : Aside s (loadAngle s) := by
  simp only [loadAngle]
  split
  · exact aside_loadAngleRegs s
  · exact (aside_loadAngleRegs s).trans (aside_angCfgWritten _)

theorem aside_kernLoad (s : State) : Aside s (kernLoad s) := by
  unfold kernLoad
  exact (aside_setReg (a := Reg.kern_MODE) (by decide) _ s).trans (aside_setKern _ _)

theorem aside_applyArmature (s : State) : Aside s (applyArmature s) := by
  have hwin : ∀ s : State, Aside s ((List.range 18).foldl (fun s i => loadWord 3 i (Reg.mon_WIN0 + i) id s) s) :=
    aside_foldl _ fun s i hi => by
      have hi := List.mem_range.mp hi
      exact aside_loadWord (not_mem_asideRegs (by simp only [Reg.mon_WIN0]; omega) (by simp only [Reg.mon_WIN0]; omega)) 3 i id s
  have hcfg : ∀ s : State, Aside s ((List.range 28).foldl (fun s i => loadWord 8 i (Reg.out_CFG 0 + i) id s) s) :=
    aside_foldl _ fun s i hi => by
      have hi := List.mem_range.mp hi
      exact aside_loadWord (not_mem_asideRegs (by simp only [Reg.out_CFG]; omega) (by simp only [Reg.out_CFG]; omega)) 8 i id s
  have hregs : Aside s (loadAngle (loadPolicy (loadSystem s))) :=
    (aside_loadSystem s).trans ((aside_loadPolicy _).trans (aside_loadAngle _))
  unfold applyArmature
  refine hregs.trans <| (hwin _).trans <| (aside_loadWord (a := Reg.mon_CFG) (by decide) 3 18 (· &&& 0xF) _).trans <|
    (hcfg _).trans <| (aside_loadWord (a := Reg.plinth_CHGCFG) (by decide) 9 0 id _).trans <|
    (aside_loadWord (a := Reg.plinth_CLAMP) (by decide) 9 1 id _).trans <|
    (aside_loadWord (a := Reg.loop_PIN) (by decide) 10 0 id _).trans <| (Aside.trans ?_ (aside_kernLoad _))
  split
  · exact aside_setReg (a := Reg.loop_ARM) (by decide) _ _
  · exact .refl _

theorem regBit_setRegBit_ne {i j : Nat} (h : j ≠ i) (a : Nat) (b : Bool) (s : State) :
    regBit (setRegBit a i b s) a j = regBit s a j := by
  by_cases hj : j < 16
  · rw [regBit_setRegBit _ _ _ _ _ hj, if_neg h]
  · rw [regBit, regBit, BitVec.getLsbD_of_ge _ _ (by omega), BitVec.getLsbD_of_ge _ _ (by omega)]

/-- The Loop's pin check changes LOOP.STAT.PINMM alone, and may raise. -/
theorem aside_pinCheck (s : State) : Aside s (pinCheck s) := by
  have hset : ∀ b, Aside s (setRegBit Reg.loop_STAT 9 b s) := fun b =>
    ⟨⟨rfl, rfl, rfl, rfl, rfl, rfl, rfl,
      fun a ha => reg_setRegBit_other _ _ _ (ne_of_mem_of_not_mem ha (by decide)),
      fun i hi => regBit_setRegBit_ne hi _ _ _, List.prefix_rfl, fun _ h => h⟩, rfl, rfl, reg_setRegBit_other _ _ _ (by decide)⟩
  simp only [pinCheck]
  split
  · exact (hset _).trans (aside_raise _ _)
  · exact hset _

theorem aside_applied (s : State) :
    Aside { s with waili := { s.waili with divEff := (reg s Reg.waili_DIV).toNat } } (applied s) := aside_pinCheck _

end Sys2Proof.Machine

/-! ## Entries to the modes, and the requests (R198-R208) -/

namespace Sys2Proof.Machine

/-- SETUP as it is entered: nothing waits for the boundary. -/
def setupMode (m : Modes) : Modes := { m with mode := .setup, pend := false }

theorem enterSetup_spec (s : State) : (enterSetup s).modes = setupMode s.modes ∧ (enterSetup s).plinth.livePin = false ∧
    reg (enterSetup s) Reg.sys_MODESTAT = reg s Reg.sys_MODESTAT ∧ hasEvent (enterSetup s) 3 := by
  unfold enterSetup
  extract_lets t v w
  have hv : Aside s v := ((aside_cancelWhere _ s).trans (aside_kernFree _)).trans (aside_clearPh _)
  have hend : Aside { w with plinth := { w.plinth with livePin := false } }
      (modeSignal 0 (evalCut { w with plinth := { w.plinth with livePin := false } })) :=
    (aside_evalCut _).trans (aside_modeSignal _ _)
  exact ⟨hend.modes.trans (congrArg setupMode hv.modes), hend.livePin, hend.modestat.trans hv.modestat,
    hasEvent_modeSignal _ _⟩

/-- LIMP as it is entered from cause `cause` of source `src` (R202). -/
def limpMode (src cause : Nat) (m : Modes) : Modes :=
  { m with mode := .limp, pend := false, lsrc := src, lcause := if src = 1 then cause else 0 }

/-- What `f` does after an allocation and a first homing, where SETUP is left. -/
theorem aside_leftSetup (c : Prop) [Decidable c] (s : State) : Aside s (if c then kernAlloc (firstHoming s) else s) :=
  .ite ((aside_firstHoming s).trans (aside_kernAlloc _)) (.refl s)

theorem enterLimp_spec (src cause : Nat) (s : State) :
    (enterLimp src cause s).modes = limpMode src cause s.modes ∧ (enterLimp src cause s).thr = s.thr ∧
    reg (enterLimp src cause s) Reg.sys_MODESTAT =
      putFld (reg s Reg.sys_MODESTAT) 8 8 (min 255 (fld (reg s Reg.sys_MODESTAT) 8 8 + 1)) ∧
    hasEvent (enterLimp src cause s) 3 := by
  unfold enterLimp
  extract_lets was t v w x
  have hv : reg v Reg.sys_MODESTAT = putFld (reg s Reg.sys_MODESTAT) 8 8 (min 255 (fld (reg s Reg.sys_MODESTAT) 8 8 + 1)) :=
    reg_hwCountF_same Reg.sys_MODESTAT 8 8 1 t
  have hend : Aside v (modeSignal 2 (evalCut x)) :=
    (aside_clearPh v).trans <| (aside_setReg (a := Reg.kern_MPEND) (by decide) _ _).trans <|
      (aside_leftSetup _ w).trans <| (aside_evalCut _).trans (aside_modeSignal _ _)
  exact ⟨hend.modes, hend.thr, hend.modestat.trans hv, hasEvent_modeSignal _ _⟩

/-- RUN as it is entered; from LIMP its tick is kept (R226). -/
def runMode (now : Nat) (m : Modes) : Modes :=
  { m with mode := .run, pend := false, runTick := if m.mode = .limp then some now else none }

theorem enterRun_spec (s : State) : (enterRun s).modes = runMode s.now s.modes ∧ (enterRun s).thr = s.thr ∧
    reg (enterRun s) Reg.sys_MODESTAT = reg s Reg.sys_MODESTAT ∧ hasEvent (enterRun s) 3 := by
  unfold enterRun
  extract_lets was t v w
  have hend : Aside t (modeSignal 1 (evalCut w)) :=
    (aside_kernArmModes t).trans <| (aside_leftSetup _ v).trans <| (aside_evalCut _).trans (aside_modeSignal _ _)
  exact ⟨hend.modes, hend.thr, hend.modestat, hasEvent_modeSignal _ _⟩

theorem exec_modeSetupRequest (m : Master) (s : State) : exec (.modeSetupRequest m) s = act (requestBy m .setup) s := rfl

theorem requestBy_of_privileged {m : Master} (hm : privileged m = true) (q : ModeReq) (s : State) :
    requestBy m q s = modeRequest false q s := by
  rw [requestBy, if_pos hm]

/-- A SETUP request by a permitted master. -/
theorem modeRequest_setup (w : Bool) (s : State) : modeRequest w .setup s =
    if s.modes.mode = .setup then setRefuse 0 (setModes (fun m => { m with waitCommit := none, reapply := none }) s)
    else enterSetup (setRefuse 0 s) := by
  unfold modeRequest
  cases s.modes.mode <;> rfl

theorem setupRequest_outcome (w : Bool) (r : State) :
    let u := modeRequest w .setup r
    u.modes.mode = .setup ∧ (r.modes.mode = .setup → u.modes.reapply.isNone = true) ∧ refuseOf u = 0 ∧
      u.modes.pend = (decide (r.modes.mode = .setup) && r.modes.pend) ∧
      (r.modes.mode ≠ .setup → hasEvent u 3 ∧ u.plinth.livePin = false) ∧ (r.modes.mode = .setup → u.intc = r.intc) := by
  dsimp only
  rw [modeRequest_setup]
  by_cases h : r.modes.mode = .setup
  · rw [if_pos h]
    exact ⟨h, fun _ => rfl, refuseOf_setRefuse (by decide) _, by simp [h, setRefuse, setModes], fun h' => absurd h h',
      fun _ => rfl⟩
  · rw [if_neg h]
    obtain ⟨hmodes, hlive, hstat, hev⟩ := enterSetup_spec (setRefuse 0 r)
    have hrefuse : refuseOf (enterSetup (setRefuse 0 r)) = 0 := by
      rw [refuseOf, hstat]
      exact refuseOf_setRefuse (by decide) r
    exact ⟨hmodes ▸ rfl, fun h' => absurd h' h, hrefuse, by rw [hmodes]; simp [h, setupMode], fun _ => ⟨hev, hlive⟩,
      fun h' => absurd h' h⟩

theorem limpRequest_of_run (w : Bool) {s : State} (h : s.modes.mode = .run) :
    modeRequest w .limp s = enterLimp 2 0 (setRefuse 0 s) := by
  simp only [modeRequest, h]

theorem limpRequest_of_limp (w : Bool) {s : State} (h : s.modes.mode = .limp) :
    modeRequest w .limp s = setRefuse 0 (setModes (fun m => { m with pend := false }) s) := by
  simp only [modeRequest, h]

theorem limpRequest_outcome (w : Bool) {r : State} (h : r.modes.mode = .run) :
    let u := modeRequest w .limp r
    u.modes.mode = .limp ∧ u.modes.lsrc = 2 ∧ u.modes.lcause = 0 ∧ u.modes.pend = false ∧ refuseOf u = 0 ∧
      fld (reg u Reg.sys_MODESTAT) 8 8 = min 255 (fld (reg r Reg.sys_MODESTAT) 8 8 + 1) ∧ hasEvent u 3 := by
  obtain ⟨hmodes, -, hstat, hev⟩ := enterLimp_spec 2 0 (setRefuse 0 r)
  have hold : reg (setRefuse 0 r) Reg.sys_MODESTAT = putFld (reg r Reg.sys_MODESTAT) 0 4 0 := reg_setRegF_same _ _ _ _ _
  dsimp only
  rw [limpRequest_of_run w h, refuseOf, hmodes, hstat, hold]
  refine ⟨rfl, rfl, rfl, rfl, ?_, ?_, hev⟩
  · rw [fld_putFld_other _ _ _ _ _ _ (by decide) (by decide), fld_putFld _ _ _ _ (by decide), Nat.zero_mod]
  · rw [fld_putFld _ _ _ _ (by decide), fld_putFld_other _ _ _ _ _ _ (by decide) (by decide)]
    omega

theorem runRequest_of_limp (w : Bool) {s : State} (h : s.modes.mode = .limp) : modeRequest w .run s =
    if (runRefused s).1 ≠ 0 then setRefuse (runRefused s).1 s
    else if angSync s then setRefuse 0 (setModes (fun m => { m with pend := true }) s)
    else enterRun (setRefuse 0 s) := by
  simp only [modeRequest, h]

theorem runRequest_outcome (w : Bool) {r : State} (h : r.modes.mode = .limp) :
    let u := modeRequest w .run r
    refuseOf u = (runRefused r).1 ∧
      if (runRefused r).1 ≠ 0 then u.modes = r.modes
      else if angSync r then u.modes = { r.modes with pend := true } ∧ u.intc = r.intc
      else u.modes.mode = .run ∧ u.modes.pend = false ∧ hasEvent u 3 := by
  obtain ⟨hmodes, -, hstat, hev⟩ := enterRun_spec (setRefuse 0 r)
  have hzero : refuseOf (enterRun (setRefuse 0 r)) = 0 := by
    rw [refuseOf, hstat]
    exact refuseOf_setRefuse (by decide) r
  dsimp only
  rw [runRequest_of_limp w h]
  split
  · next hc => exact ⟨refuseOf_setRefuse (runRefused_fst_lt r) r, rfl⟩
  · next hc =>
    rw [not_not.mp hc]
    split
    · exact ⟨refuseOf_setRefuse (by decide) _, rfl, rfl⟩
    · rw [hmodes]
      exact ⟨hzero, rfl, rfl, hev⟩

/-! ### The re-application ends (R206) -/

/-- The transition `p` takes effect. -/
def transitionEnds (p : Reapply) (s : State) : State :=
  match p.l3, p.target with
  | some (src, c), _ => enterLimp src c s
  | none, .run => enterRun s
  | none, _ => enterLimp p.lsrc p.lcause s

theorem transitionEnds_spec (p : Reapply) (s : State) :
    (transitionEnds p s).modes.mode = (if p.l3.isSome then .limp else if p.target = .run then .run else .limp) ∧
    (transitionEnds p s).modes.reapply = s.modes.reapply ∧ (transitionEnds p s).thr = s.thr ∧
    hasEvent (transitionEnds p s) 3 := by
  obtain ⟨hmode, hthr, -, hev⟩ := enterRun_spec s
  unfold transitionEnds
  cases hl : p.l3 with
  | some x =>
    obtain ⟨hmode, hthr, -, hev⟩ := enterLimp_spec x.1 x.2 s
    exact ⟨congrArg Modes.mode hmode, (congrArg Modes.reapply hmode :), hthr, hev⟩
  | none =>
    obtain ⟨hlimp, hlthr, -, hlev⟩ := enterLimp_spec p.lsrc p.lcause s
    cases p.target with
    | run => exact ⟨congrArg Modes.mode hmode, (congrArg Modes.reapply hmode :), hthr, hev⟩
    | limp => exact ⟨congrArg Modes.mode hlimp, (congrArg Modes.reapply hlimp :), hlthr, hlev⟩
    | setup => exact ⟨congrArg Modes.mode hlimp, (congrArg Modes.reapply hlimp :), hlthr, hlev⟩

theorem reapplied_of_none_waiting {p : Reapply} {s : State} (h : s.modes.reapply = some p) (hw : p.waiting = none) :
    reapplied s = transitionEnds p (setModes (fun m => { m with reapply := none }) (applyArmature s)) := by
  rw [reapplied, h]
  dsimp only
  rw [hw]
  rfl

theorem reapplied_outcome {p : Reapply} {r : State} (h : r.modes.reapply = some p) (hw : p.waiting = none) :
    let u := applied (reapplied r)
    u.modes.reapply.isNone = true ∧ u.modes.mode = (if p.l3.isSome then .limp else if p.target = .run then .run else .limp) ∧
      hasEvent u 3 ∧ u.thr.owner = r.thr.owner := by
  obtain ⟨hmode, hreapply, hthr, hev⟩ :=
    transitionEnds_spec p (setModes (fun m => { m with reapply := none }) (applyArmature r))
  have hend := aside_applied (reapplied r)
  rw [← reapplied_of_none_waiting h hw] at hmode hreapply hthr hev
  refine ⟨?_, hend.modes ▸ hmode, hend.events 3 hev, ?_⟩
  · rw [hend.modes, hreapply]
    rfl
  · rw [hend.thr, hthr, setModes_thr, (aside_applyArmature r).thr]

theorem exec_reapplicationComplete (s : State) : exec .reapplicationComplete s =
    act (fun s => if s.modes.reapply.isSome then applied (reapplied s) else s) s := rfl

/-- Settles O20: each request by the outcome lemma of its mode, the re-application by `reapplied_outcome`. -/
theorem modeRequestsTakeEffect : Obligations.ModeRequestsTakeEffect := by
  unfold Obligations.ModeRequestsTakeEffect
  intro s m hup
  refine ⟨Acts.of (exec_modeSetupRequest m s) hup ?setup,
    Acts.of (exec_modeLimpRequest m s) hup fun hm => ?limp,
    Acts.of (exec_modeRunRequest m s) hup fun hm => ?run,
    Acts.of (exec_reapplicationComplete s) hup ?complete⟩
  all_goals generalize ready _ s = r
  case setup =>
    split
    · next hm =>
      rw [requestBy_of_not_privileged hm]
      exact ⟨refuseOf_setRefuse (by decide) r, rfl⟩
    · next hm =>
      rw [requestBy_of_privileged (by simpa using hm)]
      exact setupRequest_outcome false r
  case limp =>
    rw [requestBy_of_privileged hm]
    refine ⟨limpRequest_outcome false, fun h => ?_⟩
    rw [limpRequest_of_limp false h]
    exact ⟨refuseOf_setRefuse (by decide) _, rfl, rfl⟩
  case run =>
    rw [requestBy_of_privileged hm]
    refine ⟨fun h => ?_, runRequest_outcome false⟩
    rw [show modeRequest false .run r = setRefuse 0 r by simp only [modeRequest, h]]
    exact ⟨refuseOf_setRefuse (by decide) _, rfl, rfl⟩
  case complete =>
    refine ⟨fun h => if_neg (by simpa using h), fun p hp hw => ?_⟩
    rw [if_pos (by rw [hp]; rfl)]
    exact reapplied_outcome hp hw

end Sys2Proof.Machine

/-! ## The state a command acts on (R38, R646-R648, R893)

Before a command the ticks pass, the output commands under way arrive, and a letter that is due is composed. -/

namespace Sys2Proof.Machine

/-- The first register of the blocks behind THR: below it, output commands write nothing. -/
abbrev thrEnd : Nat := 0x41000

/-- What the arrival of output commands leaves as it is. -/
structure Arrived (s u : State) : Prop where
  eq : ∃ out regs hw intc raises,
    u = { s with out := out, regs := regs, hw := hw, intc := intc, fcol := { s.fcol with raises := raises } }
  regs : ∀ a < thrEnd, reg u a = reg s a

theorem Arrived.refl (s : State) : Arrived s s := ⟨⟨s.out, s.regs, s.hw, s.intc, s.fcol.raises, rfl⟩, fun _ _ => rfl⟩

theorem Arrived.trans {s t u : State} (h : Arrived s t) (h' : Arrived t u) : Arrived s u := by
  refine ⟨?_, fun a ha => (h'.regs a ha).trans (h.regs a ha)⟩
  obtain ⟨_, _, _, _, _, rfl⟩ := h.eq
  obtain ⟨_, _, _, _, _, rfl⟩ := h'.eq
  exact ⟨_, _, _, _, _, rfl⟩

theorem arrived_foldl {α : Type} {f : State → α → State} (hf : ∀ s x, Arrived s (f s x)) (l : List α) (s : State) :
    Arrived s (l.foldl f s) := by
  induction l generalizing s with
  | nil => exact .refl s
  | cons x l ih => exact (hf s x).trans (ih _)

theorem arrived_setStage (i : Nat) (f : Stage → Stage) (s : State) : Arrived s (setStage i f s) := by
  rw [setStage]
  split
  · exact ⟨⟨_, s.regs, s.hw, s.intc, s.fcol.raises, rfl⟩, fun _ _ => rfl⟩
  · exact .refl s

theorem arrived_setReg {a : Nat} (ha : thrEnd ≤ a) (v : Word) (s : State) : Arrived s (setReg a v s) :=
  ⟨⟨s.out, _, s.hw, s.intc, s.fcol.raises, rfl⟩, fun _ hb => reg_setReg_other v s (by omega)⟩

theorem arrived_hwSet {a : Nat} (ha : thrEnd ≤ a) (v : Word) (s : State) : Arrived s (hwSet a v s) := by
  obtain ⟨regs, hw, h⟩ := hwSet_eq a v s
  exact ⟨⟨s.out, regs, hw, s.intc, s.fcol.raises, h⟩, fun _ hb => reg_hwSet_other v s (by omega)⟩

theorem arrived_signal (n : Fin 96) (s : State) : Arrived s (signal n s) := by
  obtain ⟨regs, hw, intc, raises, h⟩ := signal_eq n s
  exact ⟨⟨s.out, regs, hw, intc, raises, h⟩, fun a ha => reg_signal (not_mem_runst (.inl (by
    simp only [thrEnd, Reg.intc_RUNST] at ha ⊢; omega))) n s⟩

theorem arrived_diagLatched (i : Fin 16) (b : Nat) (s : State) : Arrived s (diagLatched i b s) := by
  have hset : Arrived s (hwSet (Reg.out_DIAG i) (wd (2 ^ b)) s) := arrived_hwSet (by simp only [thrEnd, Reg.out_DIAG]; omega) _ s
  have hlatch : ∀ (k : Nat) (s : State), Arrived s (setRegBit Reg.out_LATCH k true s) :=
    fun k s => arrived_setReg (by decide) _ s
  simp only [diagLatched]
  split_ifs
  · exact hset.trans (hlatch _ _)
  · exact (hset.trans (hlatch _ _)).trans (hlatch _ _)
  · exact hset

theorem arrived_setDiag (i : Fin 16) (b : Nat) (s : State) : Arrived s (setDiag i b s) := by
  have hraise : ∀ x s, Arrived s (raise x s) := fun x s =>
    ⟨⟨s.out, s.regs, s.hw, s.intc, _, rfl⟩, fun _ _ => rfl⟩
  rw [setDiag_cases]
  split
  · exact arrived_diagLatched i b s
  · exact ((arrived_diagLatched i b s).trans (hraise _ _)).trans (arrived_signal _ _)

theorem arrived_endDwell (i : Fin 16) (pk : Byte) (s : State) : Arrived s (endDwell i pk s) := by
  have hipk : ∀ v, Arrived s (setReg (Reg.out_IPK i) v s) := fun v =>
    arrived_setReg (by simp only [thrEnd, Reg.out_IPK]; omega) v s
  unfold endDwell
  extract_lets _ _ _ _ t
  split
  · exact (hipk _).trans (arrived_setDiag _ _ _)
  · exact hipk _

theorem arrived_stageOnCmd (i : Nat) (s : State) : Arrived s (stageOnCmd i s) := by
  simp only [stageOnCmd]
  split
  · exact .refl s
  · exact arrived_setStage _ _ s

theorem arrived_stageOffCmd (i : Nat) (pk : Byte) (s : State) : Arrived s (stageOffCmd i pk s) := by
  simp only [stageOffCmd]
  split_ifs
  · exact .refl s
  · exact (arrived_endDwell _ _ s).trans (arrived_setStage _ _ _)
  · exact arrived_setStage _ _ s

theorem arrived_targetCmd (c : OutCmd) (s : State) : Arrived s (targetCmd c s) := by
  simp only [targetCmd]
  split_ifs
  · exact arrived_stageOnCmd _ s
  · exact arrived_stageOffCmd _ _ s
  · exact arrived_setReg (by simp only [thrEnd, Reg.gpio_PCFG]; omega) _ s
  · exact .refl s
  · exact .refl s

theorem arrived_flushOut (s : State) : Arrived s (flushOut s) :=
  Arrived.trans (t := { s with out := { s.out with queue := s.out.queue.filter (fun c => !decide (c.tick ≤ s.now)) } })
    ⟨⟨_, s.regs, s.hw, s.intc, s.fcol.raises, rfl⟩, fun _ _ => rfl⟩ (arrived_foldl (fun s c => arrived_targetCmd c s) _ _)

theorem letterTick_eq (s : State) : ∃ loop, letterTick s = { s with loop := loop } := by
  rw [letterTick]
  split
  · exact ⟨s.loop, rfl⟩
  · split_ifs
    · exact ⟨s.loop, rfl⟩
    · split
      · exact ⟨_, rfl⟩
      · exact ⟨_, rfl⟩

theorem elapse_eq (dt : Nat) (s : State) : ∃ ticks out regs hw intc raises, elapse dt s =
    { s with now := s.now + dt, plinth := { s.plinth with turnTicks := ticks }, out := out, regs := regs, hw := hw,
             intc := intc, fcol := { s.fcol with raises := raises } } := by
  obtain ⟨out, regs, hw, intc, raises, h⟩ := (arrived_flushOut (advance dt s)).eq
  exact ⟨_, out, regs, hw, intc, raises, h⟩

theorem reg_elapse {a : Nat} (ha : a < thrEnd) (dt : Nat) (s : State) : reg (elapse dt s) a = reg s a :=
  (arrived_flushOut (advance dt s)).regs a ha

/-- A command acts on the state of its tick. -/
theorem ready_eq (dt : Nat) (s : State) : ∃ ticks out regs hw intc raises loop, ready dt s =
    { s with now := s.now + dt, plinth := { s.plinth with turnTicks := ticks }, out := out, regs := regs, hw := hw,
             intc := intc, fcol := { s.fcol with raises := raises }, loop := loop } := by
  obtain ⟨ticks, out, regs, hw, intc, raises, h⟩ := elapse_eq dt s
  obtain ⟨loop, hl⟩ := letterTick_eq (elapse dt s)
  rw [h] at hl
  rw [ready, h]
  exact ⟨ticks, out, regs, hw, intc, raises, loop, hl⟩

theorem reg_ready {a : Nat} (ha : a < thrEnd) (dt : Nat) (s : State) : reg (ready dt s) a = reg s a := by
  obtain ⟨loop, hl⟩ := letterTick_eq (elapse dt s)
  rw [← reg_elapse ha dt s, ready, hl]
  rfl

@[simp] theorem ready_now (dt : Nat) (s : State) : (ready dt s).now = s.now + dt := by
  obtain ⟨_, _, _, _, _, _, _, h⟩ := ready_eq dt s
  rw [h]

@[simp] theorem ready_thr (dt : Nat) (s : State) : (ready dt s).thr = s.thr := by
  obtain ⟨_, _, _, _, _, _, _, h⟩ := ready_eq dt s
  rw [h]

@[simp] theorem ready_onBackup (dt : Nat) (s : State) : onBackup (ready dt s) = onBackup s :=
  congrArg (fun w : Word => w.getLsbD 15) (reg_ready (a := Reg.sys_CLKSTAT) (by decide) dt s)

@[simp] theorem ready_clkTicks (dt : Nat) (s : State) : clkTicks (ready dt s) = clkTicks s := by
  rw [clkTicks, ready_onBackup, ← clkTicks]

theorem clkTicks_pos (s : State) : 0 < clkTicks s := by
  rw [clkTicks]
  split <;> decide

/-- The state a timed command acts on is not before its tick. -/
theorem le_ready_ticksTo (due : Nat) (s : State) : due ≤ s.now + ticksTo due s := by
  have hpos := clkTicks_pos s
  have h := Nat.lt_mul_div_succ (due - s.now + clkTicks s - 1) hpos
  rw [ticksTo, Nat.mul_comm]
  rw [Nat.mul_add, Nat.mul_one] at h
  omega

end Sys2Proof.Machine

/-! ## The issue wheel and the thread timers (R241, R249) -/

namespace Sys2Proof.Machine

/-- The tick at which the pointer comes to slot 0 is a whole number of CLK periods ahead. -/
theorem ticksTo_wheelDue (s : State) : ticksTo (wheelDue s) s = (16 - slotNow s) * clkTicks s := by
  have hpos := clkTicks_pos s
  rw [ticksTo, wheelDue]
  congr 1
  rw [show s.now + (16 - slotNow s) * clkTicks s - s.now + clkTicks s - 1 =
    (clkTicks s - 1) + (16 - slotNow s) * clkTicks s by omega, Nat.add_mul_div_right _ _ hpos,
    Nat.div_eq_of_lt (by omega), Nat.zero_add]

theorem slotNow_ready_wheelDue {s : State} (h : s.thr.slotTick ≤ s.now) :
    slotNow (ready (ticksTo (wheelDue s) s) s) = 0 := by
  have hpos := clkTicks_pos s
  rw [slotNow, ready_now, ready_thr, ready_clkTicks, ticksTo_wheelDue,
    show s.now + (16 - slotNow s) * clkTicks s - s.thr.slotTick =
      (s.now - s.thr.slotTick) + (16 - slotNow s) * clkTicks s by omega,
    Nat.add_mul_div_right _ _ hpos, slotNow]
  omega

/-- The wheel words written so far. -/
structure WheelWritten (l : List (Fin 4)) (s u : State) : Prop where
  eq : { u with regs := s.regs } = s
  words : ∀ w : Fin 4, reg u (Reg.thr_WHEEL0 + w.val) = if w ∈ l then s.thr.shadow[w] else reg s (Reg.thr_WHEEL0 + w.val)
  others : RegsBut wheelRegs s u

theorem mem_wheelRegs (w : Fin 4) : Reg.thr_WHEEL0 + w.val ∈ wheelRegs :=
  List.mem_map_of_mem (List.mem_range.mpr w.isLt)

theorem wheelWritten_foldl (l : List (Fin 4)) (s : State) :
    WheelWritten l s (l.foldl (fun s w => setReg (Reg.thr_WHEEL0 + w.val) s.thr.shadow[w] s) s) := by
  induction l generalizing s with
  | nil => exact ⟨rfl, fun _ => by simp, fun _ _ => rfl⟩
  | cons x l ih =>
    obtain ⟨heq, hwords, hothers⟩ := ih (setReg (Reg.thr_WHEEL0 + x.val) s.thr.shadow[x] s)
    refine ⟨(congrArg (fun u : State => { u with regs := s.regs }) heq :), fun w => ?_, fun a ha => ?_⟩
    · rw [List.foldl_cons, hwords, setReg_thr]
      by_cases hl : w ∈ l
      · simp [hl]
      · by_cases hx : w = x
        · subst hx
          simp [hl]
        · rw [if_neg hl, if_neg (by simp [hl, hx]), reg_setReg_other _ _ (by omega)]
    · rw [List.foldl_cons, hothers a ha, reg_setReg_other _ _ (ne_of_mem_of_not_mem (mem_wheelRegs x) ha).symm]

theorem applyWheel_spec (s : State) : (applyWheel s).thr.wpend = false ∧
    (∀ w : Fin 4, reg (applyWheel s) (Reg.thr_WHEEL0 + w.val) = s.thr.shadow[w]) ∧ RegsBut wheelRegs s (applyWheel s) ∧
    { applyWheel s with regs := s.regs, thr := { (applyWheel s).thr with wpend := s.thr.wpend } } = s := by
  obtain ⟨heq, hwords, hothers⟩ := wheelWritten_foldl (List.finRange 4) s
  refine ⟨rfl, fun w => (hwords w).trans (if_pos (List.mem_finRange w)), hothers, ?_⟩
  exact (congrArg (fun u : State => { u with thr := { u.thr with wpend := s.thr.wpend } }) heq :)

theorem exec_wcmt (m : Master) (s : State) : exec (.wcmt m) s = act (wcmtWrite m 1) s := rfl

theorem exec_wheelCommitApply (s : State) : exec .wheelCommitApply s = actDue wheelDue wheelCommit s := rfl

theorem exec_threadTimerWrite (m : Master) (t : Fin 8) (v : Word) (s : State) :
    exec (.threadTimerWrite m t v) s = act (timerWrite m t v) s := rfl

theorem exec_threadTimerExpiry (t : Fin 8) (s : State) :
    exec (.threadTimerExpiry t) s = actDue (fun s => timerDue s t) (timerExpiry t) s := rfl

/-! ### Threads written -/

@[simp] theorem thread_setThread_same (t : Fin 8) (f : Thread → Thread) (s : State) :
    thread (setThread t f s) t = f (thread s t) := by
  simp [thread, setThread]

theorem thread_setThread_other {t x : Fin 8} (f : Thread → Thread) (s : State) (h : x ≠ t) :
    thread (setThread t f s) x = thread s x := by
  simp [thread, setThread, Fin.val_inj, Ne.symm h]

/-- An event that a thread takes changes its latch alone. -/
theorem thread_setEvent_other {t x : Fin 8} (b : Nat) (s : State) (h : x ≠ t) : thread (setEvent t b s) x = thread s x := by
  rw [setEvent]
  split
  · rfl
  · exact thread_setThread_other _ s h

theorem thread_setEvent_same (t : Fin 8) (b : Nat) (s : State) : thread (setEvent t b s) t =
    if shownState (thread s t) = .stopped then thread s t
    else { thread s t with latch := putBit (thread s t).latch b true } := by
  simp only [setEvent, isStopped, beq_iff_eq]
  split
  · rfl
  · exact thread_setThread_same t _ s

theorem setEvent_frame (t : Fin 8) (b : Nat) (s : State) : { setEvent t b s with thr := s.thr } = s := by
  rw [setEvent]
  split <;> rfl

/-! ### The timers -/

theorem timerWrite_spec {m : Master} {t : Fin 8} (hm : privileged m = true ∨ m = .thread t) (v : Word) (s : State) :
    let u := timerWrite m t v s
    (∀ x : Fin 8, x ≠ t → thread u x = thread s x) ∧ { u with thr := s.thr } = s ∧
      thread u t = if (thread s t).st = .halted then
          { thread s t with tmrLeft := if v = 0 then none else some (v.toNat * 160) }
        else { thread s t with tmr := if v = 0 then none else some (s.now + v.toNat * 160) } := by
  dsimp only
  rw [timerWrite, if_pos (by simpa using hm), setTimer]
  refine ⟨fun x hx => thread_setThread_other _ s hx, rfl, ?_⟩
  rw [thread_setThread_same]
  exact if_congr beq_iff_eq rfl rfl

/-- The latch of a thread whose countdown ends. -/
theorem putBit_ten (w : Word) : putBit w 10 true = w ||| 0x400 := by
  refine BitVec.eq_of_getLsbD_eq fun i hi => ?_
  rw [getLsbD_putBit w 10 i true hi, BitVec.getLsbD_or, show (0x400 : Word) = wd (2 ^ 10) from rfl,
    getLsbD_wd_two_pow 10 i hi]
  by_cases h : i = 10 <;> simp [h, eq_comm, -BitVec.getLsbD_eq_getElem]

theorem timerExpiry_of_none {t : Fin 8} {s : State} (h : (thread s t).tmr = none) : timerExpiry t s = s := by
  simp [timerExpiry, h]

theorem timerExpiry_spec {t : Fin 8} {s : State} (h : (thread s t).tmr.isSome = true) :
    let u := timerExpiry t s
    (∀ x : Fin 8, x ≠ t → thread u x = thread s x) ∧ { u with thr := s.thr } = s ∧
      thread u t = { thread s t with
        tmr := none
        latch := if shownState (thread s t) = .stopped then (thread s t).latch else (thread s t).latch ||| 0x400 } := by
  dsimp only
  rw [timerExpiry, if_pos h]
  refine ⟨fun x hx => ?_, ?_, ?_⟩
  · rw [thread_setEvent_other _ _ hx, thread_setThread_other _ _ hx]
  · exact (congrArg (fun u : State => { u with thr := s.thr }) (setEvent_frame t 10 _) :)
  · rw [thread_setEvent_same, thread_setThread_same, putBit_ten]
    change (if shownState (thread s t) = .stopped then _ else _) = _
    split <;> rfl

/-- Settles O24: the commit by `applyWheel_spec`, the timers by `timerWrite_spec` and `timerExpiry_spec`. -/
theorem wheelAndTimersKeepTheirRules : Obligations.WheelAndTimersKeepTheirRules := by
  unfold Obligations.WheelAndTimersKeepTheirRules
  intro s m t v hup
  refine ⟨Acts.of (exec_wcmt m s) hup ?wcmt, ActsAt.of (exec_wheelCommitApply s) hup ?wheel,
    Acts.of (exec_threadTimerWrite m t v s) hup ?write, ActsAt.of (exec_threadTimerExpiry t s) hup ?expiry⟩
  case wcmt =>
    simp [wcmtWrite]
  case wheel =>
    have hslot := slotNow_ready_wheelDue (s := s)
    generalize ready _ s = r at hslot
    obtain ⟨hpend, hwords, hregs, hframe⟩ := applyWheel_spec r
    by_cases hnow : r.thr.wpend = true ∧ slotNow r = 0
    · rw [show wheelCommit r = applyWheel r by simp [wheelCommit, hnow]]
      refine ⟨hslot, fun _ => hpend, fun h => absurd hnow h, fun w => ?_, hregs, ?_⟩
      · rw [hwords, if_pos hnow]
      · exact (congrArg (fun u : State => { u with hw := r.hw }) hframe :)
    · rw [show wheelCommit r = r by simpa [wheelCommit] using fun h h' => absurd ⟨h, h'⟩ hnow]
      exact ⟨hslot, fun h => absurd h hnow, fun _ => rfl, fun w => (if_neg hnow).symm, fun _ _ => rfl, rfl⟩
  case write =>
    generalize ready _ s = r
    split
    · next hm => exact timerWrite_spec hm v r
    · next hm => exact if_neg (by simpa using hm)
  case expiry =>
    refine ⟨timerExpiry_of_none, fun h => ⟨fun d hd => ?_, timerExpiry_spec h⟩⟩
    rw [thread, ready_thr, ← thread] at hd
    rw [ready_now]
    have hdue : timerDue s t = d := by rw [timerDue, hd]; rfl
    exact hdue ▸ le_ready_ticksTo (timerDue s t) s

end Sys2Proof.Machine

/-! ## What follows a command of itself (R803, R816, R1022)

The edges of a freeze, the answers Waili owes and the settling of the lines change neither the threads nor the memory. -/

namespace Sys2Proof.Machine

/-- The registers of the coil peaks (R721) and of the ion peaks (R689). -/
def IsPeak (a : Nat) : Prop := (∃ n : Fin 16, a = Reg.out_IPK n) ∨ ∃ n : Fin 4, a = Reg.adc_IPK n

/-- Where the peak registers lie. -/
theorem IsPeak.bounds {a : Nat} (h : IsPeak a) :
    (Reg.out_IPK 0 ≤ a ∧ a < Reg.out_IPK 16) ∨ (Reg.adc_IPK 0 ≤ a ∧ a < Reg.adc_IPK 4) := by
  simp only [Reg.out_IPK, Reg.adc_IPK]
  obtain ⟨n, rfl⟩ | ⟨n, rfl⟩ := h
  · simp only [Reg.out_IPK]
    omega
  · simp only [Reg.adc_IPK]
    omega

/-- The parts of the state that what follows a command may change; of the registers it leaves the peaks. -/
structure Follows (s u : State) : Prop where
  eq : ∃ regs hw lines intc fcol flash out evt adc can loop waili chisel,
    u = { s with
      regs := regs, hw := hw, lines := lines, intc := intc, fcol := fcol, flash := flash, out := out, evt := evt
      adc := adc, can := can, loop := loop, waili := waili, chisel := chisel }
  peak : ∀ a, IsPeak a → reg u a = reg s a

theorem Follows.refl (s : State) : Follows s s :=
  ⟨⟨s.regs, s.hw, s.lines, s.intc, s.fcol, s.flash, s.out, s.evt, s.adc, s.can, s.loop, s.waili, s.chisel, rfl⟩, fun _ _ => rfl⟩

theorem Follows.trans {s t u : State} (h : Follows s t) (h' : Follows t u) : Follows s u := by
  refine ⟨?_, fun a ha => (h'.peak a ha).trans (h.peak a ha)⟩
  obtain ⟨_, _, _, _, _, _, _, _, _, _, _, _, _, rfl⟩ := h.eq
  obtain ⟨_, _, _, _, _, _, _, _, _, _, _, _, _, rfl⟩ := h'.eq
  exact ⟨_, _, _, _, _, _, _, _, _, _, _, _, _, rfl⟩

theorem Follows.ite {c : Prop} [Decidable c] {s u v : State} (hu : Follows s u) (hv : Follows s v) :
    Follows s (if c then u else v) := by
  split
  · exact hu
  · exact hv

theorem follows_foldl {α : Type} {f : State → α → State} (hf : ∀ s x, Follows s (f s x)) (l : List α) (s : State) :
    Follows s (l.foldl f s) := by
  induction l generalizing s with
  | nil => exact .refl s
  | cons x l ih => exact (hf s x).trans (ih _)

theorem follows_waili (w : Waili) (s : State) : Follows s { s with waili := w } :=
  ⟨⟨s.regs, s.hw, s.lines, s.intc, s.fcol, s.flash, s.out, s.evt, s.adc, s.can, s.loop, w, s.chisel, rfl⟩, fun _ _ => rfl⟩

theorem follows_flash (f : Flash) (s : State) : Follows s { s with flash := f } :=
  ⟨⟨s.regs, s.hw, s.lines, s.intc, s.fcol, f, s.out, s.evt, s.adc, s.can, s.loop, s.waili, s.chisel, rfl⟩, fun _ _ => rfl⟩

theorem follows_evt (e : Evt) (s : State) : Follows s { s with evt := e } :=
  ⟨⟨s.regs, s.hw, s.lines, s.intc, s.fcol, s.flash, s.out, e, s.adc, s.can, s.loop, s.waili, s.chisel, rfl⟩, fun _ _ => rfl⟩

/-- A register outside the words in which the peaks lie. -/
abbrev NoPeak (a : Nat) : Prop := (a < Reg.out_IPK 0 ∨ Reg.out_IPK 16 ≤ a) ∧ (a < Reg.adc_IPK 0 ∨ Reg.adc_IPK 4 ≤ a)

theorem NoPeak.ne {a b : Nat} (ha : NoPeak a) (hb : IsPeak b) : b ≠ a := by
  have := hb.bounds
  obtain ⟨hout, hadc⟩ := ha
  omega

theorem follows_setReg {a : Nat} (ha : NoPeak a) (v : Word) (s : State) : Follows s (setReg a v s) :=
  ⟨⟨_, s.hw, s.lines, s.intc, s.fcol, s.flash, s.out, s.evt, s.adc, s.can, s.loop, s.waili, s.chisel, rfl⟩,
    fun _ h => reg_setReg_other v s (ha.ne h)⟩

theorem follows_hwSet {a : Nat} (ha : NoPeak a) (v : Word) (s : State) : Follows s (hwSet a v s) := by
  obtain ⟨regs, hw, h⟩ := hwSet_eq a v s
  exact ⟨⟨regs, hw, s.lines, s.intc, s.fcol, s.flash, s.out, s.evt, s.adc, s.can, s.loop, s.waili, s.chisel, h⟩,
    fun _ h => reg_hwSet_other v s (ha.ne h)⟩

theorem follows_hwCountF {a : Nat} (ha : NoPeak a) (lo len n : Nat) (s : State) : Follows s (hwCountF a lo len n s) :=
  ⟨⟨_, _, s.lines, s.intc, s.fcol, s.flash, s.out, s.evt, s.adc, s.can, s.loop, s.waili, s.chisel, rfl⟩,
    fun _ h => reg_hwCountF_other lo len n s (ha.ne h)⟩

theorem follows_signal (n : Fin 96) (s : State) : Follows s (signal n s) := by
  obtain ⟨regs, hw, intc, raises, h⟩ := signal_eq n s
  exact ⟨⟨regs, hw, s.lines, intc, _, s.flash, s.out, s.evt, s.adc, s.can, s.loop, s.waili, s.chisel, h⟩,
    fun k hk => reg_signal (not_mem_runst (by have := hk.bounds; simp only [Reg.intc_RUNST, Reg.out_IPK, Reg.adc_IPK] at *; omega)) n s⟩

theorem follows_setStage (i : Nat) (f : Stage → Stage) (s : State) : Follows s (setStage i f s) := by
  rw [setStage]
  split
  · exact ⟨⟨s.regs, s.hw, s.lines, s.intc, s.fcol, s.flash, _, s.evt, s.adc, s.can, s.loop, s.waili, s.chisel, rfl⟩,
      fun _ _ => rfl⟩
  · exact .refl s

/-! ### The edges of a freeze -/

theorem follows_knockAbort (n : Fin 2) (s : State) : Follows s (knockAbort n s) := by
  rw [knockAbort]
  split
  · exact .refl s
  · refine Follows.trans (t := setKnock n none s) ⟨⟨s.regs, s.hw, s.lines, s.intc, s.fcol, s.flash, s.out, s.evt, _, s.can,
      s.loop, s.waili, s.chisel, rfl⟩, fun _ _ => rfl⟩ (follows_hwSet ?_ _ _)
    simp only [NoPeak, Reg.out_IPK, Reg.adc_IPK, Reg.adc_KNS]
    omega

/-- An output command to a GPIO pin. -/
theorem follows_pinCmd {c : OutCmd} (hc : ¬ c.tgt < 12) (s : State) : Follows s (targetCmd c s) := by
  unfold targetCmd
  rw [if_neg hc]
  refine .ite (.ite (follows_setReg ?_ _ s) (.refl s)) (.refl s)
  simp only [NoPeak, Reg.out_IPK, Reg.adc_IPK, Reg.gpio_PCFG]
  omega

theorem follows_targetSafe (t : Nat) (s : State) : Follows s (targetSafe t s) := by
  unfold targetSafe
  extract_lets a _ _ b
  have hb : Follows s b :=
    ⟨⟨s.regs, s.hw, s.lines, s.intc, s.fcol, s.flash, _, _, s.adc, s.can, s.loop, s.waili, s.chisel, rfl⟩, fun _ _ => rfl⟩
  refine hb.trans ?_
  split
  · exact follows_setStage _ _ _
  · next ht => exact follows_pinCmd ht _

/-- One entry of the Event Table is cancelled. -/
theorem follows_cancelled (x : Nat × Ent) (e : Ent) (s : State) :
    Follows s (setEnt x.1 e (if entAct s x.1 = 6 then knockAbort ⟨entArg s x.1 % 2, by omega⟩ s else s)) :=
  Follows.trans (.ite (follows_knockAbort _ s) (.refl s)) (follows_evt _ _)

theorem follows_syncCancel (s : State) : Follows s (syncCancel s) := by
  unfold syncCancel
  extract_lets hit xs t u v _ w
  have ht : Follows s t := follows_foldl (fun s x => follows_cancelled x _ s) xs s
  have hv : Follows u v := follows_foldl (fun s h => follows_targetSafe _ s) _ u
  exact ht.trans <| (follows_hwCountF (by decide) _ _ _ t).trans <| hv.trans <| (follows_evt _ v).trans <|
    (follows_signal 10 w).trans (follows_evt _ _)

theorem follows_watchdogFreeze (s : State) : Follows s (watchdogFreeze s) := by
  rw [watchdogFreeze]
  split
  · exact ⟨⟨s.regs, s.hw, s.lines, s.intc, _, s.flash, s.out, s.evt, s.adc, s.can, s.loop, s.waili, _, rfl⟩, fun _ _ => rfl⟩
  · exact ⟨⟨s.regs, s.hw, s.lines, s.intc, _, s.flash, s.out, s.evt, s.adc, s.can, s.loop, s.waili, _, rfl⟩, fun _ _ => rfl⟩
  · exact .refl s

theorem follows_eventFreeze (s : State) : Follows s (eventFreeze s) := by
  unfold eventFreeze
  extract_lets f _ t
  have ht : Follows s t :=
    ⟨⟨s.regs, s.hw, s.lines, s.intc, s.fcol, s.flash, s.out, s.evt, s.adc, s.can, s.loop, s.waili, _, rfl⟩, fun _ _ => rfl⟩
  exact .ite (.refl s) (.ite (ht.trans (follows_syncCancel t)) (ht.trans (follows_evt _ t)))

theorem follows_canPick (k : Fin 2) (s : State) : Follows s (canPick k s) :=
  .ite ⟨⟨s.regs, s.hw, s.lines, s.intc, s.fcol, s.flash, s.out, s.evt, s.adc, _, s.loop, s.waili, s.chisel, rfl⟩, fun _ _ => rfl⟩ (.refl s)

theorem follows_freezeEdge (s : State) : Follows s (freezeEdge s) :=
  (follows_watchdogFreeze s).trans <| (follows_eventFreeze _).trans <| (follows_canPick 0 _).trans (follows_canPick 1 _)

/-! ### The answers Waili owes -/

theorem follows_wline (sfx : Bool) (l : List Byte) (s : State) : Follows s (wline sfx l s) := follows_waili _ s

theorem follows_respond (c : WCtx) (l : List Byte) (s : State) : Follows s (respond c l s) := by
  rw [respond]
  split
  · exact ⟨⟨s.regs, s.hw, s.lines, s.intc, s.fcol, s.flash, s.out, s.evt, s.adc, s.can, _, s.waili, s.chisel, rfl⟩, fun _ _ => rfl⟩
  · split
    · exact follows_wline _ _ s
    · exact follows_wline _ _ s

theorem follows_wEnd (s : State) : Follows s (wEnd s) := follows_waili _ s

theorem follows_wDrop (k : WSlot) (s : State) : Follows s (wDrop k s) := follows_waili _ s

theorem follows_wCount (n : Nat) (s : State) : Follows s (wCount n s) := .ite (follows_hwCountF (by decide) _ _ _ s) (.refl s)

theorem follows_flashRelease (s : State) : Follows s (flashRelease s) := by
  unfold flashRelease
  extract_lets _ t
  have ht : Follows s t := follows_flash _ s
  split
  · exact .ite (ht.trans (follows_flash _ t)) ht
  · exact ht

theorem follows_flLines (c : WCtx) (f k n : Nat) (s : State) : Follows s (flLines c f k n s) := by
  induction k generalizing f n s with
  | zero => exact .refl s
  | succ k ih =>
    rw [flLines]
    exact .ite (.refl s) ((follows_respond _ _ s).trans (ih _ _ _))

theorem follows_flashTake (o : FlashOwner) (s : State) : Follows s (flashTake o s) := follows_flash _ s

theorem follows_wFlash (s : State) : Follows s (wFlash s) := by
  have htake : Follows s (flashTake .waili s) := follows_flashTake _ s
  have hend : ∀ u, Follows u (wEnd (flashRelease u)) := fun u => (follows_flashRelease u).trans (follows_wEnd _)
  unfold wFlash
  split
  · refine .ite (.refl s) (htake.trans (.ite ((hend _).trans (follows_respond _ _ _)) (.ite (follows_waili _ _) ?_)))
    exact (hend _).trans ((follows_flLines _ _ _ _ _).trans (follows_respond _ _ _))
  · exact .ite (.refl s) (htake.trans (follows_waili _ _))
  · exact .refl s

theorem follows_wModeAnswer (e : Bool) (c : WCtx) (s : State) : Follows s (wModeAnswer e c s) :=
  (follows_respond _ _ s).trans (.ite (follows_respond _ _ _) (follows_respond _ _ _))

theorem follows_wPoll (s : State) : Follows s (wPoll s) := by
  have hend : Follows s (wEnd s) := follows_wEnd s
  unfold wPoll
  split
  · exact .ite (follows_waili _ s) (hend.trans (follows_wModeAnswer _ _ _))
  · exact .ite (.refl s) (hend.trans (.ite (follows_respond _ _ _) (follows_respond _ _ _)))
  · refine .ite (.refl s) (hend.trans (.ite ?_ (.ite ?_ (follows_respond _ _ _))))
    · exact (follows_respond _ _ _).trans (follows_respond _ _ _)
    · exact (follows_respond _ _ _).trans (follows_respond _ _ _)
  · exact follows_wFlash s
  · exact follows_wFlash s
  · exact .refl s

theorem follows_wLater (s : State) : Follows s (wLater s) :=
  .ite (.refl s) ((follows_waili _ s).trans (follows_foldl (fun s _ => follows_wline _ _ s) _ _))

theorem follows_wScan (n : Nat) (s : State) : Follows s (wScan n s) := by
  induction n generalizing s with
  | zero => exact .refl s
  | succ n ih =>
    rw [wScan]
    split
    · exact .refl s
    · next k l c _ =>
      split
      · exact .refl s
      · exact Follows.trans (.ite (follows_wDrop k s) ((follows_wDrop k s).trans (follows_respond _ _ _))) (ih _)
      · exact (((follows_wDrop k s).trans (follows_wCount _ _)).trans (follows_respond _ _ _)).trans (ih _)

theorem follows_wailiPump (s : State) : Follows s (wailiPump s) :=
  .ite ((follows_wPoll s).trans ((follows_wLater _).trans (follows_wScan _ _))) (.refl s)

/-- What follows a command of itself changes lines, outputs, counters and Waili's answers alone. -/
theorem follows_follow (s : State) : Follows s (follow s) :=
  (follows_freezeEdge s).trans <| (follows_wailiPump _).trans
    ⟨⟨_, _, _, _, _, _, _, _, _, _, _, _, _, rfl⟩, fun _ _ => rfl⟩

theorem follow_thr (s : State) : (follow s).thr = s.thr := by
  obtain ⟨_, _, _, _, _, _, _, _, _, _, _, _, _, h⟩ := (follows_follow s).eq
  rw [h]

theorem follow_mem (s : State) : (follow s).mem = s.mem := by
  obtain ⟨_, _, _, _, _, _, _, _, _, _, _, _, _, h⟩ := (follows_follow s).eq
  rw [h]

theorem reg_follow_ipk (n : Fin 16) (s : State) : reg (follow s) (Reg.out_IPK n) = reg s (Reg.out_IPK n) :=
  (follows_follow s).peak _ (.inl ⟨n, rfl⟩)

theorem reg_follow_ionPeak (n : Fin 4) (s : State) : reg (follow s) (Reg.adc_IPK n) = reg s (Reg.adc_IPK n) :=
  (follows_follow s).peak _ (.inr ⟨n, rfl⟩)

/-- What a command leaves in the threads is what the command itself leaves there. -/
theorem thr_of_exec {i : Instr} {s t u : State} (ht : exec i s = .next t) (hu : exec i s = .next (follow u)) :
    u.thr = t.thr := by
  obtain rfl : t = follow u := by simpa using ht.symm.trans hu
  exact (follow_thr u).symm

end Sys2Proof.Machine

/-! ## A start block read in the tick of another master's write (R279, R494) -/

namespace Sys2Proof.Machine

/-- A part in which the tile unit writes word 4 of the start block of thread 3 in the very tick of the start: a read of
that tick returns the word from before the write (R494), which is not the one the scratchpad then holds. -/
def writtenAtStart : State :=
  { State.reset with mem := { State.reset.mem with wTick := 20, wLog := [(1, 4, 0x1234)] } }

theorem exec_threadStart (m : Master) (t : Fin 8) (s : State) :
    exec (.threadStart m t) s = act (fun s => if privileged m then startThread t s else s) s := rfl

/-- The state the start leaves, the rails being up. -/
def afterStart : State := perform (clkTicks writtenAtStart) (startThread 3) writtenAtStart

theorem exec_start_writtenAtStart : exec (.threadStart .debug 3) writtenAtStart = .next afterStart := rfl

theorem d15_afterStart : getR (thread afterStart 3) 15 = 0x1234 := by decide +kernel

theorem seen_writtenAtStart : seen (ready (clkTicks writtenAtStart) writtenAtStart)
    (fld (reg32 (ready (clkTicks writtenAtStart) writtenAtStart) (Reg.thr_SBASE 3)) 0 20 + 4) = 0 := by decide +kernel

theorem startable_writtenAtStart :
    let r := ready (clkTicks writtenAtStart) writtenAtStart
    (thread r 3).st = .stopped ∧ startInProgress (thread r 3) = false ∧ fenceBit r (fbThread 3) = false ∧
      startHolds 3 r = false ∧ fld (reg32 r (Reg.thr_SBASE 3)) 0 20 + 29 ≤ 0x18000 ∧ r.mem.parBad = [] := by
  decide +kernel

theorem readable_writtenAtStart : ∀ i : Fin 29, refusal (ready (clkTicks writtenAtStart) writtenAtStart) (.thread 3)
    (fld (reg32 (ready (clkTicks writtenAtStart) writtenAtStart) (Reg.thr_SBASE 3)) 0 20 + i.val) 1 false = none := by
  decide +kernel

/-- Refutes O23: the statement lets a start block be what the scratchpad and the store buffer hold, but where another master
writes a word of the block in the tick of the start, the start reads it as it was before (R494). In `writtenAtStart` the
started thread has D15 = 1234h, and the statement asks for 0. The statement speaks of every state, so it is refuted by one
whose write log bears the tick of the start, whether or not a run from reset comes to it. -/
theorem not_threadsStartStopAndWake : ¬ Obligations.ThreadsStartStopAndWake := by
  unfold Obligations.ThreadsStartStopAndWake
  intro h
  obtain ⟨⟨u, hu, -, -, hstart⟩, -⟩ := h writtenAtStart .debug 3 0 rfl
  obtain ⟨hst, hidle, hfence, hholds, hbase, hparity⟩ := startable_writtenAtStart
  obtain ⟨-, -, -, hregs, -⟩ := hstart ⟨rfl, hst, hidle, hfence⟩ hholds hbase hparity readable_writtenAtStart
  have hd15 := hregs 15
  rw [thread, thr_of_exec exec_start_writtenAtStart hu, ← thread, d15_afterStart] at hd15
  exact absurd (hd15.trans seen_writtenAtStart) (by decide)

end Sys2Proof.Machine

/-! ## What a change of the modes leaves alone (R185, R205) -/

namespace Sys2Proof.Machine

/-- A write to SYS.MODESTAT alone. -/
theorem besideModes_modestat {s u : State} (h : ∀ a, a ≠ Reg.sys_MODESTAT → reg u a = reg s a)
    (hu : ∃ regs hw, u = { s with regs := regs, hw := hw }) : BesideModes s u := by
  obtain ⟨regs, hw, rfl⟩ := hu
  exact ⟨rfl, rfl, rfl, rfl, rfl, rfl, rfl, fun a ha => h a (ne_of_mem_of_not_mem ha (by decide)),
    fun i _ => congrArg (BitVec.getLsbD · i) (h _ (by decide)), List.prefix_rfl, fun _ h => h⟩

theorem besideModes_setModes (f : Modes → Modes) (s : State) : BesideModes s (setModes f s) :=
  besideModes_rest s _ _ _ _ _ _ _ _ _

theorem besideModes_setRefuse (k : Nat) (s : State) : BesideModes s (setRefuse k s) :=
  besideModes_modestat (fun _ ha => reg_setRegF_other _ _ _ s ha) ⟨_, s.hw, rfl⟩

theorem besideModes_enterSetup (s : State) : BesideModes s (enterSetup s) := by
  unfold enterSetup
  extract_lets t v w
  have hv : Aside s v := ((aside_cancelWhere _ s).trans (aside_kernFree _)).trans (aside_clearPh _)
  have hlive : BesideModes w { w with plinth := { w.plinth with livePin := false } } :=
    besideModes_rest w _ _ _ _ _ _ _ _ _
  exact hv.toBesideModes.trans <| (besideModes_setModes _ v).trans <| hlive.trans
    ((aside_evalCut _).trans (aside_modeSignal _ _)).toBesideModes

theorem besideModes_enterLimp (src cause : Nat) (s : State) : BesideModes s (enterLimp src cause s) := by
  unfold enterLimp
  extract_lets was t v w x
  have hcount : BesideModes t v :=
    besideModes_modestat (fun _ ha => reg_hwCountF_other _ _ _ t ha) ⟨_, _, rfl⟩
  have hend : Aside v (modeSignal 2 (evalCut x)) :=
    (aside_clearPh v).trans <| (aside_setReg (a := Reg.kern_MPEND) (by decide) _ _).trans <|
      (aside_leftSetup _ w).trans <| (aside_evalCut _).trans (aside_modeSignal _ _)
  exact (besideModes_setModes _ s).trans (hcount.trans hend.toBesideModes)

theorem besideModes_enterRun (s : State) : BesideModes s (enterRun s) := by
  unfold enterRun
  extract_lets was t v w
  have hend : Aside t (modeSignal 1 (evalCut w)) :=
    (aside_kernArmModes t).trans <| (aside_leftSetup _ v).trans <| (aside_evalCut _).trans (aside_modeSignal _ _)
  exact (besideModes_setModes _ s).trans hend.toBesideModes

theorem besideModes_leaveSetup (w : Bool) (r : ModeReq) (s : State) : BesideModes s (leaveSetup w r s) := by
  have hstart : ∀ k f, BesideModes s (setModes f (setRefuse k s)) := fun k f =>
    (besideModes_setRefuse k s).trans (besideModes_setModes f _)
  unfold leaveSetup
  refine .ite (besideModes_setRefuse _ s) ?_
  split
  · exact hstart _ _
  · exact .ite (hstart _ _) (hstart _ _)

theorem besideModes_modeRequest (w : Bool) (r : ModeReq) (s : State) : BesideModes s (modeRequest w r s) := by
  have hset : ∀ f, BesideModes s (setModes f s) := fun f => besideModes_setModes f s
  have hrefuse : ∀ k, BesideModes s (setRefuse k s) := fun k => besideModes_setRefuse k s
  unfold modeRequest
  split
  · exact (hset _).trans (besideModes_setRefuse _ _)
  · split
    · exact hset _
    · exact .ite (hset _) (besideModes_leaveSetup w _ s)
  · exact hrefuse 0
  · exact (hrefuse 0).trans (besideModes_enterLimp _ _ _)
  · exact (hrefuse 0).trans (besideModes_enterSetup _)
  · exact (hrefuse 0).trans (besideModes_enterSetup _)
  · exact (hset _).trans (besideModes_setRefuse _ _)
  · exact .ite (hrefuse _) (.ite ((hset _).trans (besideModes_setRefuse _ _))
      ((hrefuse 0).trans (besideModes_enterRun _)))

theorem besideModes_commitEnded (s : State) : BesideModes s (commitEnded s) := by
  unfold commitEnded
  split
  · exact .refl s
  · exact (besideModes_setModes _ s).trans (besideModes_modeRequest _ _ _)

end Sys2Proof.Machine

/-! ## The working copy: check, commit and writes (R177-R187) -/

namespace Sys2Proof.Machine

/-! ### The check -/

theorem bodyCheck_lt (f : Nat → Word) (len : Nat) : bodyCheck f len < 16 := by
  unfold bodyCheck
  split
  · decide
  · dsimp only
    split_ifs
    · decide
    · decide
    · decide
    · split
      · split <;> decide
      · decide

theorem copyCheck_lt (f : Nat → Word) (kib : Nat) : copyCheck f kib < 16 := by
  unfold copyCheck
  split_ifs
  · decide
  · decide
  · decide
  · decide
  · exact bodyCheck_lt f _

theorem storeCrc_eq (s : State) : ∃ mem, storeCrc s = { s with mem := mem } := by
  simp only [storeCrc]
  split_ifs
  · exact ⟨_, rfl⟩
  · exact ⟨s.mem, rfl⟩

/-- What the check writes, behind the CRC. -/
def checkRecorded (code : Nat) (s : State) : State :=
  setReg Reg.sys_ARMRSN (wd code)
    (setRegBit Reg.sys_ARMSTAT armDIRTY false (setRegBit Reg.sys_ARMSTAT armWCV (code == 0) s))

theorem wcCheck_eq (s : State) : wcCheck s =
    (copyCheck (wcWord s) s.flash.slotSz, checkRecorded (copyCheck (wcWord s) s.flash.slotSz) (storeCrc s)) := rfl

theorem reg_checkRecorded_armstat (code : Nat) (s : State) : reg (checkRecorded code s) Reg.sys_ARMSTAT =
    putBit (putBit (reg s Reg.sys_ARMSTAT) armWCV (code == 0)) armDIRTY false := by
  rw [checkRecorded, reg_setReg_other _ _ (by decide), reg_setRegBit_same, reg_setRegBit_same]

theorem regsBut_checkRecorded (code : Nat) (s : State) :
    RegsBut [Reg.sys_ARMRSN, Reg.sys_ARMSTAT] s (checkRecorded code s) := by
  intro a ha
  have h1 : a ≠ Reg.sys_ARMRSN := List.ne_of_not_mem_cons ha
  have h2 : a ≠ Reg.sys_ARMSTAT := List.ne_of_not_mem_cons (List.not_mem_of_not_mem_cons ha)
  rw [checkRecorded, reg_setReg_other _ _ h1, reg_setRegBit_other _ _ _ h2, reg_setRegBit_other _ _ _ h2]

theorem regBit_checkRecorded {code j : Nat} (hj : j < 16) (s : State) : regBit (checkRecorded code s) Reg.sys_ARMSTAT j =
    if j = 12 then false else if j = 13 then code == 0 else regBit s Reg.sys_ARMSTAT j := by
  rw [regBit, reg_checkRecorded_armstat, getLsbD_putBit _ _ _ _ hj, getLsbD_putBit _ _ _ _ hj, ← regBit]

theorem checkRecorded_spec (code : Nat) (hcode : code < 16) (s : State) :
    let u := checkRecorded code s
    (reg u Reg.sys_ARMRSN).toNat = code ∧ regBit u Reg.sys_ARMSTAT 13 = (code == 0) ∧ regBit u Reg.sys_ARMSTAT 12 = false := by
  refine ⟨?_, regBit_checkRecorded (by decide) s, regBit_checkRecorded (by decide) s⟩
  rw [checkRecorded, reg_setReg_same, wd, BitVec.toNat_ofNat]
  omega

theorem armCheck_spec {r : State} (h : r.modes.mode = .setup ∧ regBit r Reg.sys_ARMSTAT 11 = false) :
    let u := armCheck r
    let code := copyCheck (wcWord r) r.flash.slotSz
    (reg u Reg.sys_ARMRSN).toNat = code ∧ regBit u Reg.sys_ARMSTAT 13 = (code == 0) ∧ regBit u Reg.sys_ARMSTAT 12 = false ∧
      RegsBut [Reg.sys_ARMRSN, Reg.sys_ARMSTAT] r u ∧ { u with regs := r.regs, mem := r.mem } = r := by
  have hmay : armMayRun r = true := by simp [armMayRun, inSetup, commitBusy, h.1, h.2]
  obtain ⟨mem, hcrc⟩ := storeCrc_eq r
  dsimp only
  rw [armCheck, if_pos hmay, wcCheck_eq]
  obtain ⟨hrsn, hwcv, hdirty⟩ := checkRecorded_spec _ (copyCheck_lt (wcWord r) r.flash.slotSz) (storeCrc r)
  refine ⟨hrsn, hwcv, hdirty, fun a ha => ?_, ?_⟩
  · rw [regsBut_checkRecorded _ _ a ha, hcrc]
    rfl
  · rw [hcrc]
    rfl

theorem armMayRun_eq (s : State) : armMayRun s = decide (s.modes.mode = .setup ∧ regBit s Reg.sys_ARMSTAT 11 = false) := by
  rw [armMayRun, inSetup, commitBusy, Bool.decide_and]
  cases regBit s Reg.sys_ARMSTAT 11 <;> simp [beq_eq_decide]

/-! ### The commit -/

/-- A commit of slot `slot` has begun. -/
def commitBegun (m : Master) (s : State) : State :=
  { setRegBit Reg.sys_ARMSTAT armCBUSY true s with
    flash.commit := some { slot := if regF s Reg.sys_ARMSTAT 14 2 = 1 then 1 else 0, waili := m == .waili } }

/-- The working copy made ready to be programmed with generation `gen`. -/
def copyPrepared (gen : Nat) (s : State) : State :=
  let g : Pair := BitVec.ofNat 32 gen
  let s := spadPut 0x16005 (highWord g) (spadPut 0x16004 (lowWord g) s)
  storeCrc (spadPut 0x1600F 0xFFFF (spadPut 0x1600E 0xFFFF s))

/-- Step C2 has its generation. -/
def genTaken (s : State) : State := setCommit (fun c => { c with step := 2, gen := nextGen s }) s

/-- Step C2, and the request for the flash master. -/
def commitGoesOn (s : State) : State :=
  if 0xFFFFFFFE < nextGen s then commitStop false false (genTaken s)
  else
    let s := copyPrepared (nextGen s) (genTaken s)
    if s.flash.owner = .none then commitTake s else setCommit (fun c => { c with waitFlash := true }) s

theorem armCommit_eq (m : Master) (s : State) : armCommit m s =
    if !armMayRun s then s
    else
      let c := wcCheck (commitBegun m s)
      if c.1 ≠ 0 then commitStop false false c.2 else commitGoesOn c.2 := rfl

/-- A word of the scratchpad is written: nothing but the memory changes. -/
theorem spadPut_onlyMem {s t : State} (a : Nat) (v : Word) (h : ∃ mem, t = { s with mem := mem }) :
    ∃ mem, spadPut a v t = { s with mem := mem } := by
  obtain ⟨mem, rfl⟩ := h
  exact ⟨_, rfl⟩

theorem storeCrc_onlyMem {s t : State} (h : ∃ mem, t = { s with mem := mem }) :
    ∃ mem, storeCrc t = { s with mem := mem } := by
  obtain ⟨mem, rfl⟩ := h
  obtain ⟨mem', h⟩ := storeCrc_eq { s with mem := mem }
  exact ⟨mem', h⟩

theorem copyPrepared_eq (gen : Nat) (s : State) : ∃ mem, copyPrepared gen s = { s with mem := mem } :=
  storeCrc_onlyMem <| spadPut_onlyMem _ _ <| spadPut_onlyMem _ _ <| spadPut_onlyMem _ _ <| spadPut_onlyMem _ _
    ⟨s.mem, rfl⟩

/-- The commit a state runs, checked as it begins. -/
theorem commit_checked (m : Master) (r : State) : ((wcCheck (commitBegun m r)).2).flash = (commitBegun m r).flash := by
  rw [wcCheck_eq]
  obtain ⟨mem, h⟩ := storeCrc_eq (commitBegun m r)
  rw [h]
  rfl

theorem code_checked (m : Master) (r : State) : (wcCheck (commitBegun m r)).1 = copyCheck (wcWord r) r.flash.slotSz := rfl

theorem reg_commitBegun {a : Nat} (h : a ≠ Reg.sys_ARMSTAT) (m : Master) (r : State) : reg (commitBegun m r) a = reg r a :=
  reg_setRegBit_other _ _ r h

theorem armstat_checked (m : Master) (r : State) : ∃ b, reg (wcCheck (commitBegun m r)).2 Reg.sys_ARMSTAT =
    putBit (putBit (putBit (reg r Reg.sys_ARMSTAT) 11 true) 13 b) 12 false := by
  obtain ⟨mem, h⟩ := storeCrc_eq (commitBegun m r)
  have hbegun : reg (storeCrc (commitBegun m r)) Reg.sys_ARMSTAT = putBit (reg r Reg.sys_ARMSTAT) 11 true := by
    rw [h]
    exact reg_setRegBit_same Reg.sys_ARMSTAT 11 true r
  exact ⟨_, (reg_checkRecorded_armstat _ _).trans (by rw [hbegun])⟩

theorem busy_checked (m : Master) (r : State) : regBit (wcCheck (commitBegun m r)).2 Reg.sys_ARMSTAT 11 = true := by
  obtain ⟨b, h⟩ := armstat_checked m r
  rw [regBit, h, getLsbD_putBit _ _ _ _ (by decide), getLsbD_putBit _ _ _ _ (by decide), getLsbD_putBit _ _ _ _ (by decide)]
  rfl

theorem reg_checked {a : Nat} (h1 : a ≠ Reg.sys_ARMRSN) (h2 : a ≠ Reg.sys_ARMSTAT) (m : Master) (r : State) :
    reg (wcCheck (commitBegun m r)).2 a = reg r a := by
  obtain ⟨mem, h⟩ := storeCrc_eq (commitBegun m r)
  rw [wcCheck_eq, regsBut_checkRecorded _ _ a (by simp [h1, h2]), h]
  exact reg_commitBegun h2 m r

/-- The check leaves what the next generation is taken from. -/
theorem nextGen_checked (m : Master) (r : State) : nextGen (wcCheck (commitBegun m r)).2 = nextGen r := by
  have hf : ∀ lo, lo + 4 ≤ 11 → regF (wcCheck (commitBegun m r)).2 Reg.sys_ARMSTAT lo 4 = regF r Reg.sys_ARMSTAT lo 4 := by
    intro lo hlo
    obtain ⟨b, h⟩ := armstat_checked m r
    rw [regF, h, putBit, fld_putFld_other _ _ _ _ _ _ (by omega) (by omega), putBit,
      fld_putFld_other _ _ _ _ _ _ (by omega) (by omega), putBit, fld_putFld_other _ _ _ _ _ _ (by omega) (by omega), regF]
  have hr : ∀ a, a ∈ [Reg.sys_GENA, Reg.sys_GENB] → reg32 (wcCheck (commitBegun m r)).2 a = reg32 r a := by
    intro a ha
    simp only [List.mem_cons, List.not_mem_nil, or_false] at ha
    rcases ha with rfl | rfl <;>
    · simp only [reg32]
      rw [reg_checked (by decide) (by decide), reg_checked (by decide) (by decide)]
  rw [nextGen, nextGen, hf 4 (by decide), hf 0 (by decide), hr _ (by simp), hr _ (by simp)]

end Sys2Proof.Machine

/-! ### The outcome of a commit request -/

namespace Sys2Proof.Machine

theorem commitStop_spec (ok tmo : Bool) (s : State) : (commitStop ok tmo s).flash =
    { s.flash with commit := s.flash.commit.map (fun c => { c with ended := some (ok, tmo), poll := none }) } := by
  cases ok <;> rfl

theorem regBit_commitStop {j : Nat} (hj : j < 16) (tmo : Bool) (s : State) :
    regBit (commitStop false tmo s) Reg.sys_ARMSTAT j = (regBit s Reg.sys_ARMSTAT j || decide (10 = j)) :=
  regBit_hwSet_bit Reg.sys_ARMSTAT 10 j s hj

/-- What every commit request that acts leaves. -/
structure CommitAsked (r u : State) : Prop where
  busy : regBit u Reg.sys_ARMSTAT 11 = true
  isSome : u.flash.commit.isSome = true
  cells : u.flash.cells = r.flash.cells

/-- A commit request whose check fails ends at step C1. -/
theorem commitAsked_refused (m : Master) (r : State) :
    let u := commitStop false false (wcCheck (commitBegun m r)).2
    CommitAsked r u ∧ regBit u Reg.sys_ARMSTAT 10 = true ∧
      u.flash.commit.map (fun c => (c.step, c.ended)) = some (1, some (false, false)) := by
  intro u
  have hflash : u.flash = _ := commitStop_spec false false (wcCheck (commitBegun m r)).2
  rw [commit_checked] at hflash
  have hbit : ∀ j, j < 16 → regBit u Reg.sys_ARMSTAT j = _ := fun j hj => regBit_commitStop hj false _
  refine ⟨⟨?_, ?_, ?_⟩, ?_, ?_⟩
  · rw [hbit 11 (by decide), busy_checked]
    rfl
  · rw [hflash]
    rfl
  · rw [hflash]
    rfl
  · rw [hbit 10 (by decide)]
    simp
  · rw [hflash]
    rfl

/-- The flash while a commit waits to go on. -/
theorem flash_prepared (gen : Nat) (s : State) : (copyPrepared gen s).flash = s.flash := by
  obtain ⟨mem, h⟩ := copyPrepared_eq gen s
  rw [h]

theorem regs_prepared (gen : Nat) (s : State) : (copyPrepared gen s).regs = s.regs := by
  obtain ⟨mem, h⟩ := copyPrepared_eq gen s
  rw [h]

theorem commitTake_flash (s : State) : (commitTake s).flash = { s.flash with
    owner := .commit
    commit := s.flash.commit.map (fun c => { c with
      step := 3, waitFlash := false, poll := some .erase, due := pollDue s .erase, pre := s.flash.cut.isSome }) } := rfl

/-- A commit request whose check passes takes the flash master or waits for it. -/
theorem commitAsked_goesOn {s r : State} {c : Commit} (hbusy : regBit s Reg.sys_ARMSTAT 11 = true)
    (hcommit : s.flash.commit = some c) (hcells : s.flash.cells = r.flash.cells) (hend : c.ended = none) : CommitAsked r (commitGoesOn s) ∧
      (nextGen s ≤ 0xFFFFFFFE → (commitGoesOn s).flash.commit.map (fun c => (c.step, c.waitFlash, c.ended)) =
        some (if s.flash.owner = .none then (3, false, none) else (2, true, none))) := by
  have hflash : (copyPrepared (nextGen s) (genTaken s)).flash = (genTaken s).flash := flash_prepared _ _
  have hregs : regBit (copyPrepared (nextGen s) (genTaken s)) Reg.sys_ARMSTAT 11 = true := by
    rw [regBit, reg, regs_prepared]
    exact hbusy
  have hgen : (genTaken s).flash = { s.flash with commit := some { c with step := 2, gen := nextGen s } } := by
    rw [genTaken, setCommit, hcommit]
    rfl
  rw [hgen] at hflash
  unfold commitGoesOn
  split
  · next hlim =>
    have hstop := commitStop_spec false false (genTaken s)
    rw [hgen] at hstop
    refine ⟨⟨?_, ?_, ?_⟩, fun h => absurd hlim (by omega)⟩
    · rw [regBit_commitStop (by decide)]
      exact Bool.or_eq_true_iff.mpr (.inl hbusy)
    · rw [hstop]
      rfl
    · rw [hstop]
      exact hcells
  · dsimp only
    generalize copyPrepared (nextGen s) (genTaken s) = t at hflash hregs
    rw [show t.flash.owner = s.flash.owner by rw [hflash]]
    split
    · refine ⟨⟨hregs, ?_, ?_⟩, fun _ => ?_⟩
      · rw [commitTake_flash, hflash]
        rfl
      · rw [commitTake_flash, hflash]
        exact hcells
      · rw [commitTake_flash, hflash]
        simp [hend]
    · refine ⟨⟨hregs, ?_, ?_⟩, fun _ => ?_⟩
      · rw [setCommit, hflash]
        rfl
      · rw [setCommit, hflash]
        exact hcells
      · rw [setCommit, hflash]
        simp [hend]

theorem armCommit_spec (m : Master) {r : State} (h : armMayRun r = true) :
    let u := armCommit m r
    let code := copyCheck (wcWord r) r.flash.slotSz
    CommitAsked r u ∧
      (code ≠ 0 → regBit u Reg.sys_ARMSTAT 10 = true ∧
        u.flash.commit.map (fun c => (c.step, c.ended)) = some (1, some (false, false))) ∧
      (code = 0 → nextGen r ≤ 0xFFFFFFFE → u.flash.commit.map (fun c => (c.step, c.waitFlash, c.ended)) =
        some (if r.flash.owner = .none then (3, false, none) else (2, true, none))) := by
  dsimp only
  rw [armCommit_eq, h, if_neg (by decide)]
  dsimp only
  rw [code_checked]
  split
  · next hc =>
    obtain ⟨hasked, herr, hend⟩ := commitAsked_refused m r
    exact ⟨hasked, fun _ => ⟨herr, hend⟩, fun h0 => absurd h0 hc⟩
  · next hc =>
    have hflash := commit_checked m r
    obtain ⟨hasked, hgo⟩ := commitAsked_goesOn (r := r) (busy_checked m r) (congrArg Flash.commit hflash :)
      (congrArg Flash.cells hflash :) rfl
    rw [nextGen_checked, show (wcCheck (commitBegun m r)).2.flash.owner = r.flash.owner by rw [hflash]; rfl] at hgo
    exact ⟨hasked, fun h0 => absurd h0 hc, fun _ => hgo⟩

/-! ### Polls, the timeout and the end -/

theorem flash_commitPoll (k : FlashBusy) (s : State) : ∃ commit, (commitPoll k s).flash = { s.flash with commit := commit } :=
  ⟨_, rfl⟩

/-- A lookup in a memory from which a range was removed. -/
theorem cget_filter {α : Type} (d : Nat → α) (p : Nat → Bool) (m : List (Nat × α)) (a : Nat) :
    cget d (m.filter (fun e => p e.1)) a = if p a then cget d m a else d a := by
  induction m with
  | nil => simp [cget]
  | cons e m ih =>
    obtain ⟨k, v⟩ := e
    rw [List.filter_cons]
    by_cases hk : k = a
    · subst hk
      by_cases hp : p k <;> simp [cget, hp, ih]
    · by_cases hp : p k <;> simp [cget, hp, hk, ih]

theorem flashByte_flashErase (a n b : Nat) (s : State) (h : s.flash.answers = true) :
    flashByte (flashErase a n s) b = if a ≤ b ∧ b < a + n then 0xFF else flashByte s b := by
  have hcells : (flashErase a n s).flash.cells = s.flash.cells.filter (fun e => !(decide (a ≤ e.1) && decide (e.1 < a + n))) := rfl
  have hans : (flashErase a n s).flash.answers = true := h
  rw [flashByte, flashByte, if_pos hans, if_pos h, hcells,
    cget_filter flashDefault (fun x => !(decide (a ≤ x) && decide (x < a + n)))]
  by_cases hab : a ≤ b ∧ b < a + n
  · simp [hab, flashDefault]
  · rw [if_neg hab, if_pos (by simp; omega)]

/-- A flash byte is read from the cells and the answering alone. -/
theorem flashByte_congr {s u : State} (hc : u.flash.cells = s.flash.cells) (ha : u.flash.answers = s.flash.answers) (b : Nat) :
    flashByte u b = flashByte s b := by
  rw [flashByte, flashByte, hc, ha]

theorem commitPollDone_of_idle {s : State}
    (h : s.flash.commit.any (fun c => c.poll.isSome && decide (s.now ≤ c.due)) = false ∨ s.flash.answers = false) :
    commitPollDone s = s := by
  unfold commitPollDone
  split
  · rfl
  · next c hc =>
    refine if_pos ?_
    rw [hc] at h
    rcases h with h | h
    · cases hp : c.poll
      · rfl
      · have hd : ¬ s.now ≤ c.due := by simpa [hp] using h
        simp [Nat.lt_of_not_le hd]
    · simp [h]

theorem commitPollDone_erases {s : State} {c : Commit} (hc : s.flash.commit = some c) (hpoll : c.poll.isSome = true)
    (hdue : s.now ≤ c.due) (hans : s.flash.answers = true) (hpre : c.pre = false) (hstep : c.step = 3) (b : Nat) :
    flashByte (commitPollDone s) b =
      if slotBase s c.slot + c.pos ≤ b ∧ b < slotBase s c.slot + c.pos + eraseSize s then 0xFF else flashByte s b := by
  have hgo : ¬ (c.poll.isNone || !s.flash.answers || decide (c.due < s.now)) = true := by
    simp [Option.isSome_iff_ne_none.mp hpoll, hans, hdue]
  rw [← flashByte_flashErase (slotBase s c.slot + c.pos) (eraseSize s) b s hans]
  unfold commitPollDone
  rw [hc]
  dsimp only
  rw [if_neg hgo, if_neg (by simp [hpre]), if_pos hstep]
  split <;> exact flashByte_congr rfl rfl b

theorem flashUndefined_commit (a n : Nat) (s : State) : (flashUndefined a n s).flash.commit = s.flash.commit ∧
    (flashUndefined a n s).regs = s.regs := by
  induction n generalizing a s with
  | zero => exact ⟨rfl, rfl⟩
  | succ n ih =>
    obtain ⟨hc, hr⟩ := ih (a + 1) { s with flash := { s.flash with cells := cset flashDefault s.flash.cells a (Config.freeByte s.free) }, free := s.free + 1 }
    exact ⟨hc, hr⟩

theorem flashHalf_commit (k : FlashBusy) (a : Nat) (s : State) : (flashHalf k a s).flash.commit = s.flash.commit := by
  cases k with
  | page =>
    simp only [flashHalf]
    exact (flashUndefined_commit _ _ s).1
  | erase =>
    simp only [flashHalf]
    exact (flashUndefined_commit _ _ s).1

theorem cutFlash_commit (k : FlashBusy) (a : Nat) (s : State) : (cutFlash k a s).flash.commit = s.flash.commit := by
  have hhalf := flashHalf_commit k a s
  unfold cutFlash
  generalize flashHalf k a s = t at hhalf
  exact hhalf

theorem commitCut_commit (s : State) : (commitCut s).flash.commit = s.flash.commit := by
  unfold commitCut
  split
  · split
    · split
      · rfl
      · exact cutFlash_commit _ _ s
    · rfl
  · rfl

theorem commitTimeout_spec (r : State) :
    let u := commitTimeout r
    if r.flash.commit.any (fun c => c.poll.isSome && decide (c.due ≤ r.now)) then
      regBit u Reg.sys_ARMSTAT 10 = true ∧ u.flash.commit.map (fun c => (c.ended, c.poll)) = some (some (false, true), none)
    else u = r := by
  dsimp only
  unfold commitTimeout
  cases hc : r.flash.commit with
  | none => rfl
  | some c =>
    dsimp only
    rw [Option.any_some]
    split
    · refine ⟨?_, ?_⟩
      · rw [regBit_commitStop (by decide)]
        simp
      · rw [commitStop_spec, commitCut_commit, hc]
        rfl
    · rfl

/-- FLASH.CMT as the end of a commit writes it. -/
def cmtWord (c : Commit) (e : Bool × Bool) : Word := wd (0x8000 + e.1.toNat * 0x4000 + e.2.toNat * 0x2000 + c.step)

theorem cmtWord_valid {c : Commit} (h : c.step < 8) (e : Bool × Bool) : cmtWord c e ||| 0x8000 = cmtWord c e := by
  refine BitVec.eq_of_getLsbD_eq fun i hi => ?_
  have htop : (cmtWord c e).getLsbD 15 = true := by
    obtain ⟨a, b⟩ := e
    rw [cmtWord, wd, BitVec.getLsbD_ofNat, Nat.testBit_eq_decide_div_mod_eq]
    have ha : a.toNat < 2 := Bool.toNat_lt a
    have hb : b.toNat < 2 := Bool.toNat_lt b
    simp only [decide_eq_true_eq, Bool.and_eq_true]
    omega
  rw [BitVec.getLsbD_or, show (0x8000 : Word) = wd (2 ^ 15) from rfl, getLsbD_wd_two_pow 15 i hi]
  by_cases h15 : i = 15
  · rw [h15, htop]
    rfl
  · simp [Ne.symm h15, -BitVec.getLsbD_eq_getElem]

/-- The records of a commit that ends, before its source is signalled. -/
def commitRecorded (c : Commit) (e : Bool × Bool) (s : State) : State :=
  let s := hwSet Reg.flash_CMT 0x8000 (setReg Reg.flash_CMT (cmtWord c e) (setRegBit Reg.sys_ARMSTAT armCBUSY false s))
  let s := { s with flash := { s.flash with commit := none } }
  if s.flash.owner = .commit then flashRelease s else s

theorem commitEnd_of_ended {s : State} {c : Commit} {e : Bool × Bool} (hc : s.flash.commit = some c) (he : c.ended = some e) :
    commitEnd s = commitEnded (signal 60 (commitRecorded c e s)) := by
  unfold commitEnd
  simp only [hc, he]
  rfl

theorem commitEnd_of_none {s : State} (h : s.flash.commit.bind (·.ended) = none) : commitEnd s = s := by
  unfold commitEnd
  split
  · rfl
  · next c hc =>
    have he : c.ended = none := by simpa [hc] using h
    rw [he]

theorem commitRecorded_spec {c : Commit} (h : c.step < 8) (e : Bool × Bool) (s : State) :
    (commitRecorded c e s).flash.commit = none ∧ regBit (commitRecorded c e s) Reg.sys_ARMSTAT 11 = false ∧
      reg (commitRecorded c e s) Reg.flash_CMT = cmtWord c e := by
  unfold commitRecorded
  extract_lets t _ v
  have harm : regBit t Reg.sys_ARMSTAT 11 = false := by
    rw [regBit, reg_hwSet_other _ _ (by decide), reg_setReg_other _ _ (by decide), ← regBit]
    exact regBit_setRegBit_same _ _ _ _ (by decide)
  have hcmt : reg t Reg.flash_CMT = cmtWord c e := by
    rw [reg_hwSet_same, reg_setReg_same, cmtWord_valid h]
  have hrel : ∀ w : State, w.flash.commit = none → (flashRelease w).flash.commit = none ∧ (flashRelease w).regs = w.regs := by
    intro w hw
    unfold flashRelease
    simp only [hw, and_self]
  split
  · obtain ⟨hnone, hregs⟩ := hrel v rfl
    refine ⟨hnone, ?_, ?_⟩
    · rw [regBit, reg, hregs]
      exact harm
    · rw [reg, hregs]
      exact hcmt
  · exact ⟨rfl, harm, hcmt⟩

theorem commitEnd_spec {r : State} {c : Commit} {e : Bool × Bool} (hc : r.flash.commit = some c) (he : c.ended = some e)
    (hstep : c.step < 8) :
    let u := commitEnd r
    regBit u Reg.sys_ARMSTAT 11 = false ∧ u.flash.commit.isNone = true ∧ hasEvent u 60 ∧ reg u Reg.flash_CMT = cmtWord c e := by
  dsimp only
  obtain ⟨hnone, hbusy, hcmt⟩ := commitRecorded_spec hstep e r
  rw [commitEnd_of_ended hc he]
  generalize commitRecorded c e r = t at hnone hbusy hcmt
  have hend := besideModes_commitEnded (signal 60 t)
  refine ⟨?_, ?_, hend.events 60 (hasEvent_signal_same 60 t), ?_⟩
  · rw [regBit, (hend.regs _ (by decide)), reg_signal (by decide), ← regBit, hbusy]
  · rw [hend.flash, signal_flash, hnone]
    rfl
  · rw [(hend.regs _ (by decide)), reg_signal (by decide), hcmt]

/-! ### Writes to the working copy -/

theorem memWrite_of_granted {m : Master} {a : Nat} {v : Word} {s : State} (ha : isSpad a = true)
    (href : refusal s m a 1 true = none) (hcol : collides s (masterNo m) a 1 = false) :
    (memWrite m a [v] s).2 = spadWriteBy (masterNo m) a [v] s := by
  rw [memWrite, List.length_singleton, href]
  simp only [writeUnchecked, ha, if_true, spadWrite, List.length_singleton, hcol]
  rfl

/-- The write log with the write of this tick. -/
def writeLogged (m a : Nat) (s : State) : State :=
  { s with mem := { s.mem with
      wTick := s.now
      wLog := wLogNow s ++ (List.range 1).map (fun i => (m, a + i, spadGet s (a + i))) } }

theorem spadWriteBy_working {a : Nat} (ha : isWorking a = true) (m : Nat) (v : Word) (s : State) :
    spadWriteBy m a [v] s = spadPut a v (writeLogged m a (setRegBit Reg.sys_ARMSTAT 12 true s)) := by
  rw [spadWriteBy, if_pos (by simp [ha])]
  rfl

theorem workingCopyWrite_spec {m : Master} {a : Nat} {v : Word} {r : State} (hlo : 0x16000 ≤ a) (hhi : a < 0x17000)
    (href : refusal r m a 1 true = none) (hcol : collides r (masterNo m) a 1 = false) :
    let u := (memWrite m a [v] r).2
    spadGet u a = v ∧ regBit u Reg.sys_ARMSTAT 12 = true ∧ (∀ b, b ≠ a → spadGet u b = spadGet r b) ∧
      RegsBut [Reg.sys_ARMSTAT] r u := by
  have hspad : isSpad a = true := by
    rw [isSpad, decide_eq_true_eq]
    omega
  have hwork : isWorking a = true := by
    rw [isWorking, Bool.and_eq_true, decide_eq_true_eq, decide_eq_true_eq]
    exact ⟨hlo, hhi⟩
  dsimp only
  rw [memWrite_of_granted hspad href hcol, spadWriteBy_working hwork]
  refine ⟨?_, ?_, fun b hb => ?_, fun b hb => ?_⟩
  · rw [spadGet_spadPut, if_pos rfl]
  · exact regBit_setRegBit_same Reg.sys_ARMSTAT 12 true r (by decide)
  · rw [spadGet_spadPut, if_neg hb]
    rfl
  · exact reg_setRegBit_other 12 true r (List.ne_of_not_mem_cons hb)

theorem exec_armcmdCheck (m : Master) (s : State) : exec (.armcmdCheck m) s = act armCheck s := rfl
theorem exec_armcmdCommit (m : Master) (s : State) : exec (.armcmdCommit m) s = act (armCommit m) s := rfl
theorem exec_commitFlashPollDone (dt : Nat) (s : State) :
    exec (.commitFlashPollDone dt) s = actAfter dt commitPollDone s := rfl
theorem exec_commitFlashTimeout (s : State) : exec .commitFlashTimeout s = actDue commitTimeoutDue commitTimeout s := rfl
theorem exec_commitEnd (s : State) : exec .commitEnd s = actAfter 0 commitEnd s := rfl
theorem exec_workingCopyWrite (m : Master) (a : Nat) (v : Word) (s : State) : exec (.workingCopyWrite m a v) s =
    act (fun s => if isWorking a then (memWrite m a [v] s).2 else s) s := rfl

/-- Settles O21: one outcome lemma for each command of the working copy. -/
theorem workingCopyIsCheckedAndCommitted : Obligations.WorkingCopyIsCheckedAndCommitted := by
  unfold Obligations.WorkingCopyIsCheckedAndCommitted
  intro s dt m hup
  refine ⟨Acts.of (exec_armcmdCheck m s) hup ?check, Acts.of (exec_armcmdCommit m s) hup ?commit,
    ActsAfter.of (exec_commitFlashPollDone dt s) hup ?poll, ActsAt.of (exec_commitFlashTimeout s) hup ?timeout,
    ActsAfter.of (exec_commitEnd s) hup ?ends, fun a v => Acts.of (exec_workingCopyWrite m a v s) hup ?write⟩
  all_goals generalize ready _ s = r
  case check =>
    split
    · next h => exact armCheck_spec h
    · next h => exact if_neg (by rw [armMayRun_eq]; simpa using h)
  case commit =>
    split
    · next h =>
      obtain ⟨⟨hbusy, hsome, hcells⟩, hfail, hgo⟩ := armCommit_spec m (r := r) (by rw [armMayRun_eq]; exact decide_eq_true h)
      exact ⟨hbusy, hsome, hcells, hfail, hgo⟩
    · next h =>
      rw [armCommit_eq, armMayRun_eq, decide_eq_false h]
      rfl
  case poll =>
    exact ⟨commitPollDone_of_idle, fun c hc hpoll hdue hans hpre hstep => commitPollDone_erases hc hpoll hdue hans hpre hstep⟩
  case timeout => exact commitTimeout_spec r
  case ends => exact ⟨commitEnd_of_none, fun c hc e he hstep => commitEnd_spec hc he hstep⟩
  case write =>
    refine ⟨fun hlo hhi href _ hcol => ?_, fun h => if_neg ?_⟩
    · rw [if_pos (by simp [isWorking, hlo, hhi])]
      exact workingCopyWrite_spec hlo hhi href hcol
    · simpa [isWorking] using h

end Sys2Proof.Machine

/-! ## An output command that arrives while an instruction runs (R366, R646, R721)

The microwords of an instruction take time, and the output commands under way arrive in it. The statements on instructions
that leave everything beyond their thread as it is, every register but the wheel's among it, do not hold then. -/

namespace Sys2Proof.Machine

/-- Thread `t` is about to execute the instruction at 0400h, coil 0 is on, and its off command, with peak 5, arrives in the
next tick. -/
def coilGoesOff (t : Fin 8) : State :=
  let s := setThread t (fun h => { h with st := .ready, begun := true, pc := 0x400 }) State.reset
  { s with out := { s.out with
      stages := s.out.stages.set 0 { s.out.stages[0] with on := true }
      queue := [{ tick := 1, tgt := 0, on := false, peak := 5 }] } }

/-- The instruction `i` answers a state in which the coil's peak stands in OUT.IPK0. -/
def peakArrives (i : Instr) (t : Fin 8) : Bool :=
  match exec i (coilGoesOff t) with
  | .next u => reg u (Reg.out_IPK 0) == 5
  | _ => false

theorem ipk_coilGoesOff (t : Fin 8) : reg (ready 0 (coilGoesOff t)) (Reg.out_IPK 0) = 0 := by
  decide +revert +kernel

/-- Where the peak arrives, a register beyond the wheel's changed. -/
theorem not_regsBut_of_peak {i : Instr} {t : Fin 8} {u : State} (h : peakArrives i t = true)
    (hu : exec i (coilGoesOff t) = .next (follow u)) : ¬ RegsBut wheelRegs (ready 0 (coilGoesOff t)) u := by
  intro hregs
  have hkept := hregs (Reg.out_IPK 0) (by decide)
  rw [peakArrives, hu, beq_iff_eq] at h
  rw [ipk_coilGoesOff] at hkept
  exact absurd (h.symm.trans ((reg_follow_ipk 0 u).trans hkept)) (by decide)

/-- An instruction of which the statement says that it runs plainly. -/
theorem not_runsPlain_of_peak {i : Instr} {t : Fin 8} {pre : List Prefix} {op : Op} {xs : List (Fin 16)}
    {P : Thread → Thread → Prop} {u : State} (h : peakArrives i t = true)
    (hu : exec i (coilGoesOff t) = .next (follow u)) (hexec : executes (ready 0 (coilGoesOff t)) t pre op = true)
    (hplain : slotPlain (thread (ready 0 (coilGoesOff t)) t) = true) :
    ¬ RunsPlain t pre op xs P (ready 0 (coilGoesOff t)) u := by
  intro hruns
  obtain ⟨-, -, -, -, -, -, -, -, -, -, -, -, hregs⟩ := hruns hexec hplain
  exact not_regsBut_of_peak h hu hregs

theorem plain_coilGoesOff (t : Fin 8) : slotPlain (thread (ready 0 (coilGoesOff t)) t) = true := by
  decide +revert +kernel

/-- Refutes O26: while ADD runs, the off command of coil 0 arrives and OUT.IPK0 takes its peak (R721), which is none of the
wheel's registers. -/
theorem not_sumsAndDifferencesAreExact : ¬ Obligations.SumsAndDifferencesAreExact := by
  unfold Obligations.SumsAndDifferencesAreExact
  intro h
  obtain ⟨⟨u, hu, hruns⟩, -⟩ := h (coilGoesOff 2) 2 [] 1 (.reg 2) rfl
  exact not_runsPlain_of_peak (by decide +kernel) hu (by decide +kernel) (plain_coilGoesOff 2) hruns

/-- Refutes O27: as O26, with AND. -/
theorem not_logicAndShiftsMoveTheirBits : ¬ Obligations.LogicAndShiftsMoveTheirBits := by
  unfold Obligations.LogicAndShiftsMoveTheirBits
  intro h
  obtain ⟨⟨u, hu, hruns⟩, -⟩ := h (coilGoesOff 2) 2 [] 1 (.reg 2) (.imm 1) rfl
  exact not_runsPlain_of_peak (by decide +kernel) hu (by decide +kernel) (plain_coilGoesOff 2) hruns

/-- Refutes O28: as O26, with MUL. -/
theorem not_accumulatorsSumExactProducts : ¬ Obligations.AccumulatorsSumExactProducts := by
  unfold Obligations.AccumulatorsSumExactProducts
  intro h
  obtain ⟨⟨u, hu, hruns⟩, -⟩ := h (coilGoesOff 2) 2 [] 1 2 rfl
  exact not_runsPlain_of_peak (by decide +kernel) hu (by decide +kernel) (plain_coilGoesOff 2) hruns

/-- Refutes O32: as O26, with BR. -/
theorem not_branchesOpenTheirDelaySlot : ¬ Obligations.BranchesOpenTheirDelaySlot := by
  unfold Obligations.BranchesOpenTheirDelaySlot
  intro h
  obtain ⟨⟨u, hu, hruns⟩, -⟩ := h (coilGoesOff 2) 2 [] 0 5 1 0 0 (.imm 1) rfl
  exact not_runsPlain_of_peak (by decide +kernel) hu (by decide +kernel) (plain_coilGoesOff 2) hruns

/-- Refutes O33: as O26, with NOP, of which the statement says so in every slot but a CALLM's or RETM's. -/
theorem not_slotsAndLoopEndsSteerThePc : ¬ Obligations.SlotsAndLoopEndsSteerThePc := by
  unfold Obligations.SlotsAndLoopEndsSteerThePc
  intro h
  obtain ⟨u, hu, hruns⟩ := h (coilGoesOff 2) 2 [] rfl
  obtain ⟨-, -, -, -, -, honly, -⟩ := hruns (by decide +kernel) (by decide +kernel)
  obtain ⟨-, -, -, -, -, -, -, -, -, hregs⟩ := honly (plain_coilGoesOff 2)
  exact not_regsBut_of_peak (by decide +kernel) hu hregs

/-- Refutes O34: as O26, with WAIT #0, which completes at once. -/
theorem not_waitsSignalsAndSealsAnswer : ¬ Obligations.WaitsSignalsAndSealsAnswer := by
  unfold Obligations.WaitsSignalsAndSealsAnswer
  intro h
  obtain ⟨⟨u, hu, hruns⟩, -⟩ := h (coilGoesOff 2) 2 [] (.imm 0) (.imm 0) rfl
  obtain ⟨⟨-, -, -, -, -, -, -, -, hregs⟩, -⟩ := (if_pos (.inl rfl)).mp (hruns (by decide +kernel))
  exact not_regsBut_of_peak (by decide +kernel) hu hregs

/-- Refutes O35: as O26, with SETBK in TH0. -/
theorem not_systemInstructionsKeepTheirPrivilege : ¬ Obligations.SystemInstructionsKeepTheirPrivilege := by
  unfold Obligations.SystemInstructionsKeepTheirPrivilege
  intro h
  obtain ⟨-, ⟨u, hu, hruns⟩, -⟩ := h (coilGoesOff 0) 0 [] 0 (.imm 0) 0 (.ind 0) rfl
  obtain ⟨-, -, -, -, -, -, ⟨-, -, -, -, -, -, -, -, hregs⟩, -⟩ :=
    (if_neg (by decide)).mp (hruns (by decide +kernel) (plain_coilGoesOff 0))
  exact not_regsBut_of_peak (by decide +kernel) hu hregs

/-- Refutes O36: as O26, with a NOP whose guard fails, of which the statement says that it leaves everything beyond its
thread as it is. -/
theorem not_instructionsPassTheirChecksInOrder : ¬ Obligations.InstructionsPassTheirChecksInOrder := by
  unfold Obligations.InstructionsPassTheirChecksInOrder
  intro h
  obtain ⟨u, hu, -, hissue⟩ := h (.nop 2 [.ift 1]) 2 [.ift 1] .nop (coilGoesOff 2) rfl rfl
  obtain ⟨-, hclear⟩ := hissue (by decide +kernel)
  obtain ⟨-, hdecoded⟩ := hclear (by decide +kernel)
  obtain ⟨-, hplaced⟩ := hdecoded (by decide +kernel)
  obtain ⟨hguard, -⟩ := hplaced (by decide +kernel) (plain_coilGoesOff 2)
  obtain ⟨⟨-, -, -, ⟨-, -, -, -, -, -, -, -, hregs⟩, -⟩, -⟩ := hguard (by decide +kernel)
  exact not_regsBut_of_peak (by decide +kernel) hu hregs

end Sys2Proof.Machine

/-! ## The stepper (R729-R733) -/

namespace Sys2Proof.Machine

theorem stepperRuns_iff (s : State) : stepperRuns s = true ↔ stageBlocked s 12 = false ∧ stageBlocked s 13 = false := by
  simp [stepperRuns]

theorem stepPeriod_eq (s : State) : stepPeriod s = max 1 (regF s (Reg.out_CFG 12 + 1) 8 8) * 80000 := rfl

theorem fld_lt {n : Nat} (w : BitVec n) (lo len : Nat) : fld w lo len < 2 ^ len := Nat.mod_lt _ (Nat.two_pow_pos len)

/-- The sequencer at the start of a homing (R732). -/
def homingStarted (s : State) : Stepper :=
  { s.out.stepper with
    homing := some (regF s (Reg.out_CFG 12) 0 14 + 8), holding := false, moving := false, everHomed := true
    stepDue := s.now + max 1 (regF s (Reg.out_CFG 12 + 1) 8 8) * 80000 }

theorem startHoming_of_runs {s : State} (h : stepperRuns s = true) :
    startHoming s = setStepper (fun _ => homingStarted s) s := if_pos h

theorem startHoming_of_not_runs {s : State} (h : stepperRuns s = false) : startHoming s = s :=
  if_neg (by simp [h])

theorem stepperStep_of_not_runs {s : State} (h : stepperRuns s = false) : stepperStep s = s := by
  simp [stepperStep, h]

theorem stepperStep_of_homed {s : State} (h : s.out.stepper.homing = some 0) : stepperStep s = s := by
  simp [stepperStep, h]

/-- A step of a homing counts it down (R732). -/
theorem stepperStep_of_homing {s : State} {k : Nat} (h : stepperRuns s = true) (hk : s.out.stepper.homing = some (k + 1)) :
    stepperStep s = setStepper (fun p => { p with homing := some k, lastStep := s.now, stepDue := s.now + stepPeriod s }) s := by
  simp [stepperStep, h, hk]

theorem stepperStep_of_not_homed {s : State} (h : stepperRuns s = true) (hk : s.out.stepper.homing = none)
    (hh : s.out.stepper.homed = false) : stepperStep s = startHoming s := by
  simp [stepperStep, h, hk, hh]

/-- A sequencer at its target stands still (R730). -/
theorem stepperStep_at_target {s : State} (h : stepperRuns s = true) (hk : s.out.stepper.homing = none)
    (hh : s.out.stepper.homed = true)
    (hp : regF s Reg.out_STEPPOS 0 14 = min (regF s Reg.out_STEPTGT 0 14) (stageLimit s 12)) :
    stepperStep s = setStepper (fun p => { p with moving := false }) s := by
  simp [stepperStep, h, hk, hh, hp]

/-- A sequencer off its target makes one step (R730). -/
theorem stepperStep_off_target {s : State} (h : stepperRuns s = true) (hk : s.out.stepper.homing = none)
    (hh : s.out.stepper.homed = true) {tgt pos : Nat} (ht : tgt = min (regF s Reg.out_STEPTGT 0 14) (stageLimit s 12))
    (hp : pos = regF s Reg.out_STEPPOS 0 14) (hne : pos ≠ tgt) :
    stepperStep s = setStepper (fun p => { p with
      moving := decide ((if pos < tgt then pos + 1 else pos - 1) ≠ tgt), holding := false, lastStep := s.now,
      stepDue := s.now + stepPeriod s })
      (setRegF Reg.out_STEPPOS 0 14 (if pos < tgt then pos + 1 else pos - 1) s) := by
  subst ht hp
  simp [stepperStep, h, hk, hh, hne]

theorem stepperStep_next_lt {s : State} {tgt pos : Nat} (ht : tgt = min (regF s Reg.out_STEPTGT 0 14) (stageLimit s 12))
    (hp : pos = regF s Reg.out_STEPPOS 0 14) : (if pos < tgt then pos + 1 else pos - 1) < 2 ^ 14 := by
  have htgt : stageLimit s 12 < 2 ^ 14 := fld_lt _ _ _
  have hpos : pos < 2 ^ 14 := hp ▸ fld_lt _ _ _
  split_ifs <;> omega

theorem diagRaise_open_bridge (k : Fin 2) : diagRaise ⟨12 + k.val, by omega⟩ dOpen =
    { cls := clsOutput, detail := wd (0x1000 + (12 + k.val)), unit := some (.bit ⟨12 + k.val, by omega⟩) } := by
  decide +revert

theorem stageSource_bridge (k : Fin 2) : stageSource (12 + k.val) = 27 := by decide +revert

/-- The OPEN bit of a bridge, newly set, raises OUTPUT and signals source 27 (R733, R739). -/
theorem setDiag_open_bridge (k : Fin 2) (s : State) :
    let i : Fin 16 := ⟨12 + k.val, by omega⟩
    regBit (setDiag i dOpen s) (Reg.out_DIAG i) 0 = true ∧ (setDiag i dOpen s).out = s.out ∧
      reg (setDiag i dOpen s) Reg.out_LATCH = reg s Reg.out_LATCH ∧
      (regBit s (Reg.out_DIAG i) 0 = false → hasEvent (setDiag i dOpen s) 27 ∧
        Raised s (setDiag i dOpen s) { cls := clsOutput, detail := wd (0x1000 + i.val), unit := some (.bit ⟨i.val, by omega⟩) }) := by
  intro i
  have hlatched : diagLatched i dOpen s = hwSet (Reg.out_DIAG i) (wd (2 ^ 0)) s := by
    simp [diagLatched, dOpen, dShort, dOt, dDwell, dGate]
  have hdiag : regBit (diagLatched i dOpen s) (Reg.out_DIAG i) 0 = true := by
    rw [hlatched, regBit_hwSet_bit _ 0 0 s (by omega)]; simp
  have hout : ∀ u, Noted s u → u.out = s.out := by
    rintro u ⟨_, _, _, _, rfl⟩; rfl
  have hlatch : reg (diagLatched i dOpen s) Reg.out_LATCH = reg s Reg.out_LATCH := by
    rw [hlatched, reg_hwSet_other]
    simp only [Reg.out_LATCH, Reg.out_DIAG]
    omega
  have hdiagrun : Reg.out_DIAG i ∉ runst := not_mem_runst (.inr (by simp only [Reg.intc_RUNST, Reg.out_DIAG]; omega))
  have hlatchrun : Reg.out_LATCH ∉ runst := not_mem_runst (.inr (by decide))
  have hregs : ∀ a, a ∉ runst → reg (setDiag i dOpen s) a = reg (diagLatched i dOpen s) a := by
    intro a ha
    rw [setDiag_cases]
    by_cases hwas : regBit s (Reg.out_DIAG i) dOpen = true ∨ dOpen = dPkto
    · rw [if_pos hwas]
    · rw [if_neg hwas, reg_signal ha]
      rfl
  refine ⟨?_, hout _ (noted_setDiag i dOpen s), (hregs _ hlatchrun).trans hlatch, fun hnew => ?_⟩
  · rw [regBit, hregs _ hdiagrun]; exact hdiag
  · have hraises : (diagLatched i dOpen s).fcol.raises = s.fcol.raises := by
      obtain ⟨_, _, heq⟩ := diagLatched_eq i dOpen s
      rw [heq]
    have hraise := diagRaise_open_bridge k
    have hsource : stageSource i = 27 := stageSource_bridge k
    rw [setDiag_cases, if_neg (by simp [dOpen, dPkto, hnew]), hsource]
    refine ⟨hasEvent_signal_same _ _, ?_⟩
    have hkept := signal_raises 27 (raise (diagRaise i dOpen) (diagLatched i dOpen s))
    rw [raise_fcol, hraises] at hkept
    rw [Raised, ← hraise]
    exact hkept

theorem bridgeOpenCheck_eq (k : Fin 2) (b : Bool) (s : State) : bridgeOpenCheck k b s =
    if b = true ∧ regBit s (Reg.out_CFG (12 + k.val)) 14 = true ∧ stepperRuns s = true then
      setDiag ⟨12 + k.val, by omega⟩ dOpen s else s := by
  have hi : 12 + k.val < 14 := by omega
  simp only [bridgeOpenCheck, stageDiagEn, Nat.add_comm k.val 12, if_pos hi, Bool.and_eq_true, and_assoc]

/-- A homing that starts: its record, and what it leaves. -/
theorem startHoming_spec {s : State} (h : stepperRuns s = true) :
    (startHoming s).out.stepper = homingStarted s ∧ (startHoming s).regs = s.regs ∧
      (startHoming s).out.stages = s.out.stages := by
  rw [startHoming_of_runs h]
  exact ⟨rfl, rfl, rfl⟩

/-- A step off the target: the place moves by one towards it. -/
theorem stepperStep_off_target_spec {s : State} (h : stepperRuns s = true) (hk : s.out.stepper.homing = none)
    (hh : s.out.stepper.homed = true) {tgt pos : Nat} (ht : tgt = min (regF s Reg.out_STEPTGT 0 14) (stageLimit s 12))
    (hp : pos = regF s Reg.out_STEPPOS 0 14) (hne : pos ≠ tgt) :
    regF (stepperStep s) Reg.out_STEPPOS 0 14 = (if pos < tgt then pos + 1 else pos - 1) ∧
      RegsBut [Reg.out_STEPPOS] s (stepperStep s) ∧ (stepperStep s).out.stepper.lastStep = s.now ∧
      (stepperStep s).out.stepper.holding = false ∧ (stepperStep s).out.stepper.stepDue = s.now + stepPeriod s := by
  rw [stepperStep_off_target h hk hh ht hp hne]
  refine ⟨?_, fun a ha => ?_, rfl, rfl, rfl⟩
  · have hlt := stepperStep_next_lt ht hp
    refine Eq.trans (b := fld (putFld (reg s Reg.out_STEPPOS) 0 14 (if pos < tgt then pos + 1 else pos - 1)) 0 14) ?_ ?_
    · exact congrArg (fld · 0 14) (reg_setReg_same _ _ s)
    · rw [fld_putFld _ _ _ _ (by decide), Nat.mod_eq_of_lt hlt]
  · exact reg_setReg_other _ s (by simpa using ha)

/-- Proves O52, from the cases of each step of the sequencer. -/
theorem stepperFollowsItsTarget : Obligations.StepperFollowsItsTarget := by
  unfold Obligations.StepperFollowsItsTarget
  intro s m k dt b hup
  extract_lets p runs period limit homes
  have hruns : ∀ r, runs r ↔ stepperRuns r = true := fun r => (stepperRuns_iff r).symm
  have hstart : ∀ r, runs r → homes r (startHoming r) := fun r h => startHoming_spec ((hruns r).1 h)
  refine ⟨ActsAt.of rfl hup ?_, Acts.of rfl hup ?_, ActsAfter.of rfl hup ?_, ActsAt.of rfl hup ?_, ActsAfter.of rfl hup ?_⟩
  · generalize ready _ s = r
    extract_lets pos tgt
    refine ⟨?_, fun h => ⟨fun n hn hpos => ?_, fun hn hh => ?_, fun hn hh => ?_⟩⟩
    · rintro (h | h)
      · exact stepperStep_of_not_runs (Bool.eq_false_iff.2 (mt (hruns r).2 h))
      · exact stepperStep_of_homed h
    · obtain ⟨n, rfl⟩ := Nat.exists_eq_succ_of_ne_zero hpos.ne'
      rw [stepperStep_of_homing ((hruns r).1 h) hn]
      exact ⟨rfl, rfl⟩
    · rw [stepperStep_of_not_homed ((hruns r).1 h) hn hh]
      exact hstart r h
    · by_cases hpt : pos = tgt
      · rw [if_pos hpt, stepperStep_at_target ((hruns r).1 h) hn hh hpt]
        exact ⟨rfl, rfl⟩
      · rw [if_neg hpt]
        exact stepperStep_off_target_spec ((hruns r).1 h) hn hh rfl rfl hpt
  · generalize ready _ s = r
    cases hm : privileged m <;> by_cases h : runs r
    · simp [stepcmdWrite, hm]
    · simp [stepcmdWrite, hm]
    · simpa [stepcmdWrite, hm, h] using hstart r h
    · simpa [stepcmdWrite, hm, h] using startHoming_of_not_runs (Bool.eq_false_iff.2 (mt (hruns r).2 h))
  · generalize ready _ s = r
    unfold homingEnd
    split_ifs with h
    · exact ⟨rfl, (reg_setReg_same Reg.out_STEPPOS 0 r :),
        fun a ha => (reg_setReg_other (a := Reg.out_STEPPOS) 0 r (by simpa using ha) :)⟩
    · rfl
  · generalize ready _ s = r
    unfold stepperHold
    by_cases h : runs r ∧ r.out.stepper.homing = none
    · rw [if_pos h, if_pos ⟨(hruns r).1 h.1, h.2⟩]
      exact ⟨rfl, rfl⟩
    · rw [if_neg h, if_neg (fun h' => h ⟨(hruns r).2 h'.1, h'.2⟩)]
  · generalize ready _ s = r
    rw [bridgeOpenCheck_eq]
    by_cases h : b = true ∧ regBit r (Reg.out_CFG (12 + k.val)) 14 = true ∧ runs r
    · rw [if_pos h, if_pos ⟨h.1, h.2.1, (hruns r).1 h.2.2⟩]
      exact setDiag_open_bridge k r
    · rw [if_neg h, if_neg (fun h' => h ⟨h'.1, h'.2.1, (hruns r).2 h'.2.2⟩)]

end Sys2Proof.Machine

/-! ## The K-line (R934-R936, R942-R944) -/

namespace Sys2Proof.Machine

/-! ### Counters and fields of hardware -/

/-- A counter of hardware adds 1 and saturates. -/
theorem regF_hwCountF (a lo len : Nat) (s : State) (h : lo + len ≤ 16) :
    regF (hwCountF a lo len 1 s) a lo len = min (2 ^ len - 1) (regF s a lo len + 1) := by
  have hpos := Nat.two_pow_pos len
  have hlt : satAdd (2 ^ len - 1) (regF s a lo len) 1 < 2 ^ len := by unfold satAdd; omega
  rw [regF, reg_hwCountF_same, fld_putFld _ _ _ _ h, Nat.mod_eq_of_lt hlt, satAdd]

theorem hasEvent_hwCountF {k : Fin 96} {s : State} (h : hasEvent s k) (a lo len n : Nat) : hasEvent (hwCountF a lo len n s) k := h

theorem hasEvent_setKline {k : Fin 96} {s : State} (h : hasEvent s k) (f : Kline → Kline) : hasEvent (setKline f s) k := h

theorem regF_setRegF_same (a lo len v : Nat) (s : State) (h : lo + len ≤ 16) :
    regF (setRegF a lo len v s) a lo len = v % 2 ^ len := by
  rw [regF, reg_setRegF_same, fld_putFld _ _ _ _ h]

theorem regF_of_reg {s u : State} {a : Nat} (h : reg u a = reg s a) (lo len : Nat) : regF u a lo len = regF s a lo len := by
  rw [regF, h, regF]

theorem regBit_of_reg {s u : State} {a : Nat} (h : reg u a = reg s a) (b : Nat) : regBit u a b = regBit s a b := by
  rw [regBit, h, regBit]

/-! ### Bytes -/

/-- The TX FIFO takes a new content, and nothing else of the interface changes; source 51 tells that it emptied (R935). -/
theorem klineTx_spec (q : List Byte) (s : State) :
    (klineTx q s).kline = { s.kline with tx := q } ∧ (klineTx q s).now = s.now ∧ RegsBut runst s (klineTx q s) ∧
      (q = [] → s.kline.tx ≠ [] → hasEvent (klineTx q s) 51) := by
  have heq : klineTx q s = if q.isEmpty && !s.kline.tx.isEmpty then signal 51 (setKline (fun k => { k with tx := q }) s)
      else setKline (fun k => { k with tx := q }) s := rfl
  rw [heq]
  split_ifs with h
  · exact ⟨signal_kline _ _, signal_now _ _, regsBut_signal 51 _, fun _ _ => hasEvent_signal_same 51 _⟩
  · refine ⟨rfl, rfl, fun _ _ => rfl, fun hq htx => absurd ?_ h⟩
    simp [hq, htx]

/-- The framing error of a byte received: a count and source 53. -/
def framed (fe : Bool) (s : State) : State := if fe then signal 53 (hwCountF Reg.kline_ERRC 0 8 1 s) else s

theorem framed_spec (fe : Bool) (s : State) :
    (framed fe s).kline = s.kline ∧ (framed fe s).now = s.now ∧ RegsBut (Reg.kline_ERRC :: runst) s (framed fe s) ∧
      (∀ k, hasEvent s k → hasEvent (framed fe s) k) ∧
      (fe = true → hasEvent (framed fe s) 53 ∧
        regF (framed fe s) Reg.kline_ERRC 0 8 = min 255 (regF s Reg.kline_ERRC 0 8 + 1)) := by
  unfold framed
  split_ifs with h
  · refine ⟨signal_kline _ _, signal_now _ _, fun a ha => ?_, fun k hk => hasEvent_signal (hasEvent_hwCountF hk _ _ _ _) 53,
      fun _ => ⟨hasEvent_signal_same 53 _, ?_⟩⟩
    · obtain ⟨hne, hrun⟩ := not_or.1 (mt List.mem_cons.2 ha)
      rw [reg_signal hrun, reg_hwCountF_other _ _ _ s hne]
    · rw [regF_of_reg (reg_signal (not_mem_runst (.inr (by decide))) 53 _), regF_hwCountF _ _ _ _ (by decide)]
      rfl
  · exact ⟨rfl, rfl, fun _ _ => rfl, fun _ h => h, fun hfe => absurd hfe h⟩

/-- The word of the RX FIFO for a byte received (R935). -/
def rxWord (b : Byte) (fe : Bool) : Word := wd (0x8000 + fe.toNat * 0x4000 + b.toNat)

theorem klineReceive_of_room {s : State} (h : s.kline.rx.length < 16) (b : Byte) (fe : Bool) : klineReceive b fe s =
    signal 50 (setKline (fun k => { k with rx := k.rx ++ [rxWord b fe] }) (framed fe s)) := by
  have hk := (framed_spec fe s).1
  exact if_pos (show (framed fe s).kline.rx.length < 16 by rwa [hk])

theorem klineReceive_of_full {s : State} (h : 16 ≤ s.kline.rx.length) (b : Byte) (fe : Bool) : klineReceive b fe s =
    if regBit (framed fe s) Reg.kline_STAT 7 = true then hwSet Reg.kline_STAT 0x80 (framed fe s)
    else setKline (fun k => { k with lostAt := some ((framed fe s).now, rxWord b fe) }) (hwSet Reg.kline_STAT 0x80 (framed fe s)) := by
  have hk := (framed_spec fe s).1
  exact if_neg (show ¬ (framed fe s).kline.rx.length < 16 by rw [hk]; omega)

/-- A byte enters the RX FIFO, or is lost with ROVF; a framing error counts (R935). -/
theorem klineReceive_spec (b : Byte) (fe : Bool) (s : State) :
    (klineReceive b fe s).kline.tx = s.kline.tx ∧
      (s.kline.rx.length < 16 →
        (klineReceive b fe s).kline.rx = s.kline.rx ++ [rxWord b fe] ∧ hasEvent (klineReceive b fe s) 50) ∧
      (16 ≤ s.kline.rx.length → (klineReceive b fe s).kline.rx = s.kline.rx ∧
        regBit (klineReceive b fe s) Reg.kline_STAT 7 = true) ∧
      (fe = true → hasEvent (klineReceive b fe s) 53 ∧
        regF (klineReceive b fe s) Reg.kline_ERRC 0 8 = min 255 (regF s Reg.kline_ERRC 0 8 + 1)) ∧
      (∀ k, hasEvent s k → hasEvent (klineReceive b fe s) k) := by
  obtain ⟨hk, -, -, hkeep, hfe⟩ := framed_spec fe s
  by_cases h : s.kline.rx.length < 16
  · rw [klineReceive_of_room h]
    generalize framed fe s = f at *
    have hrun : Reg.kline_ERRC ∉ runst := not_mem_runst (.inr (by decide))
    refine ⟨?_, fun _ => ⟨?_, hasEvent_signal_same 50 _⟩, fun hfull => absurd h (by omega), fun he => ⟨?_, ?_⟩, fun k hev => ?_⟩
    · rw [signal_kline, ← hk]; rfl
    · rw [signal_kline, ← hk]; rfl
    · exact hasEvent_signal (hasEvent_setKline (hfe he).1 _) 50
    · rw [regF_of_reg (reg_signal hrun 50 _)]; exact (hfe he).2
    · exact hasEvent_signal (hasEvent_setKline (hkeep k hev) _) 50
  · rw [klineReceive_of_full (by omega)]
    generalize framed fe s = f at *
    have hstat : regBit (hwSet Reg.kline_STAT 0x80 f) Reg.kline_STAT 7 = true := regBit_hwSet_bit_same Reg.kline_STAT 7 f (by decide)
    have herrc : regF (hwSet Reg.kline_STAT 0x80 f) Reg.kline_ERRC 0 8 = regF f Reg.kline_ERRC 0 8 :=
      regF_of_reg (reg_hwSet_other _ _ (by decide)) _ _
    have hkl : (hwSet Reg.kline_STAT 0x80 f).kline = s.kline := hk
    have hsame : ∀ k, hasEvent f k → hasEvent (hwSet Reg.kline_STAT 0x80 f) k := fun _ h => h
    generalize hwSet Reg.kline_STAT 0x80 f = g at *
    split_ifs
    · exact ⟨congrArg Kline.tx hkl, fun hroom => absurd hroom h, fun _ => ⟨congrArg Kline.rx hkl, hstat⟩,
        fun he => ⟨hsame _ (hfe he).1, herrc.trans (hfe he).2⟩, fun k hev => hsame k (hkeep k hev)⟩
    · exact ⟨(congrArg Kline.tx hkl :), fun hroom => absurd hroom h, fun _ => ⟨(congrArg Kline.rx hkl :), hstat⟩,
        fun he => ⟨hsame _ (hfe he).1, herrc.trans (hfe he).2⟩, fun k hev => hsame k (hkeep k hev)⟩

/-- What a byte does that is taken while the TX FIFO holds `q` (R935). -/
def Took (q : List Byte) (b : Byte) (fe : Bool) (r u : State) : Prop :=
  u.kline.tx = q ∧
  (r.kline.rx.length < 16 → u.kline.rx = r.kline.rx ++ [wd (0x8000 + fe.toNat * 0x4000 + b.toNat)] ∧ hasEvent u 50) ∧
  (16 ≤ r.kline.rx.length → u.kline.rx = r.kline.rx ∧ regBit u Reg.kline_STAT 7 = true) ∧
  (fe = true → hasEvent u 53 ∧ regF u Reg.kline_ERRC 0 8 = min 255 (regF r Reg.kline_ERRC 0 8 + 1))

theorem took_received (b : Byte) (fe : Bool) (s : State) : Took s.kline.tx b fe s (klineReceive b fe s) := by
  obtain ⟨htx, hroom, hfull, hfe, -⟩ := klineReceive_spec b fe s
  exact ⟨htx, hroom, hfull, hfe⟩

/-- A byte of which nothing happens: none to send, the interface off, or a helper running. -/
theorem klineByteSent_of_ignored {s : State} (echo : Byte) (fe : Bool)
    (h : klineOn s = false ∨ s.kline.helper ≠ none ∨ s.kline.tx = []) : klineByteSent echo fe s = s := by
  unfold klineByteSent
  rcases htx : s.kline.tx with _ | ⟨x, q⟩
  · rfl
  · have hig : (!klineOn s || s.kline.helper.isSome) = true := by
      rcases h with h | h | h
      · simp [h]
      · simp [Option.isSome_iff_ne_none.2 h]
      · exact absurd (htx.symm.trans h) (by simp)
    exact if_pos hig

theorem klineByteSent_of_taken {s : State} {x : Byte} {q : List Byte} (echo : Byte) (fe : Bool) (htx : s.kline.tx = x :: q)
    (hon : klineOn s = true) (hh : s.kline.helper = none) : klineByteSent echo fe s =
      if klineEchoSup s then
        if echo = x ∧ !fe then klineTx q s else signal 53 (hwCountF Reg.kline_ERRC 8 8 1 (klineTx [] s))
      else klineReceive echo fe (klineTx q s) := by
  unfold klineByteSent
  rw [htx]
  exact if_neg (by simp [hon, hh])

/-- A wrong or broken echo flushes the FIFO, counts and signals source 53 (R935). -/
theorem echoLost_spec {s : State} (htx : s.kline.tx ≠ []) :
    let u := signal 53 (hwCountF Reg.kline_ERRC 8 8 1 (klineTx [] s))
    u.kline = { s.kline with tx := [] } ∧ hasEvent u 53 ∧ hasEvent u 51 ∧
      regF u Reg.kline_ERRC 8 8 = min 255 (regF s Reg.kline_ERRC 8 8 + 1) := by
  obtain ⟨hk, -, hregs, hev⟩ := klineTx_spec [] s
  have hrun : Reg.kline_ERRC ∉ runst := not_mem_runst (.inr (by decide))
  refine ⟨?_, hasEvent_signal_same 53 _, hasEvent_signal (hasEvent_hwCountF (hev rfl htx) _ _ _ _) 53, ?_⟩
  · rw [signal_kline]; exact hk
  · rw [regF_of_reg (reg_signal hrun 53 _), regF_hwCountF _ _ _ _ (by decide), regF_of_reg (hregs _ hrun)]
    rfl

/-- A byte sent without echo suppression comes back as a byte received (R935). -/
theorem took_sent {s : State} (q : List Byte) (echo : Byte) (fe : Bool) (htx : s.kline.tx ≠ []) :
    Took q echo fe s (klineReceive echo fe (klineTx q s)) ∧
      (q = [] → hasEvent (klineReceive echo fe (klineTx q s)) 51) := by
  obtain ⟨hk, -, hregs, hev⟩ := klineTx_spec q s
  obtain ⟨htx', hroom, hfull, hfe, hkeep⟩ := klineReceive_spec echo fe (klineTx q s)
  have herrc := regF_of_reg (hregs Reg.kline_ERRC (not_mem_runst (.inr (by decide)))) 0 8
  rw [hk] at htx' hroom hfull
  rw [herrc] at hfe
  exact ⟨⟨htx', hroom, hfull, hfe⟩, fun hq => hkeep 51 (hev hq htx)⟩

/-! ### RXD -/

/-- RXD shows its oldest byte, and pops it where the read acts (R20, R935). -/
theorem regRead_rxd (m : Master) (side : Bool) (s : State) : regRead m side Reg.kline_RXD s =
    if isHost m && !side then (s.kline.rx.headD 0, s) else rxdRead true s := rfl

/-- No byte is lost in the tick of the read. -/
theorem rxdRead_of_kept {s : State} (h : ¬ (s.kline.lostAt.any (fun x => x.1 == s.now) = true ∧ s.kline.rx.length = 16)) :
    (rxdRead true s).1 = s.kline.rx.headD 0 ∧ (rxdRead true s).2.kline = { s.kline with rx := s.kline.rx.tail } ∧
      (rxdRead true s).2.regs = s.regs := by
  unfold rxdRead
  rcases hrx : s.kline.rx with _ | ⟨w, q⟩
  · refine ⟨rfl, (?_ : s.kline = _), rfl⟩
    rw [List.tail_nil, ← hrx]
  · rcases hl : s.kline.lostAt with _ | ⟨t, l⟩
    · exact ⟨rfl, by simp [setKline, hl], rfl⟩
    · have hno : ¬ (t = s.now ∧ (w :: q).length = 16) := by simpa [hl, hrx] using h
      simp only [Bool.not_true, Bool.false_eq_true, if_false, if_neg hno]
      exact ⟨rfl, by simp [setKline, hl], rfl⟩

/-- A byte lost in the tick of the read takes the place that became free (R943). -/
theorem rxdRead_of_lost {s : State} {x : Nat × Word} (hx : s.kline.lostAt = some x) (hnow : x.1 = s.now)
    (hfull : s.kline.rx.length = 16) :
    (rxdRead true s).1 = s.kline.rx.headD 0 ∧
      (rxdRead true s).2.kline = { s.kline with rx := s.kline.rx.tail ++ [x.2], lostAt := none } ∧
      regBit (rxdRead true s).2 Reg.kline_STAT 7 = false ∧ hasEvent (rxdRead true s).2 50 := by
  obtain ⟨t, l⟩ := x
  obtain rfl : t = s.now := hnow
  rcases hrx : s.kline.rx with _ | ⟨w, q⟩
  · simp [hrx] at hfull
  · have heq : rxdRead true s = (w, signal 50 (setRegBit Reg.kline_STAT 7 false
        (setKline (fun k => { k with rx := q ++ [l], lostAt := none }) s))) := by
      rw [hrx] at hfull
      simp [rxdRead, hrx, hx, hfull]
    rw [heq]
    refine ⟨rfl, ?_, ?_, hasEvent_signal_same 50 _⟩
    · rw [signal_kline]; rfl
    · rw [regBit_of_reg (reg_signal (not_mem_runst (.inr (by decide))) 50 _)]
      exact regBit_setRegBit_same Reg.kline_STAT 7 false _ (by decide)

/-! ### Helpers -/

theorem byte_ne {n : Nat} {b : Byte} (h : b ≠ BitVec.ofNat 8 n) (hn : n < 256 := by decide) : b.toNat ≠ n := fun he =>
  h (BitVec.eq_of_toNat_eq (by rw [he, BitVec.toNat_ofNat, Nat.mod_eq_of_lt hn]))

/-- A helper that is cancelled ends with result 06h (R936). -/
theorem klineCancel_of_running {m : Master} {s : State} (hm : threadOrHost m = true) (hh : s.kline.helper ≠ none) :
    klineCancel m s = setKline (fun k => { k with cancelAt := some (klineResult 6 s).now, helper := none }) (klineResult 6 s) := by
  have hsome := Option.isSome_iff_ne_none.2 hh
  simp [klineCancel, hm, hsome]

theorem klineCancel_of_ignored {m : Master} {s : State} (h : ¬ (threadOrHost m = true ∧ s.kline.helper ≠ none)) :
    klineCancel m s = s :=
  if_neg (by simpa [Option.isSome_iff_ne_none] using h)

/-- A helper's result: ISTAT.RES, source 52, and no helper runs (R936). -/
theorem klineResult_spec (n : Nat) (s : State) :
    (klineResult n s).kline = { s.kline with helper := none } ∧ hasEvent (klineResult n s) 52 ∧
      RegsBut (Reg.kline_ISTAT :: runst) s (klineResult n s) ∧
      reg (klineResult n s) Reg.kline_ISTAT = putFld (reg s Reg.kline_ISTAT) 0 8 n := by
  have hrun : Reg.kline_ISTAT ∉ runst := not_mem_runst (.inr (by decide))
  refine ⟨signal_kline _ _, hasEvent_signal_same 52 _, fun a ha => ?_, ?_⟩
  · obtain ⟨hne, ha'⟩ := not_or.1 (mt List.mem_cons.2 ha)
    exact (reg_signal ha' 52 _).trans (reg_setRegF_other 0 8 n (setKline _ s) hne)
  · exact (reg_signal hrun 52 _).trans (reg_setRegF_same Reg.kline_ISTAT 0 8 n (setKline _ s))

/-- A register word that takes a value under a condition. -/
def setRegIf (c : Prop) [Decidable c] (a : Nat) (v : Word) (s : State) : State := if c then setReg a v s else s

theorem setRegIf_kline (c : Prop) [Decidable c] (a : Nat) (v : Word) (s : State) : (setRegIf c a v s).kline = s.kline := by
  unfold setRegIf
  split_ifs <;> rfl

theorem reg_setRegIf_other {c : Prop} [Decidable c] {a b : Nat} (v : Word) (s : State) (h : b ≠ a) :
    reg (setRegIf c a v s) b = reg s b := by
  unfold setRegIf
  split_ifs
  · exact reg_setReg_other v s h
  · rfl

theorem hasEvent_setRegIf {k : Fin 96} {c : Prop} [Decidable c] {a : Nat} {v : Word} {s : State} (h : hasEvent s k) :
    hasEvent (setRegIf c a v s) k := by
  unfold setRegIf
  split_ifs <;> exact h

/-- What a helper leaves in the registers, and that it leaves the FIFOs (R936). -/
theorem klineLeaves_spec (five : Bool) (res : Nat) (bt : Nat) (kb1 kb2 adr : Byte) (s : State) :
    let u := klineLeaves five res bt kb1 kb2 adr s
    u.kline = s.kline ∧ (∀ k, hasEvent s k → hasEvent u k) ∧
      (klineTester s = true → five = true → res ≠ 1 → res ≠ 2 → res ≠ 5 → reg u Reg.kline_DIV = wd ((bt + 8) / 16)) ∧
      (klineTester s = true → five = true → res = 0 ∨ res = 4 → reg u Reg.kline_KB = kb2 ++ kb1) ∧
      (klineTester s = false → regF u Reg.kline_ISTAT 13 2 = (if five then 2 else 1) ∧
        (five = true → regF u Reg.kline_ADDR 0 8 = adr.toNat)) ∧
      regF u Reg.kline_ISTAT 0 8 = regF s Reg.kline_ISTAT 0 8 := by
  intro u
  have hkind (v : Nat) : regF (setRegF Reg.kline_ISTAT 13 2 v s) Reg.kline_ISTAT 13 2 = v % 4 :=
    regF_setRegF_same Reg.kline_ISTAT 13 2 v s (by decide)
  have hres (v : Nat) : regF (setRegF Reg.kline_ISTAT 13 2 v s) Reg.kline_ISTAT 0 8 = regF s Reg.kline_ISTAT 0 8 := by
    rw [regF, reg_setRegF_same, fld_putFld_other _ _ _ _ _ _ (by decide) (.inl (by decide)), regF]
  rcases ht : klineTester s with _ | _ <;> rcases five with _ | _
  · have hu : u = setRegF Reg.kline_ISTAT 13 2 1 s := by simp [u, klineLeaves, ht]
    rw [hu]
    exact ⟨rfl, fun k h => h, by simp, by simp, fun _ => ⟨hkind 1, by simp⟩, hres 1⟩
  · have hu : u = setRegF Reg.kline_ADDR 0 8 adr.toNat (setRegF Reg.kline_ISTAT 13 2 2 s) := by simp [u, klineLeaves, ht]
    have hoth := reg_setRegF_other (a := Reg.kline_ADDR) 0 8 adr.toNat (setRegF Reg.kline_ISTAT 13 2 2 s)
      (b := Reg.kline_ISTAT) (by decide)
    rw [hu]
    refine ⟨rfl, fun k h => h, by simp, by simp, fun _ => ⟨?_, fun _ => ?_⟩, ?_⟩
    · rw [regF_of_reg hoth]; exact hkind 2
    · rw [regF_setRegF_same _ _ _ _ _ (by decide)]; exact Nat.mod_eq_of_lt adr.isLt
    · rw [regF_of_reg hoth]; exact hres 2
  · have hu : u = s := by simp [u, klineLeaves, ht]
    rw [hu]
    exact ⟨rfl, fun k h => h, by simp, by simp, by simp, rfl⟩
  · have hu : u = setRegIf (res = 0 ∨ res = 4) Reg.kline_KB (kb2 ++ kb1)
        (setRegIf (¬ (res = 1 ∨ res = 2 ∨ res = 5)) Reg.kline_DIV (wd ((bt + 8) / 16)) s) := by
      simp only [u, klineLeaves, ht, setRegIf, if_true, ite_not]
    rw [hu]
    refine ⟨?_, fun k h => hasEvent_setRegIf (hasEvent_setRegIf h), fun _ _ h1 h2 h5 => ?_, fun _ _ h => ?_, by simp, ?_⟩
    · rw [setRegIf_kline, setRegIf_kline]
    · rw [reg_setRegIf_other _ _ (by decide), setRegIf, if_pos (by simp [h1, h2, h5]), reg_setReg_same]
    · rw [setRegIf, if_pos h, reg_setReg_same]
    · refine regF_of_reg ?_ 0 8
      rw [reg_setRegIf_other _ _ (by decide), reg_setRegIf_other _ _ (by decide)]

/-- What is left of a helper that ended: its result, and a tester's or an ECU's registers (R936). -/
def HelperLeft (five : Bool) (res : Byte) (bt : Nat) (kb1 kb2 adr : Byte) (r u : State) : Prop :=
  u.kline.helper = none ∧ regF u Reg.kline_ISTAT 0 8 = res.toNat ∧
  (klineTester r = true → five = true → res ≠ 1 → res ≠ 2 → res ≠ 5 → reg u Reg.kline_DIV = wd ((bt + 8) / 16)) ∧
  (klineTester r = true → five = true → res = 0 ∨ res = 4 → reg u Reg.kline_KB = kb2 ++ kb1) ∧
  (¬ klineTester r = true → regF u Reg.kline_ISTAT 13 2 = (if five then 2 else 1) ∧
    (five = true → regF u Reg.kline_ADDR 0 8 = adr.toNat)) ∧
  u.kline.tx = r.kline.tx ∧ u.kline.rx = r.kline.rx

/-- A tester's helper ends by its own row only. -/
theorem klineInitEnd_of_other {five : Bool} {s : State} {x : Bool} (hx : s.kline.helper = some x)
    (ht : klineTester s = true) (hne : x ≠ five) {res : Byte} {bt : Nat} {kb1 kb2 adr : Byte} :
    klineInitEnd five res bt kb1 kb2 adr s = s := by
  simp only [klineInitEnd, hx]
  exact if_pos (by simpa [ht] using hne)

/-- A helper that runs ends with its result and source 52. -/
theorem klineInitEnd_of_running {five : Bool} {s : State} {x : Bool} (hx : s.kline.helper = some x)
    (h : ¬ (klineTester s = true ∧ x ≠ five)) (res : Byte) (bt : Nat) (kb1 kb2 adr : Byte) :
    klineInitEnd five res bt kb1 kb2 adr s = klineResult res.toNat (klineLeaves five res.toNat bt kb1 kb2 adr s) := by
  simp only [klineInitEnd, hx]
  exact if_neg (by simpa using h)

theorem helperLeft_of_running {five : Bool} {s : State} {x : Bool} (hx : s.kline.helper = some x)
    (h : ¬ (klineTester s = true ∧ x ≠ five)) (res : Byte) (bt : Nat) (kb1 kb2 adr : Byte) :
    HelperLeft five res bt kb1 kb2 adr s (klineInitEnd five res bt kb1 kb2 adr s) ∧
      hasEvent (klineInitEnd five res bt kb1 kb2 adr s) 52 := by
  rw [klineInitEnd_of_running hx h]
  obtain ⟨hk, -, hdiv, hkb, hecu, -⟩ := klineLeaves_spec five res.toNat bt kb1 kb2 adr s
  generalize klineLeaves five res.toNat bt kb1 kb2 adr s = v at *
  obtain ⟨hk', hev, hregs, hres⟩ := klineResult_spec res.toNat v
  have hother {a : Nat} (hne : a ≠ Reg.kline_ISTAT) (ha : Reg.intc_RUNST 5 < a) : reg (klineResult res.toNat v) a = reg v a :=
    hregs a (by simpa [hne] using not_mem_runst (.inr ha))
  refine ⟨⟨(congrArg Kline.helper hk' :), ?_, fun ht h5 h1 h2 h3 => ?_, fun ht h5 h0 => ?_, fun ht => ⟨?_, fun h5 => ?_⟩, ?_, ?_⟩, hev⟩
  · rw [regF, hres, fld_putFld _ _ _ _ (by decide), Nat.mod_eq_of_lt res.isLt]
  · rw [hother (by decide) (by decide)]
    exact hdiv ht h5 (byte_ne h1) (byte_ne h2) (byte_ne h3)
  · rw [hother (by decide) (by decide)]
    exact hkb ht h5 (h0.imp (congrArg BitVec.toNat) (congrArg BitVec.toNat))
  · rw [regF, hres, fld_putFld_other _ _ _ _ _ _ (by decide) (.inr (by decide))]
    exact (hecu (Bool.eq_false_iff.2 ht)).1
  · rw [regF_of_reg (hother (by decide) (by decide))]
    exact (hecu (Bool.eq_false_iff.2 ht)).2 h5
  · rw [hk', hk]
  · rw [hk', hk]

/-- A helper cancelled in this very tick ends with its own result all the same (R942). -/
theorem helperLeft_of_cancelled {s : State} (hh : s.kline.helper = none) (hc : s.kline.cancelAt = some s.now) (five : Bool)
    (res : Byte) (bt : Nat) (kb1 kb2 adr : Byte) :
    HelperLeft five res bt kb1 kb2 adr s (klineInitEnd five res bt kb1 kb2 adr s) := by
  have heq : klineInitEnd five res bt kb1 kb2 adr s = klineLeaves five res.toNat bt kb1 kb2 adr
      (setRegF Reg.kline_ISTAT 0 8 res.toNat (setKline (fun k => { k with cancelAt := none }) s)) := by
    simp [klineInitEnd, hh, hc]
  have hctl : klineTester (setRegF Reg.kline_ISTAT 0 8 res.toNat (setKline (fun k => { k with cancelAt := none }) s)) =
      klineTester s := regBit_of_reg (reg_setRegF_other (b := Reg.kline_CTL) _ _ _ _ (by decide)) 14
  have hres : regF (setRegF Reg.kline_ISTAT 0 8 res.toNat (setKline (fun k => { k with cancelAt := none }) s))
      Reg.kline_ISTAT 0 8 = res.toNat := by
    rw [regF_setRegF_same _ _ _ _ _ (by decide), Nat.mod_eq_of_lt res.isLt]
  have hk : (setRegF Reg.kline_ISTAT 0 8 res.toNat (setKline (fun k => { k with cancelAt := none }) s)).kline =
      { s.kline with cancelAt := none } := rfl
  rw [heq]
  generalize setRegF Reg.kline_ISTAT 0 8 res.toNat (setKline (fun k => { k with cancelAt := none }) s) = v at *
  obtain ⟨hk', -, hdiv, hkb, hecu, hlow⟩ := klineLeaves_spec five res.toNat bt kb1 kb2 adr v
  rw [hctl] at hdiv hkb hecu
  rw [hk] at hk'
  refine ⟨(congrArg Kline.helper hk' :).trans hh, hlow.trans hres, fun ht h5 h1 h2 h3 => ?_, fun ht h5 h0 => ?_, fun ht => ?_,
    (congrArg Kline.tx hk' :), (congrArg Kline.rx hk' :)⟩
  · exact hdiv ht h5 (byte_ne h1) (byte_ne h2) (byte_ne h3)
  · exact hkb ht h5 (h0.imp (congrArg BitVec.toNat) (congrArg BitVec.toNat))
  · exact hecu (Bool.eq_false_iff.2 ht)

/-- Proves O58, from the rule of each command of the interface. -/
theorem klineMovesItsBytes : Obligations.KlineMovesItsBytes := by
  unfold Obligations.KlineMovesItsBytes
  intro s m dt bt b kb1 kb2 adr res fe five side hup
  extract_lets k on kept took pops
  refine ⟨Acts.of rfl hup ?_, ActsAfter.of rfl hup ?_, ActsAfter.of rfl hup ?_, Acts.of rfl hup ?_, Acts.of rfl hup ?_,
    Acts.of rfl hup ?_, Acts.of rfl hup ?_, ActsAfter.of rfl hup ?_⟩
  · generalize ready _ s = r
    simp [txdWrite, setKline, k, and_assoc]
  · generalize ready _ s = r
    refine ⟨fun h => klineByteSent_of_ignored b fe ?_, fun x hx hon hh => ?_⟩
    · rcases h with h | h
      · exact .inl (Bool.eq_false_iff.2 h)
      · exact .inr h
    · intro q
      have htx : r.kline.tx = x :: q := List.eq_cons_of_mem_head? hx ▸ rfl
      have hne : r.kline.tx ≠ [] := by simp [htx]
      rw [klineByteSent_of_taken b fe htx hon hh]
      obtain ⟨hk, -, hregs, hev⟩ := klineTx_spec q r
      by_cases hsup : regBit r Reg.kline_CTL 13 = true
      · have hsup' : klineEchoSup r = true := hsup
        rw [if_pos hsup', if_pos hsup]
        by_cases hecho : b = x ∧ fe = false
        · rw [if_pos (by simpa using hecho), if_pos hecho]
          exact ⟨fun hq => hev hq hne, (congrArg Kline.rx hk :), (congrArg Kline.tx hk :), hregs _ (not_mem_runst (.inr (by decide)))⟩
        · rw [if_neg (by simpa using hecho), if_neg hecho]
          obtain ⟨hk', h53, h51, hc⟩ := echoLost_spec hne
          exact ⟨fun _ => h51, (congrArg Kline.rx hk' :), (congrArg Kline.tx hk' :), h53, h51, hc⟩
      · have hsup' : ¬ klineEchoSup r = true := hsup
        rw [if_neg hsup', if_neg hsup]
        obtain ⟨htook, h51⟩ := took_sent q b fe hne
        exact ⟨h51, htook⟩
  · generalize ready _ s = r
    by_cases h : on r ∧ (k r).helper = none
    · have h' : (klineOn r && r.kline.helper.isNone) = true := by
        rw [Bool.and_eq_true, Option.isNone_iff_eq_none]; exact h
      rw [if_pos h, klineByteReceived, if_pos h']
      exact took_received b fe r
    · have h' : ¬ (klineOn r && r.kline.helper.isNone) = true := by
        rw [Bool.and_eq_true, Option.isNone_iff_eq_none]; exact h
      rw [if_neg h, klineByteReceived, if_neg h']
  · generalize ready _ s = r
    have hread := regRead_rxd m side r
    generalize regRead m side Reg.kline_RXD r = rd at *
    extract_lets lost
    have hpops : pops ↔ ¬ (isHost m && !side) = true := by
      simp only [pops]
      cases isHost m <;> cases side <;> decide
    by_cases hp : pops
    · rw [if_neg (hpops.1 hp)] at hread
      by_cases hl : lost
      · obtain ⟨hany, hfull⟩ := hl
        obtain ⟨x, hx, hnow⟩ := (Option.any_eq_true _ _).1 hany
        obtain ⟨hres, hk, hstat, hev⟩ := rxdRead_of_lost hx (by simpa using hnow) hfull
        rw [← hread] at hres hk hstat hev
        refine ⟨congrArg (fun w => [w]) hres, ⟨(congrArg Kline.tx hk :), (congrArg Kline.helper hk :)⟩, fun h => absurd hp h,
          fun _ h => absurd ⟨hany, hfull⟩ h, fun _ _ y hy => ?_⟩
        obtain rfl : x = y := Option.some.inj (hx.symm.trans hy)
        exact ⟨(congrArg Kline.rx hk :), hstat, hev⟩
      · obtain ⟨hres, hk, hregs⟩ := rxdRead_of_kept hl
        rw [← hread] at hres hk hregs
        exact ⟨congrArg (fun w => [w]) hres, ⟨(congrArg Kline.tx hk :), (congrArg Kline.helper hk :)⟩, fun h => absurd hp h,
          fun _ _ => ⟨(congrArg Kline.rx hk :), hregs⟩, fun _ h => absurd h hl⟩
    · rw [if_pos (not_not.1 (mt hpops.2 hp))] at hread
      subst hread
      exact ⟨rfl, ⟨rfl, rfl⟩, fun _ => ⟨rfl, rfl⟩, fun h => absurd h hp, fun h => absurd h hp⟩
  · generalize ready _ s = r
    simp [klineStart, klineOn, setKline, k, on, and_assoc]
  · generalize ready _ s = r
    simp [klineStart, klineOn, setKline, k, on, and_assoc]
  · generalize ready _ s = r
    by_cases h : threadOrHost m = true ∧ (k r).helper ≠ none
    · obtain ⟨hk, hev, hregs, hres⟩ := klineResult_spec 6 r
      rw [if_pos h, klineCancel_of_running h.1 h.2]
      generalize klineResult 6 r = v at *
      refine ⟨rfl, ?_, hasEvent_setKline hev _, (congrArg Kline.tx hk :), (congrArg Kline.rx hk :), hregs⟩
      exact (congrArg (fld · 0 8) hres :).trans (fld_putFld _ _ _ _ (by decide))
    · rw [if_neg h, klineCancel_of_ignored h]
  · generalize ready _ s = r
    rcases hx : r.kline.helper with _ | x
    · refine ⟨fun h => absurd rfl h, fun _ hc => ?_, fun h => ?_⟩
      · simp only [klineInitEnd, hx]
        exact if_neg hc
      · have hc : r.kline.cancelAt = some r.now := h.elim (fun h => absurd rfl h.1) (·.2)
        obtain ⟨hhelper, hres, hdiv, hkb, hecu, htx, hrx⟩ := helperLeft_of_cancelled hx hc five res bt kb1 kb2 adr
        exact ⟨hhelper, hres, fun h => absurd rfl h, hdiv, hkb, hecu, htx, hrx⟩
    · refine ⟨fun _ (ho : klineTester r = true ∧ some x ≠ some five) => ?_, fun hn => absurd hn (Option.some_ne_none x), fun h => ?_⟩
      · exact klineInitEnd_of_other hx ho.1 (by simpa using ho.2)
      · have ho : ¬ (klineTester r = true ∧ x ≠ five) := by
          rcases h with ⟨-, h⟩ | ⟨h, -⟩
          · exact fun ho => h ⟨ho.1, by simpa using ho.2⟩
          · exact absurd h (Option.some_ne_none x)
        obtain ⟨⟨hhelper, hres, hdiv, hkb, hecu, htx, hrx⟩, hev⟩ := helperLeft_of_running hx ho res bt kb1 kb2 adr
        exact ⟨hhelper, hres, fun _ => hev, hdiv, hkb, hecu, htx, hrx⟩

end Sys2Proof.Machine

/-! ## Writes over the bus and the drain of the store buffer (R16, R17, R498-R504) -/

namespace Sys2Proof.Machine

/-! ### What a write of words leaves -/

/-- What a write to the scratchpad may change: memory, ARMSTAT and nothing else. -/
def SpadWritten (r u : State) : Prop :=
  (∃ mem regs, u = { r with mem := mem, regs := regs }) ∧ RegsBut [Reg.sys_ARMSTAT] r u ∧ u.mem.sbuf = r.mem.sbuf

/-- A write marked in ARMSTAT where it touches the working copy, and logged for its tick (R178, R494). -/
def spadMarked (m a n : Nat) (s : State) : State :=
  let s := if (List.range n).any (fun i => isWorking (a + i)) then setRegBit Reg.sys_ARMSTAT 12 true s else s
  { s with mem := { s.mem with
      wTick := s.now
      wLog := wLogNow s ++ (List.range n).map (fun i => (m, a + i, spadGet s (a + i))) } }

theorem spadWriteBy_eq (m a : Nat) (vs : List Word) (s : State) :
    spadWriteBy m a vs s = spadPuts a vs (spadMarked m a vs.length s) := rfl

theorem spadMarked_written (m a n : Nat) (s : State) :
    SpadWritten s (spadMarked m a n s) ∧ (spadMarked m a n s).mem.spad = s.mem.spad := by
  unfold spadMarked
  by_cases h : (List.range n).any (fun i => isWorking (a + i)) = true
  · simp only [h, if_true]
    exact ⟨⟨⟨_, _, rfl⟩, fun b hb => reg_setRegBit_other 12 true s (List.ne_of_not_mem_cons hb), rfl⟩, rfl⟩
  · simp only [h]
    exact ⟨⟨⟨_, _, rfl⟩, fun _ _ => rfl, rfl⟩, rfl⟩

theorem spadPuts_written (a : Nat) (vs : List Word) (s : State) : SpadWritten s (spadPuts a vs s) := by
  induction vs generalizing a s with
  | nil => exact ⟨⟨_, _, rfl⟩, fun _ _ => rfl, rfl⟩
  | cons v vs ih =>
    obtain ⟨⟨mem, regs, heq⟩, hregs, hsbuf⟩ := ih (a + 1) (spadPut a v s)
    exact ⟨⟨mem, regs, heq⟩, hregs, hsbuf⟩

theorem SpadWritten.trans {r s u : State} (h : SpadWritten r s) (h' : SpadWritten s u) : SpadWritten r u := by
  obtain ⟨⟨_, _, rfl⟩, hregs, hsbuf⟩ := h
  obtain ⟨⟨_, _, rfl⟩, hregs', hsbuf'⟩ := h'
  exact ⟨⟨_, _, rfl⟩, fun a ha => (hregs' a ha).trans (hregs a ha), hsbuf'.trans hsbuf⟩

theorem spadWriteBy_written (m a : Nat) (vs : List Word) (s : State) : SpadWritten s (spadWriteBy m a vs s) :=
  (spadMarked_written m a vs.length s).1.trans (spadPuts_written a vs _)

/-- The words written, and every other word as it was. -/
theorem spadGet_spadWriteBy (m a b : Nat) (vs : List Word) (s : State) : spadGet (spadWriteBy m a vs s) b =
    if a ≤ b ∧ b < a + vs.length then vs.getD (b - a) 0 else spadGet s b := by
  rw [spadWriteBy_eq, spadGet_spadPuts, spadGet, (spadMarked_written m a vs.length s).2]
  rfl

/-- The parts that a write to the scratchpad leaves. -/
theorem SpadWritten.kept {r u : State} (h : SpadWritten r u) : u.thr = r.thr ∧ u.flash = r.flash ∧
    { u with mem := r.mem, regs := r.regs, hw := r.hw } = r := by
  obtain ⟨⟨_, _, rfl⟩, -, -⟩ := h
  exact ⟨rfl, rfl, rfl⟩

/-- No write of this tick comes before that of master `k` (R501). -/
theorem not_collides {s : State} {k : Nat} (h : ∀ e ∈ wLogNow s, k ≤ e.1) (a n : Nat) : collides s k a n = false := by
  rw [collides, List.any_eq_false]
  intro e he
  simp [Nat.not_lt.2 (h e he)]

/-! ### Writes to MEMC -/

theorem mem_of_findRow {rows : List RegRow} {a : Nat} {x : RegRow × Bool} (h : findRow rows a = some x) : x.1 ∈ rows := by
  induction rows with
  | nil => simp [findRow] at h
  | cons r rows ih =>
    unfold findRow at h
    split_ifs at h
    · obtain rfl := Option.some.inj h
      exact List.mem_cons_self
    · obtain rfl := Option.some.inj h
      exact List.mem_cons_self
    · exact List.mem_cons_of_mem r (ih h)

theorem memcBlock {a : Nat} (h : 0x41400 ≤ a) (h' : a < 0x41800) : (a - 0x40000) / 0x400 = 5 := by omega

theorem regRow_memc {a : Nat} (h : 0x41400 ≤ a) (h' : a < 0x41800) {x : RegRow × Bool} (hx : regRow a = some x) :
    x.1 ∈ rowsMemc := by
  rw [regRow, if_pos (by rw [Bool.and_eq_true, decide_eq_true_eq, decide_eq_true_eq]; omega)] at hx
  rw [blockRows, memcBlock h h'] at hx
  exact mem_of_findRow hx

/-- In MEMC no bit has two of the access codes RW, W1C and W1S. -/
theorem memc_codes {a : Nat} (h : 0x41400 ≤ a) (h' : a < 0x41800) :
    regMask RegRow.rw a &&& regMask RegRow.w1c a = 0 ∧ regMask RegRow.w1c a &&& regMask RegRow.w1s a = 0 := by
  have hrows : ∀ r ∈ rowsMemc, ∀ hi : Bool, rowWord (r, hi) RegRow.rw &&& rowWord (r, hi) RegRow.w1c = 0 ∧
      rowWord (r, hi) RegRow.w1c &&& rowWord (r, hi) RegRow.w1s = 0 := by decide
  rcases hx : regRow a with _ | x
  · simp [regMask, hx]
  · simpa only [regMask, hx] using hrows x.1 (regRow_memc h h' hx) x.2

theorem memcBit_table : ∀ rw w1c w1s old hw new : Bool, (rw && w1c) = false → (w1c && w1s) = false →
    (((old && !rw || new && rw) && !(new && w1c && !hw)) || (new && w1s)) =
      if rw then new || (w1s && new) else if w1c then old && (!new || hw) else if w1s then old || new else old := by
  decide

/-- Each bit of a MEMC word acts by its access code. -/
theorem getLsbD_memcWrite {a : Nat} (h : 0x41400 ≤ a) (h' : a < 0x41800) (v : Word) (s : State) (i : Fin 16) :
    (reg (regWriteBits a v s) a).getLsbD i =
      if (regMask RegRow.rw a).getLsbD i then v.getLsbD i || ((regMask RegRow.w1s a).getLsbD i && v.getLsbD i)
      else if (regMask RegRow.w1c a).getLsbD i then (reg s a).getLsbD i && (!v.getLsbD i || (hwSetBits s a).getLsbD i)
      else if (regMask RegRow.w1s a).getLsbD i then (reg s a).getLsbD i || v.getLsbD i
      else (reg s a).getLsbD i := by
  obtain ⟨hrc, hcs⟩ := memc_codes h h'
  have hrc := (congrArg (·.getLsbD i) hrc).trans BitVec.getLsbD_zero
  have hcs := (congrArg (·.getLsbD i) hcs).trans BitVec.getLsbD_zero
  have hbits := regBit_regWriteBits a i.val v s i.isLt
  simp only [BitVec.getLsbD_and, regBit] at hrc hcs hbits
  rw [hbits]
  revert hrc hcs
  generalize (regMask RegRow.rw a).getLsbD i = rw
  generalize (regMask RegRow.w1c a).getLsbD i = w1c
  generalize (regMask RegRow.w1s a).getLsbD i = w1s
  generalize (reg s a).getLsbD i = old
  generalize (hwSetBits s a).getLsbD i = hw
  generalize v.getLsbD i = new
  exact memcBit_table rw w1c w1s old hw new

theorem memWrite_memc {m : Master} {a : Nat} {v : Word} {s : State} (h : 0x41400 ≤ a) (h' : a < 0x41800)
    (href : refusal s m a 1 true = none) :
    (memWrite m a [v] s).2 = if privileged m then regWriteBits a v s else s := by
  have hspad : isSpad a = false := by simp only [isSpad, decide_eq_false_iff_not]; omega
  have hper : isPeriph a = true := by simp only [isPeriph, Bool.and_eq_true, decide_eq_true_eq]; omega
  simp only [memWrite, List.length_singleton, href, writeUnchecked, hspad, writeRegs, writeReg, hper, if_true, regWrite,
    memcBlock h h']
  rfl

/-! ### Refusals -/

theorem memWrite_of_refused {m : Master} {a : Nat} {v : Word} {s : State} {why : Why}
    (href : refusal s m a 1 true = some why) : (memWrite m a [v] s).2 = recordViol m a true why s := by
  rw [memWrite, List.length_singleton, href]

theorem recordViol_thread (t : Fin 8) (a : Nat) (wr : Bool) (why : Why) (s : State) :
    recordViol (.thread t) a wr why s = s := rfl

/-- MEMC.VIOL takes a record, and source 61 is signalled. -/
def violNoted (v : Pair) (s : State) : State := signal 61 (hwSet (Reg.memc_VIOL + 1) 0x8000 (setReg32 Reg.memc_VIOL v s))

theorem violNoted_spec (v : Pair) (s : State) :
    Noted s (violNoted v s) ∧ RegsBut (Reg.memc_VIOL :: (Reg.memc_VIOL + 1) :: runst) s (violNoted v s) := by
  refine ⟨?_, fun b hb => ?_⟩
  · have hrecord : Noted s (hwSet (Reg.memc_VIOL + 1) 0x8000 (setReg32 Reg.memc_VIOL v s)) := ⟨_, _, _, _, rfl⟩
    exact hrecord.trans (noted_signal 61 _)
  · simp only [List.mem_cons, not_or] at hb
    obtain ⟨hlow, hhigh, hrun⟩ := hb
    rw [violNoted, reg_signal hrun, reg_hwSet_other _ _ hhigh, setReg32, reg_setReg_other _ _ hhigh, reg_setReg_other _ _ hlow]

/-- The record of a refusal. -/
theorem recordViol_spec (m : Master) (a : Nat) (wr : Bool) (why : Why) (s : State) :
    Noted s (recordViol m a wr why s) ∧ RegsBut (Reg.memc_VIOL :: (Reg.memc_VIOL + 1) :: runst) s (recordViol m a wr why s) := by
  cases m with
  | thread t => exact ⟨.refl s, fun _ _ => rfl⟩
  | tile => exact violNoted_spec _ s
  | courier c => exact violNoted_spec _ s
  | loop => exact violNoted_spec _ s
  | debug => exact violNoted_spec _ s
  | waili => exact violNoted_spec _ s

/-! ### The drain (R504, R505) -/

/-- Word `i` of a buffered store. -/
theorem sbData_getD (e : SbEntry) (i : Nat) (hi : i < sbWords e) :
    (sbData e).getD i 0 = e.data.extractLsb' (16 * i) 16 := by
  unfold sbWords at hi
  unfold sbData
  split_ifs at hi ⊢
  · rcases i with _ | _ | i
    · rfl
    · rfl
    · omega
  · rcases i with _ | i
    · rfl
    · omega

theorem sbData_length (e : SbEntry) : (sbData e).length = sbWords e := by
  unfold sbData sbWords
  split_ifs <;> rfl

/-- A drain to the scratchpad that no earlier master's write of the tick stops. -/
theorem sbDrain_of_spad {s : State} {e : SbEntry} {rest : List SbEntry} (hs : s.mem.sbuf = e :: rest)
    (ha : isSpad e.addr = true) : sbDrain s = spadWriteBy 0 e.addr (sbData e) { s with mem := { s.mem with sbuf := rest } } := by
  have hcol : ∀ u : State, collides u 0 e.addr (sbData e).length = false := fun u => not_collides (fun _ _ => Nat.zero_le _) _ _
  simp only [sbDrain, hs, writeUnchecked, ha, if_true, spadWrite, masterNo, hcol]
  rfl

/-- What a load finds, by the entries that hold the word: the youngest of them, or the scratchpad. -/
theorem seen_eq_of_sbuf {s : State} {l : List SbEntry} (h : s.mem.sbuf = l) (b : Nat) : seen s b =
    match (l.filter (fun e => sbOverlaps e b 1)).getLast? with
    | some e => e.data.extractLsb' (16 * (b - e.addr)) 16
    | none => spadGet s b := by
  subst h
  rfl

/-- A load finds after the drain of the oldest entry what it found before. -/
theorem seen_of_drained {s u : State} {e : SbEntry} {rest : List SbEntry} (hs : s.mem.sbuf = e :: rest) (hu : u.mem.sbuf = rest)
    (hspad : ∀ b, spadGet u b = if e.addr ≤ b ∧ b < e.addr + sbWords e then e.data.extractLsb' (16 * (b - e.addr)) 16
      else spadGet s b) (b : Nat) : seen u b = seen s b := by
  rw [seen_eq_of_sbuf hs, seen_eq_of_sbuf hu, List.filter_cons]
  have hover : sbOverlaps e b 1 = true ↔ e.addr ≤ b ∧ b < e.addr + sbWords e := by
    simp only [sbOverlaps, decide_eq_true_eq]
    omega
  rcases hlast : (rest.filter (fun e => sbOverlaps e b 1)).getLast? with _ | y
  · have hnil : rest.filter (fun e => sbOverlaps e b 1) = [] := List.getLast?_eq_none_iff.1 hlast
    rw [hspad b, hnil]
    by_cases hb : sbOverlaps e b 1 = true
    · rw [if_pos (hover.1 hb), if_pos hb]; rfl
    · rw [if_neg (mt hover.2 hb), if_neg hb]; rfl
  · split_ifs
    · rw [List.getLast?_cons, hlast]; rfl
    · rw [hlast]

/-- Proves O40, from what a write to the scratchpad, to a MEMC word and a refusal leave. -/
theorem writesActByTheirAccessCodes : Obligations.WritesActByTheirAccessCodes := by
  unfold Obligations.WritesActByTheirAccessCodes
  intro s m a v dt hup
  refine ⟨Acts.of rfl hup ?_, ActsAfter.of rfl hup ?_⟩
  · generalize ready _ s = r
    refine ⟨fun why href => ?_, fun href => ⟨fun hspad hlog => ?_, fun h h' => ?_⟩⟩
    · rw [memWrite_of_refused href]
      obtain ⟨hnoted, hregs⟩ := recordViol_spec m a true why r
      refine ⟨fun hm => ?_, ?_⟩
      · cases m <;> simp at hm
        rfl
      · generalize recordViol m a true why r = u at *
        obtain ⟨_, _, _, _, rfl⟩ := hnoted
        exact ⟨rfl, rfl, rfl, rfl, rfl, rfl, hregs⟩
    · rw [memWrite_of_granted hspad href (not_collides hlog _ _)]
      have hw := spadWriteBy_written (masterNo m) a [v] r
      have hget := fun b => spadGet_spadWriteBy (masterNo m) a b [v] r
      generalize spadWriteBy (masterNo m) a [v] r = u at *
      obtain ⟨hthr, hflash, hrest⟩ := hw.kept
      obtain ⟨-, hregs, hsbuf⟩ := hw
      refine ⟨?_, fun b hb => ?_, hsbuf, hthr, hflash, hregs, hrest⟩
      · rw [hget, if_pos (by simp)]; simp
      · rw [hget, if_neg (by simp only [List.length_singleton]; omega)]
    · rw [memWrite_memc h h' href]
      by_cases hp : privileged m = true
      · rw [if_pos hp]
        refine ⟨fun b hb => reg_regWriteBits_other v r (List.ne_of_not_mem_cons hb), rfl, fun i => ?_⟩
        rw [getLsbD_memcWrite h h', if_neg (c := privileged m = false) (by simp [hp])]
      · rw [if_neg hp]
        exact ⟨fun _ _ => rfl, rfl, fun i => (if_pos (by simpa using hp)).symm⟩
  · generalize ready _ s = r
    refine ⟨fun h => ?_, fun e he hsize _ => ?_⟩
    · simp only [sbDrain, h]
    · have hs : r.mem.sbuf = e :: r.mem.sbuf.tail := List.eq_cons_of_mem_head? he
      have hpos : 0 < (if e.pair = true then 2 else 1) := by split_ifs <;> decide
      have haddr : isSpad e.addr = true := by simp only [isSpad, decide_eq_true_eq]; omega
      rw [sbDrain_of_spad hs haddr]
      generalize r.mem.sbuf.tail = rest at *
      have hw := spadWriteBy_written 0 e.addr (sbData e) { r with mem := { r.mem with sbuf := rest } }
      have hget := fun b => spadGet_spadWriteBy 0 e.addr b (sbData e) { r with mem := { r.mem with sbuf := rest } }
      generalize spadWriteBy 0 e.addr (sbData e) { r with mem := { r.mem with sbuf := rest } } = u at *
      obtain ⟨hthr, hflash, hrest⟩ := hw.kept
      obtain ⟨-, hregs, hsbuf⟩ := hw
      have hget' : ∀ b, spadGet u b = if e.addr ≤ b ∧ b < e.addr + sbWords e then e.data.extractLsb' (16 * (b - e.addr)) 16
          else spadGet r b := by
        intro b
        rw [hget, sbData_length]
        by_cases hb : e.addr ≤ b ∧ b < e.addr + sbWords e
        · rw [if_pos hb, if_pos hb, sbData_getD e _ (by omega)]
        · rw [if_neg hb, if_neg hb]; rfl
      refine ⟨hsbuf, fun b => seen_of_drained hs hsbuf hget' b, fun b => ?_, hthr, hflash, hregs, ?_⟩
      · rw [hget' b.val]
        have hwords : sbWords e = if e.pair = true then 2 else 1 := rfl
        by_cases hfirst : b.val = e.addr
        · rw [if_pos hfirst, if_pos (by omega), hfirst, Nat.sub_self]
          rfl
        · rw [if_neg hfirst]
          by_cases hsecond : e.pair = true ∧ b.val = e.addr + 1
          · obtain ⟨hpair, hb⟩ := hsecond
            rw [if_pos (c := e.pair = true ∧ _) ⟨hpair, hb⟩, if_pos (by rw [if_pos hpair] at hwords; omega), hb, Nat.add_sub_cancel_left]
            rfl
          · rw [if_neg hsecond, if_neg]
            split_ifs at hwords with hpair
            · have hne : b.val ≠ e.addr + 1 := fun hb => hsecond ⟨hpair, hb⟩
              omega
            · omega
      · exact congrArg (fun w : State => { w with mem := r.mem }) hrest

end Sys2Proof.Machine

/-! ## What the other blocks do at a tooth, a boundary or a loss leaves the Angle Tracker (R576-R627) -/

namespace Sys2Proof.Machine

/-- The tracker and its registers stay, no source loses its event, and the error lines keep what stood on them. -/
structure TrackerKept (s u : State) : Prop where
  ang : u.ang = s.ang
  regs : ∀ a, 0x42000 ≤ a → a < 0x42400 → reg u a = reg s a
  raises : s.fcol.raises <+: u.fcol.raises
  events : ∀ k, hasEvent s k → hasEvent u k

theorem TrackerKept.of_eq {s u : State} (ha : u.ang = s.ang) (hr : u.regs = s.regs) (hf : u.fcol = s.fcol)
    (hi : u.intc = s.intc) : TrackerKept s u where
  ang := ha
  regs a _ _ := by rw [reg, hr, reg]
  raises := by rw [hf]
  events k h := by unfold hasEvent at h ⊢; rwa [hi]

theorem TrackerKept.refl (s : State) : TrackerKept s s := .of_eq rfl rfl rfl rfl

theorem TrackerKept.trans {s t u : State} (h : TrackerKept s t) (h' : TrackerKept t u) : TrackerKept s u where
  ang := h'.ang.trans h.ang
  regs a ha ha' := (h'.regs a ha ha').trans (h.regs a ha ha')
  raises := h.raises.trans h'.raises
  events k hk := h'.events k (h.events k hk)

theorem TrackerKept.ite {c : Prop} [Decidable c] {s u v : State} (hu : TrackerKept s u) (hv : TrackerKept s v) :
    TrackerKept s (if c then u else v) := by
  split
  · exact hu
  · exact hv

theorem trackerKept_foldl {α : Type} {f : State → α → State} (hf : ∀ s x, TrackerKept s (f s x)) (l : List α) (s : State) :
    TrackerKept s (l.foldl f s) := by
  induction l generalizing s with
  | nil => exact .refl s
  | cons x l ih => exact (hf s x).trans (ih _)

/-! ### Registers, signals and raises -/

/-- An address outside the tracker's block. -/
def OffTracker (a : Nat) : Prop := a < 0x42000 ∨ 0x42400 ≤ a

theorem OffTracker.ne {a b : Nat} (h : OffTracker a) (hb : 0x42000 ≤ b) (hb' : b < 0x42400) : b ≠ a := by
  unfold OffTracker at h
  omega

theorem trackerKept_setReg {a : Nat} (ha : OffTracker a) (v : Word) (s : State) : TrackerKept s (setReg a v s) where
  ang := rfl
  regs _ hb hb' := reg_setReg_other v s (ha.ne hb hb')
  raises := List.prefix_rfl
  events _ h := h

theorem trackerKept_setRegF {a : Nat} (ha : OffTracker a) (lo len v : Nat) (s : State) :
    TrackerKept s (setRegF a lo len v s) := trackerKept_setReg ha _ s

theorem trackerKept_setRegBit {a : Nat} (ha : OffTracker a) (i : Nat) (b : Bool) (s : State) :
    TrackerKept s (setRegBit a i b s) := trackerKept_setReg ha _ s

theorem trackerKept_hwSet {a : Nat} (ha : OffTracker a) (v : Word) (s : State) : TrackerKept s (hwSet a v s) where
  ang := rfl
  regs _ hb hb' := reg_hwSet_other v s (ha.ne hb hb')
  raises := List.prefix_rfl
  events _ h := h

theorem trackerKept_hwCountF {a : Nat} (ha : OffTracker a) (lo len n : Nat) (s : State) :
    TrackerKept s (hwCountF a lo len n s) where
  ang := rfl
  regs _ hb hb' := reg_hwCountF_other lo len n s (ha.ne hb hb')
  raises := List.prefix_rfl
  events _ h := h

theorem trackerKept_signal (n : Fin 96) (s : State) : TrackerKept s (signal n s) where
  ang := signal_ang n s
  regs a ha ha' := reg_signal (not_mem_runst (.inr (lt_of_lt_of_le (by decide) ha))) n s
  raises := signal_raises n s
  events _ h := hasEvent_signal h n

theorem trackerKept_raise (x : Raise) (s : State) : TrackerKept s (raise x s) where
  ang := rfl
  regs _ _ _ := rfl
  raises := List.prefix_append _ _
  events _ h := h

/-! ### Event Table and output targets -/

theorem trackerKept_setKern (f : Kern → Kern) (s : State) : TrackerKept s (setKern f s) := .of_eq rfl rfl rfl rfl

theorem trackerKept_setModes (f : Modes → Modes) (s : State) : TrackerKept s (setModes f s) := .of_eq rfl rfl rfl rfl

theorem trackerKept_setEnt (n : Nat) (e : Ent) (s : State) : TrackerKept s (setEnt n e s) := .of_eq rfl rfl rfl rfl

theorem trackerKept_armEnt (n : Nat) (s : State) : TrackerKept s (armEnt n s) := trackerKept_setEnt n _ s

theorem trackerKept_retimeAll (s : State) : TrackerKept s (retimeAll s) := .of_eq rfl rfl rfl rfl

theorem trackerKept_refAll (p : Nat → Bool) (s : State) : TrackerKept s (refAll p s) := .of_eq rfl rfl rfl rfl

theorem trackerKept_setEntWord (n i : Nat) (v : Word) (s : State) : TrackerKept s (setEntWord n i v s) := .of_eq rfl rfl rfl rfl

theorem trackerKept_putEntry (i w0 w1 w2 w3 : Nat) (s : State) : TrackerKept s (putEntry i w0 w1 w2 w3 s) :=
  (trackerKept_setEntWord i 0 _ s).trans <| (trackerKept_setEntWord i 1 _ _).trans <|
    (trackerKept_setEntWord i 2 _ _).trans (trackerKept_setEntWord i 3 _ _)

theorem trackerKept_endPulse (t : Nat) (s : State) : TrackerKept s (endPulse t s) := .of_eq rfl rfl rfl rfl

theorem trackerKept_targetOff (t : Nat) (pk : Byte) (s : State) : TrackerKept s (targetOff t pk s) :=
  .ite (.refl s) (.of_eq rfl rfl rfl rfl)

theorem trackerKept_setStage (i : Nat) (f : Stage → Stage) (s : State) : TrackerKept s (setStage i f s) := by
  unfold setStage
  split
  · exact .of_eq rfl rfl rfl rfl
  · exact .refl s

theorem trackerKept_knockAbort (n : Fin 2) (s : State) : TrackerKept s (knockAbort n s) := by
  have hkns : OffTracker (Reg.adc_KNS n) := .inr (by simp only [Reg.adc_KNS]; omega)
  rw [knockAbort]
  split
  · exact .refl s
  · exact TrackerKept.trans (t := setKnock n none s) (.of_eq rfl rfl rfl rfl) (trackerKept_hwSet hkns _ _)

theorem trackerKept_endHolds (n : Nat) (s : State) : TrackerKept s (endHolds n s) := by
  have hpulses : ∀ (l : List (Nat × Nat × Nat)) (s : State),
      TrackerKept s (l.foldl (fun s p => if p.2.2 = n then targetOff p.1 0 (endPulse p.1 s) else s) s) :=
    trackerKept_foldl fun s p => .ite ((trackerKept_endPulse _ s).trans (trackerKept_targetOff _ _ _)) (.refl s)
  simp only [endHolds]
  split_ifs
  · exact (hpulses _ s).trans (trackerKept_targetOff _ _ _)
  · exact (hpulses _ s).trans (trackerKept_knockAbort _ _)
  · exact hpulses _ s
  · exact hpulses _ s

theorem trackerKept_cancelWhere (p : Nat → Ent → Bool) (s : State) : TrackerKept s (cancelWhere p s) :=
  trackerKept_foldl (f := fun s (x : Nat × Ent) => cancelEnt x.1 s)
    (fun s x => (trackerKept_endHolds x.1 s).trans (trackerKept_setEnt _ _ _)) _ s

/-- A configuration whose cycle changed cancels entries only (R653). -/
theorem trackerKept_cycleChanged (l : Nat) (s : State) : TrackerKept s (cycleChanged l s) :=
  .ite (.refl s) (trackerKept_cancelWhere _ s)

/-- A pin that takes its safe level (R651). -/
theorem trackerKept_pinOff (t : Nat) (s : State) (h : ¬ t < 12) :
    TrackerKept s (targetCmd { tick := s.now, tgt := t, on := false } s) := by
  have hpcfg : 0x20 ≤ t ∧ t ≤ 0x30 → OffTracker (Reg.gpio_PCFG (t - 0x20)) := fun _ => .inr (by simp only [Reg.gpio_PCFG]; omega)
  simp only [targetCmd, if_neg h]
  split_ifs with ht
  · exact trackerKept_setRegBit (hpcfg ht) _ _ _
  · exact .refl s
  · exact .refl s

theorem trackerKept_targetSafe (t : Nat) (s : State) : TrackerKept s (targetSafe t s) := by
  unfold targetSafe
  extract_lets s1 _ _ s2
  have h2 : TrackerKept s s2 := .of_eq rfl rfl rfl rfl
  generalize s2 = s2 at h2
  split_ifs with h
  · exact h2.trans (trackerKept_setStage _ _ s2)
  · exact h2.trans (trackerKept_pinOff t s2 h)

/-- The loss of synchronisation in the Event Table (R651). -/
theorem trackerKept_syncCancel (s : State) : TrackerKept s (syncCancel s) := by
  have hcancel : ∀ (l : List (Nat × Ent)) (s : State), TrackerKept s (l.foldl (fun s x =>
      let s := if entAct s x.1 = 6 then knockAbort ⟨entArg s x.1 % 2, by omega⟩ s else s
      setEnt x.1 { x.2 with st := .cancelled, opened := false, due := none } s) s) :=
    trackerKept_foldl fun s x => (TrackerKept.ite (trackerKept_knockAbort _ s) (.refl s)).trans (trackerKept_setEnt _ _ _)
  have hsafe : ∀ (l : List (Nat × Nat)) (s : State), TrackerKept s (l.foldl (fun s h => targetSafe h.1 s) s) :=
    trackerKept_foldl fun s h => trackerKept_targetSafe h.1 s
  have hnone : ∀ s : State, TrackerKept s { s with evt := { s.evt with pulses := [] } } := fun s => .of_eq rfl rfl rfl rfl
  have hcount : ∀ (n : Nat) (s : State), TrackerKept s (hwCountF Reg.evt_LCAN 0 16 n s) := fun n s =>
    trackerKept_hwCountF (.inr (by decide)) 0 16 n s
  unfold syncCancel
  exact ((((hcancel _ s).trans (hcount _ _)).trans (hsafe _ _)).trans (hnone _)).trans
    ((trackerKept_signal 10 _).trans (trackerKept_retimeAll _))

/-! ### The Kernel -/

theorem trackerKept_evalCut (s : State) : TrackerKept s (evalCut s) :=
  .ite (trackerKept_setKern _ s) ((trackerKept_setKern _ s).trans ((trackerKept_setKern _ _).trans (trackerKept_signal 14 _)))

theorem trackerKept_kernArmModes (s : State) : TrackerKept s (kernArmModes s) := by
  unfold kernArmModes
  exact (trackerKept_setRegF (a := Reg.kern_MODE) (.inr (by decide)) _ _ _ s).trans
    ((trackerKept_setReg (a := Reg.kern_MPEND) (.inr (by decide)) _ _).trans (trackerKept_setKern _ _))

theorem trackerKept_placeFixed (what n i : Nat) (s : State) : TrackerKept s (placeFixed what n i s) := by
  simp only [placeFixed]
  split <;> exact trackerKept_putEntry _ _ _ _ _ s

theorem trackerKept_allocGo (l : List (Nat × Nat × Nat)) (failed : List Nat) (s : State) :
    TrackerKept s (allocGo l failed s) := by
  induction l generalizing failed s with
  | nil => exact .refl s
  | cons x t ih =>
    obtain ⟨k, n, what⟩ := x
    rw [allocGo]
    split
    · exact ih _ _
    · split
      · exact ((trackerKept_signal 11 s).trans ((trackerKept_raise _ _).trans
          (trackerKept_hwSet (a := Reg.kern_STAT) (.inr (by decide)) _ _))).trans (ih _ _)
      · next i hi =>
        have htaken : TrackerKept s
            (setEnt i { st := .cancelled } (setKern (fun q => { q with ents := q.ents ++ [⟨k, n, what, i⟩] }) s)) :=
          (trackerKept_setKern _ s).trans (trackerKept_setEnt _ _ _)
        refine (htaken.trans ?_).trans (ih _ _)
        exact .ite ((trackerKept_placeFixed _ _ _ _).trans (trackerKept_armEnt _ _)) (trackerKept_putEntry _ _ _ _ _ _)

theorem trackerKept_kernAlloc (s : State) : TrackerKept s (kernAlloc s) := .ite (trackerKept_allocGo _ _ s) (.refl s)

theorem trackerKept_kernRearm (s : State) : TrackerKept s (kernRearm s) :=
  trackerKept_foldl (f := fun s (e : KEntry) => if entLive (ent s e.idx) then s else armEnt e.idx s)
    (fun s _ => .ite (.refl s) (trackerKept_armEnt _ s)) _ s

theorem trackerKept_kernPassed (a : Nat) (s : State) : TrackerKept s (kernPassed a s) :=
  .ite (trackerKept_setKern _ s) (trackerKept_setKern _ s)

theorem trackerKept_torqueTooth (a : Nat) (n : Fin 4) (s : State) : TrackerKept s (torqueTooth a n s) := by
  unfold torqueTooth
  exact trackerKept_setKern _ s

theorem trackerKept_kernHandover (s : State) : TrackerKept s (kernHandover s) := by
  unfold kernHandover
  extract_lets p sel old md toA s1
  split
  · exact .refl s
  · have h1 : TrackerKept s s1 := (trackerKept_setRegF (a := Reg.kern_MODE) (.inr (by decide)) _ _ _ s).trans
      (trackerKept_setReg (a := Reg.kern_MPEND) (.inr (by decide)) _ _)
    generalize s1 = s1 at h1
    exact h1.trans ((trackerKept_setKern _ s1).trans (trackerKept_signal 13 _))

theorem trackerKept_calcSignal (s : State) : TrackerKept s (calcSignal s) :=
  .ite ((trackerKept_setKern _ s).trans (trackerKept_signal 15 _)) (.refl s)

theorem trackerKept_kernBoundary (s : State) : TrackerKept s (kernBoundary s) :=
  (TrackerKept.ite (trackerKept_kernHandover s) (.refl s)).trans ((trackerKept_setKern _ _).trans (trackerKept_calcSignal _))

theorem trackerKept_firstHoming (s : State) : TrackerKept s (firstHoming s) :=
  .ite (.refl s) (.ite (.of_eq rfl rfl rfl rfl) (.refl s))

/-! ### Modes and the trace -/

theorem trackerKept_tracePut (hdr : Nat) (body : List Byte) (s : State) : TrackerKept s (tracePut hdr body false s) := by
  simp only [tracePut]
  split
  · exact .of_eq rfl rfl rfl rfl
  · exact .of_eq rfl rfl rfl rfl

theorem trackerKept_trace (f : Trace → Trace) (s : State) : TrackerKept s { s with trace := f s.trace } := .of_eq rfl rfl rfl rfl

theorem trackerKept_traceTime (s : State) : TrackerKept s (traceTime s) :=
  (trackerKept_tracePut _ _ s).trans (trackerKept_trace (fun t => { t with hi := some _ }) _)

theorem trackerKept_traceSync (s : State) : TrackerKept s (traceSync s) :=
  ((trackerKept_tracePut _ _ s).trans (trackerKept_trace (fun t => { t with since := 0 }) _)).trans (trackerKept_traceTime _)

theorem trackerKept_traceDrain (s : State) : TrackerKept s (traceDrain s) := by
  rw [traceDrain]
  split
  · exact .of_eq rfl rfl rfl rfl
  · exact .refl s

theorem trackerKept_traceEmit (hdr : Nat) (body : List Byte) (s : State) : TrackerKept s (traceEmit hdr body false s) := by
  have hlost : ∀ s : State, TrackerKept s (if s.trace.lost ≠ 0 ∧ s.trace.fifo.length + 3 ≤ 64 then
      tracePut 0x90 [BitVec.ofNat 8 s.trace.lost] false { s with trace := { s.trace with lost := 0 } } else s) := fun s =>
    .ite ((trackerKept_trace (fun t => { t with lost := 0 }) s).trans (trackerKept_tracePut _ _ _)) (.refl s)
  have hsync : ∀ s : State, TrackerKept s (if 256 ≤ s.trace.since then traceSync s else s) := fun s =>
    .ite (trackerKept_traceSync s) (.refl s)
  have htime : ∀ s : State, TrackerKept s (if s.trace.hi = some ((postmark s).toNat / 65536) then s else traceTime s) := fun s =>
    .ite (.refl s) (trackerKept_traceTime s)
  exact ((((trackerKept_traceDrain s).trans (hlost _)).trans (hsync _)).trans (htime _)).trans (trackerKept_tracePut _ _ _)

theorem trackerKept_modeSignal (code : Nat) (s : State) : TrackerKept s (modeSignal code s) :=
  (trackerKept_signal 3 s).trans (.ite (trackerKept_traceEmit _ _ _) (.refl _))

theorem trackerKept_enterRun (s : State) : TrackerKept s (enterRun s) := by
  have halloc : ∀ v : State, TrackerKept v (if s.modes.mode = .setup then kernAlloc (firstHoming v) else v) := fun v =>
    .ite ((trackerKept_firstHoming v).trans (trackerKept_kernAlloc _)) (.refl v)
  unfold enterRun
  extract_lets was t v w
  exact (trackerKept_setModes _ s).trans <| (trackerKept_kernArmModes t).trans <| (halloc v).trans <|
    (trackerKept_evalCut w).trans (trackerKept_modeSignal _ _)

theorem trackerKept_pendTakesEffect (s : State) : TrackerKept s (pendTakesEffect s) := .ite (trackerKept_enterRun s) (.refl s)

theorem trackerKept_unitsReturn (s : State) : TrackerKept s (unitsReturn s) :=
  (trackerKept_setModes _ s).trans
    (trackerKept_foldl (f := fun s (i : Nat) => if i = 32 ∨ i = 33 then signal 23 s else s)
      (fun s _ => .ite (trackerKept_signal 23 s) (.refl s)) _ _)

/-! ### Teeth -/

theorem trackerKept_toothPasses (a : Nat) (s : State) : TrackerKept s (toothPasses a s) :=
  trackerKept_foldl (f := fun s (x : Nat × Ent) => setEnt x.1 { (ent s x.1) with st := .due, fell := s.now, due := none } s)
    (fun s _ => trackerKept_setEnt _ _ s) _ s

theorem trackerKept_afterTooth (a a0 : Nat) (wasSync : Bool) (s : State) : TrackerKept s (afterTooth a a0 wasSync s) := by
  have hkern : ∀ s : State, TrackerKept s (if wasSync && angSync s then
      (List.finRange 4).foldl (fun s n => if kEn s 7 && decide (n.val < nCyl s) then torqueTooth a0 n s else s) (kernPassed a s)
    else s) := fun s => .ite ((trackerKept_kernPassed a s).trans
      (trackerKept_foldl (f := fun s (n : Fin 4) => if kEn s 7 && decide (n.val < nCyl s) then torqueTooth a0 n s else s)
        (fun s _ => .ite (trackerKept_torqueTooth _ _ s) (.refl s)) _ _)) (.refl s)
  have halloc : ∀ s : State, TrackerKept s (if s.kern.allocDue && angSync s && !frozenBlock s 2 then
      setKern (fun k => { k with allocDue := false }) (kernRearm (kernAlloc s)) else s) := fun s =>
    .ite (((trackerKept_kernAlloc s).trans (trackerKept_kernRearm _)).trans (trackerKept_setKern _ _)) (.refl s)
  exact ((((trackerKept_toothPasses a s).trans (trackerKept_retimeAll _)).trans (hkern _)).trans
    (trackerKept_evalCut _)).trans (halloc _)

end Sys2Proof.Machine

/-! ## The Angle Tracker (R576-R627) -/

namespace Sys2Proof.Machine

/-! ### What every step of the tracker keeps -/

/-- The accepted edge under way stays, and no source loses its event. -/
structure Tracks (s u : State) : Prop where
  pend : u.ang.pendTooth = s.ang.pendTooth
  events : ∀ k, hasEvent s k → hasEvent u k

theorem Tracks.refl (s : State) : Tracks s s := ⟨rfl, fun _ h => h⟩

theorem Tracks.trans {s t u : State} (h : Tracks s t) (h' : Tracks t u) : Tracks s u :=
  ⟨h'.pend.trans h.pend, fun k hk => h'.events k (h.events k hk)⟩

theorem Tracks.ite {c : Prop} [Decidable c] {s u v : State} (hu : Tracks s u) (hv : Tracks s v) :
    Tracks s (if c then u else v) := by
  split
  · exact hu
  · exact hv

theorem TrackerKept.tracks {s u : State} (h : TrackerKept s u) : Tracks s u := ⟨congrArg Ang.pendTooth h.ang, h.events⟩

theorem tracks_setAng (f : Ang → Ang) (s : State) (h : (f s.ang).pendTooth = s.ang.pendTooth := by rfl) :
    Tracks s (setAng f s) := ⟨h, fun _ h => h⟩

theorem Tracks.after_setAng {f : Ang → Ang} {s v : State} (h : Tracks (setAng f s) v)
    (hf : (f s.ang).pendTooth = s.ang.pendTooth) : Tracks s v :=
  Tracks.trans (t := setAng f s) ⟨hf, fun _ h => h⟩ h

/-! ### Loss and gain of synchronisation (R592, R595, R596) -/

/-- The tracker's record where it leaves CRANK, HALF or SYNC at angle `a`. -/
def droppedAng (dst : AngState) (a : Nat) (g : Ang) : Ang :=
  { g with
    st := dst, frozen := a, rate := 0, rpm := 0, phcmd := none, wrapPend := false, wrapOwed := false, rPrev := none
    cand := false, hist := [], huntTeeth := 0, camRef := false, crankTeeth := 0, camOut := 0, camCycles := 0 }

/-- A loss counted (R595). -/
def lossCounted (dst : AngState) (s : State) : State :=
  let t := setAng (droppedAng dst (angleNow s)) s
  if angSync s || (s.ang.st == .crank && dst == .hunt) then hwCountF Reg.ang_LOSS 8 8 1 t else t

/-- What follows the count of a loss leaves the tracker. -/
theorem angDrop_kept (dst : AngState) (s : State) : TrackerKept (lossCounted dst s) (angDrop dst s) := by
  have h4 : ∀ (c : Bool) (t : State), TrackerKept t (if c then signal 4 t else t) := fun c t =>
    .ite (trackerKept_signal 4 t) (.refl t)
  have hlost : ∀ (c : Bool) (t : State), TrackerKept t (if c then kernSyncLost (syncCancel t) else t) := fun c t =>
    .ite ((trackerKept_syncCancel t).trans (trackerKept_setKern _ _)) (.refl t)
  have hback : ∀ (c : Bool) (t : State), TrackerKept t (if c then unitsReturn (pendTakesEffect t) else t) := fun c t =>
    .ite ((trackerKept_pendTakesEffect t).trans (trackerKept_unitsReturn _)) (.refl t)
  exact ((h4 (angSync s) (lossCounted dst s)).trans (hlost (s.ang.st == .crank || angSync s) _)).trans (hback (angSync s) _)

theorem lossCounted_ang (dst : AngState) (s : State) : (lossCounted dst s).ang = droppedAng dst (angleNow s) s.ang := by
  unfold lossCounted
  extract_lets t
  split_ifs <;> rfl

theorem angDrop_ang (dst : AngState) (s : State) : (angDrop dst s).ang = droppedAng dst (angleNow s) s.ang :=
  (angDrop_kept dst s).ang.trans (lossCounted_ang dst s)

theorem tracks_angDrop (dst : AngState) (s : State) : Tracks s (angDrop dst s) := by
  have hcount : Tracks s (lossCounted dst s) := by
    unfold lossCounted
    extract_lets t
    exact .ite ⟨rfl, fun _ h => h⟩ ⟨rfl, fun _ h => h⟩
  exact hcount.trans (angDrop_kept dst s).tracks

/-- A loss counts in LOSS[15:8] where the tracker was synchronised, and where CRANK goes to HUNT. -/
theorem regF_loss_angDrop (dst : AngState) (s : State) : regF (angDrop dst s) Reg.ang_LOSS 8 8 =
    if angSync s || (s.ang.st == .crank && dst == .hunt) then min 255 (regF s Reg.ang_LOSS 8 8 + 1)
    else regF s Reg.ang_LOSS 8 8 := by
  rw [regF_of_reg ((angDrop_kept dst s).regs Reg.ang_LOSS (by decide) (by decide))]
  unfold lossCounted
  extract_lets t
  split_ifs with h
  · exact regF_hwCountF Reg.ang_LOSS 8 8 t (by decide)
  · rfl

/-- The errors of the cam in LOSS[7:0] stay. -/
theorem regF_camErr_angDrop (dst : AngState) (s : State) :
    regF (angDrop dst s) Reg.ang_LOSS 0 8 = regF s Reg.ang_LOSS 0 8 := by
  rw [regF_of_reg ((angDrop_kept dst s).regs Reg.ang_LOSS (by decide) (by decide))]
  unfold lossCounted
  extract_lets t
  split_ifs with h
  · rw [regF, reg_hwCountF_same, fld_putFld_other _ _ _ _ _ _ (by decide) (.inl (by decide))]
    rfl
  · rfl

theorem raises_angDrop (dst : AngState) (s : State) : s.fcol.raises <+: (angDrop dst s).fcol.raises := by
  have hcount : (lossCounted dst s).fcol = s.fcol := by
    unfold lossCounted
    extract_lets t
    split_ifs <;> rfl
  exact hcount ▸ (angDrop_kept dst s).raises

theorem tracks_countModL (s : State) : Tracks s (countModL s) := by
  unfold countModL
  extract_lets t
  exact Tracks.trans (t := t) ⟨rfl, fun _ h => h⟩ ⟨rfl, fun _ h => h⟩

theorem tracks_angGain (dst : AngState) (s : State) : Tracks s (angGain dst s) := by
  have hmod : ∀ t : State, Tracks t (if s.ang.st == .crank then countModL t else t) := fun t =>
    .ite (tracks_countModL t) (.refl t)
  unfold angGain
  exact (tracks_setAng _ s).trans <| (hmod _).trans <| (trackerKept_signal 4 _).tracks.trans <|
    (trackerKept_refAll _ _).tracks.trans (trackerKept_setKern _ _).tracks

theorem tracks_publish (idx p th t : Nat) (isGap : Bool) (s : State) : Tracks s (publish idx p th t isGap s) := by
  unfold publish addHist
  exact (tracks_setAng _ s).trans <| (tracks_setAng _ _).trans <| (tracks_setAng _ _).trans (tracks_setAng _ _)

theorem tracks_huntStart (t : Nat) (p : Option Nat) (cand : Bool) (s : State) : Tracks s (huntStart t p cand s) :=
  tracks_setAng _ s

theorem tracks_reference (idx p th t : Nat) (cam : Bool) (s : State) : Tracks s (reference idx p th t cam s) := by
  unfold reference
  extract_lets dst s1
  refine .ite ?_ ?_
  · exact (tracks_setAng _ s).trans <| (tracks_publish _ _ _ _ _ _).trans <| (tracks_setAng _ _).trans
      (trackerKept_refAll _ _).tracks
  · exact (tracks_setAng _ s).trans <| (tracks_publish _ _ _ _ _ _).trans <| (tracks_setAng _ _).trans (tracks_angGain _ _)

theorem tracks_addHist (p t : Nat) (s : State) : Tracks s (addHist p t s) := tracks_setAng _ s

theorem tracks_huntTooth (t : Nat) (s : State) : Tracks s (huntTooth t s) := by
  unfold huntTooth
  extract_lets c p pitch r step
  have hstep : ∀ (b : Bool) (u : State), Tracks u (step b u) := fun b u => tracks_setAng _ u
  have hadd : ∀ (b : Bool) (p' : Nat), Tracks s (addHist p p' (step b s)) := fun b p' => (hstep b s).trans (tracks_addHist _ _ _)
  split_ifs with hmiss hcam hgap hteeth
  · refine (tracks_reference _ _ _ _ _ _).after_setAng ?_
    rfl
  · refine (tracks_reference _ _ _ _ _ _).after_setAng ?_
    rfl
  · exact hadd false pitch
  · refine (tracks_reference _ _ _ _ _ _).after_setAng ?_
    rfl
  · exact hadd false pitch
  · have hstepped : ∀ b : Bool, Tracks s (setAng (fun g => { g with hist := [] }) (step b s)) := fun b =>
      (hstep b s).trans (tracks_setAng _ _)
    rcases s.ang.cand with _ | _ <;> rcases s.ang.pPrev with _ | p1 <;> dsimp only
    · exact hadd false pitch
    · exact ((Tracks.ite (tracks_setAng _ s) (.refl s)).trans (hstep _ _)).trans (tracks_addHist _ _ _)
    · exact hadd false pitch
    · split_ifs with hc
      · refine (tracks_reference _ _ _ _ _ _).after_setAng ?_
        rfl
      · exact (hstepped _).trans (tracks_addHist _ _ _)
      · exact hstepped _

/-! ### A tooth in HALF, SYNC or CRANK (R594, R598, R606) -/

theorem tracks_patternError (d p t : Nat) (cand : Bool) (s : State) : Tracks s (patternError d p t cand s) := by
  unfold patternError
  exact (trackerKept_raise _ s).tracks.trans <| (tracks_angDrop _ _).trans (tracks_huntStart _ _ _ _)

theorem tracks_phaseCommand (s : State) : Tracks s (phaseCommand s) := by
  unfold phaseCommand
  split
  · exact tracks_setAng _ s
  · extract_lets keep t u
    have ht : Tracks s t := tracks_angDrop _ s
    have hu : Tracks t u := ⟨ht.pend.symm, fun _ h => h⟩
    exact (ht.trans hu).trans (tracks_angGain _ u)
  · exact tracks_setAng _ s

theorem tracks_camLeft (s : State) : Tracks s (camLeft s) :=
  .ite ((tracks_angGain _ s).trans (trackerKept_retimeAll _).tracks) (.refl s)

theorem tracks_noteWrap (s : State) : Tracks s (noteWrap s) := .ite (tracks_setAng _ s) (.refl s)

theorem tracks_phaseStep (idx : Nat) (s : State) : Tracks s (phaseStep idx s) := .ite (tracks_setAng _ s) (.refl s)

/-- The teeth counted in CRANK (R592). -/
def crankCounted (k : Nat) (s : State) : State :=
  if s.ang.st == .crank then
    let s := setAng (fun g => { g with crankTeeth := g.crankTeeth + 1 }) s
    if 4 * k ≤ s.ang.crankTeeth then angGain .half (raise { cls := clsAngle, detail := 4, unit := some (.bit 34) } s) else s
  else s

theorem tracks_crankCounted (k : Nat) (s : State) : Tracks s (crankCounted k s) := by
  have hcount := tracks_setAng (fun g => { g with crankTeeth := g.crankTeeth + 1 }) s
  exact .ite (.ite (hcount.trans ((trackerKept_raise _ _).tracks.trans (tracks_angGain _ _))) hcount) (.refl s)

/-- The gap is where the pattern has it, or no interval is known to compare (R594). -/
def gapLate (s : State) (gap : Bool) (p : Nat) : Bool :=
  match s.ang.pPrev with
  | some p1 => gapTest s p1 p
  | none => gap

/-- The state of a tooth on the pattern before it is published. -/
def toothPhased (idx : Nat) (s : State) : State :=
  let s := camLeft (phaseCommand (phaseStep idx (noteWrap s)))
  if idx = 0 then setAng (fun g => { g with camTaken := false }) s else s

theorem tracks_toothPhased (idx : Nat) (s : State) : Tracks s (toothPhased idx s) := by
  have hphase := (tracks_noteWrap s).trans <| (tracks_phaseStep idx _).trans <| (tracks_phaseCommand _).trans (tracks_camLeft _)
  exact .ite (hphase.trans (tracks_setAng _ _)) hphase

/-- The index of the next tooth. -/
def nextIdx (s : State) : Nat := (s.ang.tidx + 1) % max 1 (teethPresent s.ang.cfg)

/-- The next tooth ends a gap. -/
def nextGap (s : State) : Bool := s.ang.cfg.missing != 0 && nextIdx s == 0

theorem syncTooth_eq (t : Nat) (s : State) : syncTooth t s =
    let p := t - s.ang.tk
    let test := gapLate s (nextGap s) p
    if s.ang.cfg.missing != 0 && nextGap s && !test then patternError 2 p t false s
    else if s.ang.cfg.missing != 0 && !nextGap s && test then patternError 1 p t true s
    else
      let v := toothPhased (nextIdx s) s
      afterTooth (angleAt s (s.now - clkTicks s)) s.ang.tang (angSync s && s.ang.phcmd != some false)
        (crankCounted (max 1 (teethPresent s.ang.cfg)) (publish (nextIdx s) p (toothSpan v (nextIdx s)) t (nextGap s) v)) := rfl

theorem tracks_syncTooth (t : Nat) (s : State) : Tracks s (syncTooth t s) := by
  rw [syncTooth_eq]
  extract_lets p test v
  have hv : Tracks s v := tracks_toothPhased _ s
  refine .ite (tracks_patternError _ _ _ _ s) (.ite (tracks_patternError _ _ _ _ s) ?_)
  exact ((hv.trans (tracks_publish _ _ _ _ _ v)).trans (tracks_crankCounted _ _)).trans (trackerKept_afterTooth _ _ _ _).tracks

/-! ### A tooth (R606, R607, R615) -/

theorem tracks_applyDirty (s : State) : Tracks s (applyDirty s) := by
  unfold applyDirty
  extract_lets l t
  have ht : Tracks s t := .ite (.refl s) (tracks_angDrop _ s)
  exact (ht.trans (tracks_setAng _ t)).trans (trackerKept_cycleChanged _ _).tracks

/-- A tooth where the engine turns. -/
def turningTooth (t : Nat) (s : State) : State :=
  if s.ang.dirty then
    let s := applyDirty s
    if s.ang.cfg.teeth = 0 then setAng (fun g => { g with st := .stop, edge := false }) s else huntStart t none false s
  else if s.ang.st == .hunt then
    let s := huntTooth t s
    if s.ang.st == .hunt then evalCut s else afterTooth s.ang.tang s.ang.tang false s
  else syncTooth t s

theorem tracks_turningTooth (t : Nat) (s : State) : Tracks s (turningTooth t s) := by
  have hd := tracks_applyDirty s
  have hh := tracks_huntTooth t s
  refine .ite ?_ (.ite ?_ (tracks_syncTooth t s))
  · exact .ite (hd.trans (tracks_setAng _ _)) (hd.trans (tracks_huntStart _ _ _ _))
  · exact .ite (hh.trans (trackerKept_evalCut _).tracks) (hh.trans (trackerKept_afterTooth _ _ _ _).tracks)

/-- The accepted edge is taken. -/
def edgeTaken (s : State) : State := setAng (fun g => { g with pendTooth := none }) s

theorem toothNow_of_pending {s : State} {t : Nat} (h : s.ang.pendTooth = some t) : toothNow s =
    if s.ang.st = .stop then huntStart t none false (edgeTaken s) else turningTooth t (signal 7 (edgeTaken s)) := by
  unfold toothNow tooth
  rw [h]
  dsimp only
  by_cases hst : s.ang.st = .stop
  · rw [if_pos hst]
    have hst' : (setAng (fun g => { g with pendTooth := none }) s).ang.st = .stop := hst
    rw [hst']
    rfl
  · rw [if_neg hst]
    have hst' : (setAng (fun g => { g with pendTooth := none }) s).ang.st ≠ .stop := hst
    split
    · next heq => exact absurd heq hst'
    · rfl

end Sys2Proof.Machine

/-! ## A tooth on and off the pattern, cam edges, boundaries and stalls (R592-R618) -/

namespace Sys2Proof.Machine

/-! ### A tooth on the pattern (R594, R606, R607) -/

theorem ne_crank_of_synced {s : State} (h : s.ang.st = .half ∨ s.ang.st = .sync) : s.ang.st ≠ .crank := by
  rcases h with h | h <;> rw [h] <;> decide

theorem angSync_of_synced {s : State} (h : s.ang.st = .half ∨ s.ang.st = .sync) : angSync s = true := by
  rcases h with h | h <;> simp [angSync, h]

/-- Before a tooth is published only PH, the boundary's marks and the cam's change, where no command of the phase waits. -/
theorem toothPhased_eq {s : State} (hst : s.ang.st = .half ∨ s.ang.st = .sync) (hcmd : s.ang.phcmd = none) (idx : Nat) :
    ∃ wp wo ct, toothPhased idx s = setAng (fun g => { g with
      wrapPend := wp, wrapOwed := wo, camTaken := ct, phcmd := none
      ph := if idx = 0 ∧ g.cfg.cycle4 = true then !g.ph else g.ph }) s := by
  have hnote : ∃ wp wo, noteWrap s = setAng (fun g => { g with wrapPend := wp, wrapOwed := wo }) s := by
    unfold noteWrap
    split_ifs
    · exact ⟨_, _, rfl⟩
    · exact ⟨s.ang.wrapPend, s.ang.wrapOwed, rfl⟩
  obtain ⟨wp, wo, hnote⟩ := hnote
  have hstep : phaseStep idx (noteWrap s) = setAng (fun g => { g with
      wrapPend := wp, wrapOwed := wo, ph := if idx = 0 ∧ g.cfg.cycle4 = true then !g.ph else g.ph }) s := by
    have hs : angSync (setAng (fun g => { g with wrapPend := wp, wrapOwed := wo }) s) = true := angSync_of_synced (s := setAng _ s) hst
    have hc : (setAng (fun g => { g with wrapPend := wp, wrapOwed := wo }) s).ang.cfg = s.ang.cfg := rfl
    have hb : (decide (idx = 0) && s.ang.cfg.cycle4) = true ↔ idx = 0 ∧ s.ang.cfg.cycle4 = true := by
      rw [Bool.and_eq_true, decide_eq_true_eq]
    rw [hnote, phaseStep, hs, hc, Bool.and_true]
    by_cases h : idx = 0 ∧ s.ang.cfg.cycle4 = true
    · simp only [setAng, if_pos h, if_pos (hb.2 h)]
    · simp only [setAng, if_neg h, if_neg (mt hb.1 h)]
  have hcommand : phaseCommand (phaseStep idx (noteWrap s)) = setAng (fun g => { g with
      wrapPend := wp, wrapOwed := wo, phcmd := none, ph := if idx = 0 ∧ g.cfg.cycle4 = true then !g.ph else g.ph }) s := by
    rw [hstep]
    unfold phaseCommand
    have hc : (setAng (fun g => { g with
      wrapPend := wp, wrapOwed := wo, ph := if idx = 0 ∧ g.cfg.cycle4 = true then !g.ph else g.ph }) s).ang.phcmd = none := hcmd
    rw [hc]
    rcases hst with hst | hst
    · split
      · next h => exact absurd h (by simp)
      · next h => exact absurd h (by simp)
      · rfl
    · split
      · next h => exact absurd h (by simp)
      · next h => exact absurd h (by simp)
      · rfl
  have hcam : ∀ u : State, u.ang.st = s.ang.st → camLeft u = u := fun u hu => by
    rw [camLeft, if_neg]
    simp [hu, ne_crank_of_synced hst]
  unfold toothPhased
  rw [hcommand, hcam]
  · dsimp only
    split_ifs
    · exact ⟨wp, wo, false, rfl⟩
    · exact ⟨wp, wo, s.ang.camTaken, rfl⟩
  · rfl

/-- The tooth data published (R607). -/
theorem publish_spec (idx p th t : Nat) (isGap : Bool) (s : State) :
    let g := (publish idx p th t isGap s).ang
    let q := p * 65536 / max 1 th
    g.st = s.ang.st ∧ g.cfg = s.ang.cfg ∧ g.ph = s.ang.ph ∧ g.tidx = idx ∧ g.tang = toothAngle s idx ∧
      g.rate = rateOf s q (isGap || s.ang.prevGap) ∧ g.tper = p ∧ g.tk = t ∧ g.stampTk = t ∧ g.rPrev = some q := by
  unfold publish
  extract_lets r rate s1 s2 s3 g
  have hplace : toothAngle s1 idx = toothAngle s idx := rfl
  have hs1 : s1.ang.st = s.ang.st ∧ s1.ang.cfg = s.ang.cfg ∧ s1.ang.ph = s.ang.ph := ⟨rfl, rfl, rfl⟩
  have hs2 : s2.ang.st = s1.ang.st ∧ s2.ang.cfg = s1.ang.cfg ∧ s2.ang.ph = s1.ang.ph ∧ s2.ang.tidx = idx ∧
      s2.ang.tang = toothAngle s1 idx ∧ s2.ang.rate = rate ∧ s2.ang.tper = p ∧ s2.ang.tk = t ∧ s2.ang.stampTk = t ∧
      s2.ang.rPrev = some r := ⟨rfl, rfl, rfl, rfl, rfl, rfl, rfl, rfl, rfl, rfl⟩
  have hg : g = { s2.ang with rpm := rpmOf s2, wrapPend := wrapAhead s3 } := rfl
  obtain ⟨hst, hcfg, hph⟩ := hs1
  obtain ⟨hst2, hcfg2, hph2, hidx, htang, hrate, htper, htk, hstamp, hrp⟩ := hs2
  rw [hg]
  exact ⟨hst2.trans hst, hcfg2.trans hcfg, hph2.trans hph, hidx, htang.trans hplace, hrate, htper, htk, hstamp, hrp⟩

/-- RATE stays between half of and twice the newest interval's (R606). -/
theorem rateOf_eq (s : State) (q : Nat) (near : Bool) : (rateOf s q near : Int) =
    min (max ((q : Int) + if near then 0 else s.ang.rPrev.elim 0 (fun rp =>
      ((min 8 (regF s Reg.ang_TUNE 0 4) : Nat) * ((q : Int) - rp)) / 8)) (q / 2 : Nat)) (2 * q : Nat) := by
  have hnn : ∀ a : Int, 0 ≤ min (max a (q / 2 : Nat)) ((2 * q : Nat) : Int) := fun a => by omega
  unfold rateOf
  rw [Int.toNat_of_nonneg (hnn _)]
  cases s.ang.rPrev with
  | none => simp
  | some rp => cases near <;> simp

/-- A tooth where the pattern has it, or one that cannot be compared. -/
theorem syncTooth_of_fits {s : State} (t : Nat)
    (h : s.ang.cfg.missing = 0 ∨ gapLate s (nextGap s) (t - s.ang.tk) = nextGap s) : syncTooth t s =
      afterTooth (angleAt s (s.now - clkTicks s)) s.ang.tang (angSync s && s.ang.phcmd != some false)
        (crankCounted (max 1 (teethPresent s.ang.cfg)) (publish (nextIdx s) (t - s.ang.tk)
          (toothSpan (toothPhased (nextIdx s) s) (nextIdx s)) t (nextGap s) (toothPhased (nextIdx s) s))) := by
  rw [syncTooth_eq]
  dsimp only
  rcases h with h | h
  · rw [if_neg (by simp [h]), if_neg (by simp [h])]
  · rw [h, if_neg (by simp), if_neg (by simp)]

/-- A tooth off the pattern (R594). -/
theorem syncTooth_of_misfit {s : State} (t : Nat) (hm : s.ang.cfg.missing ≠ 0)
    (h : gapLate s (nextGap s) (t - s.ang.tk) ≠ nextGap s) :
    syncTooth t s = patternError (if nextGap s then 2 else 1) (t - s.ang.tk) t (!nextGap s) s := by
  rw [syncTooth_eq]
  dsimp only
  revert h
  cases nextGap s <;> cases gapLate s _ (t - s.ang.tk) <;> simp [hm]

theorem crankCounted_of_synced {s : State} (h : s.ang.st = .half ∨ s.ang.st = .sync) (k : Nat) : crankCounted k s = s :=
  if_neg (by simpa using ne_crank_of_synced h)

theorem toothAngle_of_not_crank {s : State} (h : s.ang.st ≠ .crank) (hteeth : 0 < s.ang.cfg.teeth) (i : Nat) :
    toothAngle s i = (s.ang.cfg.refang + (s.ang.base + i) * 23040 / s.ang.cfg.teeth + (if s.ang.ph then 23040 else 0)) %
      (if s.ang.cfg.cycle4 then 46080 else 23040) := by
  have hpos : max 1 s.ang.cfg.teeth = s.ang.cfg.teeth := Nat.max_eq_right hteeth
  have hbne : (s.ang.st != .crank) = true := bne_iff_ne.2 h
  unfold toothAngle toothBase angMod angL cycleLen
  rw [if_neg h, hpos, hbne, Bool.and_true]
  norm_num [revAu]

/-- What a tooth on the pattern publishes (R606, R607). -/
theorem syncTooth_fits_spec {s : State} (t : Nat) (hst : s.ang.st = .half ∨ s.ang.st = .sync) (hcmd : s.ang.phcmd = none)
    (hteeth : s.ang.cfg.missing < s.ang.cfg.teeth)
    (hfits : s.ang.cfg.missing = 0 ∨ gapLate s (nextGap s) (t - s.ang.tk) = nextGap s) :
    let g := s.ang
    let u := syncTooth t s
    let idx := nextIdx s
    let ph := if idx = 0 ∧ g.cfg.cycle4 = true then !g.ph else g.ph
    let q := (t - g.tk) * 65536 / max 1 (toothSpan s idx)
    u.ang.st = g.st ∧ u.ang.tidx = idx ∧ u.ang.tk = t ∧ u.ang.stampTk = t ∧ u.ang.tper = t - g.tk ∧ u.ang.ph = ph ∧
      u.ang.tang = (g.cfg.refang + (g.base + idx) * 23040 / g.cfg.teeth + (if ph then 23040 else 0)) %
        (if g.cfg.cycle4 then 46080 else 23040) ∧
      u.ang.rate = rateOf s q (nextGap s || g.prevGap) ∧ u.ang.rPrev = some q ∧ u.ang.cfg = g.cfg := by
  intro g u idx ph q
  obtain ⟨wp, wo, ct, hphased⟩ := toothPhased_eq hst hcmd idx
  have hu := syncTooth_of_fits t hfits
  rw [show nextIdx s = idx from rfl, hphased] at hu
  have hv : (setAng (fun g => { g with
      wrapPend := wp, wrapOwed := wo, camTaken := ct, phcmd := none
      ph := if idx = 0 ∧ g.cfg.cycle4 = true then !g.ph else g.ph }) s).ang = { g with
      wrapPend := wp, wrapOwed := wo, camTaken := ct, phcmd := none, ph := ph } := rfl
  have hregs : ∀ q near, rateOf (setAng (fun g => { g with
      wrapPend := wp, wrapOwed := wo, camTaken := ct, phcmd := none
      ph := if idx = 0 ∧ g.cfg.cycle4 = true then !g.ph else g.ph }) s) q near = rateOf s q near := fun _ _ => rfl
  have hspan : toothSpan (setAng (fun g => { g with
      wrapPend := wp, wrapOwed := wo, camTaken := ct, phcmd := none
      ph := if idx = 0 ∧ g.cfg.cycle4 = true then !g.ph else g.ph }) s) idx = toothSpan s idx := rfl
  rw [hspan] at hu
  generalize setAng (fun g => { g with
      wrapPend := wp, wrapOwed := wo, camTaken := ct, phcmd := none
      ph := if idx = 0 ∧ g.cfg.cycle4 = true then !g.ph else g.ph }) s = v at hu hv hregs
  obtain ⟨hst', hcfg, hph, hidx, htang, hrate, htper, htk, hstamp, hrp⟩ :=
    publish_spec idx (t - g.tk) (toothSpan s idx) t (nextGap s) v
  have hsynced : (publish idx (t - g.tk) (toothSpan s idx) t (nextGap s) v).ang.st = .half ∨
      (publish idx (t - g.tk) (toothSpan s idx) t (nextGap s) v).ang.st = .sync := by
    rw [hst', hv]; exact hst
  rw [crankCounted_of_synced hsynced] at hu
  have hang := (trackerKept_afterTooth (angleAt s (s.now - clkTicks s)) s.ang.tang (angSync s && s.ang.phcmd != some false)
    (publish idx (t - g.tk) (toothSpan s idx) t (nextGap s) v)).ang
  rw [← hu] at hang
  generalize publish idx (t - g.tk) (toothSpan s idx) t (nextGap s) v = w at *
  change u.ang = w.ang at hang
  rw [hang, hst', hcfg, hph, hidx, htang, hrate, htper, htk, hstamp, hrp, hregs]
  rw [hv]
  refine ⟨rfl, rfl, rfl, rfl, rfl, rfl, ?_, rfl, rfl, rfl⟩
  have hne : v.ang.st ≠ .crank := by rw [hv]; exact ne_crank_of_synced hst
  rw [toothAngle_of_not_crank hne (by rw [hv]; simp only [g]; omega), hv]

/-- A tooth off the pattern enters HUNT and raises ANGLE (R594). -/
theorem syncTooth_misfit_spec {s : State} (t : Nat) (hst : s.ang.st = .half ∨ s.ang.st = .sync)
    (hm : s.ang.cfg.missing ≠ 0) (h : gapLate s (nextGap s) (t - s.ang.tk) ≠ nextGap s) :
    let u := syncTooth t s
    u.ang.st = .hunt ∧ u.ang.rate = 0 ∧ u.ang.rpm = 0 ∧ u.ang.tk = t ∧ u.ang.ph = s.ang.ph ∧
      s.fcol.raises ++ [{ cls := clsAngle, detail := if nextGap s then 2 else 1 }] <+: u.fcol.raises ∧
      regF u Reg.ang_LOSS 8 8 = min 255 (regF s Reg.ang_LOSS 8 8 + 1) := by
  intro u
  have hu : u = patternError (if nextGap s then 2 else 1) (t - s.ang.tk) t (!nextGap s) s := syncTooth_of_misfit t hm h
  have hdetail : wd (if nextGap s then 2 else 1) = if nextGap s then 2 else 1 := by cases nextGap s <;> rfl
  rw [hu, patternError, hdetail]
  have hang := angDrop_ang .hunt (raise { cls := clsAngle, detail := if nextGap s then 2 else 1 } s)
  have hraises := raises_angDrop .hunt (raise { cls := clsAngle, detail := if nextGap s then 2 else 1 } s)
  have hloss := regF_loss_angDrop .hunt (raise { cls := clsAngle, detail := if nextGap s then 2 else 1 } s)
  have hsync : angSync (raise { cls := clsAngle, detail := if nextGap s then 2 else 1 } s) = true :=
    angSync_of_synced (s := raise _ s) hst
  rw [hsync, Bool.true_or, if_pos (c := true = true) rfl] at hloss
  generalize angDrop .hunt (raise { cls := clsAngle, detail := if nextGap s then 2 else 1 } s) = v at *
  exact ⟨rfl, (congrArg Ang.rate hang :), (congrArg Ang.rpm hang :), rfl, (congrArg Ang.ph hang :), hraises, hloss⟩

end Sys2Proof.Machine

/-! ## Cam edges, crank edges, boundaries, stalls and WHEEL (R576-R620) -/

namespace Sys2Proof.Machine

/-! ### Cam edges (R588-R602) -/

/-- A cam edge ends the wait of a lifted cam (R625). -/
def camBack (s : State) : State := setModes (fun m => { m with returning := m.returning.filter (· != fbCam) }) s

/-- A cam edge that is taken: the first since tooth 0, and 32 ticks after the one before it (R588). -/
def camFresh (s : State) : Bool :=
  (match s.ang.camLast with
    | some t => decide (t + 32 ≤ s.now)
    | none => true) && !s.ang.camTaken

/-- A cam edge noted. -/
def camNoted (s : State) : State := setAng (fun g => { g with camLast := some s.now }) s

/-- The threshold of a VR sensor after a peak (R577). -/
def camPeak (peak : Byte) (s : State) : State :=
  if s.ang.cfg.camHall then s
  else setAng (fun g => { g with thrCam := vrThreshold s peak.toNat }) (setRegF Reg.ang_VRPK 0 8 peak.toNat s)

/-- A cam edge of an enabled cam. -/
def camTried (s : State) : State := if camFresh s then camAccepted (camNoted s) else camErr (camNoted s)

theorem camEdge_eq (peak : Byte) (s : State) : camEdge peak s =
    if (camBack s).ang.cfg.teeth = 0 || !camInUse (camBack s) ||
        (!(camBack s).ang.cfg.camHall && decide (peak.toNat < max (camBack s).ang.thrCam (vrThreshold (camBack s) 0))) then camBack s
    else camTried (camPeak peak (camBack s)) := rfl

theorem camEdge_of_ignored {s : State} (peak : Byte) (h : s.ang.cfg.teeth = 0 ∨ camInUse (camBack s) = false) :
    camEdge peak s = camBack s := by
  have hteeth : (camBack s).ang.cfg.teeth = s.ang.cfg.teeth := rfl
  rw [camEdge_eq, hteeth]
  refine if_pos ?_
  rcases h with h | h <;> simp [h]

theorem camEdge_of_hall {s : State} (peak : Byte) (hteeth : 0 < s.ang.cfg.teeth) (huse : camInUse (camBack s) = true)
    (hhall : s.ang.cfg.camHall = true) : camEdge peak s = camTried (camBack s) := by
  have hang : (camBack s).ang = s.ang := rfl
  rw [camEdge_eq, if_neg, camPeak, if_pos (hang ▸ hhall)]
  rw [hang, huse, hhall]
  simp [Nat.pos_iff_ne_zero.1 hteeth]

/-- The distance of R600 lies within CAMTOL. -/
def camNear (s : State) : Bool :=
  decide (-(min 11519 (reg s Reg.ang_CAMTOL).toNat : Nat) ≤ camDist s (angleNow s) ∧
    camDist s (angleNow s) ≤ (min 11519 (reg s Reg.ang_CAMTOL).toNat : Nat))

/-- The edge counts as this cycle's. -/
def camMarked (s : State) : State := setAng (fun g => { g with camTaken := true, camCycles := 0 }) s

theorem camAccepted_of_sync {s : State} (h : s.ang.st = .sync) : camAccepted s =
    if camNear s then setAng (fun g => { g with camOut := 0 }) (camMarked s)
    else if 1 ≤ s.ang.camOut then
      huntStart s.ang.tk none false (angDrop .hunt (raise { cls := clsAngle, detail := 3, unit := some (.bit 34) }
        (camErr (camMarked s))))
    else setAng (fun g => { g with camOut := g.camOut + 1 }) (camErr (camMarked s)) := by
  have hst : (camMarked s).ang.st = .sync := h
  unfold camAccepted
  extract_lets a tol near s1
  have hs1 : s1.ang.st = .sync := hst
  split
  · next heq => simp [hs1] at heq
  · next heq => simp [hs1] at heq
  · next heq => simp [hs1] at heq
  · next heq => simp [hs1] at heq
  · rfl

theorem regF_camErr (s : State) : regF (camErr s) Reg.ang_LOSS 0 8 = min 255 (regF s Reg.ang_LOSS 0 8 + 1) :=
  regF_hwCountF Reg.ang_LOSS 0 8 s (by decide)

/-- The second edge outside the window loses synchronisation (R602). -/
theorem camLost_spec (s : State) :
    let r : Raise := { cls := clsAngle, detail := 3, unit := some (.bit 34) }
    let u := huntStart s.ang.tk none false (angDrop .hunt (raise r (camErr (camMarked s))))
    u.ang.st = .hunt ∧ u.ang.rate = 0 ∧ Raised s u r ∧
      regF u Reg.ang_LOSS 0 8 = min 255 (regF s Reg.ang_LOSS 0 8 + 1) := by
  intro r u
  have hang := angDrop_ang .hunt (raise r (camErr (camMarked s)))
  have hraises := raises_angDrop .hunt (raise r (camErr (camMarked s)))
  have hloss := regF_camErr_angDrop .hunt (raise r (camErr (camMarked s)))
  have herr : regF (raise r (camErr (camMarked s))) Reg.ang_LOSS 0 8 = min 255 (regF s Reg.ang_LOSS 0 8 + 1) := regF_camErr (camMarked s)
  have hfcol : (raise r (camErr (camMarked s))).fcol.raises = s.fcol.raises ++ [r] := rfl
  rw [herr] at hloss
  rw [hfcol] at hraises
  simp only [u]
  generalize angDrop .hunt (raise r (camErr (camMarked s))) = v at *
  exact ⟨rfl, (congrArg Ang.rate hang :), hraises, hloss⟩

/-! ### Stalls and boundaries (R612, R613) -/

theorem stall_of_ignored {s : State} (h : s.ang.st = .stop ∨ s.ang.pendTooth ≠ none ∨ s.now < stallTick s) : stall s = s := by
  refine if_pos ?_
  rcases h with h | h | h
  · simp [h]
  · simp [Option.isSome_iff_ne_none.2 h]
  · simp [h]

theorem stall_spec {s : State} (h : ¬ (s.ang.st = .stop ∨ s.ang.pendTooth ≠ none ∨ s.now < stallTick s)) :
    (stall s).ang.st = .stop ∧ (stall s).ang.rate = 0 ∧ (stall s).ang.rpm = 0 ∧ (stall s).ang.ph = s.ang.ph ∧
      hasEvent (stall s) 5 ∧ regF (stall s) Reg.ang_LOSS 8 8 =
        (if angSync s then min 255 (regF s Reg.ang_LOSS 8 8 + 1) else regF s Reg.ang_LOSS 8 8) := by
  obtain ⟨hst, hpend, hnow⟩ : s.ang.st ≠ .stop ∧ s.ang.pendTooth = none ∧ ¬ s.now < stallTick s := by
    simpa only [not_or, not_not] using h
  have heq : stall s = signal 5 (setAng (fun g => { g with
      edge := false, pPrev := none, tper := 0, thrCrank := vrThreshold (angDrop .stop s) 0,
      thrCam := vrThreshold (angDrop .stop s) 0 }) (angDrop .stop s)) :=
    if_neg (by simp [hst, hpend, hnow])
  have hang := angDrop_ang .stop s
  have hloss := regF_loss_angDrop .stop s
  have hstop : (AngState.stop == AngState.hunt) = false := rfl
  rw [hstop, Bool.and_false, Bool.or_false] at hloss
  rw [heq, signal_ang, regF_of_reg (reg_signal (not_mem_runst (.inr (by decide))) 5 _)]
  generalize angDrop .stop s = v at *
  exact ⟨(congrArg Ang.st hang :), (congrArg Ang.rate hang :), (congrArg Ang.rpm hang :), (congrArg Ang.ph hang :),
    hasEvent_signal_same 5 _, hloss⟩

/-- A boundary is due. -/
def wrapDue (s : State) : Bool :=
  angSync s && (s.ang.wrapOwed || (decide (tickReached s (angL s - s.ang.tang) ≤ s.now) && s.ang.wrapPend &&
    decide (angL s < s.ang.tang + s.ang.spanNext)))

/-- The boundary counted (R612). -/
def boundaryCounted (s : State) : State :=
  let s := setAng (fun g => { g with wrapOwed := false, wrapPend := if g.wrapOwed then g.wrapPend else false }) s
  setReg32 Reg.ang_CYCCNT (BitVec.ofNat 32 (min 0xFFFFFFFF ((reg32 s Reg.ang_CYCCNT).toNat + 1))) s

theorem cycleBoundary_eq (s : State) : cycleBoundary s =
    if wrapDue s then kernBoundary (unitsReturn (pendTakesEffect (camMissing (signal 6 (boundaryCounted s))))) else s := rfl

/-- The cam's absence may raise; of the tracker only its count changes (R602). -/
theorem camMissing_spec (s : State) :
    (camMissing s).ang.st = s.ang.st ∧ (camMissing s).ang.wrapOwed = s.ang.wrapOwed ∧ (camMissing s).ang.tang = s.ang.tang ∧
      (camMissing s).regs = s.regs ∧ (camMissing s).intc = s.intc := by
  unfold camMissing
  split_ifs
  · dsimp only
    split_ifs <;> exact ⟨rfl, rfl, rfl, rfl, rfl⟩
  · exact ⟨rfl, rfl, rfl, rfl, rfl⟩

theorem reg32_setReg32 (a : Nat) (v : Pair) (s : State) : reg32 (setReg32 a v s) a = v := by
  rw [reg32, setReg32, reg_setReg_same, reg_setReg_other _ _ (Nat.ne_of_lt a.lt_succ_self), reg_setReg_same]
  refine BitVec.eq_of_getLsbD_eq fun i hi => ?_
  simp only [mkPair, lowWord, highWord, BitVec.getLsbD_append, BitVec.getLsbD_extractLsb']
  by_cases h : i < 16
  · simp [h, -BitVec.getLsbD_eq_getElem]
  · have hi' : i - 16 < 16 := by omega
    simp [h, hi', Nat.add_sub_cancel' (Nat.le_of_not_lt h), -BitVec.getLsbD_eq_getElem]

theorem reg32_of_regs {s u : State} (h : ∀ a, a = Reg.ang_CYCCNT ∨ a = Reg.ang_CYCCNT + 1 → reg u a = reg s a) :
    reg32 u Reg.ang_CYCCNT = reg32 s Reg.ang_CYCCNT := by
  rw [reg32, h _ (.inl rfl), h _ (.inr rfl), reg32]

theorem cycleBoundary_spec {s : State} (h : wrapDue s = true) :
    let u := cycleBoundary s
    hasEvent u 6 ∧ (reg32 u Reg.ang_CYCCNT).toNat = min 0xFFFFFFFF ((reg32 s Reg.ang_CYCCNT).toNat + 1) ∧
      u.ang.st = s.ang.st ∧ u.ang.wrapOwed = false ∧ u.ang.tang = s.ang.tang := by
  intro u
  have hu : u = kernBoundary (unitsReturn (pendTakesEffect (camMissing (signal 6 (boundaryCounted s))))) :=
    (cycleBoundary_eq s).trans (if_pos h)
  have hcount : (reg32 (boundaryCounted s) Reg.ang_CYCCNT).toNat = min 0xFFFFFFFF ((reg32 s Reg.ang_CYCCNT).toNat + 1) := by
    have hold : reg32 (setAng (fun g => { g with wrapOwed := false, wrapPend := if g.wrapOwed then g.wrapPend else false }) s)
      Reg.ang_CYCCNT = reg32 s Reg.ang_CYCCNT := rfl
    rw [boundaryCounted, reg32_setReg32, hold, BitVec.toNat_ofNat]
    exact Nat.mod_eq_of_lt (lt_of_le_of_lt (Nat.min_le_left _ _) (by decide))
  have hang : (boundaryCounted s).ang.st = s.ang.st ∧ (boundaryCounted s).ang.wrapOwed = false ∧
      (boundaryCounted s).ang.tang = s.ang.tang := ⟨rfl, rfl, rfl⟩
  generalize boundaryCounted s = v at *
  have hkept := (trackerKept_pendTakesEffect (camMissing (signal 6 v))).trans
    ((trackerKept_unitsReturn _).trans (trackerKept_kernBoundary _))
  rw [← hu] at hkept
  obtain ⟨hst, howed, htang, hregs, hintc⟩ := camMissing_spec (signal 6 v)
  have hev : hasEvent (camMissing (signal 6 v)) 6 := by
    have := hasEvent_signal_same 6 v
    unfold hasEvent at this ⊢
    rwa [hintc]
  generalize camMissing (signal 6 v) = w at *
  obtain ⟨hst', howed', htang'⟩ := hang
  refine ⟨hkept.events 6 hev, ?_, ?_, ?_, ?_⟩
  · rw [← hcount]
    refine congrArg BitVec.toNat (reg32_of_regs fun a ha => ?_)
    have hlo : 0x42000 ≤ a ∧ a < 0x42400 := by rcases ha with rfl | rfl <;> decide
    have hw : reg w a = reg (signal 6 v) a := by rw [reg, hregs, reg]
    rw [hkept.regs a hlo.1 hlo.2, hw, reg_signal (not_mem_runst (.inr (lt_of_lt_of_le (by decide) hlo.1)))]
  · rw [hkept.ang, hst, signal_ang, hst']
  · rw [hkept.ang, howed, signal_ang, howed']
  · rw [hkept.ang, htang, signal_ang, htang']

end Sys2Proof.Machine

/-! ## Crank edges, WHEEL, and the rules of the Angle Tracker together (R576-R620) -/

namespace Sys2Proof.Machine

/-! ### Crank edges (R577, R587) -/

/-- The sensor peak before an edge is shown in VRPK and sets the threshold (R577). -/
def crankPeak (peak : Byte) (s : State) : State :=
  if s.ang.cfg.crkHall then setRegF Reg.ang_VRPK 8 8 0 s
  else setAng (fun g => { g with thrCrank := vrThreshold s peak.toNat }) (setRegF Reg.ang_VRPK 8 8 peak.toNat s)

/-- An edge strong enough: it lies too close to the tooth before it, or it is a tooth (R587). -/
def edgeJudged (s : State) : State :=
  let p := s.now - s.ang.tk
  let rel := regF s Reg.ang_TUNE 8 4
  let okMin := decide (s.ang.cfg.minper * 16 ≤ p)
  let okRel := rel = 0 || !angPublishes s || decide (rel * s.ang.spanNext * s.ang.rate ≤ 16 * p * 65536)
  if s.ang.edge && !(okMin && okRel) then signal 8 (hwCount Reg.ang_REJCNT s)
  else setAng (fun g => { g with pendTooth := some s.now }) s

theorem crankEdge_eq (peak : Byte) (s : State) : crankEdge peak s =
    if s.ang.cfg.teeth = 0 && !s.ang.dirty then s
    else if !s.ang.cfg.crkHall && decide (peak.toNat < max s.ang.thrCrank (vrThreshold s 0)) then s
    else edgeJudged (crankPeak peak s) := rfl

theorem vrThreshold_zero (s : State) : vrThreshold s 0 = max 1 (regF s Reg.ang_VRCFG 0 8) := by
  rw [vrThreshold, Nat.zero_mul, Nat.zero_div]
  exact Nat.max_eq_left (Nat.zero_le _)

theorem crankPeak_spec (peak : Byte) (s : State) :
    let u := crankPeak peak s
    (∃ x regs, u = { s with ang := { s.ang with thrCrank := x }, regs := regs }) ∧ RegsBut [Reg.ang_VRPK] s u ∧
      regF u Reg.ang_VRPK 8 8 = if s.ang.cfg.crkHall then 0 else peak.toNat := by
  have hset : ∀ v, v < 256 → regF (setRegF Reg.ang_VRPK 8 8 v s) Reg.ang_VRPK 8 8 = v := fun v hv => by
    rw [regF_setRegF_same _ _ _ _ _ (by decide)]; exact Nat.mod_eq_of_lt hv
  have hoth : ∀ v, RegsBut [Reg.ang_VRPK] s (setRegF Reg.ang_VRPK 8 8 v s) := fun v a ha =>
    reg_setRegF_other 8 8 v s (List.ne_of_not_mem_cons ha)
  unfold crankPeak
  split_ifs
  · exact ⟨⟨s.ang.thrCrank, _, rfl⟩, hoth 0, hset 0 (by decide)⟩
  · exact ⟨⟨_, _, rfl⟩, hoth peak.toNat, hset peak.toNat peak.isLt⟩

/-- The edge lies too close to the tooth before it (R587). -/
def edgeClose (s : State) : Prop :=
  s.ang.edge = true ∧ (s.now - s.ang.tk < s.ang.cfg.minper * 16 ∨ (regF s Reg.ang_TUNE 8 4 ≠ 0 ∧ angPublishes s = true ∧
    16 * (s.now - s.ang.tk) * 65536 < regF s Reg.ang_TUNE 8 4 * s.ang.spanNext * s.ang.rate))

theorem edgeJudged_of_close {s : State} (h : edgeClose s) : edgeJudged s = signal 8 (hwCount Reg.ang_REJCNT s) := by
  obtain ⟨hedge, hclose⟩ := h
  refine if_pos ?_
  rcases hclose with h | ⟨hrel, hpub, h⟩
  · simp [hedge, Nat.not_le.2 h]
  · simp [hedge, hrel, hpub, Nat.not_le.2 h]

theorem edgeJudged_of_tooth {s : State} (h : ¬ edgeClose s) :
    edgeJudged s = setAng (fun g => { g with pendTooth := some s.now }) s := by
  refine if_neg fun hc => h ?_
  rw [Bool.and_eq_true, Bool.not_eq_true', Bool.and_eq_false_iff] at hc
  obtain ⟨hedge, hmin | hrel⟩ := hc
  · exact ⟨hedge, .inl (by simpa using hmin)⟩
  · simp only [Bool.or_eq_false_iff, decide_eq_false_iff_not, Bool.not_eq_false', Nat.not_le] at hrel
    obtain ⟨⟨hrel, hpub⟩, h⟩ := hrel
    exact ⟨hedge, .inr ⟨hrel, hpub, h⟩⟩

/-! ### WHEEL (R583, R620) -/

theorem fld_congr {n : Nat} {w w' : BitVec n} {lo len : Nat}
    (h : ∀ i, lo ≤ i → i < lo + len → w.getLsbD i = w'.getLsbD i) : fld w lo len = fld w' lo len := by
  refine Nat.eq_of_testBit_eq fun i => ?_
  simp only [fld, Nat.testBit_mod_two_pow, Nat.testBit_shiftRight, BitVec.testBit_toNat]
  by_cases hi : i < len
  · rw [h (lo + i) (by omega) (by omega)]
  · simp [hi]

/-- WHEEL's bits but 2 and 3 take the value written. -/
theorem regBit_wheel (v : Word) (s : State) {i : Nat} (hi : i < 16) (hrw : (regMask RegRow.rw Reg.ang_WHEEL).getLsbD i = true) :
    regBit (regWriteBits Reg.ang_WHEEL v s) Reg.ang_WHEEL i = v.getLsbD i := by
  have hc : regMask RegRow.w1c Reg.ang_WHEEL = 0 := by decide
  have hs : regMask RegRow.w1s Reg.ang_WHEEL = 0 := by decide
  exact regBit_regWriteBits_rw v s hi hrw (by rw [hc]; exact BitVec.getLsbD_zero) (by rw [hs]; exact BitVec.getLsbD_zero)

theorem wheel_rw (i : Fin 16) (h : 4 ≤ i.val) : (regMask RegRow.rw Reg.ang_WHEEL).getLsbD i = true := by
  decide +revert

theorem regF_wheel (v : Word) (s : State) {lo len : Nat} (h : 4 ≤ lo) (h' : lo + len ≤ 16) :
    regF (regWriteBits Reg.ang_WHEEL v s) Reg.ang_WHEEL lo len = fld v lo len :=
  fld_congr fun i hi hi' => regBit_wheel v s (by omega) (wheel_rw ⟨i, by omega⟩ (by simp only; omega))

/-- A write of WHEEL that its checks refuse changes nothing (R583). -/
theorem wheelWrite_of_refused {m : Master} {v : Word} {s : State}
    (h : ¬ (privileged m = true ∧ inSetup s = true ∧ wheelRefused v = false)) : angWrite m Reg.ang_WHEEL v s = s := by
  unfold angWrite
  by_cases hm : privileged m = true
  · have hb : (!inSetup s || (Reg.ang_WHEEL == Reg.ang_WHEEL && wheelRefused v)) = true := by
      rw [hm] at h
      revert h
      cases inSetup s <;> cases wheelRefused v <;> simp
    rw [if_neg (by simpa using hm), if_pos (.inl (by decide)), if_pos hb]
  · rw [if_pos (by simpa using hm)]

theorem wheelWrite_of_taken {m : Master} {v : Word} {s : State} (hm : privileged m = true) (hs : inSetup s = true)
    (hv : wheelRefused v = false) : angWrite m Reg.ang_WHEEL v s = angCfgWritten (regWriteBits Reg.ang_WHEEL v s) := by
  simp [angWrite, hm, hs, hv]

/-- The registers of R582 after a write: in force at once where the engine stands, else noted (R620). -/
theorem angCfgWritten_spec (s : State) :
    (∀ a, 0x42000 ≤ a → a < 0x42400 → reg (angCfgWritten s) a = reg s a) ∧
      (s.ang.st = .stop → (angCfgWritten s).ang.cfg = cfgOfRegs s) ∧
      (s.ang.st ≠ .stop → (angCfgWritten s).ang.dirty = true ∧ (angCfgWritten s).ang.cfg = s.ang.cfg) := by
  by_cases hst : s.ang.st = .stop
  · have heq : angCfgWritten s = cycleChanged (angL s) { s with ang := { s.ang with cfg := cfgOfRegs s, dirty := false } } :=
      if_neg (by simp [angTurning, hst])
    have hkept := trackerKept_cycleChanged (angL s) { s with ang := { s.ang with cfg := cfgOfRegs s, dirty := false } }
    rw [← heq] at hkept
    exact ⟨hkept.regs, fun _ => congrArg Ang.cfg hkept.ang, fun h => absurd hst h⟩
  · have heq : angCfgWritten s = { s with ang := { s.ang with dirty := true } } := if_pos (by simpa [angTurning] using hst)
    rw [heq]
    exact ⟨fun _ _ _ => rfl, fun h => absurd h hst, fun _ => ⟨rfl, rfl⟩⟩

theorem wheelRefused_eq_false_iff (v : Word) : wheelRefused v = false ↔
    ¬ ((1 ≤ fld v 10 6 ∧ fld v 10 6 ≤ 60 ∧ fld v 10 6 ≤ fld v 8 2) ∨ (v.getLsbD 6 = true ∧ v.getLsbD 7 = false)) := by
  rw [← Bool.not_eq_true]
  refine not_congr ?_
  simp only [wheelRefused, Bool.or_eq_true, Bool.and_eq_true, decide_eq_true_eq, Bool.not_eq_true', and_assoc]

theorem inSetup_iff (s : State) : inSetup s = true ↔ s.modes.mode = .setup := by
  rw [inSetup, beq_iff_eq]

/-! ### The rules together -/

theorem gapLate_of_some {s : State} {p1 : Nat} (h : s.ang.pPrev = some p1) (gap : Bool) (p : Nat) :
    gapLate s gap p = gapTest s p1 p := by
  rw [gapLate, h]

theorem gapLate_of_none {s : State} (h : s.ang.pPrev = none) (gap : Bool) (p : Nat) : gapLate s gap p = gap := by
  rw [gapLate, h]

/-- The statement's test of a pattern is the tracker's. -/
theorem fits_iff (s : State) (p : Nat) :
    (s.ang.cfg.missing = 0 ∨ s.ang.pPrev = none ∨
      (nextGap s = true ↔ s.ang.pPrev.any (fun p1 => decide ((2 * s.ang.cfg.missing + 1) * p1 ≤ 2 * p)) = true)) ↔
    (s.ang.cfg.missing = 0 ∨ gapLate s (nextGap s) p = nextGap s) := by
  refine or_congr Iff.rfl ?_
  rcases hp : s.ang.pPrev with _ | p1
  · simp [gapLate_of_none hp]
  · rw [gapLate_of_some hp]
    have hany : (some p1).any (fun p1 => decide ((2 * s.ang.cfg.missing + 1) * p1 ≤ 2 * p)) = gapTest s p1 p := rfl
    rw [hany]
    cases nextGap s <;> cases gapTest s p1 p <;> simp

theorem tooth_of_synced {s : State} (t : Nat) (hst : s.ang.st = .half ∨ s.ang.st = .sync) (hd : s.ang.dirty = false) :
    turningTooth t s = syncTooth t s := by
  have hne : s.ang.st ≠ .hunt := by rcases hst with h | h <;> rw [h] <;> decide
  simp [turningTooth, hd, hne]

theorem nextIdx_eq {s : State} (h : s.ang.cfg.missing < s.ang.cfg.teeth) :
    nextIdx s = (s.ang.tidx + 1) % (s.ang.cfg.teeth - s.ang.cfg.missing) := by
  rw [nextIdx, teethPresent, Nat.max_eq_right (by omega)]

theorem nextGap_iff (s : State) : nextGap s = true ↔ s.ang.cfg.missing ≠ 0 ∧ nextIdx s = 0 := by
  simp [nextGap]

/-- A strong edge: VRPK, and the edge is too close or a tooth. -/
theorem crankEdge_spec {s : State} {peak : Byte} (hoff : ¬ (s.ang.cfg.teeth = 0 ∧ s.ang.dirty = false))
    (hweak : ¬ (s.ang.cfg.crkHall = false ∧ peak.toNat < max s.ang.thrCrank (max 1 (regF s Reg.ang_VRCFG 0 8)))) :
    let u := crankEdge peak s
    regF u Reg.ang_VRPK 8 8 = (if s.ang.cfg.crkHall then 0 else peak.toNat) ∧
      (edgeClose s → u.ang.pendTooth = s.ang.pendTooth ∧
        (reg u Reg.ang_REJCNT).toNat = min 0xFFFF ((reg s Reg.ang_REJCNT).toNat + 1) ∧ hasEvent u 8) ∧
      (¬ edgeClose s → u.ang.pendTooth = some s.now ∧ u.intc = s.intc ∧ RegsBut [Reg.ang_VRPK] s u) ∧
      u.ang.st = s.ang.st ∧ u.ang.rate = s.ang.rate ∧ u.evt = s.evt := by
  intro u
  have hu : u = edgeJudged (crankPeak peak s) := by
    have h1 : ¬ (decide (s.ang.cfg.teeth = 0) && !s.ang.dirty) = true := by simpa using hoff
    have h2 : ¬ (!s.ang.cfg.crkHall && decide (peak.toNat < max s.ang.thrCrank (vrThreshold s 0))) = true := by
      rw [vrThreshold_zero]
      simpa using hweak
    exact (crankEdge_eq peak s).trans ((if_neg h1).trans (if_neg h2))
  obtain ⟨⟨x, regs, hv⟩, hregs, hpk⟩ := crankPeak_spec peak s
  have htune : regF (crankPeak peak s) Reg.ang_TUNE 8 4 = regF s Reg.ang_TUNE 8 4 := regF_of_reg (hregs _ (by decide)) 8 4
  have hclose : edgeClose (crankPeak peak s) ↔ edgeClose s := by
    unfold edgeClose
    rw [htune, hv]
    rfl
  have hrej : reg (crankPeak peak s) Reg.ang_REJCNT = reg s Reg.ang_REJCNT := hregs _ (by decide)
  have hkept : (crankPeak peak s).ang.pendTooth = s.ang.pendTooth ∧ (crankPeak peak s).now = s.now ∧
      (crankPeak peak s).intc = s.intc ∧ (crankPeak peak s).ang.st = s.ang.st ∧ (crankPeak peak s).ang.rate = s.ang.rate ∧
      (crankPeak peak s).evt = s.evt := by
    rw [hv]
    exact ⟨rfl, rfl, rfl, rfl, rfl, rfl⟩
  clear hv
  rw [hu]
  generalize crankPeak peak s = v at *
  obtain ⟨hpend, hnow, hintc, hst, hrate, hevt⟩ := hkept
  by_cases hc : edgeClose v
  · have hrun : ∀ a, a = Reg.ang_VRPK ∨ a = Reg.ang_REJCNT → a ∉ runst := by rintro a (rfl | rfl) <;> decide
    have hcount : (reg (hwCount Reg.ang_REJCNT v) Reg.ang_REJCNT).toNat = min 0xFFFF ((reg v Reg.ang_REJCNT).toNat + 1) := by
      have hfield := regF_hwCountF Reg.ang_REJCNT 0 16 v (by decide)
      rw [regF, fld_all, regF, fld_all] at hfield
      exact hfield
    rw [edgeJudged_of_close hc, signal_ang, signal_evt]
    refine ⟨?_, fun _ => ⟨hpend, ?_, hasEvent_signal_same 8 _⟩, fun h => absurd (hclose.1 hc) h, hst, hrate, hevt⟩
    · rw [regF_of_reg (reg_signal (hrun _ (.inl rfl)) 8 _), regF_of_reg (reg_hwCount_other v (by decide)), hpk]
    · rw [reg_signal (hrun _ (.inr rfl)), hcount, hrej]
  · rw [edgeJudged_of_tooth hc]
    exact ⟨hpk, fun h => absurd (hclose.2 h) hc, fun _ => ⟨congrArg some hnow, hintc, hregs⟩, hst, hrate, hevt⟩

/-- A tooth in STOP. -/
theorem toothNow_stop {s : State} {t : Nat} (h : s.ang.pendTooth = some t) (hst : s.ang.st = .stop) :
    let u := toothNow s
    u.ang.st = .hunt ∧ u.ang.tk = t ∧ u.ang.huntTeeth = 1 ∧ u.ang.edge = true ∧ u.intc = s.intc ∧ u.regs = s.regs := by
  intro u
  have hu : u = huntStart t none false (edgeTaken s) := (toothNow_of_pending h).trans (if_pos hst)
  rw [hu]
  exact ⟨rfl, rfl, rfl, rfl, rfl, rfl⟩

theorem toothNow_taken {s : State} {t : Nat} (h : s.ang.pendTooth = some t) :
    (toothNow s).ang.pendTooth = none ∧ (s.ang.st ≠ .stop → hasEvent (toothNow s) 7) := by
  rw [toothNow_of_pending h]
  by_cases hst : s.ang.st = .stop
  · rw [if_pos hst]
    exact ⟨rfl, fun h => absurd hst h⟩
  · rw [if_neg hst]
    have htr := tracks_turningTooth t (signal 7 (edgeTaken s))
    have hpend : (signal 7 (edgeTaken s)).ang.pendTooth = none := by rw [signal_ang]; rfl
    exact ⟨htr.pend.trans hpend, fun _ => htr.events 7 (hasEvent_signal_same 7 _)⟩

/-- A tooth in HALF or SYNC with no other command in the way. -/
theorem toothNow_synced {s : State} {t : Nat} (h : s.ang.pendTooth = some t) (hst : s.ang.st = .half ∨ s.ang.st = .sync)
    (hd : s.ang.dirty = false) : toothNow s = syncTooth t (signal 7 (edgeTaken s)) := by
  have hne : s.ang.st ≠ .stop := by rcases hst with h | h <;> rw [h] <;> decide
  have hang : (signal 7 (edgeTaken s)).ang = { s.ang with pendTooth := none } := signal_ang 7 _
  rw [toothNow_of_pending h, if_neg hne, tooth_of_synced t (by rw [hang]; exact hst) (by rw [hang]; exact hd)]

/-- A write of WHEEL that is taken (R583, R620). -/
theorem wheelWrite_spec {m : Master} {v : Word} {s : State} (hm : privileged m = true) (hs : inSetup s = true)
    (hv : wheelRefused v = false) :
    let u := angWrite m Reg.ang_WHEEL v s
    (∀ i : Fin 16, (regMask RegRow.rw Reg.ang_WHEEL).getLsbD i = true → (reg u Reg.ang_WHEEL).getLsbD i = v.getLsbD i) ∧
      (s.ang.st = .stop → u.ang.cfg.teeth = (if fld v 10 6 ≤ 60 then fld v 10 6 else 0) ∧ u.ang.cfg.missing = fld v 8 2 ∧
        u.ang.cfg.cycle4 = v.getLsbD 7) ∧
      (s.ang.st ≠ .stop → u.ang.dirty = true ∧ u.ang.cfg = s.ang.cfg) := by
  intro u
  have hu : u = angCfgWritten (regWriteBits Reg.ang_WHEEL v s) := wheelWrite_of_taken hm hs hv
  obtain ⟨hregs, hstop, hturn⟩ := angCfgWritten_spec (regWriteBits Reg.ang_WHEEL v s)
  rw [hu]
  refine ⟨fun i hi => ?_, fun h => ?_, hturn⟩
  · rw [hregs Reg.ang_WHEEL (by decide) (by decide)]
    exact regBit_wheel v s i.isLt hi
  · have h8 := regF_wheel v s (lo := 8) (len := 2) (by decide) (by decide)
    have h10 := regF_wheel v s (lo := 10) (len := 6) (by decide) (by decide)
    have h7 : regBit (regWriteBits Reg.ang_WHEEL v s) Reg.ang_WHEEL 7 = v.getLsbD 7 := regBit_wheel v s (by decide) (by decide)
    rw [hstop h]
    simp only [cfgOfRegs, h8, h10, h7, and_self]

theorem mem_drop_of_prefix {α : Type} {r l m : List α} {x : α} (h : r <+: l) (h' : l ++ [x] <+: m) : x ∈ m.drop r.length := by
  obtain ⟨a, rfl⟩ := h
  obtain ⟨b, rfl⟩ := h'
  simp [List.append_assoc]

theorem toothSpan_congr {s u : State} (hc : u.ang.cfg = s.ang.cfg) (hb : u.ang.base = s.ang.base) (i : Nat) :
    toothSpan u i = toothSpan s i := by
  have hbase : toothBase u = toothBase s := funext fun i => by rw [toothBase, toothBase, hc, hb]
  unfold toothSpan
  rw [hc, hbase]

theorem camNear_iff (s : State) : camNear s = true ↔
    -(min 11519 ((reg s Reg.ang_CAMTOL).toNat : Int)) ≤ camDist s (angleNow s) ∧
      camDist s (angleNow s) ≤ min 11519 ((reg s Reg.ang_CAMTOL).toNat : Int) := by
  rw [camNear, decide_eq_true_iff, Nat.cast_min]
  rfl

theorem camFresh_iff (s : State) : camFresh s = true ↔ s.ang.camTaken = false ∧
    (s.ang.camLast = none ∨ s.ang.camLast.any (fun t => decide (t + 32 ≤ s.now)) = true) := by
  unfold camFresh
  cases s.ang.camLast with
  | none => simp
  | some t => simp [and_comm]

theorem angGain_camLast (dst : AngState) (s : State) : (angGain dst s).ang.camLast = s.ang.camLast := by
  have hmod : ∀ t : State, (if s.ang.st == .crank then countModL t else t).ang.camLast = t.ang.camLast := fun t => by
    split_ifs
    · rfl
    · rfl
  have hrest : ∀ (f : Kern → Kern) (p : Nat → Bool) (t : State), (setKern f (refAll p t)).ang = t.ang := fun _ _ _ => rfl
  unfold angGain
  rw [hrest, signal_ang, hmod]
  rfl

/-- No accepted cam edge loses its time. -/
theorem camAccepted_camLast (s : State) : (camAccepted s).ang.camLast = s.ang.camLast := by
  unfold camAccepted
  extract_lets a tol near s1 ok s2 s3 t
  have h1 : s1.ang.camLast = s.ang.camLast := rfl
  have h2 : s2.ang.camLast = s.ang.camLast := rfl
  have h3 : s3.ang.camLast = s.ang.camLast := rfl
  split
  · exact h1
  · split_ifs <;> exact h1
  · split_ifs
    · exact (angGain_camLast .sync s2).trans h2
    · exact h1
  · split_ifs <;> exact h1
  · split_ifs
    · exact h1
    · exact (congrArg Ang.camLast (angDrop_ang .hunt (raise { cls := clsAngle, detail := 3, unit := some (.bit 34) } s3)) :).trans h3
    · exact h3

/-- Proves O48, from the rule of each edge, boundary and write. -/
theorem angleTrackerFollowsItsRules : Obligations.AngleTrackerFollowsItsRules := by
  unfold Obligations.AngleTrackerFollowsItsRules
  intro s dt peak m v hup
  extract_lets priv n bad
  refine ⟨ActsAfter.of rfl hup ?_, ActsAfter.of rfl hup ?_, ActsAfter.of rfl hup ?_, ActsAt.of rfl hup ?_,
    ActsAt.of rfl hup ?_, Acts.of rfl hup ?_, Acts.of rfl hup ?_, Acts.of rfl hup ?_⟩
  · generalize ready _ s = r
    intro g p off weak rel close
    by_cases h : off ∨ weak
    · rw [if_pos h]
      have hcond : (decide (r.ang.cfg.teeth = 0) && !r.ang.dirty) = true ∨
          (!r.ang.cfg.crkHall && decide (peak.toNat < max r.ang.thrCrank (vrThreshold r 0))) = true := by
        rw [vrThreshold_zero]
        simpa [off, weak, g] using h
      rw [crankEdge_eq]
      by_cases h1 : (decide (r.ang.cfg.teeth = 0) && !r.ang.dirty) = true
      · exact if_pos h1
      · rw [if_neg h1, if_pos (hcond.resolve_left h1)]
    · rw [if_neg h]
      obtain ⟨hoff, hweak⟩ := not_or.1 h
      exact crankEdge_spec hoff hweak
  · generalize ready _ s = r
    intro g c
    refine ⟨fun h => ?_, fun t h => ?_⟩
    · simp only [toothNow, show r.ang.pendTooth = none from h]
    · obtain ⟨hpend, hev⟩ := toothNow_taken h
      refine ⟨hpend, toothNow_stop h, hev, fun hst hd hcmd hteeth hmiss => ?_⟩
      intro k idx p' gap wide fits
      have htooth := toothNow_synced h hst hd
      have hang : (signal 7 (edgeTaken r)).ang = { r.ang with pendTooth := none } := signal_ang 7 _
      have hregs : ∀ a, a ∉ runst → reg (signal 7 (edgeTaken r)) a = reg r a := fun a ha => reg_signal ha 7 _
      have hraises : r.fcol.raises <+: (signal 7 (edgeTaken r)).fcol.raises := signal_raises 7 (edgeTaken r)
      generalize signal 7 (edgeTaken r) = w at *
      have hst' : w.ang.st = .half ∨ w.ang.st = .sync := by rw [hang]; exact hst
      have hmiss' : w.ang.cfg.missing < w.ang.cfg.teeth := by rw [hang]; exact hmiss
      have hidx : nextIdx w = idx := by rw [nextIdx_eq hmiss', hang]
      have hgap : nextGap w = true ↔ gap := by rw [nextGap_iff, hidx, hang]
      have hfits : fits ↔ (w.ang.cfg.missing = 0 ∨ gapLate w (nextGap w) (t - w.ang.tk) = nextGap w) := by
        rw [← fits_iff, hgap, hang]
      refine ⟨fun hf => ?_, fun hf => ?_⟩
      · intro ph l th q acc
        obtain ⟨hs, hi, htk, hstamp, htper, hph, htang, hrate, hrp, hcfg⟩ :=
          syncTooth_fits_spec t hst' (by rw [hang]; exact hcmd) hmiss' (hfits.1 hf)
        have hspan : toothSpan w idx = toothSpan r idx := toothSpan_congr (by rw [hang]) (by rw [hang]) idx
        have htune : regF w Reg.ang_TUNE 0 4 = regF r Reg.ang_TUNE 0 4 := regF_of_reg (hregs _ (by decide)) 0 4
        have hnear : (nextGap w || w.ang.prevGap) = true ↔ gap ∨ g.prevGap = true := by
          rw [Bool.or_eq_true, hgap, hang]
        rw [← htooth] at hs hi htk hstamp htper hph htang hrate hrp hcfg
        have hrate' := (congrArg Nat.cast hrate).trans (rateOf_eq w _ _)
        rw [hidx, hspan, htune, if_congr hnear rfl rfl, hang] at hrate'
        rw [hidx, hspan, hang] at hrp
        rw [hidx, hang] at hph htang
        rw [hidx] at hi
        rw [hang] at hs htper hcfg
        exact ⟨hs, hi, htk, hstamp, htper, hph, htang, hrate', hrp, hcfg⟩
      · have hmz : w.ang.cfg.missing ≠ 0 := fun hz => hf (hfits.2 (.inl hz))
        obtain ⟨hhunt, hrate, hrpm, htk, hph, hraise, hloss⟩ :=
          syncTooth_misfit_spec t hst' hmz (fun hg => hf (hfits.2 (.inr hg)))
        rw [htooth]
        refine ⟨hhunt, hrate, hrpm, htk, hph.trans (by rw [hang]), ?_, ?_⟩
        · rw [if_congr hgap rfl rfl] at hraise
          exact mem_drop_of_prefix hraises hraise
        · rw [hloss, regF_of_reg (hregs _ (by decide))]
  · generalize ready _ s = r
    intro g back s1 a x tol fresh
    refine ⟨camEdge_of_ignored peak, fun hteeth huse hhall => ?_⟩
    rw [camEdge_of_hall peak hteeth huse hhall]
    have hfresh : fresh ↔ camFresh (camBack r) = true := (camFresh_iff (camBack r)).symm
    have hlast : (camNoted (camBack r)).ang.camLast = some r.now := rfl
    have hnear : camNear (camNoted (camBack r)) = true ↔ -tol ≤ x ∧ x ≤ tol := camNear_iff _
    have hkept : (camNoted (camBack r)).ang.st = g.st ∧ (camNoted (camBack r)).ang.camOut = g.camOut ∧
      (camNoted (camBack r)).regs = r.regs ∧ (camNoted (camBack r)).fcol = r.fcol := ⟨rfl, rfl, rfl, rfl⟩
    unfold camTried
    generalize camNoted (camBack r) = w at *
    obtain ⟨hst, hout, hregs, hfcol⟩ := hkept
    have hloss : regF w Reg.ang_LOSS 0 8 = regF r Reg.ang_LOSS 0 8 := by rw [regF, reg, hregs, regF, reg]
    refine ⟨?_, fun hf => ?_, fun hf hsync hin => ?_, fun hf hsync hin => ?_⟩
    · split_ifs
      · exact (camAccepted_camLast w).trans hlast
      · exact hlast
    · rw [if_neg (mt hfresh.2 hf)]
      exact ⟨hst, hout, (regF_camErr w).trans (by rw [hloss])⟩
    · rw [if_pos (hfresh.1 hf), camAccepted_of_sync (hst.trans hsync), if_pos (hnear.2 hin)]
      exact ⟨hst.trans hsync, rfl, rfl, hregs⟩
    · rw [if_pos (hfresh.1 hf), camAccepted_of_sync (hst.trans hsync), if_neg (mt hnear.1 hin)]
      obtain ⟨hhunt, hrate, hraised, hlost⟩ := camLost_spec w
      have herr : regF (camErr (camMarked w)) Reg.ang_LOSS 0 8 = min 255 (regF r Reg.ang_LOSS 0 8 + 1) :=
        (regF_camErr (camMarked w)).trans (congrArg (fun n => min 255 (n + 1)) hloss)
      rw [hout]
      refine ⟨?_, fun h0 => ?_, fun h1 => ?_⟩
      · split_ifs
        · rw [hlost, hloss]
        · exact herr
      · rw [if_neg (by omega)]
        exact ⟨hst.trans hsync, congrArg (· + 1) (hout.trans h0), hfcol⟩
      · rw [if_pos (show 1 ≤ g.camOut from h1)]
        refine ⟨hhunt, hrate, ?_⟩
        rw [Raised, ← hfcol]
        exact hraised
  · generalize ready _ s = r
    have hiff : (r.ang.st = .stop ∨ r.ang.pendTooth ≠ none ∨ r.now < r.ang.tk + r.ang.cfg.stallt * 160000) ↔
      (r.ang.st = .stop ∨ r.ang.pendTooth ≠ none ∨ r.now < stallTick r) := Iff.rfl
    by_cases h : r.ang.st = .stop ∨ r.ang.pendTooth ≠ none ∨ r.now < stallTick r
    · rw [if_pos (hiff.2 h), stall_of_ignored h]
    · rw [if_neg (mt hiff.1 h)]
      exact stall_spec h
  · generalize ready _ s = r
    intro due
    have hdue : due ↔ wrapDue r = true := by
      simp only [due, wrapDue, Bool.and_eq_true, Bool.or_eq_true, decide_eq_true_eq]
      tauto
    exact ⟨fun h => (cycleBoundary_eq r).trans (if_neg (mt hdue.2 h)), fun h => cycleBoundary_spec (hdue.1 h)⟩
  · generalize ready _ s = r
    simp [phcmdWrite, priv]
  · generalize ready _ s = r
    simp [phcmdWrite, priv]
  · generalize ready _ s = r
    have hiff : (priv ∧ r.modes.mode = .setup ∧ ¬ bad) ↔
        (privileged m = true ∧ inSetup r = true ∧ wheelRefused v = false) := by
      rw [inSetup_iff, wheelRefused_eq_false_iff]
    by_cases h : priv ∧ r.modes.mode = .setup ∧ ¬ bad
    · rw [if_pos h]
      obtain ⟨hm, hs, hv⟩ := hiff.1 h
      exact wheelWrite_spec hm hs hv
    · rw [if_neg h, wheelWrite_of_refused (mt hiff.2 h)]

end Sys2Proof.Machine

/-! ## An ion sample of more than 14 bits (R671, R689)

ADC.IPK holds the peak in its bits 13-0 below the onset and the misfire flag. The evaluation keeps its samples as numbers of
any size, and one beyond 14 bits runs into the flags. -/

namespace Sys2Proof.Machine

/-- Evaluation 0 has one sample, of 4000h, and takes its second and last; converter 0 converts it. -/
def widePeak : State :=
  let e : IonEval := { owner := 0, vs := [0x4000], len := 2, period := 80, thr := 0x8000, base := 0, mis := 0, due := 0 }
  let c : Conv := { run := some { cls := 3, owner := 0, chan := 0, start := 0 } }
  { State.reset with adc := { State.reset.adc with
      conv := State.reset.adc.conv.set 0 c
      ion := State.reset.adc.ion.set 0 (some e) } }

/-- The state the end of the conversion leaves, the rails being up. -/
def afterWidePeak : State :=
  perform (ticksTo (conversionDue widePeak 0) widePeak) (conversionEnd 0 (0 : BitVec 14).toNat) widePeak

theorem exec_widePeak : exec (.conversionEnd 0 0) widePeak = .next afterWidePeak := rfl

theorem onset_afterWidePeak : regBit afterWidePeak (Reg.adc_IPK (0 : Fin 4)) 14 = true := by decide +kernel

/-- Refutes O50: the statement asks for bit 14 of ADC.IPK to tell the onset, but a state may hold a sample of 4000h, which the
peak carries into that bit. In `widePeak` no sample reaches the threshold. The statement speaks of every state, so it is
refuted by one whose evaluation holds such a sample, whether or not a run from reset comes to it. -/
theorem not_measurementRunsByItsRules : ¬ Obligations.MeasurementRunsByItsRules := by
  unfold Obligations.MeasurementRunsByItsRules
  intro h
  obtain ⟨⟨u, hu, -, hended⟩, -⟩ := h widePeak .debug 0 0 0 0 0 0 false rfl
  obtain ⟨-, -, -, -, -, -, -, hion, -⟩ := hended _ rfl
  have hlast := hion rfl rfl _ rfl
  rw [if_neg (by decide)] at hlast
  obtain ⟨-, -, -, -, honset, -⟩ := hlast
  obtain hfollow : afterWidePeak = follow u := by simpa using exec_widePeak.symm.trans hu
  rw [regBit, ← reg_follow_ionPeak, ← hfollow, ← regBit, onset_afterWidePeak] at honset
  exact absurd honset (by decide)

end Sys2Proof.Machine

/-! ## The Courier's channels (R510-R525) -/

namespace Sys2Proof.Machine

/-! ### A channel and what is beside it -/

@[simp] theorem chan_setChan_same (c : Fin 8) (f : Chan → Chan) (s : State) : chan (setChan c f s) c = f (chan s c) :=
  Vector.getElem_set_self _

theorem chan_setChan_other {c x : Fin 8} (f : Chan → Chan) (s : State) (h : x ≠ c) : chan (setChan c f s) x = chan s x :=
  Vector.getElem_set_ne c.isLt x.isLt fun e => h (Fin.ext e.symm)

theorem chan_congr {s u : State} (h : u.cour = s.cour) (x : Fin 8) : chan u x = chan s x := by
  rw [chan, chan, h]

theorem spadGet_congr {s u : State} (h : u.mem = s.mem) (b : Nat) : spadGet u b = spadGet s b := by
  rw [spadGet, spadGet, h]

/-- The check of an access rests on the regions, the mode and the commit. -/
theorem refusal_of_regions {s u : State} (hmem : ∀ a, 0x41500 ≤ a → a < 0x41800 → reg u a = reg s a)
    (hbusy : commitBusy u = commitBusy s) (hmode : u.modes = s.modes) (m : Master) (a w : Nat) (wr : Bool) :
    refusal u m a w wr = refusal s m a w wr := by
  have hno : masterNo m ≤ 4 := by cases m <;> simp [masterNo]
  have hpermit : regionsPermit u m a w wr = regionsPermit s m a w wr := by
    have hone : ∀ r ∈ List.range 8, regionOk u m r a w wr = regionOk s m r a w wr := by
      intro r hr
      have hr := List.mem_range.1 hr
      have hword : ∀ o, o < 4 → reg u (0x41500 + 0x20 * masterNo m + 4 * r + o) = reg s (0x41500 + 0x20 * masterNo m + 4 * r + o) :=
        fun o ho => hmem _ (by omega) (by omega)
      have hlow : reg32 u (0x41500 + 0x20 * masterNo m + 4 * r) = reg32 s (0x41500 + 0x20 * masterNo m + 4 * r) := by
        rw [reg32, reg32, hword 1 (by decide), ← Nat.add_zero (0x41500 + 0x20 * masterNo m + 4 * r), hword 0 (by decide)]
      have hhigh : reg32 u (0x41502 + 0x20 * masterNo m + 4 * r) = reg32 s (0x41502 + 0x20 * masterNo m + 4 * r) := by
        have heq : 0x41502 + 0x20 * masterNo m + 4 * r = 0x41500 + 0x20 * masterNo m + 4 * r + 2 := by omega
        rw [reg32, reg32, heq, hword 2 (by decide), Nat.add_assoc _ 2 1, hword 3 (by decide)]
      simp only [regionOk, hlow, hhigh]
    rw [regionsPermit, regionsPermit, Bool.eq_iff_iff, List.any_eq_true, List.any_eq_true]
    exact exists_congr fun r => and_congr_right fun hr => by rw [hone r hr]
  rw [refusal, refusal, hpermit, inSetup, inSetup, hmode, hbusy]

theorem refusal_congr {s u : State} (hmem : ∀ a, 0x41400 ≤ a → a < 0x41800 → reg u a = reg s a)
    (harm : reg u Reg.sys_ARMSTAT = reg s Reg.sys_ARMSTAT) (hmode : u.modes = s.modes) (m : Master) (a w : Nat) (wr : Bool) :
    refusal u m a w wr = refusal s m a w wr :=
  refusal_of_regions (fun a ha => hmem a (Nat.le_trans (by decide) ha)) (congrArg (BitVec.getLsbD · 11) harm) hmode m a w wr

/-! ### The record in STAT (R502, R515) -/

/-- The registers a record in STAT may change. -/
def statRegs : List Nat := Reg.sys_ARMSTAT :: Reg.memc_VIOL :: (Reg.memc_VIOL + 1) :: (Reg.memc_COLL 2) :: runst

/-- What a record in STAT may change: the scratchpad, the record of a refusal and its source. -/
structure StatWritten (a : Nat) (s u : State) : Prop where
  noted : ∃ mem, Noted { s with mem := mem } u
  regs : RegsBut statRegs s u
  words : ∀ b, b ≠ a → spadGet u b = spadGet s b

theorem statWritten_spadWriteBy (m a : Nat) (v : Word) (s : State) : StatWritten a s (spadWriteBy m a [v] s) := by
  have hw := spadWriteBy_written m a [v] s
  have hget := fun b => spadGet_spadWriteBy m a b [v] s
  generalize spadWriteBy m a [v] s = u at *
  obtain ⟨⟨mem, regs, rfl⟩, hregs, -⟩ := hw
  refine ⟨⟨mem, _, _, _, _, rfl⟩, fun b hb => hregs b ?_, fun b hb => ?_⟩
  · simp only [statRegs, List.mem_cons, not_or] at hb ⊢
    exact ⟨hb.1, by simp⟩
  · rw [hget, if_neg (by simp only [List.length_singleton]; omega)]

theorem statWritten_recordViol (m : Master) (a : Nat) (why : Why) (s : State) : StatWritten a s (recordViol m a true why s) := by
  obtain ⟨hnoted, hregs⟩ := recordViol_spec m a true why s
  generalize recordViol m a true why s = u at *
  refine ⟨⟨s.mem, hnoted⟩, fun b hb => hregs b ?_, fun b _ => ?_⟩
  · simp only [statRegs, List.mem_cons, not_or] at hb ⊢
    obtain ⟨-, hlow, hhigh, -, hrun⟩ := hb
    exact ⟨hlow, hhigh, hrun⟩
  · obtain ⟨_, _, _, _, rfl⟩ := hnoted
    rfl

theorem statWritten_hwCount (a : Nat) (s : State) : StatWritten a s (hwCount (Reg.memc_COLL 2) s) := by
  refine ⟨⟨s.mem, _, _, _, _, rfl⟩, fun b hb => reg_hwCount_other s ?_, fun _ _ => rfl⟩
  simp only [statRegs, List.mem_cons, not_or] at hb
  exact hb.2.2.2.1

theorem StatWritten.trans {a : Nat} {s t u : State} (h : StatWritten a s t) (h' : StatWritten a t u) : StatWritten a s u := by
  refine ⟨?_, fun b hb => (h'.regs b hb).trans (h.regs b hb), fun b hb => (h'.words b hb).trans (h.words b hb)⟩
  obtain ⟨mem, _, _, _, _, rfl⟩ := h.noted
  obtain ⟨mem', _, _, _, _, rfl⟩ := h'.noted
  exact ⟨mem', _, _, _, _, rfl⟩

/-- The word of STAT of the descriptor in progress. -/
def statAddr (s : State) (c : Fin 8) : Nat := (reg s (Reg.cour_CUR c)).toNat * 8 + 1

/-- The word `writeStat` writes. -/
def statWord (s : State) (c : Fin 8) (code : Nat) : Word := wd (code + (chan s c).collided.toNat * 0x800)

theorem writeStat_eq (c : Fin 8) (code : Nat) (s : State) : writeStat c code s =
    match refusal s (.courier c) (statAddr s c) 1 true with
    | some w => recordViol (.courier c) (statAddr s c) true w s
    | none =>
      if collides s 2 (statAddr s c) 1 then
        spadWriteBy 2 (statAddr s c) [statWord s c code ||| 0x800] (hwCount (Reg.memc_COLL 2) s)
      else spadWriteBy 2 (statAddr s c) [statWord s c code] s := by
  unfold writeStat
  simp only [spadWrite, masterNo, List.length_singleton]
  cases hcol : collides s 2 (statAddr s c) 1 <;> simp only [statAddr] at hcol <;> simp only [hcol, statAddr] <;> rfl

theorem writeStat_spec (c : Fin 8) (code : Nat) (s : State) : StatWritten (statAddr s c) s (writeStat c code s) := by
  rw [writeStat_eq]
  split
  · exact statWritten_recordViol _ _ _ s
  · split
    · exact (statWritten_hwCount _ s).trans (statWritten_spadWriteBy _ _ _ _)
    · exact statWritten_spadWriteBy _ _ _ s

/-- Where the write is granted and none of its tick comes before it, STAT reads the code. -/
theorem spadGet_writeStat {c : Fin 8} {s : State} (code : Nat) (href : refusal s (.courier c) (statAddr s c) 1 true = none)
    (hlog : wLogNow s = []) : spadGet (writeStat c code s) (statAddr s c) = statWord s c code := by
  rw [writeStat_eq, href]
  simp only [collides, hlog, List.any_nil, Bool.false_eq_true, if_false]
  rw [spadGet_spadWriteBy, if_pos (by simp)]
  simp

/-! ### Errors and the end of a channel -/

theorem regsBut_chanError (c : Fin 8) (code : Nat) (s : State) :
    RegsBut (Reg.cour_CSTAT c :: Reg.cour_STAT :: runst) s (chanError c code s) := by
  intro a ha
  simp only [List.mem_cons, not_or] at ha
  obtain ⟨hstat, herr, hrun⟩ := ha
  rw [chanError, signalNat, dif_pos (by omega), reg_signal hrun, reg_hwSet_other _ _ herr, reg_setRegF_other _ _ _ _ hstat]

theorem noted_chanError (c : Fin 8) (code : Nat) (s : State) : Noted s (chanError c code s) := by
  rw [chanError, signalNat, dif_pos (by omega)]
  exact Noted.trans ⟨_, _, _, _, rfl⟩ (noted_signal _ _)

theorem chanError_spec (c : Fin 8) (code : Nat) (s : State) :
    regBit (chanError c code s) Reg.cour_STAT c = true ∧ regF (chanError c code s) (Reg.cour_CSTAT c) 0 8 = code % 256 ∧
      ∀ n : Fin 96, n.val = 64 + c.val → hasEvent (chanError c code s) n := by
  have hsignal : ∀ u, signalNat (64 + c.val) u = signal ⟨64 + c.val, by omega⟩ u := fun u => by rw [signalNat, dif_pos]
  rw [chanError, hsignal]
  refine ⟨?_, ?_, fun n hn => ?_⟩
  · rw [regBit, reg_signal (not_mem_runst (.inr (by decide))), ← regBit]
    exact regBit_hwSet_bit_same _ _ _ (by omega)
  · rw [regF, reg_signal (not_mem_runst (.inr (by simp only [Reg.intc_RUNST, Reg.cour_CSTAT]; omega))),
      reg_hwSet_other _ _ (by simp only [Reg.cour_CSTAT, Reg.cour_STAT]; omega), reg_setRegF_same]
    exact fld_putFld _ _ _ _ (by decide)
  · rw [Fin.ext (a := n) (b := ⟨64 + c.val, by omega⟩) hn]
    exact hasEvent_signal_same _ _

theorem flashRelease_flash (s : State) : ∃ f, flashRelease s = { s with flash := f } := by
  unfold flashRelease
  extract_lets _ t
  split
  · split
    · exact ⟨_, rfl⟩
    · exact ⟨_, rfl⟩
  · exact ⟨_, rfl⟩

/-- A channel that goes IDLE leaves the flash and its descriptor. -/
theorem chanIdle_eq (c : Fin 8) (s : State) :
    ∃ f, chanIdle c s = setReg (Reg.cour_CUR c) 0xFFFF (setChan c (fun _ => {}) { s with flash := f }) := by
  have hleave : ∃ f, (if (flashLeave (.courier c) s).flash.owner == .courier c then flashRelease (flashLeave (.courier c) s)
      else flashLeave (.courier c) s) = { s with flash := f } := by
    split
    · exact flashRelease_flash (flashLeave (.courier c) s)
    · exact ⟨_, rfl⟩
  obtain ⟨f, hf⟩ := hleave
  exact ⟨f, congrArg (fun u => setReg (Reg.cour_CUR c) 0xFFFF (setChan c (fun _ => {}) u)) hf⟩

/-- What a channel that goes IDLE leaves. -/
theorem chanIdle_spec (c : Fin 8) (s : State) :
    chan (chanIdle c s) c = {} ∧ (∀ x, x ≠ c → chan (chanIdle c s) x = chan s x) ∧ reg (chanIdle c s) (Reg.cour_CUR c) = 0xFFFF ∧
      RegsBut [Reg.cour_CUR c] s (chanIdle c s) ∧ (chanIdle c s).mem = s.mem ∧ (chanIdle c s).thr = s.thr ∧
      (chanIdle c s).intc = s.intc := by
  obtain ⟨f, hf⟩ := chanIdle_eq c s
  rw [hf]
  refine ⟨?_, fun x hx => ?_, reg_setReg_same _ _ _, fun a ha => ?_, rfl, rfl, rfl⟩
  · rw [chan_congr (setReg_cour ..), chan_setChan_same]
  · rw [chan_congr (setReg_cour ..), chan_setChan_other _ _ hx]
    rfl
  · rw [reg_setReg_other _ _ (List.ne_of_not_mem_cons ha)]
    rfl

end Sys2Proof.Machine

/-! ## The Courier's fetches, moves and flash commands (R510-R525) -/

namespace Sys2Proof.Machine

/-! ### Reads and writes of the scratchpad -/

/-- With no word of bad parity a read returns what its reader sees. -/
theorem spadRead_of_clean {s : State} (h : s.mem.parBad = []) (x : Reader) (a n : Nat) :
    spadRead x a n s = (some ((List.range n).map (fun i => spadSeen s x.mst (a + i))), s) := by
  induction n generalizing a with
  | zero => rfl
  | succ n ih =>
    have hgood : parityBad s a = false := by rw [parityBad, h]; rfl
    rw [spadRead, if_neg (by simp [hgood])]
    simp only [ih, List.range_succ_eq_map, List.map_cons, List.map_map, Nat.add_zero]
    refine congrArg (fun l => (some (spadSeen s x.mst a :: l), s)) (List.map_congr_left fun i _ => ?_)
    rw [Function.comp_apply, Nat.succ_eq_add_one, Nat.add_right_comm, Nat.add_assoc]

theorem memRead_courier {c : Fin 8} {a n : Nat} {s : State} (ha : a < 0x18000) (h : s.mem.parBad = [])
    (href : refusal s (.courier c) a n false = none) :
    memRead (.courier c) true a n s = (.ok ((List.range n).map (fun i => spadSeen s 2 (a + i))), s) := by
  have hspad : isSpad a = true := by rwa [isSpad, decide_eq_true_eq]
  simp only [memRead, href, readUnchecked, hspad, if_true, spadRead_of_clean h]
  rfl

theorem memWrite_courier {c : Fin 8} {a : Nat} {ws : List Word} {s : State} (ha : a < 0x18000)
    (href : refusal s (.courier c) a ws.length true = none) (hcol : collides s 2 a ws.length = false) :
    memWrite (.courier c) a ws s = (.ok, spadWriteBy 2 a ws s) := by
  have hspad : isSpad a = true := by rwa [isSpad, decide_eq_true_eq]
  simp only [memWrite, href, writeUnchecked, hspad, if_true, spadWrite, masterNo, hcol, Bool.false_eq_true, if_false]

/-! ### A fetch -/

/-- The channel as the descriptor at `a` sets it up. -/
def descriptorAt (s : State) (a : Nat) : Chan :=
  let w (i : Nat) : Word := spadSeen s 2 (a + i)
  { st := .run, ctl := w 0, src := (mkPair (w 2) (w 3)).toNat, dst := (mkPair (w 4) (w 5)).toNat
    count := (w 6).toNat, next := w 7 }

/-- A descriptor in force, with the outcome of its checks. -/
def descriptorTaken (c : Fin 8) (h : Chan) (s : State) : State :=
  setRem c (setChan c (fun _ => { h with err := descCheck s h, done := decide (descCheck s h ≠ 0 ∨ h.count = 0) }) s)

/-- A descriptor begun: STAT reads ACTIVE, and a flash kind waits. -/
def descriptorBegun (c : Fin 8) (h : Chan) (s : State) : State :=
  let s := writeStat c 0x1000 s
  if h.count ≠ 0 ∧ chanFlash h then flashWait (.courier c) (setChan c (fun h => { h with st := .waitfl }) s) else s

theorem courFetch_idle {c : Fin 8} {s : State} (h : ¬ ((chan s c).st = .run ∧ (chan s c).fetch = true ∧ courFrozen s = false)) :
    courFetch c s = s := by
  simp only [courFetch]
  rw [if_pos]
  simp only [Bool.or_eq_true, Bool.not_eq_true', bne_iff_ne]
  by_contra hcon
  simp only [not_or, Bool.not_eq_false, Bool.not_eq_true, ne_eq, not_not] at hcon
  obtain ⟨⟨hst, hfetch⟩, hfrozen⟩ := hcon
  exact h ⟨hst, hfetch, hfrozen⟩

/-- A fetch that is due and finds a descriptor. -/
theorem courFetch_eq {c : Fin 8} {s : State} (h : (chan s c).st = .run ∧ (chan s c).fetch = true ∧ courFrozen s = false) :
    courFetch c s =
      let idx := (reg s (Reg.cour_CUR c)).toNat
      let a := 8 * idx
      if 0x2FFF < idx then chanIdle c (chanError c 8 s)
      else
        match (List.range 8).find? (fun i => (refusal s (.courier c) (a + i) 1 false).isSome) with
        | some i =>
          chanIdle c (chanError c 8
            (recordViol (.courier c) (a + i) false ((refusal s (.courier c) (a + i) 1 false).getD .region) s))
        | none =>
          match spadRead (readerOf (.courier c)) a 8 s with
          | (none, s) => chanIdle c (chanError c 8 s)
          | (some ws, s) =>
            if !(ws.getD 0 0).getLsbD 15 then chanIdle c s
            else
              let h : Chan :=
                { st := .run, ctl := ws.getD 0 0, src := (mkPair (ws.getD 2 0) (ws.getD 3 0)).toNat
                  dst := (mkPair (ws.getD 4 0) (ws.getD 5 0)).toNat, count := (ws.getD 6 0).toNat, next := ws.getD 7 0 }
              if descCheck s h ≠ 0 then descriptorTaken c h s else descriptorBegun c h (descriptorTaken c h s) := by
  obtain ⟨hst, hfetch, hfrozen⟩ := h
  simp only [courFetch]
  rw [if_neg (by simp [hst, hfetch, hfrozen])]
  rfl

theorem courFetch_beyond {c : Fin 8} {s : State} (h : (chan s c).st = .run ∧ (chan s c).fetch = true ∧ courFrozen s = false)
    (ha : 0x18000 ≤ 8 * (reg s (Reg.cour_CUR c)).toNat) : courFetch c s = chanIdle c (chanError c 8 s) := by
  rw [courFetch_eq h]
  exact if_pos (by omega)

theorem courFetch_found {c : Fin 8} {s : State} (h : (chan s c).st = .run ∧ (chan s c).fetch = true ∧ courFrozen s = false)
    {a : Nat} (ha : 8 * (reg s (Reg.cour_CUR c)).toNat = a) (hlt : a < 0x18000) (hpar : s.mem.parBad = [])
    (href : ∀ i : Fin 8, refusal s (.courier c) (a + i.val) 1 false = none) :
    courFetch c s =
      if !(spadSeen s 2 a).getLsbD 15 then chanIdle c s
      else if descCheck s (descriptorAt s a) ≠ 0 then descriptorTaken c (descriptorAt s a) s
      else descriptorBegun c (descriptorAt s a) (descriptorTaken c (descriptorAt s a) s) := by
  subst ha
  have hfind : (List.range 8).find? (fun i => (refusal s (.courier c) (8 * (reg s (Reg.cour_CUR c)).toNat + i) 1 false).isSome) = none := by
    rw [List.find?_eq_none]
    intro i hi
    simp [href ⟨i, List.mem_range.1 hi⟩]
  simp only [courFetch_eq h]
  rw [if_neg (by omega), hfind, spadRead_of_clean hpar]
  rfl

/-! ### The other channels -/

/-- No channel but `c` changes. -/
def OthersKept (c : Fin 8) (s u : State) : Prop := ∀ x : Fin 8, x ≠ c → chan u x = chan s x

theorem OthersKept.of_cour {c : Fin 8} {s u : State} (h : u.cour = s.cour) : OthersKept c s u := fun x _ => chan_congr h x

theorem OthersKept.trans {c : Fin 8} {s t u : State} (h : OthersKept c s t) (h' : OthersKept c t u) : OthersKept c s u :=
  fun x hx => (h' x hx).trans (h x hx)

theorem othersKept_of_noted {c : Fin 8} {s u : State} (h : Noted s u) : OthersKept c s u := by
  obtain ⟨_, _, _, _, rfl⟩ := h
  exact .of_cour rfl

theorem othersKept_setChan (c : Fin 8) (f : Chan → Chan) (s : State) : OthersKept c s (setChan c f s) :=
  fun _ hx => chan_setChan_other f s hx

theorem othersKept_chanIdle (c : Fin 8) (s : State) : OthersKept c s (chanIdle c s) := by
  obtain ⟨-, hother, -⟩ := chanIdle_spec c s
  exact hother

theorem othersKept_writeStat (c : Fin 8) (code : Nat) (s : State) : OthersKept c s (writeStat c code s) := by
  obtain ⟨mem, h⟩ := (writeStat_spec c code s).noted
  exact OthersKept.trans (t := { s with mem := mem }) (.of_cour rfl) (othersKept_of_noted h)

theorem othersKept_descriptorTaken (c : Fin 8) (h : Chan) (s : State) : OthersKept c s (descriptorTaken c h s) :=
  (othersKept_setChan c (fun _ => _) s).trans (.of_cour (setReg_cour ..))

theorem flashWait_flash (o : FlashOwner) (s : State) : ∃ f, flashWait o s = { s with flash := f } := by
  rw [flashWait]
  split
  · exact ⟨_, rfl⟩
  · exact ⟨_, rfl⟩

theorem othersKept_descriptorBegun (c : Fin 8) (h : Chan) (s : State) : OthersKept c s (descriptorBegun c h s) := by
  refine (othersKept_writeStat c 0x1000 s).trans ?_
  rw [descriptorBegun]
  generalize writeStat c 0x1000 s = t
  split
  · refine (othersKept_setChan c (fun h => { h with st := .waitfl }) t).trans ?_
    obtain ⟨f, hf⟩ := flashWait_flash (.courier c) (setChan c (fun h => { h with st := .waitfl }) t)
    rw [hf]
    exact .of_cour rfl
  · exact fun _ _ => rfl

theorem noted_parityError (x : Reader) (a : Nat) (s : State) : Noted s (parityError x a s) := by
  have hword : ∀ v, Noted s (setReg32 Reg.memc_PERR v s) := fun _ => ⟨_, s.hw, s.intc, s.fcol.raises, rfl⟩
  have hset : ∀ b v u, Noted u (hwSet b v u) := fun b v u => by
    obtain ⟨regs, hw, h⟩ := hwSet_eq b v u
    exact ⟨regs, hw, u.intc, u.fcol.raises, h⟩
  have hcount : ∀ b u, Noted u (hwCount b u) := fun b u => ⟨_, _, u.intc, u.fcol.raises, rfl⟩
  exact (((hword _).trans (hset _ _ _)).trans (hcount _ _)).trans (noted_raise _ _)

theorem noted_spadRead (x : Reader) (a n : Nat) (s : State) : Noted s (spadRead x a n s).2 := by
  induction n generalizing a with
  | zero => exact .refl s
  | succ n ih =>
    rw [spadRead]
    split
    · exact noted_parityError x a s
    · have hrest := ih (a + 1)
      rcases hread : spadRead x (a + 1) n s with ⟨ws, u⟩
      rw [hread] at hrest
      cases ws with
      | none => exact hrest
      | some ws => exact hrest

theorem othersKept_courFetch (c : Fin 8) (s : State) : OthersKept c s (courFetch c s) := by
  by_cases h : (chan s c).st = .run ∧ (chan s c).fetch = true ∧ courFrozen s = false
  · have hfails : ∀ u, Noted s u → OthersKept c s (chanIdle c (chanError c 8 u)) := fun u hu =>
      (othersKept_of_noted (hu.trans (noted_chanError c 8 u))).trans (othersKept_chanIdle c _)
    rw [courFetch_eq h]
    extract_lets idx a
    split
    · exact hfails s (.refl s)
    · split
      · exact hfails _ (recordViol_spec _ _ _ _ s).1
      · have hread := noted_spadRead (readerOf (.courier c)) a 8 s
        generalize spadRead (readerOf (.courier c)) a 8 s = x at *
        obtain ⟨_ | ws, u⟩ := x
        · exact hfails u hread
        · have hu : OthersKept c s u := othersKept_of_noted hread
          dsimp only
          split
          · exact hu.trans (othersKept_chanIdle c u)
          · split
            · exact hu.trans (othersKept_descriptorTaken c _ u)
            · exact hu.trans ((othersKept_descriptorTaken c _ u).trans (othersKept_descriptorBegun c _ _))
  · rw [courFetch_idle h]
    exact fun _ _ => rfl

/-! ### A descriptor found -/

/-- What the failing check of a descriptor is (R513). -/
theorem descriptorTaken_spec (c : Fin 8) (h : Chan) (s : State) :
    chan (descriptorTaken c h s) c = { h with err := descCheck s h, done := decide (descCheck s h ≠ 0 ∨ h.count = 0) } ∧
      reg (descriptorTaken c h s) (Reg.cour_REM c) = wd (h.count - h.moved) ∧ (descriptorTaken c h s).mem = s.mem ∧
      RegsBut [Reg.cour_REM c] s (descriptorTaken c h s) ∧ (descriptorTaken c h s).modes = s.modes ∧
      (descriptorTaken c h s).now = s.now := by
  have hchan := chan_setChan_same c
    (fun _ => { h with err := descCheck s h, done := decide (descCheck s h ≠ 0 ∨ h.count = 0) }) s
  refine ⟨hchan, ?_, rfl, fun b hb => ?_, rfl, rfl⟩
  · rw [descriptorTaken, setRem, reg_setReg_same, hchan]
  · rw [descriptorTaken, setRem, reg_setReg_other _ _ (List.ne_of_not_mem_cons hb)]
    rfl

/-- What a descriptor that begins leaves. -/
theorem descriptorBegun_spec (c : Fin 8) (h : Chan) (s : State) :
    StatWritten (statAddr s c) s (writeStat c 0x1000 s) ∧ (descriptorBegun c h s).mem = (writeStat c 0x1000 s).mem ∧
      (descriptorBegun c h s).regs = (writeStat c 0x1000 s).regs ∧
      chan (descriptorBegun c h s) c =
        if h.count ≠ 0 ∧ chanFlash h then { chan s c with st := .waitfl } else chan s c := by
  have hw := writeStat_spec c 0x1000 s
  refine ⟨hw, ?_⟩
  have hchan : chan (writeStat c 0x1000 s) c = chan s c := by
    obtain ⟨mem, _, _, _, _, he⟩ := hw.noted
    rw [he]
    rfl
  rw [descriptorBegun]
  generalize writeStat c 0x1000 s = t at *
  split
  · have hset := chan_setChan_same c (fun h => { h with st := .waitfl }) t
    obtain ⟨f, hf⟩ := flashWait_flash (.courier c) (setChan c (fun h => { h with st := .waitfl }) t)
    rw [hf, ← hchan]
    exact ⟨rfl, rfl, hset⟩
  · exact ⟨rfl, rfl, hchan⟩

end Sys2Proof.Machine

/-! ## The Courier's obligation -/

namespace Sys2Proof.Machine

/-! ### Starts and fetches -/

theorem courStart_denied {m : Master} {c : Fin 8} {s : State}
    (h : privileged m = false ∧ m ≠ .thread (thrIdx (regF s (Reg.cour_CHCFG c) 0 3))) : courStart m c s = s := by
  obtain ⟨hp, hm⟩ := h
  rw [courStart]
  exact if_pos (by simp [hp, hm, chanOwner])

theorem courStart_permitted {m : Master} {c : Fin 8} {s : State}
    (h : ¬ (privileged m = false ∧ m ≠ .thread (thrIdx (regF s (Reg.cour_CHCFG c) 0 3)))) : courStart m c s =
      if fenceBit s (fbCour c) then hwSet Reg.cour_STAT (wd (2 ^ c.val)) s
      else if (chan s c).st != .idle then s
      else setReg (Reg.cour_CUR c) (reg s (Reg.cour_HEAD c)) (setChan c (fun _ => { st := .run, fetch := true }) s) := by
  rw [courStart]
  refine if_neg ?_
  rw [Bool.not_eq_true', ← Bool.not_eq_true]
  intro hcon
  simp only [chanOwner] at hcon
  exact h (by simpa using hcon)

theorem mkPair_toNat (lo hi : Word) : (mkPair lo hi).toNat = hi.toNat * 65536 + lo.toNat := by
  rw [mkPair, BitVec.toNat_append, Nat.shiftLeft_eq, Nat.mul_comm, ← Nat.two_pow_add_eq_or_of_lt lo.isLt, Nat.mul_comm]

theorem mkPair_odd (lo hi : Word) : (mkPair lo hi).toNat % 2 = fld lo 0 1 := by
  rw [mkPair_toNat, fld, Nat.shiftRight_zero]
  omega

/-- A descriptor of no form there is (R513, code 07h). -/
def BadForm (h : Chan) : Prop :=
  4 < chanKind h ∨ fld h.ctl 0 3 ≠ 0 ∨ (h.ctl.getLsbD 5 = true ∧ 2 ≤ chanKind h ∧ chanKind h ≤ 4) ∨
    (0x2FFF < h.next.toNat ∧ h.next ≠ 0xFFFF)

/-- A descriptor with an odd address where an even one is due (R513, code 04h). -/
def BadAlign (h : Chan) : Prop :=
  (h.ctl.getLsbD 5 = true ∧ (h.dst % 2 = 1 ∨ (chanKind h = 0 ∧ h.src % 2 = 1))) ∨ (chanKind h = 2 ∧ h.src % 2 = 1) ∨
    ((chanKind h = 3 ∨ chanKind h = 4) ∧ h.dst % 2 = 1)

/-- A flash descriptor that leaves the window (R513, code 09h). -/
def BadWindow (s : State) (h : Chan) : Prop :=
  let first := if chanKind h = 4 then eraseBase s h.dst else h.dst
  let last := if chanKind h = 4 then eraseBase s (h.dst + 2 * h.count - 1) + eraseSize s - 1 else h.dst + 2 * h.count - 1
  3 ≤ chanKind h ∧ 2 * h.count ≠ 0 ∧ (first < (reg32 s Reg.cour_FWIN).toNat ∨ (reg32 s Reg.cour_FWLIM).toNat < last)

theorem descCheck_form {s : State} {h : Chan} (hf : BadForm h) : descCheck s h = 7 := by
  unfold descCheck
  refine if_pos ?_
  simpa only [BadForm, chanPair, chanFlash, Bool.and_eq_true, decide_eq_true_eq] using hf

theorem descCheck_align {s : State} {h : Chan} (hf : ¬ BadForm h) (ha : BadAlign h) : descCheck s h = 4 := by
  unfold descCheck
  refine (if_neg ?_).trans (if_pos ?_)
  · simpa only [BadForm, chanPair, chanFlash, Bool.and_eq_true, decide_eq_true_eq] using hf
  · simpa only [BadAlign, chanPair] using ha

theorem descCheck_window {s : State} {h : Chan} (hf : ¬ BadForm h) (ha : ¬ BadAlign h) :
    (BadWindow s h → descCheck s h = 9) ∧ (¬ BadWindow s h → descCheck s h = 0) := by
  have hkind : chanKind h ≤ 4 := by
    by_contra hk
    exact hf (.inl (by omega))
  classical
  have heq : descCheck s h = if BadWindow s h then 9 else 0 := by
    unfold descCheck
    refine (if_neg ?_).trans ((if_neg ?_).trans (if_congr ?_ rfl rfl))
    · simpa only [BadForm, chanPair, chanFlash, Bool.and_eq_true, decide_eq_true_eq] using hf
    · simpa only [BadAlign, chanPair] using ha
    · simp only [BadWindow, Bool.not_eq_true', Bool.and_eq_false_iff, decide_eq_false_iff_not, Nat.not_le]
      rcases (by omega : chanKind h < 3 ∨ chanKind h = 3 ∨ chanKind h = 4) with hlt | h3 | h4
      · have hno : ¬ 3 ≤ chanKind h ∧ chanKind h ≠ 3 ∧ chanKind h ≠ 4 := by omega
        simp [hno]
      · simp [h3]
      · simp [h4]
  rw [heq]
  exact ⟨fun hw => if_pos hw, fun hw => if_neg hw⟩

/-- The channel after a fetch that found a descriptor. -/
def fetchedChan (s : State) (h : Chan) : Chan :=
  { h with
    err := descCheck s h
    done := decide (descCheck s h ≠ 0 ∨ h.count = 0)
    st := if descCheck s h = 0 ∧ h.count ≠ 0 ∧ chanFlash h = true then .waitfl else .run }

theorem wLogNow_congr {s u : State} (hmem : u.mem = s.mem) (hnow : u.now = s.now) : wLogNow u = wLogNow s := by
  rw [wLogNow, wLogNow, hmem, hnow]

/-- A descriptor taken leaves what the check of its STAT rests on. -/
theorem stat_descriptorTaken (c : Fin 8) (h : Chan) (s : State) :
    statAddr (descriptorTaken c h s) c = statAddr s c ∧
      refusal (descriptorTaken c h s) (.courier c) (statAddr s c) 1 true = refusal s (.courier c) (statAddr s c) 1 true := by
  obtain ⟨-, -, -, hregs, hmode, -⟩ := descriptorTaken_spec c h s
  have hkept : ∀ b, b ≠ Reg.cour_REM c → reg (descriptorTaken c h s) b = reg s b := fun b hb => hregs b (by simpa using hb)
  refine ⟨?_, refusal_congr (fun b _ _ => hkept b ?_) (hkept _ ?_) hmode _ _ _ _⟩
  · rw [statAddr, statAddr, hkept]
    simp only [Reg.cour_CUR, Reg.cour_REM]
    omega
  · simp only [Reg.cour_REM]
    omega
  · simp only [Reg.cour_REM, Reg.sys_ARMSTAT]
    omega

theorem courFetch_valid {c : Fin 8} {s : State} (h : (chan s c).st = .run ∧ (chan s c).fetch = true ∧ courFrozen s = false)
    {a : Nat} (ha : 8 * (reg s (Reg.cour_CUR c)).toNat = a) (hlt : a < 0x18000) (hpar : s.mem.parBad = [])
    (href : ∀ i : Fin 8, refusal s (.courier c) (a + i.val) 1 false = none) (hv : (spadSeen s 2 a).getLsbD 15 = true) :
    chan (courFetch c s) c = fetchedChan s (descriptorAt s a) ∧ reg (courFetch c s) (Reg.cour_REM c) = spadSeen s 2 (a + 6) ∧
      (descCheck s (descriptorAt s a) ≠ 0 → (courFetch c s).mem = s.mem) ∧
      (descCheck s (descriptorAt s a) = 0 → refusal s (.courier c) (a + 1) 1 true = none →
        (wLogNow s = [] → spadGet (courFetch c s) (a + 1) = 0x1000) ∧
          ∀ b, b ≠ a + 1 → spadGet (courFetch c s) b = spadGet s b) := by
  have hstat : statAddr s c = a + 1 := by rw [statAddr, ← ha, Nat.mul_comm]
  have hrem : wd ((descriptorAt s a).count - (descriptorAt s a).moved) = spadSeen s 2 (a + 6) := BitVec.ofNat_toNat 16 _
  have hst : (descriptorAt s a).st = .run := rfl
  have hcoll : (descriptorAt s a).collided = false := rfl
  rw [courFetch_found h ha hlt hpar href, if_neg (by simp [hv])]
  generalize descriptorAt s a = d at *
  obtain ⟨hchan, hreg, hmem, -, -, hnow⟩ := descriptorTaken_spec c d s
  obtain ⟨haddr, hrefuse⟩ := stat_descriptorTaken c d s
  by_cases he : descCheck s d = 0
  · rw [if_neg (by simp [he])]
    obtain ⟨hw, hbegun, hregs, hend⟩ := descriptorBegun_spec c d (descriptorTaken c d s)
    refine ⟨?_, ?_, fun hne => absurd he hne, fun _ hgrant => ⟨fun hlog => ?_, fun b hb => ?_⟩⟩
    · rw [hend, hchan, fetchedChan]
      split_ifs with hf hf' hf'
      · rfl
      · exact absurd ⟨he, hf⟩ hf'
      · exact absurd hf'.2 hf
      · rw [hst]
    · rw [reg, hregs, ← reg, hw.regs _ (by simp only [statRegs, List.mem_cons, not_or]; refine ⟨?_, ?_, ?_, ?_, not_mem_runst (.inr ?_)⟩ <;>
        simp only [Reg.cour_REM, Reg.sys_ARMSTAT, Reg.memc_VIOL, Reg.memc_COLL, Reg.intc_RUNST] <;> omega), hreg, hrem]
    · rw [spadGet_congr hbegun, ← hstat, ← haddr, spadGet_writeStat, statWord, hchan]
      · simp only [hcoll]
        rfl
      · rw [haddr, hrefuse, hstat, hgrant]
      · rw [wLogNow_congr hmem hnow, hlog]
    · rw [spadGet_congr hbegun, hw.words b (by rw [haddr, hstat]; exact hb), spadGet_congr hmem]
  · rw [if_pos he]
    refine ⟨?_, hreg.trans hrem, fun _ => hmem, fun h0 => absurd h0 he⟩
    rw [hchan, fetchedChan, if_neg (fun h => he h.1), hst]

end Sys2Proof.Machine

/-! ## A Courier's accesses outside the scratchpad leave every channel (R16, R519) -/

namespace Sys2Proof.Machine

theorem cour_foldl {α : Type} {f : State → α → State} (l : List α) (hf : ∀ s x, (f s x).cour = s.cour) (s : State) :
    (l.foldl f s).cour = s.cour := by
  induction l generalizing s with
  | nil => rfl
  | cons x l ih => exact (ih _).trans (hf s x)

theorem cour_ite {c : Prop} [Decidable c] {s u v : State} (hu : u.cour = s.cour) (hv : v.cour = s.cour) :
    (if c then u else v).cour = s.cour := by
  split
  · exact hu
  · exact hv

/-! ### Writes -/

theorem cour_setRefuse (n : Nat) (s : State) : (setRefuse n s).cour = s.cour := rfl

theorem cour_storeCrc (s : State) : (storeCrc s).cour = s.cour := cour_ite rfl rfl

theorem cour_wcCheck (s : State) : (wcCheck s).2.cour = s.cour := cour_storeCrc s

theorem cour_armCheck (s : State) : (armCheck s).cour = s.cour := cour_ite (cour_wcCheck s) rfl

theorem cour_commitStop (ok tmo : Bool) (s : State) : (commitStop ok tmo s).cour = s.cour :=
  cour_ite (c := ok = true) (s := s) (u := s) (v := hwSet Reg.sys_ARMSTAT 0x0400 s) rfl rfl

theorem cour_flashAsked (s : State) :
    (if s.flash.owner = .none then commitTake s else setCommit (fun c => { c with waitFlash := true }) s).cour = s.cour :=
  cour_ite rfl rfl

theorem cour_armCommit (m : Master) (s : State) : (armCommit m s).cour = s.cour := by
  unfold armCommit
  refine cour_ite rfl ?_
  extract_lets slot a _ b
  have hb : b.cour = s.cour := rfl
  have hcheck := cour_wcCheck b
  generalize wcCheck b = x at *
  obtain ⟨n, u⟩ := x
  have hu : u.cour = s.cour := hcheck.trans hb
  dsimp only
  refine cour_ite ((cour_commitStop _ _ u).trans hu) (cour_ite ((cour_commitStop _ _ _).trans hu) ?_)
  rw [cour_flashAsked, cour_storeCrc]
  simp only [spadPut_cour, setCommit_cour]
  exact hu

theorem cour_sysWrite (c : Fin 8) (a : Nat) (v : Word) (s : State) : (sysWrite (.courier c) a v s).cour = s.cour := by
  unfold sysWrite
  refine cour_ite rfl (cour_ite rfl (cour_ite rfl (cour_ite ?_ (cour_ite ?_ rfl))))
  · exact cour_ite (cour_armCheck s) (cour_ite (cour_armCommit _ s) rfl)
  · exact cour_ite rfl (cour_ite rfl (cour_ite rfl rfl))

theorem cour_plinthOp (c : Fin 8) (a : Nat) (v : Word) (s : State) : (plinthOp (.courier c) a v s).cour = s.cour := by
  unfold plinthOp
  exact cour_ite (cour_ite rfl (cour_ite rfl rfl)) (cour_ite rfl (cour_ite rfl (cour_ite rfl rfl)))

theorem cour_mcWrite (c : Fin 8) (a : Nat) (v : Word) (s : State) : (mcWrite (.courier c) a v s).cour = s.cour := by
  unfold mcWrite
  exact cour_ite rfl (cour_ite rfl (cour_ite rfl (cour_ite rfl rfl)))

theorem timerWrite_courier (c t : Fin 8) (v : Word) (s : State) : timerWrite (.courier c) t v s = s := rfl

theorem cour_thrWrite (c : Fin 8) (a : Nat) (v : Word) (s : State) : (thrWrite (.courier c) a v s).cour = s.cour := by
  unfold thrWrite
  extract_lets o
  split
  · rfl
  · refine cour_ite rfl ?_
    split
    · rw [timerWrite_courier]
    · rfl

theorem cour_endHold (g : Fin 12) (s : State) : (endHold g s).cour = s.cour := by
  exact (congrArg State.cour (released_endHold g s).frame :)

theorem cour_countEvent (n : Fin 96) (s : State) : (countEvent n s).cour = s.cour := by
  unfold countEvent
  extract_lets k u limit w
  have hmod : ∀ t : State, (moderated 63 t).cour = t.cour := fun t => by
    obtain ⟨i, hi, -⟩ := moderated_spec 63 t
    rw [hi]
  exact cour_ite rfl (hmod _)

theorem cour_pendSet (n : Fin 96) (s : State) : (pendSet n s).cour = s.cour :=
  (cour_countEvent n _).trans (cour_endHold _ s)

theorem cour_pendClr (n : Fin 96) (s : State) : (pendClr n s).cour = s.cour := cour_ite rfl rfl

theorem cour_eachSource {f : Fin 96 → State → State} (hf : ∀ n s, (f n s).cour = s.cour) (m : Master) (w : Fin 6) (v : Word)
    (s : State) : (eachSource m w v f s).cour = s.cour :=
  cour_foldl _ (fun u _ => cour_ite (hf _ u) rfl) s

theorem cour_intcWrite (c : Fin 8) (a : Nat) (v : Word) (s : State) : (intcWrite (.courier c) a v s).cour = s.cour := by
  unfold intcWrite
  extract_lets o
  split
  · rw [cour_eachSource cour_pendSet]
  · split
    · rw [cour_eachSource cour_pendClr]
    · split
      · rw [cour_eachSource (f := maskSet) fun _ _ => rfl]
      · split
        · rw [cour_eachSource (f := maskClr) fun _ _ => rfl]
        · split
          · rfl
          · rfl

theorem courStart_courier (c x : Fin 8) (s : State) : courStart (.courier c) x s = s :=
  courStart_denied ⟨rfl, Master.noConfusion⟩

theorem cour_courOp (c : Fin 8) (a : Nat) (v : Word) (s : State) : (courOp (.courier c) a v s).cour = s.cour := by
  unfold courOp
  extract_lets o
  refine cour_ite (cour_foldl _ (fun u x => ?_) s) (cour_ite rfl (cour_ite rfl ?_))
  · rw [courStart_courier]
    exact cour_ite rfl rfl
  · split
    · exact cour_ite rfl rfl
    · rfl

theorem cour_tileWrite (c : Fin 8) (a : Nat) (v : Word) (s : State) : (tileWrite (.courier c) a v s).cour = s.cour := by
  unfold tileWrite
  extract_lets o
  refine cour_ite rfl ?_
  split
  · rfl
  · exact cour_ite rfl rfl

theorem cour_evtWrite (c : Fin 8) (a : Nat) (v : Word) (s : State) : (evtWrite (.courier c) a v s).cour = s.cour := by
  unfold evtWrite kpartWrite
  simp only [privileged, Bool.and_false, Bool.false_and, Bool.false_eq_true, if_false]
  exact cour_ite rfl (cour_ite rfl rfl)

theorem cour_clearDiagBit (i : Fin 16) (b : Nat) (s : State) : (clearDiagBit i b s).cour = s.cour := by
  unfold clearDiagBit
  extract_lets a t d latched other keep u
  have hu : u.cour = s.cour := cour_ite rfl rfl
  exact cour_ite rfl (cour_ite rfl (cour_ite hu hu))

theorem cour_outWrite (c : Fin 8) (a : Nat) (v : Word) (s : State) : (outWrite (.courier c) a v s).cour = s.cour := by
  unfold outWrite
  extract_lets o
  refine cour_ite (cour_ite rfl rfl) (cour_ite rfl (cour_ite rfl (cour_ite rfl ?_)))
  split
  · exact cour_foldl _ (fun u b => cour_ite (cour_clearDiagBit _ b u) rfl) s
  · exact cour_ite rfl (cour_ite rfl rfl)

theorem cour_phFill (m : Master) (k : Fin 8) (n : Fin 4) (q : Nat) (s : State) : (phFill m k n q s).cour = s.cour :=
  cour_ite rfl rfl

theorem mreqWrite_courier (c : Fin 8) (v : Word) (s : State) : mreqWrite (.courier c) v s = s := if_pos rfl

theorem cour_phWrite (m : Master) (a : Nat) (v : Word) (s : State) : (phWrite m a v s).cour = s.cour := by
  obtain ⟨o, ho⟩ : ∃ o, a - 0x43100 = o := ⟨_, rfl⟩
  simp only [phWrite, ho]
  split
  · refine cour_ite rfl (cour_ite (cour_ite rfl rfl) (cour_ite (cour_phFill _ _ _ _ s) ?_))
    exact cour_ite (cour_ite rfl rfl) rfl
  · rfl

theorem cour_kernWrite (c : Fin 8) (a : Nat) (v : Word) (s : State) : (kernWrite (.courier c) a v s).cour = s.cour := by
  unfold kernWrite
  extract_lets o
  clear_value o
  rw [mreqWrite_courier]
  exact cour_ite rfl (cour_ite rfl (cour_ite (cour_phWrite _ a v s) rfl))

theorem cour_wailiWrite (c : Fin 8) (a : Nat) (v : Word) (s : State) : (wailiWrite (.courier c) a v s).cour = s.cour := by
  unfold wailiWrite
  exact cour_ite rfl (cour_ite rfl rfl)

theorem cour_loopWrite (c : Fin 8) (a : Nat) (v : Word) (s : State) : (loopWrite (.courier c) a v s).cour = s.cour := by
  unfold loopWrite
  exact cour_ite (cour_ite rfl rfl) (cour_ite rfl (cour_ite rfl (cour_ite rfl (cour_ite rfl rfl))))

theorem cour_requestTx (k : Fin 2) (j : Fin 32) (s : State) : (requestTx k j s).cour = s.cour :=
  cour_ite rfl (cour_ite rfl rfl)

theorem cour_cancelTx (k : Fin 2) (j : Fin 32) (s : State) : (cancelTx k j s).cour = s.cour :=
  cour_ite rfl (cour_ite rfl rfl)

theorem cour_eachObj {f : Fin 32 → State → State} (hf : ∀ j s, (f j s).cour = s.cour) (v : Pair) (s : State) :
    (eachObj v f s).cour = s.cour :=
  cour_foldl _ (fun u j => cour_ite (hf j u) rfl) s

theorem cour_canPick (k : Fin 2) (s : State) : (canPick k s).cour = s.cour := cour_ite rfl rfl

theorem cour_canWrite (c : Fin 8) (k : Fin 2) (a : Nat) (v : Word) (s : State) :
    (canWrite (.courier c) k a v s).cour = s.cour := by
  unfold canWrite
  extract_lets o hi
  refine cour_ite rfl (cour_ite rfl (cour_ite ?_ (cour_ite ?_ (cour_ite rfl ?_))))
  · exact cour_ite ((cour_canPick k _).trans (cour_eachObj (cour_requestTx k) _ s)) rfl
  · exact cour_ite (cour_eachObj (cour_cancelTx k) _ s) rfl
  · split
    · exact cour_ite rfl rfl
    · rfl

theorem cour_klineWrite (c : Fin 8) (a : Nat) (v : Word) (s : State) : (klineWrite (.courier c) a v s).cour = s.cour := by
  unfold klineWrite
  exact cour_ite rfl (cour_ite (cour_ite rfl (cour_ite rfl (cour_ite rfl rfl))) rfl)

theorem cour_fcolWrite (c : Fin 8) (a : Nat) (v : Word) (s : State) : (fcolWrite (.courier c) a v s).cour = s.cour := by
  unfold fcolWrite
  refine cour_ite rfl (cour_ite rfl (cour_ite (cour_ite rfl rfl) (cour_ite (cour_ite rfl rfl) (cour_ite (cour_ite ?_ rfl)
    (cour_ite rfl rfl)))))
  rw [dumpStart, if_pos (.inl Master.noConfusion)]

theorem cour_dbgWrite (c : Fin 8) (a : Nat) (v : Word) (s : State) : (dbgWrite (.courier c) a v s).cour = s.cour := by
  unfold dbgWrite
  exact cour_ite rfl (cour_ite rfl rfl)

theorem cour_regWrite (c : Fin 8) (a : Nat) (v : Word) (s : State) : (regWrite (.courier c) a v s).cour = s.cour := by
  unfold regWrite
  split
  · exact cour_sysWrite c a v s
  · exact cour_plinthOp c a v s
  · rfl
  · exact cour_ite rfl (cour_ite (cour_mcWrite c a v s) (cour_thrWrite c a v s))
  · exact cour_intcWrite c a v s
  · rfl
  · exact cour_courOp c a v s
  · exact cour_tileWrite c a v s
  · rfl
  · exact cour_evtWrite c a v s
  · rfl
  · exact cour_outWrite c a v s
  · exact cour_kernWrite c a v s
  · exact cour_wailiWrite c a v s
  · exact cour_loopWrite c a v s
  · exact cour_canWrite c 0 a v s
  · exact cour_canWrite c 1 a v s
  · exact cour_klineWrite c a v s
  · exact cour_fcolWrite c a v s
  · exact cour_dbgWrite c a v s
  · exact cour_ite rfl rfl
  · rfl
  · rfl

theorem cour_entryWrite (c : Fin 8) (n i : Nat) (v : Word) (s : State) : (entryWrite (.courier c) n i v s).cour = s.cour := by
  unfold entryWrite
  extract_lets e allowed inert
  have hno : allowed = false := rfl
  rw [if_pos (by simp [hno])]
  rfl

theorem cour_writeRegs (c : Fin 8) (a : Nat) (ws : List Word) (s : State) : (writeRegs (.courier c) a ws s).cour = s.cour := by
  induction ws generalizing a s with
  | nil => rfl
  | cons w ws ih =>
    refine (ih (a + 1) _).trans ?_
    rw [writeReg]
    exact cour_ite (cour_regWrite c a w s) (cour_ite (cour_entryWrite c _ _ w s) rfl)

theorem cour_of_noted {s u : State} (h : Noted s u) : u.cour = s.cour := by
  obtain ⟨_, _, _, _, rfl⟩ := h
  rfl

theorem cour_recordViol (m : Master) (a : Nat) (wr : Bool) (why : Why) (s : State) : (recordViol m a wr why s).cour = s.cour :=
  cour_of_noted (recordViol_spec m a wr why s).1

theorem cour_spadWriteBy (m a : Nat) (ws : List Word) (s : State) : (spadWriteBy m a ws s).cour = s.cour := by
  obtain ⟨⟨mem, regs, h⟩, -⟩ := spadWriteBy_written m a ws s
  rw [h]

theorem cour_memWrite (c : Fin 8) (a : Nat) (ws : List Word) (s : State) :
    (memWrite (.courier c) a ws s).2.cour = s.cour := by
  unfold memWrite
  split
  · exact cour_recordViol _ _ _ _ s
  · unfold writeUnchecked spadWrite
    split
    · extract_lets k
      cases collides s k a ws.length
      · exact cour_spadWriteBy _ _ _ s
      · rfl
    · exact cour_writeRegs c a ws s

/-! ### Reads -/

theorem cour_rxdRead (side : Bool) (s : State) : (rxdRead side s).2.cour = s.cour := by
  unfold rxdRead
  split
  · rfl
  · split
    · rfl
    · split
      · split
        · rw [signal_cour]
          rfl
        · rfl
      · rfl

theorem cour_regReadSide (c : Fin 8) (a : Nat) (s : State) : (regReadSide (.courier c) a s).2.cour = s.cour := by
  unfold regReadSide
  split
  · rfl
  · split
    · rfl
    · split
      · exact cour_rxdRead true s
      · split
        · rfl
        · extract_lets rc
          split
          · rfl
          · rfl

theorem cour_readRegs (c : Fin 8) (side : Bool) (a n : Nat) (s : State) :
    (readRegs (.courier c) side a n s).2.cour = s.cour := by
  induction n generalizing a s with
  | zero => rfl
  | succ n ih =>
    refine (ih (a + 1) _).trans ?_
    split
    · exact cour_regReadSide c a s
    · rfl

theorem cour_memRead (c : Fin 8) (side : Bool) (a n : Nat) (s : State) :
    (memRead (.courier c) side a n s).2.cour = s.cour := by
  unfold memRead
  split
  · exact cour_recordViol _ _ _ _ s
  · unfold readUnchecked
    split
    · have hread := cour_of_noted (noted_spadRead (readerOf (.courier c)) a n s)
      generalize spadRead (readerOf (.courier c)) a n s = x at *
      obtain ⟨_ | ws, u⟩ := x
      · exact hread
      · exact hread
    · exact cour_readRegs c side a n s

end Sys2Proof.Machine

/-! ## The Courier moves by its descriptors (R510-R525) -/

namespace Sys2Proof.Machine

/-! ### One access in rotation -/

theorem othersKept_chanFail (c : Fin 8) (e : Nat) (s : State) : OthersKept c s (chanFail c e s) := othersKept_setChan c _ s

theorem othersKept_setRem (c : Fin 8) (s : State) : OthersKept c s (setRem c s) := .of_cour rfl

theorem othersKept_chanPoll (c : Fin 8) (k : FlashBusy) (s : State) : OthersKept c s (chanPoll c k s) := othersKept_setChan c _ s

theorem last_setChan (c : Fin 8) (f : Chan → Chan) (s : State) : (setChan c f s).cour.last = s.cour.last := rfl

/-- No channel but `c` changes, and the rotation stays. -/
def TurnKept (c : Fin 8) (s u : State) : Prop := OthersKept c s u ∧ u.cour.last = s.cour.last

theorem TurnKept.of_cour {c : Fin 8} {s u : State} (h : u.cour = s.cour) : TurnKept c s u := ⟨.of_cour h, by rw [h]⟩

theorem TurnKept.trans {c : Fin 8} {s t u : State} (h : TurnKept c s t) (h' : TurnKept c t u) : TurnKept c s u :=
  ⟨h.1.trans h'.1, h'.2.trans h.2⟩

theorem turnKept_setChan (c : Fin 8) (f : Chan → Chan) (s : State) : TurnKept c s (setChan c f s) :=
  ⟨othersKept_setChan c f s, rfl⟩

theorem turnKept_chanRead (c : Fin 8) (k : Nat) (s : State) : TurnKept c s (chanRead c k s).2 := by
  unfold chanRead
  extract_lets h
  have hread := cour_memRead c true (srcAddr h k) (unitWords h) s
  generalize memRead (.courier c) true (srcAddr h k) (unitWords h) s = x at *
  obtain ⟨r, u⟩ := x
  have hu : TurnKept c s u := .of_cour hread
  cases r with
  | ok ws => exact hu
  | parity => exact hu.trans (turnKept_setChan c _ u)
  | refused why => exact hu.trans (turnKept_setChan c _ u)

theorem turnKept_chanPut (c : Fin 8) (v : Pair) (s : State) : TurnKept c s (chanPut c v s) := by
  unfold chanPut
  extract_lets h
  have hwrite := cour_memWrite c (dstAddr h) (unitData h v) s
  generalize memWrite (.courier c) (dstAddr h) (unitData h v) s = x at *
  obtain ⟨r, u⟩ := x
  have hu : TurnKept c s u := .of_cour hwrite
  cases r with
  | ok => exact hu.trans ((turnKept_setChan c _ u).trans (.of_cour (setReg_cour ..)))
  | collision =>
    dsimp only
    split
    · exact hu.trans ((turnKept_setChan c _ u).trans (turnKept_setChan c _ _))
    · exact hu.trans (turnKept_setChan c _ u)
  | refused why => exact hu.trans (turnKept_setChan c _ u)

theorem turnKept_chanPage (c : Fin 8) (s : State) : TurnKept c s (chanPage c s) := by
  unfold chanPage
  extract_lets h
  have hread := turnKept_chanRead c (h.moved + h.page.length) s
  generalize chanRead c (h.moved + h.page.length) s = x at *
  obtain ⟨_ | ws, u⟩ := x
  · exact hread
  · dsimp only
    have hpage := hread.trans (turnKept_setChan c (fun h => { h with page := h.page ++ ws }) u)
    split
    · exact hpage.trans (turnKept_setChan c _ _)
    · exact hpage

theorem turnKept_chanAccess (c : Fin 8) (s : State) : TurnKept c s (chanAccess c s) := by
  unfold chanAccess
  extract_lets h
  split
  · exact turnKept_chanPut c _ s
  · split
    · have hread := turnKept_chanRead c h.moved s
      generalize chanRead c h.moved s = x at *
      obtain ⟨_ | ws, u⟩ := x
      · exact hread
      · exact hread.trans (turnKept_setChan c _ u)
    · exact turnKept_chanPut c _ s
    · exact turnKept_chanPut c _ s
    · exact turnKept_chanPage c s
    · exact .of_cour rfl

/-- A COPY with no unit in hand reads one. -/
theorem chanAccess_copy {c : Fin 8} {s : State} {h : Chan} (hc : chan s c = h) (hk : chanKind h = 0) (hheld : h.held = none)
    (hsrc : srcAddr h h.moved < 0x18000) (hpar : s.mem.parBad = [])
    (href : refusal s (.courier c) (srcAddr h h.moved) (unitWords h) false = none) :
    chanAccess c s = setChan c (fun h' => { h' with held := some (mkPair (spadSeen s 2 (srcAddr h h.moved))
      (if unitWords h = 2 then spadSeen s 2 (srcAddr h h.moved + 1) else 0)) }) s := by
  unfold chanAccess
  simp only [hc, hheld, hk, chanRead, memRead_courier hsrc hpar href]
  refine congrArg (fun p => setChan c (fun h' => { h' with held := some p }) s) ?_
  rw [unitWords]
  split
  · rfl
  · rfl

/-- A channel with a value in hand, or one that needs none read, writes it. -/
theorem chanAccess_put {c : Fin 8} {s : State} {h : Chan} (hc : chan s c = h) {v : Pair}
    (hv : (match chanKind h, h.held with
      | _, some v => some v
      | 1, none => some (BitVec.ofNat 32 h.src)
      | 2, none => some (mkPair (flashWord s (h.src + 2 * h.moved)) 0)
      | _, _ => none) = some v) : chanAccess c s = chanPut c v s := by
  unfold chanAccess
  simp only [hc]
  rcases hheld : h.held with _ | w
  · rw [hheld] at hv
    revert hv
    rcases hk : chanKind h with _ | _ | _ | k
    · intro hv
      cases hv
    · intro hv
      cases hv
      rfl
    · intro hv
      cases hv
      rfl
    · intro hv
      cases hv
  · rw [hheld] at hv
    have hw : w = v := by
      revert hv
      rcases chanKind h with _ | _ | _ | k <;> exact Option.some.inj
    rw [hw]

theorem unitData_length (h : Chan) (v : Pair) : (unitData h v).length = unitWords h := by
  rw [unitData, unitWords]
  split
  · rfl
  · rfl

/-- A write to the scratchpad that is granted moves the unit. -/
theorem chanPut_spec {c : Fin 8} {s : State} {h : Chan} (hc : chan s c = h) (v : Pair) (hdst : dstAddr h < 0x18000)
    (href : refusal s (.courier c) (dstAddr h) (unitWords h) true = none) (hcol : collides s 2 (dstAddr h) (unitWords h) = false) :
    chan (chanPut c v s) c =
      { h with moved := h.moved + 1, held := none, retried := false, done := decide (h.moved + 1 = h.count) } ∧
      reg (chanPut c v s) (Reg.cour_REM c) = wd (h.count - (h.moved + 1)) ∧
      ∀ b, spadGet (chanPut c v s) b =
        if dstAddr h ≤ b ∧ b < dstAddr h + unitWords h then (unitData h v).getD (b - dstAddr h) 0 else spadGet s b := by
  rw [← unitData_length h v] at href hcol
  unfold chanPut
  simp only [hc, memWrite_courier hdst href hcol]
  have hget := fun b => spadGet_spadWriteBy 2 (dstAddr h) b (unitData h v) s
  have hcour := cour_spadWriteBy 2 (dstAddr h) (unitData h v) s
  generalize spadWriteBy 2 (dstAddr h) (unitData h v) s = t at *
  have ht : chan t c = h := (chan_congr hcour c).trans hc
  have hset := chan_setChan_same c
    (fun h : Chan => { h with moved := h.moved + 1, held := none, retried := false, done := decide (h.moved + 1 = h.count) }) t
  rw [ht] at hset
  refine ⟨(chan_congr (setReg_cour ..) c).trans hset, ?_, fun b => ?_⟩
  · rw [setRem, reg_setReg_same, hset]
  · rw [← unitData_length h v]
    exact hget b

/-! ### Flash commands -/

theorem chanPoll_spec (c : Fin 8) (k : FlashBusy) (s : State) :
    chan (chanPoll c k s) c = { chan s c with poll := some k, due := pollDue s k, pre := s.flash.cut.isSome } ∧
      (chanPoll c k s).flash = s.flash ∧ (chanPoll c k s).mem = s.mem :=
  ⟨chan_setChan_same c _ s, rfl, rfl⟩

theorem courGrant_of_not {c : Fin 8} {s : State}
    (h : ¬ ((chan s c).st = .waitfl ∧ flashFree s (.courier c) = true ∧ courFrozen s = false)) : courGrant c s = s := by
  refine if_pos ?_
  simp only [Bool.or_eq_true, Bool.not_eq_true', bne_iff_ne]
  by_contra hcon
  simp only [not_or, Bool.not_eq_false, Bool.not_eq_true, ne_eq, not_not] at hcon
  obtain ⟨⟨hst, hfree⟩, hfrozen⟩ := hcon
  exact h ⟨hst, hfree, hfrozen⟩

/-- A channel that takes the flash master. -/
def courGranted (c : Fin 8) (s : State) : State := flashTake (.courier c) (setChan c (fun h => { h with st := .run }) s)

theorem courGrant_of_due {c : Fin 8} {s : State}
    (h : (chan s c).st = .waitfl ∧ flashFree s (.courier c) = true ∧ courFrozen s = false) :
    courGrant c s = if chanKind (chan (courGranted c s) c) = 4 then chanPoll c .erase (courGranted c s) else courGranted c s := by
  obtain ⟨hst, hfree, hfrozen⟩ := h
  exact if_neg (by simp [hst, hfree, hfrozen])

theorem chan_courGranted (c : Fin 8) (s : State) : chan (courGranted c s) c = { chan s c with st := .run } :=
  chan_setChan_same c (fun h => { h with st := .run }) s

theorem courGrant_spec {c : Fin 8} {s : State}
    (h : (chan s c).st = .waitfl ∧ flashFree s (.courier c) = true ∧ courFrozen s = false) :
    (chan (courGrant c s) c).st = .run ∧ (courGrant c s).flash.owner = .courier c ∧ OthersKept c s (courGrant c s) ∧
      (courGrant c s).mem = s.mem ∧ (chanKind (chan s c) = 4 → (chan (courGrant c s) c).poll = some .erase) := by
  have hchan := chan_courGranted c s
  have hkind : chanKind (chan (courGranted c s) c) = chanKind (chan s c) := by
    rw [hchan]
    rfl
  have hothers : OthersKept c s (courGranted c s) := fun x hx => chan_setChan_other (fun h => { h with st := .run }) s hx
  rw [courGrant_of_due h, hkind]
  obtain ⟨hpoll, hflash, hmem⟩ := chanPoll_spec c .erase (courGranted c s)
  split_ifs with h4
  · refine ⟨?_, ?_, hothers.trans (othersKept_chanPoll c .erase _), hmem, fun _ => ?_⟩
    · rw [hpoll, hchan]
    · rw [hflash]
      rfl
    · rw [hpoll]
  · refine ⟨?_, rfl, hothers, rfl, fun h => absurd h h4⟩
    rw [hchan]

/-- A busy poll that is not due, or that nothing answers. -/
theorem courPollDone_idle {c : Fin 8} {s : State}
    (h : (chan s c).poll = none ∨ (chan s c).due < s.now ∨ s.flash.answers = false) : courPollDone c s = s := by
  unfold courPollDone
  extract_lets k
  rcases hp : k.poll with _ | p
  · rfl
  · dsimp only
    refine if_pos ?_
    rcases h with h | h | h
    · exact absurd (hp.symm.trans h) (by simp)
    · exact .inl h
    · exact .inr (by simp [h])

/-- The poll that ends a cut command. -/
theorem courPollDone_cut {c : Fin 8} {s : State} {k : FlashBusy} (hp : (chan s c).poll = some k) (hdue : s.now ≤ (chan s c).due)
    (hans : s.flash.answers = true) (hpre : (chan s c).pre = true) :
    courPollDone c s = chanPoll c k { s with flash := { s.flash with cut := none } } := by
  unfold courPollDone
  simp only [hp, hpre, hans]
  rw [if_neg (by simp [Nat.not_lt.2 hdue]), if_pos trivial]

/-- The units of an erase done. -/
def unitsErased (s : State) (h : Chan) : Nat :=
  min h.count ((eraseBase s (chanFlashAt h) + eraseSize s - h.dst) / 2)

/-- The channel after the erase of one unit. -/
def courErased (c : Fin 8) (s : State) : State :=
  setRem c (setChan c (fun h => { h with
      moved := unitsErased s (chan s c), poll := none, done := decide (unitsErased s (chan s c) = (chan s c).count) })
    (flashErase (eraseBase s (chanFlashAt (chan s c))) (eraseSize s) s))

theorem courPollDone_erase {c : Fin 8} {s : State} (hp : (chan s c).poll = some .erase) (hdue : s.now ≤ (chan s c).due)
    (hans : s.flash.answers = true) (hpre : (chan s c).pre = false) :
    courPollDone c s = if unitsErased s (chan s c) < (chan s c).count then chanPoll c .erase (courErased c s)
      else courErased c s := by
  unfold courPollDone
  simp only [hp, hpre, hans]
  rw [if_neg (by simp [Nat.not_lt.2 hdue]), if_neg (by decide)]
  rfl

/-- The bytes of a page's words, low byte first (R154). -/
def pageBytes (ws : List Word) : List Byte := ws.flatMap (fun (w : Word) => [w.setWidth 8, (w >>> 8).setWidth 8])

/-- The channel after the program of a page. -/
def courPaged (c : Fin 8) (s : State) : State :=
  setRem c (setChan c (fun h => { h with
      moved := (chan s c).moved + (chan s c).page.length, page := [], poll := none
      done := decide ((chan s c).moved + (chan s c).page.length = (chan s c).count) })
    (flashProgram (chanFlashAt (chan s c)) (pageBytes (chan s c).page) s))

theorem courPollDone_page {c : Fin 8} {s : State} (hp : (chan s c).poll = some .page) (hdue : s.now ≤ (chan s c).due)
    (hans : s.flash.answers = true) (hpre : (chan s c).pre = false) : courPollDone c s = courPaged c s := by
  unfold courPollDone
  simp only [hp, hpre, hans]
  rw [if_neg (by simp [Nat.not_lt.2 hdue]), if_neg (by decide)]
  rfl

theorem chan_courErased (c : Fin 8) (s : State) : chan (courErased c s) c = { chan s c with
    moved := unitsErased s (chan s c), poll := none, done := decide (unitsErased s (chan s c) = (chan s c).count) } := by
  refine (chan_congr (setReg_cour ..) c).trans ?_
  exact chan_setChan_same c _ (flashErase _ _ s)

theorem othersKept_courErased (c : Fin 8) (s : State) : OthersKept c s (courErased c s) := fun x hx =>
  (chan_congr (setReg_cour ..) x).trans (chan_setChan_other _ (flashErase _ _ s) hx)

theorem chan_courPaged (c : Fin 8) (s : State) : chan (courPaged c s) c = { chan s c with
    moved := (chan s c).moved + (chan s c).page.length, page := [], poll := none
    done := decide ((chan s c).moved + (chan s c).page.length = (chan s c).count) } := by
  refine (chan_congr (setReg_cour ..) c).trans ?_
  exact chan_setChan_same c _ (flashProgram _ _ s)

theorem othersKept_courPaged (c : Fin 8) (s : State) : OthersKept c s (courPaged c s) := fun x hx =>
  (chan_congr (setReg_cour ..) x).trans (chan_setChan_other _ (flashProgram _ _ s) hx)

/-! ### Programming -/

theorem cget_program (s : State) (a : Nat) (bs : List Byte) (n : Nat) (b : Nat) :
    cget flashDefault ((List.range n).foldl (fun m i => programByte s (a + i) (bs.getD i 0xFF) m) s.flash.cells) b =
      if a ≤ b ∧ b < a + n then cget flashDefault s.flash.cells b &&& bs.getD (b - a) 0xFF else cget flashDefault s.flash.cells b := by
  induction n with
  | zero => rw [if_neg (by omega)]; rfl
  | succ n ih =>
    rw [List.range_succ, List.foldl_append, List.foldl_cons, List.foldl_nil]
    conv_lhs => rw [programByte]
    rw [cget_cset, ih]
    by_cases hb : b = a + n
    · rw [if_pos hb, if_pos (by omega), hb, Nat.add_sub_cancel_left]
    · rw [if_neg hb]
      by_cases hin : a ≤ b ∧ b < a + n
      · rw [if_pos hin, if_pos (by omega)]
      · rw [if_neg hin, if_neg (by omega)]

theorem flashByte_flashProgram (a : Nat) (bs : List Byte) (s : State) (hans : s.flash.answers = true) (b : Nat) :
    flashByte (flashProgram a bs s) b =
      if a ≤ b ∧ b < a + bs.length then flashByte s b &&& bs.getD (b - a) 0xFF else flashByte s b := by
  have hans' : (flashProgram a bs s).flash.answers = true := hans
  rw [flashByte, flashByte, if_pos hans', if_pos hans]
  exact cget_program s a bs bs.length b

theorem pageBytes_getElem? (ws : List Word) (i : Nat) :
    (pageBytes ws)[2 * i]? = ws[i]?.map (fun w : Word => w.setWidth 8) ∧ (pageBytes ws)[2 * i + 1]? = ws[i]?.map (fun w : Word => (w >>> 8).setWidth 8) := by
  induction ws generalizing i with
  | nil => simp [pageBytes]
  | cons w ws ih =>
    have hcons : pageBytes (w :: ws) = w.setWidth 8 :: (w >>> 8).setWidth 8 :: pageBytes ws := rfl
    rcases i with _ | i
    · rw [hcons]
      exact ⟨rfl, rfl⟩
    · obtain ⟨hlow, hhigh⟩ := ih i
      rw [hcons]
      exact ⟨hlow, hhigh⟩

theorem pageBytes_length (ws : List Word) : (pageBytes ws).length = 2 * ws.length := by
  induction ws with
  | nil => rfl
  | cons w ws ih =>
    have hcons : pageBytes (w :: ws) = w.setWidth 8 :: (w >>> 8).setWidth 8 :: pageBytes ws := rfl
    rw [hcons, List.length_cons, List.length_cons, ih, List.length_cons]
    omega

/-- The bytes of a word of the page as programmed. -/
theorem flashByte_courPaged {c : Fin 8} {s : State} (hans : s.flash.answers = true) {i : Nat} {w : Word}
    (hw : (chan s c).page[i]? = some w) :
    let b := (chan s c).dst + 2 * ((chan s c).moved + i)
    flashByte (courPaged c s) b = flashByte s b &&& w.setWidth 8 ∧
      flashByte (courPaged c s) (b + 1) = flashByte s (b + 1) &&& (w >>> 8).setWidth 8 := by
  extract_lets b
  have hflash : ∀ x, flashByte (courPaged c s) x = flashByte (flashProgram (chanFlashAt (chan s c)) (pageBytes (chan s c).page) s) x :=
    fun x => flashByte_congr rfl rfl x
  obtain ⟨hlow, hhigh⟩ := pageBytes_getElem? (chan s c).page i
  obtain ⟨hlt, -⟩ := List.getElem?_eq_some_iff.1 hw
  have hlen := pageBytes_length (chan s c).page
  have hat : chanFlashAt (chan s c) = (chan s c).dst + 2 * (chan s c).moved := rfl
  rw [hw] at hlow hhigh
  refine ⟨?_, ?_⟩
  · rw [hflash, flashByte_flashProgram _ _ _ hans, if_pos (by omega), show b - chanFlashAt (chan s c) = 2 * i by omega, List.getD_eq_getElem?_getD, hlow]
    rfl
  · rw [hflash, flashByte_flashProgram _ _ _ hans, if_pos (by omega), show b + 1 - chanFlashAt (chan s c) = 2 * i + 1 by omega,
      List.getD_eq_getElem?_getD, hhigh]
    rfl

theorem courErased_spec (c : Fin 8) {s : State} (hans : s.flash.answers = true) :
    (courErased c s).mem = s.mem ∧ ∀ i, i < eraseSize s → flashByte (courErased c s) (eraseBase s (chanFlashAt (chan s c)) + i) = 0xFF := by
  have hflash : ∀ x, flashByte (courErased c s) x = flashByte (flashErase (eraseBase s (chanFlashAt (chan s c))) (eraseSize s) s) x :=
    fun x => flashByte_congr rfl rfl x
  refine ⟨rfl, fun i hi => ?_⟩
  rw [hflash, flashByte_flashErase _ _ _ _ hans, if_pos (by omega)]

theorem flashUndefined_spec (a n : Nat) (s : State) :
    (flashUndefined a n s).cour = s.cour ∧ (flashUndefined a n s).mem = s.mem := by
  induction n generalizing a s with
  | zero => exact ⟨rfl, rfl⟩
  | succ n ih =>
    rw [flashUndefined]
    obtain ⟨hcour, hmem⟩ := ih (a + 1) { s with
      flash := { s.flash with cells := cset flashDefault s.flash.cells a (Config.freeByte s.free) }, free := s.free + 1 }
    exact ⟨hcour, hmem⟩

theorem flashHalf_spec (k : FlashBusy) (a : Nat) (s : State) : (flashHalf k a s).cour = s.cour ∧ (flashHalf k a s).mem = s.mem := by
  cases k with
  | page => exact flashUndefined_spec _ _ s
  | erase => exact flashUndefined_spec _ _ s

theorem courTimeout_spec {c : Fin 8} {s : State} (hp : (chan s c).poll.isSome = true) :
    chan (courTimeout c s) c = { chan s c with poll := none, err := 0x0A, done := true } ∧ OthersKept c s (courTimeout c s) ∧
      (courTimeout c s).mem = s.mem := by
  obtain ⟨k, hk⟩ := Option.isSome_iff_exists.1 hp
  have heq : courTimeout c s = setChan c (fun h => { h with poll := none, err := 0x0A, done := true })
      (if (chan s c).pre then s else flashHalf k (chanFlashAt (chan s c)) s) := by
    unfold courTimeout
    simp only [hk]
  have hhalf : (if (chan s c).pre then s else flashHalf k (chanFlashAt (chan s c)) s).cour = s.cour ∧
      (if (chan s c).pre then s else flashHalf k (chanFlashAt (chan s c)) s).mem = s.mem := by
    split
    · exact ⟨rfl, rfl⟩
    · exact flashHalf_spec k _ s
  rw [heq]
  generalize (if (chan s c).pre then s else flashHalf k (chanFlashAt (chan s c)) s) = t at *
  obtain ⟨hcour, hmem⟩ := hhalf
  refine ⟨?_, fun x hx => ?_, hmem⟩
  · rw [chan_setChan_same, chan_congr hcour]
  · rw [chan_setChan_other _ _ hx, chan_congr hcour]

/-! ### The end of a descriptor -/

/-- The end of a descriptor up to the event of its owner's thread: STAT, the error or the source. -/
def endNoted (c : Fin 8) (h : Chan) (s : State) : State :=
  let s := writeStat c (if h.err = 0 then 0x2000 else 0x3000 + h.err) s
  if h.err ≠ 0 then chanError c h.err s else if h.ctl.getLsbD 7 then signalNat (64 + c.val) s else s

/-- The thread that CTL names takes its event. -/
def endEvent (h : Chan) (s : State) : State := if h.ctl.getLsbD 11 then setEvent (thrIdx (fld h.ctl 8 3)) 13 s else s

theorem courEnd_eq {c : Fin 8} {s : State} {h : Chan} (hc : chan s c = h) (hdone : h.done = true) :
    courEnd c s =
      if h.err = 0 ∧ h.ctl.getLsbD 6 ∧ h.next ≠ 0xFFFF then
        setReg (Reg.cour_CUR c) h.next (setChan c (fun _ => { st := .run, fetch := true }) (chanIdle c (endEvent h (endNoted c h s))))
      else chanIdle c (endEvent h (endNoted c h s)) := by
  unfold courEnd
  simp only [hc]
  exact if_neg (by simp [hdone])

theorem noted_endNoted (c : Fin 8) (h : Chan) (s : State) :
    Noted (writeStat c (if h.err = 0 then 0x2000 else 0x3000 + h.err) s) (endNoted c h s) := by
  unfold endNoted
  extract_lets t
  change Noted t _
  split
  · exact noted_chanError c _ t
  · split
    · rw [signalNat, dif_pos (by omega)]
      exact noted_signal _ t
    · exact .refl t

/-- What the end of a descriptor tells of it before its thread's event. -/
theorem endNoted_spec (c : Fin 8) (h : Chan) (s : State) :
    (h.err ≠ 0 → regBit (endNoted c h s) Reg.cour_STAT c = true ∧ regF (endNoted c h s) (Reg.cour_CSTAT c) 0 8 = h.err % 256) ∧
      (h.err ≠ 0 ∨ h.ctl.getLsbD 7 = true → ∀ n : Fin 96, n.val = 64 + c.val → hasEvent (endNoted c h s) n) := by
  unfold endNoted
  extract_lets t
  obtain ⟨hstat, hcode, hevent⟩ := chanError_spec c h.err t
  by_cases he : h.err ≠ 0
  · rw [if_pos he]
    exact ⟨fun _ => ⟨hstat, hcode⟩, fun _ => hevent⟩
  · rw [if_neg he]
    refine ⟨fun h => absurd h he, fun h7 n hn => ?_⟩
    rw [if_pos (h7.resolve_left he), ← hn, signalNat, dif_pos n.isLt]
    exact hasEvent_signal_same n t

theorem endEvent_eq (h : Chan) (s : State) : ∃ t, endEvent h s = { s with thr := t } := by
  rw [endEvent]
  split
  · rw [setEvent]
    split
    · exact ⟨_, rfl⟩
    · exact ⟨_, rfl⟩
  · exact ⟨_, rfl⟩

theorem latch_endEvent {h : Chan} {s : State} (hbit : h.ctl.getLsbD 11 = true) {t : Fin 8} (ht : t.val = fld h.ctl 8 3)
    (hst : isStopped s t = false) : (thread (endEvent h s) t).latch.getLsbD 13 = true := by
  have hidx : thrIdx (fld h.ctl 8 3) = t := Fin.ext (by rw [← ht]; exact Nat.mod_eq_of_lt t.isLt)
  rw [isStopped, beq_eq_false_iff_ne] at hst
  rw [endEvent, if_pos hbit, hidx, thread_setEvent_same, if_neg hst]
  exact getLsbD_putBit_same (m := 16) _ 13 true

/-- What the end of a descriptor leaves before its channel goes on. -/
structure EndTold (c : Fin 8) (h : Chan) (s u : State) : Prop where
  others : OthersKept c s u
  words : ∀ b, b ≠ statAddr s c → spadGet u b = spadGet s b
  stat : refusal s (.courier c) (statAddr s c) 1 true = none → wLogNow s = [] →
    spadGet u (statAddr s c) = wd ((if h.err = 0 then 0x2000 else 0x3000 + h.err) + h.collided.toNat * 0x800)
  latch : h.ctl.getLsbD 11 = true → ∀ t : Fin 8, t.val = fld h.ctl 8 3 → isStopped s t = false →
    (thread u t).latch.getLsbD 13 = true
  error : h.err ≠ 0 → regBit u Reg.cour_STAT c = true ∧ regF u (Reg.cour_CSTAT c) 0 8 = h.err % 256
  event : h.err ≠ 0 ∨ h.ctl.getLsbD 7 = true → ∀ n : Fin 96, n.val = 64 + c.val → hasEvent u n

theorem endTold {c : Fin 8} {h : Chan} {s : State} (hc : chan s c = h) : EndTold c h s (endEvent h (endNoted c h s)) := by
  have hstat := writeStat_spec c (if h.err = 0 then 0x2000 else 0x3000 + h.err) s
  have hword := spadGet_writeStat (c := c) (s := s) (if h.err = 0 then 0x2000 else 0x3000 + h.err)
  obtain ⟨herror, hevent⟩ := endNoted_spec c h s
  have hnoted := noted_endNoted c h s
  rw [statWord, hc] at hword
  generalize writeStat c (if h.err = 0 then 0x2000 else 0x3000 + h.err) s = w at *
  generalize endNoted c h s = t at *
  obtain ⟨mem, _, _, _, _, hw⟩ := hstat.noted
  obtain ⟨_, _, _, _, ht⟩ := hnoted
  have hcour : t.cour = s.cour := by rw [ht, hw]
  have hmem : t.mem = w.mem := by rw [ht]
  have hthr : t.thr = s.thr := by rw [ht, hw]
  have hlatch := fun hbit t' => latch_endEvent (s := t) (h := h) hbit (t := t')
  obtain ⟨thr, he⟩ := endEvent_eq h t
  rw [he] at hlatch ⊢
  refine ⟨.of_cour hcour, fun b hb => ?_, fun href hlog => ?_, fun hbit t' ht' hst => ?_, herror, hevent⟩
  · exact (spadGet_congr hmem b).trans (hstat.words b hb)
  · exact (spadGet_congr hmem _).trans (hword href hlog)
  · exact hlatch hbit t' ht' (by rw [isStopped, thread, hthr]; exact hst)

theorem EndTold.idle {c : Fin 8} {h : Chan} {s u : State} (hu : EndTold c h s u) : EndTold c h s (chanIdle c u) := by
  obtain ⟨-, hother, -, hregs, hmem, hthr, hintc⟩ := chanIdle_spec c u
  have hstat : reg (chanIdle c u) Reg.cour_STAT = reg u Reg.cour_STAT := hregs _ (by
    simp only [List.mem_singleton, Reg.cour_STAT, Reg.cour_CUR]
    omega)
  have hcstat : reg (chanIdle c u) (Reg.cour_CSTAT c) = reg u (Reg.cour_CSTAT c) := hregs _ (by
    simp only [List.mem_singleton, Reg.cour_CSTAT, Reg.cour_CUR]
    omega)
  refine ⟨hu.others.trans hother, fun b hb => ?_, fun href hlog => ?_, fun hbit t ht hst => ?_, fun he => ?_, fun he n hn => ?_⟩
  · exact (spadGet_congr hmem b).trans (hu.words b hb)
  · exact (spadGet_congr hmem _).trans (hu.stat href hlog)
  · rw [thread, hthr]
    exact hu.latch hbit t ht hst
  · rw [regBit, hstat, regF, hcstat]
    exact hu.error he
  · rw [hasEvent, hintc]
    exact hu.event he n hn

theorem EndTold.chain {c : Fin 8} {h : Chan} {s u : State} (hu : EndTold c h s u) (f : Chan → Chan) (v : Word) :
    EndTold c h s (setReg (Reg.cour_CUR c) v (setChan c f u)) := by
  have hkept : ∀ b, b ≠ Reg.cour_CUR c → reg (setReg (Reg.cour_CUR c) v (setChan c f u)) b = reg u b := fun b hb =>
    reg_setReg_other v _ hb
  have hother : OthersKept c u (setReg (Reg.cour_CUR c) v (setChan c f u)) := fun x hx =>
    (chan_congr (setReg_cour ..) x).trans (chan_setChan_other f u hx)
  have hstat := hkept Reg.cour_STAT (by simp only [Reg.cour_STAT, Reg.cour_CUR]; omega)
  have hcstat := hkept (Reg.cour_CSTAT c) (by simp only [Reg.cour_CSTAT, Reg.cour_CUR]; omega)
  refine ⟨hu.others.trans hother, hu.words, hu.stat, hu.latch, fun he => ?_, hu.event⟩
  rw [regBit, hstat, regF, hcstat]
  exact hu.error he

end Sys2Proof.Machine

/-! ## The Courier's obligation (spec/11) -/

namespace Sys2Proof.Machine

/-- Proves O41, command by command. -/
theorem courierMovesByItsDescriptors : Obligations.CourierMovesByItsDescriptors := by
  unfold Obligations.CourierMovesByItsDescriptors
  intro s m c dt delivered hup others
  refine ⟨Acts.of rfl hup ?_, Acts.of rfl hup ?_, ActsAfter.of rfl hup ?_, Acts.of rfl hup ?_, ActsAfter.of rfl hup ?_,
    ActsAt.of rfl hup ?_, Acts.of rfl hup ?_⟩
  · generalize ready _ s = r
    split_ifs with hdeny hfence hbusy
    · exact courStart_denied hdeny
    · rw [courStart_permitted hdeny, if_pos hfence]
      exact ⟨regBit_hwSet_bit_same _ _ _ (by omega), fun a ha => reg_hwSet_other _ _ (List.ne_of_not_mem_cons ha), rfl⟩
    · rw [courStart_permitted hdeny, if_neg hfence, if_pos (bne_iff_ne.2 hbusy)]
    · rw [courStart_permitted hdeny, if_neg hfence, if_neg (mt bne_iff_ne.1 hbusy)]
      refine ⟨(chan_congr (setReg_cour ..) c).trans (chan_setChan_same c _ r), reg_setReg_same _ _ _, fun x hx => ?_,
        fun a ha => reg_setReg_other _ _ (List.ne_of_not_mem_cons ha), rfl⟩
      exact (chan_congr (setReg_cour ..) x).trans (chan_setChan_other _ r hx)
  · generalize ready _ s = r
    intro h a w due
    refine ⟨courFetch_idle, fun hdue => ⟨othersKept_courFetch c r, fun ha => ?_, fun ha hpar href => ⟨fun hv => ?_, fun hv => ?_⟩⟩⟩
    · rw [courFetch_beyond hdue ha]
      obtain ⟨hchan, -, -, hregs, -⟩ := chanIdle_spec c (chanError c 8 r)
      obtain ⟨-, hcode, -⟩ := chanError_spec c 8 r
      refine ⟨hchan, ?_⟩
      rw [regF, hregs _ (by simp only [List.mem_singleton, Reg.cour_CSTAT, Reg.cour_CUR]; omega), ← regF, hcode]
    · rw [courFetch_found hdue rfl ha hpar href, if_pos (by rw [Bool.not_eq_true']; exact hv)]
      obtain ⟨hchan, -, hcur, hregs, hmem, -⟩ := chanIdle_spec c r
      exact ⟨hchan, hcur, hregs _ (by simp only [List.mem_singleton, Reg.cour_CSTAT, Reg.cour_CUR]; omega), hmem⟩
    · obtain ⟨hchan, hrem, hfail, hstat⟩ := courFetch_valid hdue rfl ha hpar href hv
      intro k kind pair flash bad7 bad4
      have hk : k = fetchedChan r (descriptorAt r a) := hchan
      have hform : bad7 ↔ BadForm (descriptorAt r a) := Iff.rfl
      have halign : bad4 ↔ BadAlign (descriptorAt r a) := by
        simp only [bad4, ← mkPair_odd (w 2) (w 3), ← mkPair_odd (w 4) (w 5)]
        exact Iff.rfl
      rw [hform, halign, hk]
      have hdone : ∀ e : Nat, descCheck r (descriptorAt r a) = e → e ≠ 0 →
          (fetchedChan r (descriptorAt r a)).err = e ∧ (fetchedChan r (descriptorAt r a)).done = true ∧
            (courFetch c r).mem = r.mem := fun e he hne =>
        ⟨he, by simp [fetchedChan, he, hne], hfail (by rw [he]; exact hne)⟩
      refine ⟨rfl, rfl, rfl, rfl, rfl, rfl, rfl, hrem, fun h7 => hdone 7 (descCheck_form h7) (by decide),
        fun h7 h4 => hdone 4 (descCheck_align h7 h4) (by decide),
        ?_⟩
      intro size lo hi first last bad9
      have hwindow : bad9 ↔ BadWindow r (descriptorAt r a) := Iff.rfl
      rw [hwindow]
      refine ⟨fun h7 h4 h9 => hdone 9 ((descCheck_window h7 h4).1 h9) (by decide), fun h7 h4 h9 => ?_⟩
      have hok := (descCheck_window h7 h4).2 h9
      have hcount : (descriptorAt r a).count = 0 ↔ w 6 = 0 := by
        rw [← BitVec.toNat_inj]
        exact Iff.rfl
      refine ⟨hok, ?_, ?_, fun hgrant => ?_⟩
      · simp only [fetchedChan, hok, ne_eq, not_true_eq_false, false_or, decide_eq_true_eq, hcount]
      · have hflash : chanFlash (descriptorAt r a) = true ↔ flash := by
          simp only [chanFlash, Bool.and_eq_true, decide_eq_true_eq]
          exact Iff.rfl
        have hsome : w 6 ≠ 0 ↔ (descriptorAt r a).count ≠ 0 := not_congr hcount.symm
        rw [fetchedChan, hok, ← hflash, hsome]
        split_ifs with hw
        · exact ⟨fun _ => ⟨hw.2.2, hw.2.1⟩, fun _ => rfl⟩
        · exact ⟨nofun, fun h => absurd ⟨rfl, h.2, h.1⟩ hw⟩
      · obtain ⟨hactive, hwords⟩ := hstat hok hgrant
        exact ⟨hactive, fun b hb => hwords b.val hb⟩
  · generalize ready _ s = r
    refine ⟨fun hnone => ?_, fun x hx => ?_⟩
    · simp only [courMove, hnone]
    · have hmove : courMove delivered r = chanAccess x { r with cour := { r.cour with last := x.val } } := by
        simp only [courMove, hx]
      rw [hmove]
      obtain ⟨hothers, hlast⟩ := turnKept_chanAccess x { r with cour := { r.cour with last := x.val } }
      refine ⟨hlast, hothers, ?_⟩
      intro h k n src dst
      have hn : n = unitWords h := rfl
      refine ⟨fun hkind hheld hsrc hpar href => ?_, fun v hv hdst href hcol => ?_⟩
      · have hpos : 0 < n := by rw [hn, unitWords]; split_ifs <;> decide
        have haccess := chanAccess_copy (c := x) (s := { r with cour := { r.cour with last := x.val } }) (h := h) rfl hkind hheld
          (show src < 0x18000 by omega) hpar href
        have hk : k = _ := (congrArg (fun u => chan u x) haccess :).trans (chan_setChan_same x _ _)
        exact ⟨(congrArg State.mem haccess :), hk⟩
      · have hpos : 0 < n := by rw [hn, unitWords]; split_ifs <;> decide
        have hput := chanAccess_put (c := x) (s := { r with cour := { r.cour with last := x.val } }) (h := h) rfl hv
        obtain ⟨hchan, hrem, hget⟩ := chanPut_spec (c := x) (s := { r with cour := { r.cour with last := x.val } }) (h := h) rfl v
          (show dst < 0x18000 by omega) href hcol
        rw [← hput] at hchan hrem hget
        have hk : k = { h with
          moved := h.moved + 1, held := none, retried := false, done := decide (h.moved + 1 = h.count) } := hchan
        have hword : ∀ b, spadGet (chanAccess x { r with cour := { r.cour with last := x.val } }) b =
          if dst ≤ b ∧ b < dst + n then (unitData h v).getD (b - dst) 0 else spadGet r b := hget
        rw [hk]
        refine ⟨rfl, rfl, decide_eq_true_iff, hrem, ?_, fun h2 => ?_, fun b hb => ?_⟩
        · rw [hword, if_pos (by omega), Nat.sub_self, unitData]
          split_ifs <;> rfl
        · have hpair : chanPair h = true := by
            by_contra hno
            rw [hn, unitWords, if_neg hno] at h2
            exact absurd h2 (by decide)
          rw [hword, if_pos (by omega), Nat.add_sub_cancel_left, unitData, if_pos hpair]
          rfl
        · rw [hword, if_neg (by omega)]
  · generalize ready _ s = r
    intro due
    refine ⟨courGrant_of_not, fun hdue => ?_⟩
    obtain ⟨hst, howner, hothers, hmem, hpoll⟩ := courGrant_spec hdue
    exact ⟨hst, howner, hothers, hmem, hpoll⟩
  · generalize ready _ s = r
    intro h k
    refine ⟨courPollDone_idle, fun hpoll hdue hans => ?_⟩
    obtain ⟨p, hp⟩ := Option.isSome_iff_exists.1 hpoll
    by_cases hpre : h.pre = true
    · have hcut := courPollDone_cut hp hdue hans hpre
      obtain ⟨hchan, hflash, hmem⟩ := chanPoll_spec c p { r with flash := { r.flash with cut := none } }
      have hothers := othersKept_chanPoll c p { r with flash := { r.flash with cut := none } }
      rw [← hcut] at hchan hflash hmem hothers
      have hk : k = _ := hchan
      refine ⟨hothers, hmem, fun _ => ⟨(congrArg Flash.cut hflash :), ?_, (congrArg Flash.cells hflash :)⟩,
        fun h => absurd hpre (by simp [h]), fun h => absurd hpre (by simp [h])⟩
      rw [hk]
      exact hp.symm
    · rw [Bool.not_eq_true] at hpre
      cases p with
      | erase =>
        obtain ⟨hmem, hbytes⟩ := courErased_spec c hans
        have hchan := chan_courErased c r
        have hothers := othersKept_courErased c r
        have herase := courPollDone_erase hp hdue hans hpre
        obtain ⟨hpolled, hflash, hmem'⟩ := chanPoll_spec c .erase (courErased c r)
        have hpollOthers := othersKept_chanPoll c .erase (courErased c r)
        by_cases hlt : unitsErased r (chan r c) < (chan r c).count
        · rw [if_pos hlt] at herase
          rw [← herase, hchan] at hpolled
          have hk : k = _ := hpolled
          refine ⟨?_, ?_, fun h => absurd h (by simp [hpre]), fun _ _ => ⟨fun i hi => ?_, ?_⟩,
            fun _ h => absurd (hp.symm.trans h) (by simp)⟩
          · rw [herase]
            exact hothers.trans hpollOthers
          · rw [herase]
            exact hmem'.trans hmem
          · rw [herase, flashByte_congr (congrArg Flash.cells hflash) (congrArg Flash.answers hflash)]
            exact hbytes i.val hi
          · rw [hk]
            exact ⟨rfl, decide_eq_true_iff, fun _ => rfl⟩
        · rw [if_neg hlt] at herase
          rw [← herase] at hchan
          have hk : k = _ := hchan
          refine ⟨?_, ?_, fun h => absurd h (by simp [hpre]), fun _ _ => ⟨fun i hi => ?_, ?_⟩,
            fun _ h => absurd (hp.symm.trans h) (by simp)⟩
          · rw [herase]
            exact hothers
          · rw [herase]
            exact hmem
          · rw [herase]
            exact hbytes i.val hi
          · rw [hk]
            exact ⟨rfl, decide_eq_true_iff, fun h => absurd h hlt⟩
      | page =>
        have hpage := courPollDone_page hp hdue hans hpre
        have hchan := chan_courPaged c r
        have hothers := othersKept_courPaged c r
        rw [← hpage] at hchan hothers
        have hk : k = _ := hchan
        refine ⟨hothers, (congrArg State.mem hpage :), fun h => absurd h (by simp [hpre]),
          fun _ h => absurd (hp.symm.trans h) (by simp), fun _ _ => ?_⟩
        rw [hk]
        refine ⟨rfl, rfl, rfl, decide_eq_true_iff, fun i w hw => ?_⟩
        rw [hpage]
        exact flashByte_courPaged hans hw
  · generalize ready _ s = r
    refine ⟨fun hnone => ?_, fun hp => ?_⟩
    · simp only [courTimeout, hnone]
    · obtain ⟨hchan, hothers, hmem⟩ := courTimeout_spec hp
      rw [hchan]
      exact ⟨rfl, rfl, rfl, rfl, hothers, hmem⟩
  · generalize ready _ s = r
    intro h a
    refine ⟨fun hno => if_pos (by rw [Bool.not_eq_true']; exact hno), fun hdone => ?_⟩
    have hend := courEnd_eq (c := c) (s := r) (h := h) rfl hdone
    have hidle := (endTold (c := c) (s := r) (h := h) rfl).idle
    obtain ⟨hchan, -, hcur, -⟩ := chanIdle_spec c (endEvent h (endNoted c h r))
    generalize chanIdle c (endEvent h (endNoted c h r)) = t at *
    have htold : EndTold c h r (courEnd c r) := by
      rw [hend]
      split_ifs
      · exact hidle.chain _ _
      · exact hidle
    refine ⟨htold.others, fun ha href hlog => ?_, fun b hb => htold.words b.val hb, htold.latch, htold.error, htold.event, ?_⟩
    · have hword : spadGet (courEnd c r) a = _ := htold.stat href hlog
      by_cases hbig : 0x800 ≤ h.err
      · exact .inr hbig
      · refine .inl ?_
        rw [hword, wd, BitVec.toNat_ofNat]
        cases h.collided <;> simp only [Bool.toNat_true, Bool.toNat_false, if_true, Bool.false_eq_true, if_false] <;>
          split_ifs <;> omega
    · rw [hend]
      split_ifs with hnext
      · exact ⟨(chan_congr (setReg_cour ..) c).trans (chan_setChan_same c _ t), reg_setReg_same _ _ _⟩
      · exact ⟨hchan, hcur⟩

end Sys2Proof.Machine

/-! ## An output command that arrives while a microword runs (R366, R646, R721) -/

namespace Sys2Proof.Machine

/-- A thread about to execute the last microword of a routine at 800h, SEQ END and nothing else, while the off command of
coil 0 is under way. -/
def lastMicroword : State :=
  let m : Micro := {
    pre := [], page := 0, opcode := 0, opnds := [], next := 0x402, addr := 0x800, t := Vector.replicate 8 0
    uc := 0, mdr := 0, mdrh := 0, ea := 0, mf := 0 }
  let s := setThread 2 (fun h => { h with micro := some m }) (coilGoesOff 2)
  { s with flash := { s.flash with wcs := [(0x800, 6 <<< 108)] } }

/-- The state the microword leaves, the rails being up. -/
def afterMicroword : State := perform 0 (userInstr 2 []) lastMicroword

theorem exec_lastMicroword : exec (.userInstruction 2 []) lastMicroword = .next afterMicroword := rfl

theorem ipk_lastMicroword : reg (ready 0 lastMicroword) (Reg.out_IPK (0 : Fin 16)) = 0 := by decide +kernel

theorem ipk_afterMicroword : reg afterMicroword (Reg.out_IPK (0 : Fin 16)) = 5 := by decide +kernel

/-- Refutes O38: while the last microword of a routine runs, the off command of coil 0 arrives and OUT.IPK0 takes its peak
(R721), which is none of the wheel's registers; the statement says that nothing beyond the thread changes. -/
theorem not_microwordsComputeAndSequence : ¬ Obligations.MicrowordsComputeAndSequence := by
  unfold Obligations.MicrowordsComputeAndSequence
  intro h
  obtain ⟨⟨u, hu, hmicro, -⟩, -⟩ := h lastMicroword 2 [] .debug rfl
  obtain ⟨-, hruns⟩ := hmicro _ rfl
  obtain ⟨-, -, hend⟩ := hruns (by decide +kernel)
  obtain ⟨-, -, -, -, ⟨-, -, -, -, -, -, -, -, hregs⟩, -⟩ := hend (by decide +kernel) (by decide +kernel) (by decide +kernel)
    (by decide +kernel) (by decide +kernel) (by decide +kernel) (by decide +kernel) (by decide +kernel) (by decide +kernel)
    (by decide +kernel) (by decide +kernel) (by decide +kernel)
  obtain hfollow : afterMicroword = follow u := by simpa using exec_lastMicroword.symm.trans hu
  have hkept := hregs (Reg.out_IPK (0 : Fin 16)) (by decide)
  rw [ipk_lastMicroword, ← reg_follow_ipk, ← hfollow, ipk_afterMicroword] at hkept
  exact absurd hkept (by decide)

end Sys2Proof.Machine

/-! ## A raise of a level beyond the field of LV (R951, R956) -/

namespace Sys2Proof.Machine

/-- One raise is registered, of class 0, and the level it may not be below is 9. -/
def highRaise : Raise := { cls := 0, detail := 0, bmin := 9 }

/-- A part with that raise. -/
def raisedHigh : State := { State.reset with fcol := { State.reset.fcol with raises := [highRaise] } }

theorem raises_raisedHigh : (ready (clkTicks raisedHigh) raisedHigh).fcol.raises = [highRaise] := by decide +kernel

/-- Refutes O59: the statement asks for the level of a raise to stand in LV, whose fields have three bits, but a state may hold a
raise whose least level is 9. The statement speaks of every state, so it is refuted by `raisedHigh`, whether or not a run
from reset comes to it. -/
theorem not_faultsEscalateAndAbortsReport : ¬ Obligations.FaultsEscalateAndAbortsReport := by
  unfold Obligations.FaultsEscalateAndAbortsReport
  intro h
  obtain ⟨⟨u, -, -, -, -, -, hone⟩, -⟩ := h raisedHigh .debug 0 0 0 rfl
  obtain ⟨-, -, -, hlevel, -⟩ := hone highRaise (by rw [raises_raisedHigh]; exact List.mem_singleton.2 rfl)
    (by rw [raises_raisedHigh]; rfl)
  obtain ⟨-, hlv, -⟩ := hlevel (by decide +kernel)
  have hnine : 9 ≤ lvOf u highRaise.cls.val := by
    rw [hlv]
    exact le_trans (by decide +kernel) (Nat.le_max_left _ _)
  have hfield : lvOf u highRaise.cls.val < 8 := fld_lt _ _ 3
  omega

end Sys2Proof.Machine

/-! ## A relock of a thread HALTED out of HALTED (R1006, R1014, R1015) -/

namespace Sys2Proof.Machine

/-- A part with DBGLOCK set, whose thread 0 is HALTED and keeps HALTED as the state it came from. -/
def haltedTwice : State :=
  setRegBit Reg.sys_OTPSTAT 14 true (setThread 0 (fun h => { h with st := .halted, kept := .halted }) State.reset)

/-- The state a relock leaves, the rails being up. -/
def afterRelock : State := perform (clkTicks haltedTwice) (hostWrite 0x400 0xA5A5) haltedTwice

theorem exec_relock_haltedTwice : exec .relock haltedTwice = .next afterRelock := rfl

theorem halted_afterRelock : (thread afterRelock 0).st = .halted := by decide +kernel

/-- Refutes O60: the statement lets a relock take every thread out of HALTED, but a resumed thread goes on in the state it kept,
which in `haltedTwice` is HALTED again. The statement speaks of every state, so it is refuted by that one, whether or not a
run from reset comes to it. -/
theorem not_chiselServesItsRequests : ¬ Obligations.ChiselServesItsRequests := by
  unfold Obligations.ChiselServesItsRequests
  intro h
  obtain ⟨-, -, -, -, -, -, -, -, -, -, -, -, -, -, -, -, -, -, ⟨u, hu, hrelock⟩, -⟩ :=
    h haltedTwice .debug 0 0 false false false false false 0 0 0 0 0 rfl
  obtain ⟨-, -, hlocked⟩ := hrelock (by decide +kernel) (by decide +kernel)
  obtain ⟨-, -, -, -, -, -, -, -, hrun⟩ := hlocked (by decide +kernel) (by decide +kernel)
  obtain ⟨hst, -⟩ := hrun (by decide +kernel) 0
  rw [thread, thr_of_exec exec_relock_haltedTwice hu, ← thread] at hst
  exact hst halted_afterRelock

end Sys2Proof.Machine

/-! ## What the steps of boot leave alone (R143-R176, R186-R195) -/

namespace Sys2Proof.Machine

/-- The clock's state and SLOWBOOT stay, and raises are only added. -/
structure BootKept (s u : State) : Prop where
  clk : reg u Reg.sys_CLKSTAT = reg s Reg.sys_CLKSTAT
  slow : regBit u Reg.sys_BOOTSTAT 11 = regBit s Reg.sys_BOOTSTAT 11
  raises : s.fcol.raises <+: u.fcol.raises

theorem BootKept.refl (s : State) : BootKept s s := ⟨rfl, rfl, List.prefix_rfl⟩

theorem BootKept.trans {s t u : State} (h : BootKept s t) (h' : BootKept t u) : BootKept s u :=
  ⟨h'.clk.trans h.clk, h'.slow.trans h.slow, h.raises.trans h'.raises⟩

theorem BootKept.ite {c : Prop} [Decidable c] {s u v : State} (hu : BootKept s u) (hv : BootKept s v) :
    BootKept s (if c then u else v) := by
  split
  · exact hu
  · exact hv

/-- Nothing of the registers and raises changed. -/
theorem BootKept.of_eq {s u : State} (hregs : u.regs = s.regs) (hraises : u.fcol.raises = s.fcol.raises) : BootKept s u :=
  have hreg : ∀ a, reg u a = reg s a := fun a => congrArg (cget regReset · a) hregs
  ⟨hreg _, congrArg (BitVec.getLsbD · 11) (hreg _), hraises ▸ List.prefix_rfl⟩

theorem BesideModes.bootKept {s u : State} (h : BesideModes s u) : BootKept s u :=
  ⟨h.regs _ (by decide), congrArg (BitVec.getLsbD · 11) (h.regs _ (by decide)), h.raises⟩

theorem bootKept_setReg {a : Nat} (h : a ≠ Reg.sys_CLKSTAT) (h' : a ≠ Reg.sys_BOOTSTAT) (v : Word) (s : State) :
    BootKept s (setReg a v s) :=
  ⟨reg_setReg_other _ _ h.symm, congrArg (BitVec.getLsbD · 11) (reg_setReg_other _ _ h'.symm), List.prefix_rfl⟩

theorem bootKept_setReg32 {a : Nat} (h : Reg.sys_BOOTSTAT < a) (v : Pair) (s : State) : BootKept s (setReg32 a v s) := by
  simp only [Reg.sys_BOOTSTAT] at h
  refine (bootKept_setReg ?_ ?_ _ s).trans (bootKept_setReg ?_ ?_ _ _)
  all_goals simp only [Reg.sys_CLKSTAT, Reg.sys_BOOTSTAT]; omega

/-- A bit of BOOTSTAT other than SLOWBOOT. -/
theorem bootKept_bootstat {i : Nat} (h : 11 ≠ i) (b : Bool) (s : State) : BootKept s (setRegBit Reg.sys_BOOTSTAT i b s) :=
  ⟨reg_setRegBit_other _ _ _ (by decide), regBit_setRegBit_ne h _ _ _, List.prefix_rfl⟩

/-- A field of BOOTSTAT in its low byte: STEP or IMGERR. -/
theorem bootKept_bootstatF {lo len : Nat} (h : lo + len ≤ 8) (v : Nat) (s : State) :
    BootKept s (setRegF Reg.sys_BOOTSTAT lo len v s) := by
  refine ⟨reg_setRegF_other _ _ _ _ (by decide), ?_, List.prefix_rfl⟩
  rw [regBit, reg_setRegF_same, getLsbD_putFld _ _ _ _ _ (by decide), if_neg (by omega)]
  rfl

theorem bootStep_boot (n : Nat) (s : State) : (bootStep n s).boot = { s.boot with step := n } := rfl

theorem reg_bootStep (n a : Nat) (s : State) : reg (bootStep n s) a = reg (setRegF Reg.sys_BOOTSTAT 4 4 n s) a :=
  congrArg (cget regReset · a) (show (bootStep n s).regs = (setRegF Reg.sys_BOOTSTAT 4 4 n s).regs from rfl)

theorem bootKept_bootStep (n : Nat) (s : State) : BootKept s (bootStep n s) :=
  (bootKept_bootstatF (lo := 4) (len := 4) (by decide) n s).trans (.of_eq rfl rfl)

theorem bootKept_raise (x : Raise) (s : State) : BootKept s (raise x s) := ⟨rfl, rfl, List.prefix_append _ _⟩

theorem bootKept_flashRelease (s : State) : BootKept s (flashRelease s) := by
  obtain ⟨f, h⟩ := flashRelease_flash s
  exact h ▸ .of_eq rfl rfl

theorem bootKept_wline (sfx : Bool) (l : List Byte) (s : State) : BootKept s (wline sfx l s) := .of_eq rfl rfl

theorem bootKept_spadPuts (a : Nat) (vs : List Word) (s : State) : BootKept s (spadPuts a vs s) := by
  induction vs generalizing a s with
  | nil => exact .refl s
  | cons v vs ih =>
    exact BootKept.trans (t := spadPut a v s) (.of_eq rfl rfl) (ih (a + 1) (spadPut a v s))

theorem bootKept_loopStart (s : State) : BootKept s (loopStart s) := by
  have hpin : ∀ s, BootKept s (pinCheck s) := fun s => (aside_pinCheck s).toBesideModes.bootKept
  unfold loopStart
  extract_lets u
  have hu : BootKept s u := .of_eq rfl rfl
  refine .ite (hpin s) (hu.trans (.ite ?_ (hpin u)))
  exact (bootKept_setReg (by decide) (by decide) _ u).trans (hpin _)

theorem bootKept_requestHalt (c : HaltCause) (t : Fin 8) (s : State) : BootKept s (requestHalt c t s) :=
  .ite (.refl s) (.of_eq rfl rfl)

theorem bootKept_crossHalt (t : Fin 8) (c : HaltCause) (s : State) : BootKept s (crossHalt t c s) := by
  refine .ite ?_ (.refl s)
  generalize List.finRange 8 = l
  induction l generalizing s with
  | nil => exact .refl s
  | cons u l ih => exact (BootKept.ite (.refl s) (bootKept_requestHalt _ u s)).trans (ih _)

theorem bootKept_traceHalt (t cause pc : Nat) (s : State) : BootKept s (traceHalt t cause pc s) :=
  .ite (aside_traceEmit _ _ s).toBesideModes.bootKept (.refl s)

theorem bootKept_beginThread (t : Fin 8) (d0 : Word) (blk : List Word) (s : State) : BootKept s (beginThread t d0 blk s) := by
  have hset : ∀ f s, BootKept s (setThread t f s) := fun f s => .of_eq rfl rfl
  exact .ite ((hset _ s).trans ((bootKept_traceHalt _ _ _ _).trans (bootKept_crossHalt _ _ _))) (hset _ s)

/-! ### The steps -/

theorem bootKept_flashSpeed (s : State) : BootKept s (flashSpeed s) := by
  rw [flashSpeed]
  split
  · exact (bootKept_setReg (a := Reg.flash_RDCFG) (by decide) (by decide) _ s).trans
      (bootKept_setReg (a := Reg.flash_STAT) (by decide) (by decide) _ _)
  · exact bootKept_setReg (by decide) (by decide) _ s

theorem bootKept_stepB6 (s : State) : BootKept s (stepB6 s) := by
  unfold stepB6
  refine BootKept.trans ?_ (bootKept_flashSpeed _)
  exact .of_eq rfl rfl

theorem bootKept_takeDir (s : State) : BootKept s (takeDir s) := by
  unfold takeDir
  extract_lets dl u
  have hu : BootKept s u := (bootKept_setReg32 (a := Reg.cour_FWIN) (by decide) _ s).trans
    (bootKept_setReg32 (a := Reg.cour_FWLIM) (by decide) _ _)
  exact hu.trans (.of_eq rfl rfl)

theorem bootKept_stepB9 (s : State) : BootKept s (stepB9 s) := by
  have harm : ∀ v s, BootKept s (setReg Reg.sys_ARMSTAT v s) := fun v s => bootKept_setReg (by decide) (by decide) v s
  unfold stepB9
  extract_lets ra rb ga gb u chosen v
  have hv : BootKept s v := (bootKept_setReg32 (a := Reg.sys_GENA) (by decide) _ s).trans <|
    (bootKept_setReg32 (a := Reg.sys_GENB) (by decide) _ _).trans (harm _ _)
  refine hv.trans ?_
  clear_value chosen
  cases chosen with
  | some k =>
    refine BootKept.trans ?_ (.ite (bootKept_raise _ _) (.ite (bootKept_raise _ _) (.refl _)))
    exact (bootKept_spadPuts _ _ v).trans ((harm _ _).trans (harm _ _))
  | none => exact (bootKept_spadPuts _ _ v).trans (bootKept_raise _ _)

theorem bootKept_applied (s : State) : BootKept s (applied s) :=
  BootKept.trans (t := { s with waili := { s.waili with divEff := (reg s Reg.waili_DIV).toNat } }) (.of_eq rfl rfl)
    (aside_applied s).toBesideModes.bootKept

theorem bootKept_stepB10 (s : State) : BootKept s (stepB10 s) := by
  unfold stepB10
  refine (BootKept.ite ?_ (.refl s)).trans (bootKept_loopStart _)
  exact ((aside_applyArmature s).toBesideModes.bootKept.trans (bootKept_applied _)).trans (bootKept_bootstat (by decide) _ _)

theorem bootKept_stepB11 (s : State) : BootKept s (stepB11 s) :=
  (bootKept_beginThread 0 0 [] s).trans (.of_eq rfl rfl)

theorem bootKept_stepB12 (s : State) : BootKept s (stepB12 s) := by
  have hend : BootKept s { setWaili (fun w => { w with on := true }) s with boot := { s.boot with stage := .finished } } :=
    .of_eq rfl rfl
  exact .ite (hend.trans (bootKept_wline _ _ _)) (.ite (hend.trans (besideModes_modeRequest _ _ _).bootKept) hend)

theorem bootKept_bootRefuse (err : Nat) (s : State) : BootKept s (bootRefuse err s) := by
  unfold bootRefuse
  extract_lets u modes boot flash v w
  have hv : BootKept s v := (bootKept_bootstatF (lo := 0) (len := 4) (by decide) err s).trans (.of_eq rfl rfl)
  have hw : BootKept v w := (bootKept_raise _ v).trans (bootKept_flashRelease _)
  have hon : BootKept w (setWaili (fun w => { w with on := true }) w) := .of_eq rfl rfl
  exact hv.trans (hw.trans (hon.trans ((bootKept_wline _ _ _).trans (bootKept_loopStart _))))

theorem bootKept_bootRest (s : State) : BootKept s (bootRest s) := by
  unfold bootRest
  extract_lets u e v e' w x y z
  have hu : BootKept s u := (bootKept_stepB6 s).trans (bootKept_bootStep _ _)
  refine hu.trans (.ite (bootKept_bootRefuse _ _) ?_)
  have hv : BootKept u v := (bootKept_takeDir u).trans (bootKept_bootStep _ _)
  refine hv.trans (.ite (bootKept_bootRefuse _ _) ?_)
  have hw : BootKept v w := .ite (.refl v) (.of_eq rfl rfl)
  have hx : BootKept w x := (bootKept_bootstat (by decide) _ _).trans (bootKept_bootStep _ _)
  have hy : BootKept x y := (bootKept_stepB9 x).trans ((bootKept_bootStep _ _).trans (bootKept_flashRelease _))
  have hz : BootKept y z := (bootKept_stepB10 y).trans <| (bootKept_bootStep _ _).trans <|
    (bootKept_stepB11 _).trans (bootKept_bootStep _ _)
  exact hw.trans <| hx.trans <| hy.trans <| hz.trans <| (bootKept_stepB12 z).trans <|
    (bootKept_bootStep _ _).trans (bootKept_bootstat (by decide) _ _)

end Sys2Proof.Machine

/-! ## Boot runs once to its end (R143-R176) -/

namespace Sys2Proof.Machine

/-- Boot has ended: refused, in boot SETUP with an IMGERR, or complete with step B12. -/
def BootEnded (u : State) : Prop := u.boot.stage = .finished ∧
  ((u.modes.bootsu = true ∧ fld (reg u Reg.sys_BOOTSTAT) 0 4 ≠ 0) ∨
   (fld (reg u Reg.sys_BOOTSTAT) 4 4 = 12 ∧ regBit u Reg.sys_BOOTSTAT 15 = true ∧ u.boot.step = 12))

theorem dirError_lt (s : State) : dirError s < 16 := by
  unfold dirError
  split_ifs <;> decide

theorem imgError_lt (s : State) : imgError s < 16 := by
  unfold imgError
  dsimp only
  split_ifs <;> decide

theorem verifyImage_lt (s : State) : verifyImage s < 16 := by
  unfold verifyImage
  dsimp only
  split_ifs <;> decide

theorem loopStart_spec (s : State) :
    (loopStart s).boot = s.boot ∧ (loopStart s).modes = s.modes ∧ reg (loopStart s) Reg.sys_BOOTSTAT = reg s Reg.sys_BOOTSTAT := by
  have hpin : ∀ s, (pinCheck s).boot = s.boot ∧ (pinCheck s).modes = s.modes ∧
      reg (pinCheck s) Reg.sys_BOOTSTAT = reg s Reg.sys_BOOTSTAT := fun s =>
    ⟨(aside_pinCheck s).boot, (aside_pinCheck s).modes, (aside_pinCheck s).regs _ (by decide)⟩
  unfold loopStart
  extract_lets u
  split_ifs
  · exact hpin s
  · obtain ⟨hboot, hmodes, hreg⟩ := hpin (setRegF Reg.loop_STAT 0 8 (0x80 + 0) u)
    exact ⟨hboot, hmodes, hreg.trans (reg_setRegF_other _ _ _ u (by decide))⟩
  · exact hpin u

theorem bootRefuse_ended {err : Nat} (h : err ≠ 0) (hlt : err < 16) (s : State) : BootEnded (bootRefuse err s) := by
  unfold bootRefuse
  extract_lets u modes boot flash v w
  obtain ⟨f, hw⟩ := flashRelease_flash (raise { cls := clsSecurity, detail := wd err } v)
  have hw : w = { raise { cls := clsSecurity, detail := wd err } v with flash := f } := hw
  obtain ⟨hboot, hmodes, hreg⟩ := loopStart_spec (wline false (codes "IMG?") (setWaili (fun w => { w with on := true }) w))
  refine ⟨?_, .inl ⟨?_, ?_⟩⟩
  · rw [hboot, hw]
    rfl
  · rw [hmodes, hw]
    rfl
  · have hfld : fld (reg u Reg.sys_BOOTSTAT) 0 4 = err := by
      rw [show reg u Reg.sys_BOOTSTAT = _ from reg_setRegF_same _ _ _ _ _, fld_putFld _ _ _ _ (by decide)]
      exact Nat.mod_eq_of_lt hlt
    rw [hreg, hw]
    exact hfld.trans_ne h

theorem stepB12_stage (s : State) : (stepB12 s).boot.stage = .finished := by
  unfold stepB12
  extract_lets u boot v
  split_ifs
  · rfl
  · exact congrArg Boot.stage (besideModes_modeRequest false .run v).boot
  · rfl

/-- Step B12 done, and DONE set. -/
theorem bootDone_ended (s : State) (h : s.boot.stage = .finished) :
    BootEnded (setRegBit Reg.sys_BOOTSTAT 15 true (bootStep 12 s)) := by
  have hdone : regBit (setRegBit Reg.sys_BOOTSTAT 15 true (bootStep 12 s)) Reg.sys_BOOTSTAT 15 = true :=
    regBit_setRegBit_same Reg.sys_BOOTSTAT 15 true (bootStep 12 s) (by decide)
  have hboot : (setRegBit Reg.sys_BOOTSTAT 15 true (bootStep 12 s)).boot = { s.boot with step := 12 } := bootStep_boot 12 s
  rw [BootEnded, hboot, hdone]
  refine ⟨h, .inr ⟨?_, rfl, rfl⟩⟩
  have hstep : reg (bootStep 12 s) Reg.sys_BOOTSTAT = putFld (reg s Reg.sys_BOOTSTAT) 4 4 12 := by
    rw [reg_bootStep, reg_setRegF_same]
  rw [reg_setRegBit_same, hstep, putBit, fld_putFld_other _ _ _ _ _ _ (by decide) (by decide), fld_putFld _ _ _ _ (by decide)]
  rfl

theorem bootRest_ended (s : State) : BootEnded (bootRest s) := by
  unfold bootRest
  extract_lets u e v e' w x y z
  split_ifs with he he'
  · exact bootRefuse_ended he (dirError_lt u) u
  · refine bootRefuse_ended he' ?_ v
    show (if v.boot.kind = .looprst then verifyImage v else imgError v) < 16
    split_ifs
    · exact verifyImage_lt v
    · exact imgError_lt v
  · exact bootDone_ended _ (stepB12_stage z)

end Sys2Proof.Machine

/-! ### The start (R143-R153) -/

namespace Sys2Proof.Machine

/-- Step B2 on the scratchpad: after a POR the dead letter's area reads as never written. -/
theorem stepB2_spec (s : State) : ∃ mem regs, stepB2 s = { s with mem := mem, regs := regs } ∧
    (∀ a, a < 0x17C00 → spadGet (stepB2 s) a = spadGet s a) ∧
    regBit (stepB2 s) Reg.sys_BOOTSTAT 12 = (spadGet (stepB2 s) 0x17C00 == 0x444C) := by
  unfold stepB2
  extract_lets m u
  have hu : ∃ mem, u = { s with mem := mem } := by
    unfold u
    split
    · exact ⟨_, rfl⟩
    · exact ⟨s.mem, rfl⟩
  have hspad : ∀ a, a < 0x17C00 → spadGet u a = spadGet s a := by
    intro a ha
    unfold u
    split
    · rw [spadGet, cget_filter spadDefault (fun k => !(decide (0x17C00 ≤ k) && decide (k < 0x18000)))]
      rw [if_pos (by simp; omega)]
      rfl
    · rfl
  obtain ⟨mem, hu⟩ := hu
  exact ⟨mem, (setRegBit Reg.sys_BOOTSTAT 12 (spadGet u 0x17C00 == 0x444C) u).regs, by rw [hu]; rfl, hspad,
    regBit_setRegBit_same _ _ _ _ (by decide)⟩

/-- Step B4 finds the flash; it writes registers and takes the flash master. -/
theorem stepB4_spec (s : State) : ∃ regs, stepB4 s = { s with regs := regs, flash := { s.flash with owner := .boot } } ∧
    regBit (stepB4 s) Reg.sys_BOOTSTAT 12 = regBit s Reg.sys_BOOTSTAT 12 := by
  have hset : ∀ a v t, Reg.sys_BOOTSTAT ≠ a →
      (∃ regs, t = { s with regs := regs, flash := { s.flash with owner := .boot } }) ∧
        reg t Reg.sys_BOOTSTAT = reg s Reg.sys_BOOTSTAT →
      (∃ regs, setReg a v t = { s with regs := regs, flash := { s.flash with owner := .boot } }) ∧
        reg (setReg a v t) Reg.sys_BOOTSTAT = reg s Reg.sys_BOOTSTAT := by
    rintro a v t ha ⟨⟨regs, rfl⟩, hreg⟩
    exact ⟨⟨_, rfl⟩, (reg_setReg_other _ _ ha).trans hreg⟩
  unfold stepB4
  extract_lets f u
  have hu := (⟨⟨s.regs, rfl⟩, rfl⟩ : (∃ regs, u = { s with regs := regs, flash := { s.flash with owner := .boot } }) ∧
    reg u Reg.sys_BOOTSTAT = reg s Reg.sys_BOOTSTAT)
  cases sfdpOf u with
  | some f =>
    obtain ⟨⟨regs, h⟩, hreg⟩ := hset Reg.flash_RDCFG 0x0300 _ (by decide) <|
      hset Reg.flash_STAT (putFld (reg _ Reg.flash_STAT) 6 3 (1 + 2 * f.addr4.toNat)) _ (by decide) <|
      hset Reg.flash_ERINS (wd f.erIns.toNat) _ (by decide) <|
      hset Reg.flash_GEOM (wd (f.capL2 * 256 + (f.erL2 - 8) * 16)) u (by decide) hu
    exact ⟨_, congrArg (setRegBit Reg.sys_BOOTSTAT 10 true) h,
      (regBit_setRegBit_ne (by decide) _ _ _).trans (congrArg (BitVec.getLsbD · 12) hreg)⟩
  | none =>
    obtain ⟨⟨regs, h⟩, hreg⟩ := hset Reg.flash_RDCFG 0x0300 _ (by decide) <| hset Reg.flash_ERINS 0x20 _ (by decide) <|
      hset Reg.flash_GEOM 0x1840 u (by decide) hu
    exact ⟨regs, h, congrArg (BitVec.getLsbD · 12) hreg⟩

/-- The wait of step B5. -/
theorem bootStart_waits (r : State) :
    let u := bootStep 4 (stepB4 (stepB2 r))
    u.boot.step = 4 ∧ fld (reg u Reg.sys_BOOTSTAT) 4 4 = 4 ∧ regBit u Reg.sys_BOOTSTAT 12 = (spadGet u 0x17C00 == 0x444C) ∧
      (∀ a, a < 0x17C00 → spadGet u a = spadGet r a) ∧ u.thr = r.thr ∧ u.modes = r.modes ∧
      u.flash.cells = r.flash.cells ∧ u.now = r.now ∧ u.boot.kind = r.boot.kind := by
  obtain ⟨mem, regs, h2, hspad, hbit⟩ := stepB2_spec r
  obtain ⟨regs', h4, hkept⟩ := stepB4_spec (stepB2 r)
  have hget : ∀ a, spadGet (bootStep 4 (stepB4 (stepB2 r))) a = spadGet (stepB2 r) a := by
    intro a
    rw [h4]
    rfl
  have hstep : reg (bootStep 4 (stepB4 (stepB2 r))) Reg.sys_BOOTSTAT = putFld (reg (stepB4 (stepB2 r)) Reg.sys_BOOTSTAT) 4 4 4 := by
    rw [reg_bootStep, reg_setRegF_same]
  dsimp only
  rw [bootStep_boot]
  refine ⟨rfl, ?_, ?_, fun a ha => (hget a).trans (hspad a ha), ?_⟩
  · rw [hstep, fld_putFld _ _ _ _ (by decide)]
    rfl
  · rw [regBit, hstep, getLsbD_putFld _ _ _ _ _ (by decide), if_neg (by decide), hget, ← hbit, ← hkept]
    rfl
  · rw [h4, h2]
    exact ⟨rfl, rfl, rfl, rfl, rfl⟩

/-- A clock failure counts; it does not switch the clock. -/
theorem regBit_clockFailure_bkup (detail : Nat) (s : State) :
    regBit (clockFailure detail s) Reg.sys_CLKSTAT 15 = regBit s Reg.sys_CLKSTAT 15 :=
  (regBit_setRegF Reg.sys_CLKSTAT 0 8 (satAdd 255 (regF s Reg.sys_CLKSTAT 0 8) 1) 15 s (by decide)).trans (if_neg (by decide))

theorem reg_clockFailure_other (detail : Nat) {a : Nat} (ha : a ≠ Reg.sys_CLKSTAT) (s : State) :
    reg (clockFailure detail s) a = reg s a :=
  reg_setRegF_other 0 8 (satAdd 255 (regF s Reg.sys_CLKSTAT 0 8) 1) s ha

theorem exec_bootStart (s : State) : exec .bootStart s = act bootStart s := rfl
theorem exec_pllLockSwitch (dt : Nat) (s : State) : exec (.pllLockSwitch dt) s = actAfter dt pllLockSwitch s := rfl
theorem exec_bootLockTimeout (s : State) : exec .bootLockTimeout s = actDue bootLockDue bootLockTimeout s := rfl

theorem bootStart_outcome (r : State) :
    if r.boot.stage ≠ .notStarted ∨ regBit r Reg.sys_STRAP 14 = true then bootStart r = r
    else if r.boot.kind = .looprst then BootEnded (bootStart r)
    else (bootStart r).boot.stage = .waitLock ∧ (bootStart r).boot.lockDue = r.now + 8 * 160000 ∧ (bootStart r).boot.step = 4 ∧
      fld (reg (bootStart r) Reg.sys_BOOTSTAT) 4 4 = 4 ∧
      regBit (bootStart r) Reg.sys_BOOTSTAT 12 = (spadGet (bootStart r) 0x17C00 == 0x444C) ∧
      (∀ a, a < 0x17C00 → spadGet (bootStart r) a = spadGet r a) ∧ (bootStart r).thr = r.thr ∧
      (bootStart r).modes = r.modes ∧ (bootStart r).flash.cells = r.flash.cells := by
  obtain ⟨hstep, hfld, hbit, hspad, hthr, hmodes, hcells, hnow, hkind⟩ := bootStart_waits r
  unfold bootStart
  extract_lets v boot
  split_ifs with hoff hv hk hk
  · rfl
  · exact bootRest_ended v
  · exact absurd (hkind.trans hv) hk
  · exact absurd (hkind.symm.trans hk) hv
  · exact ⟨rfl, congrArg (· + 8 * msTicks) hnow, hstep, hfld, hbit, hspad, hthr, hmodes, hcells⟩

theorem pllLockSwitch_outcome (r : State) :
    if r.boot.stage = .waitLock then regBit (pllLockSwitch r) Reg.sys_CLKSTAT 15 = false ∧
      regBit (pllLockSwitch r) Reg.sys_CLKSTAT 14 = true ∧ BootEnded (pllLockSwitch r)
    else pllLockSwitch r = r := by
  unfold pllLockSwitch
  extract_lets u v
  split_ifs with hwait hno
  · exact absurd hwait hno
  · have hclk : reg (bootRest (bootStep 5 v)) Reg.sys_CLKSTAT = reg v Reg.sys_CLKSTAT :=
      ((bootKept_bootStep 5 v).trans (bootKept_bootRest _)).clk
    have hlock : regBit v Reg.sys_CLKSTAT 14 = true := regBit_setRegBit_same _ _ _ _ (by decide)
    have hpll : regBit v Reg.sys_CLKSTAT 15 = false := by
      rw [show v = setRegBit Reg.sys_CLKSTAT clkPLLLK true (setRegBit Reg.sys_CLKSTAT clkXTAL true u) from rfl,
        regBit_setRegBit_ne (by decide), regBit_setRegBit_ne (by decide)]
      exact regBit_setRegBit_same _ _ _ _ (by decide)
    exact ⟨(congrArg (BitVec.getLsbD · 15) hclk).trans hpll, (congrArg (BitVec.getLsbD · 14) hclk).trans hlock,
      bootRest_ended (bootStep 5 v)⟩
  · rfl

theorem bootLockTimeout_outcome (r : State) :
    if r.boot.stage = .waitLock then
      regBit (bootLockTimeout r) Reg.sys_CLKSTAT 15 = regBit r Reg.sys_CLKSTAT 15 ∧
        regBit (bootLockTimeout r) Reg.sys_BOOTSTAT 11 = true ∧
        Raised r (bootLockTimeout r) { cls := clsClock, bmin := 3, detail := 2 } ∧ BootEnded (bootLockTimeout r)
    else bootLockTimeout r = r := by
  unfold bootLockTimeout
  split_ifs with hwait hno
  · exact absurd hwait hno
  · obtain ⟨v, hv⟩ : ∃ v, v = clockFailure 2 (setRegBit Reg.sys_BOOTSTAT 11 true r) := ⟨_, rfl⟩
    have hbkup : regBit v Reg.sys_CLKSTAT 15 = regBit r Reg.sys_CLKSTAT 15 := by
      rw [hv, regBit_clockFailure_bkup, regBit, reg_setRegBit_other _ _ _ (by decide)]
      rfl
    have hslow : regBit v Reg.sys_BOOTSTAT 11 = true := by
      rw [hv, regBit, reg_clockFailure_other _ (by decide)]
      exact regBit_setRegBit_same Reg.sys_BOOTSTAT 11 true r (by decide)
    have hraised : v.fcol.raises = r.fcol.raises ++ [{ cls := clsClock, bmin := 3, detail := 2 }] := by
      rw [hv]
      rfl
    have hend : BootKept v (bootRest (bootStep 5 v)) := (bootKept_bootStep 5 v).trans (bootKept_bootRest _)
    have hmore : Raised r (bootRest (bootStep 5 v)) { cls := clsClock, bmin := 3, detail := 2 } := by
      rw [Raised, ← hraised]
      exact hend.raises
    rw [← hv]
    exact ⟨(congrArg (BitVec.getLsbD · 15) hend.clk).trans hbkup, hend.slow.trans hslow, hmore,
      bootRest_ended (bootStep 5 v)⟩
  · rfl

/-- Settles O11: the start by `bootStart_waits`, every end by `bootRest_ended`; `bootKept_bootRest` carries the clock's
state, SLOWBOOT and the raise to that end. -/
theorem bootRunsOnceToItsEnd : Obligations.BootRunsOnceToItsEnd := by
  unfold Obligations.BootRunsOnceToItsEnd
  intro s dt hup
  exact ⟨Acts.of (exec_bootStart s) hup (bootStart_outcome _), ActsAfter.of (exec_pllLockSwitch dt s) hup (pllLockSwitch_outcome _),
    ActsAt.of (exec_bootLockTimeout s) hup (bootLockTimeout_outcome _)⟩

end Sys2Proof.Machine

/-! ## What a Waili command is answered before it acts (R826-R836, R843, R845) -/

namespace Sys2Proof.Machine

/-- Lines of a command, one after the other. -/
def answerLines (c : WCtx) (ls : List (List Byte)) (r : State) : State := ls.foldl (fun s l => respond c l s) r

/-- The error of a command before its arguments: it is of this unit alone, out of its modes, or locked; else 0. -/
def rowError (modes : Nat) (lock loc : Bool) (c : WCtx) (r : State) : Nat :=
  if loc = true ∧ (c.own ≠ none ∨ c.remote ≠ none) then 52
  else if (modes = 1 ∨ modes = 2) ∧ r.modes.bootsu = true then 8
  else if modes = 2 ∧ r.modes.mode ≠ .setup then 7
  else if modes = 3 ∧ r.modes.bootsu = false ∧ r.modes.mode ≠ .setup then 7
  else if lock = true ∧ regBit r Reg.sys_OTPSTAT 14 = true ∧ r.chisel.locked = true then 40 else 0

/-- A row of command `k`: without its line nothing, else its error, ER 06 for its number of arguments, or `P`. -/
def CmdRow (k : Kw) (modes : Nat) (lock loc : Bool) (lo hi : Nat) (P : WCtx → List Tok → State → State → Prop)
    (r u : State) : Prop :=
  (wTake k r = none → u = r) ∧
  ∀ q, wTake k r = some q →
    (rowError modes lock loc q.1 r ≠ 0 → u = answerLines q.1 [erText (rowError modes lock loc q.1 r) []] q.2.2.2) ∧
    (rowError modes lock loc q.1 r = 0 → ¬ (lo ≤ q.2.1.length ∧ q.2.1.length ≤ hi) → commitBusy r = false →
      u = answerLines q.1 [erText 6 []] q.2.2.2) ∧
    (rowError modes lock loc q.1 r = 0 → lo ≤ q.2.1.length → q.2.1.length ≤ hi → P q.1 q.2.1 q.2.2.2 u)

/-- The modes of a command as the rows number them. -/
def modesCode : WModes → Nat
  | .all => 0
  | .run => 1
  | .setup => 2
  | .setupB => 3

/-- The error of a command's modes is the row's. -/
theorem kwMode_eq (s : State) (k : Kw) : kwMode s k =
    (if (modesCode (kwModes k) = 1 ∨ modesCode (kwModes k) = 2) ∧ s.modes.bootsu = true then some 8
     else if modesCode (kwModes k) = 2 ∧ s.modes.mode ≠ .setup then some 7
     else if modesCode (kwModes k) = 3 ∧ s.modes.bootsu = false ∧ s.modes.mode ≠ .setup then some 7 else none) := by
  have hset := inSetup_iff s
  unfold kwMode
  cases kwModes k with
  | all => simp [modesCode]
  | run => cases s.modes.bootsu <;> simp [modesCode]
  | setup => cases s.modes.bootsu <;> cases h : inSetup s <;> simp_all [modesCode]
  | setupB => cases s.modes.bootsu <;> cases h : inSetup s <;> simp_all [modesCode]

/-- The refusal of a command is the row's error. -/
theorem kwRefused_eq (s : State) (k : Kw) (c : WCtx) : kwRefused s k c =
    if rowError (modesCode (kwModes k)) (kwLocked k) (kwLocal k) c s = 0 then none
    else some (rowError (modesCode (kwModes k)) (kwLocked k) (kwLocal k) c s) := by
  have hloc : (kwLocal k && (c.own.isSome || c.remote.isSome)) = true ↔ kwLocal k = true ∧ (c.own ≠ none ∨ c.remote ≠ none) := by
    simp [Option.isSome_iff_ne_none]
  have hlock : (kwLocked k && wLocked s) = true ↔
      kwLocked k = true ∧ regBit s Reg.sys_OTPSTAT 14 = true ∧ s.chisel.locked = true := by
    simp [wLocked]
  unfold kwRefused rowError
  simp only [hloc, kwMode_eq]
  split_ifs <;> simp_all

/-- The next line leaves its buffer; nothing else changes. -/
theorem wDrop_eq (k : WSlot) (s : State) : ∃ w, wDrop k s = { s with waili := w } := ⟨_, rfl⟩

theorem wTake_state {k : Kw} {r : State} {q : WCtx × List Tok × List Byte × State} (h : wTake k r = some q) :
    ∃ w, q.2.2.2 = { r with waili := w } := by
  unfold wTake at h
  split at h
  · exact absurd h (by simp)
  · split at h
    · exact absurd h (by simp)
    · split at h
      · split_ifs at h
        rw [← Option.some.inj h]
        exact wDrop_eq _ r
      · exact absurd h (by simp)

theorem wCommand_of_none {k : Kw} {r : State} (h : wTake k r = none) (f : WCtx → List Tok → List Byte → State → State) :
    wCommand k f r = r := by
  rw [wCommand, h]

theorem wCommand_of_some {k : Kw} {r : State} {q : WCtx × List Tok × List Byte × State} (h : wTake k r = some q)
    (f : WCtx → List Tok → List Byte → State → State) : wCommand k f r =
      if rowError (modesCode (kwModes k)) (kwLocked k) (kwLocal k) q.1 r = 0 then f q.1 q.2.1 q.2.2.1 q.2.2.2
      else answerLines q.1 [erText (rowError (modesCode (kwModes k)) (kwLocked k) (kwLocal k) q.1 r) []] q.2.2.2 := by
  obtain ⟨w, hw⟩ := wTake_state h
  have herr : rowError (modesCode (kwModes k)) (kwLocked k) (kwLocal k) q.1 q.2.2.2 =
      rowError (modesCode (kwModes k)) (kwLocked k) (kwLocal k) q.1 r := by
    rw [hw]
    rfl
  obtain ⟨c, ts, body, s⟩ := q
  rw [wCommand, h]
  dsimp only at herr ⊢
  rw [kwRefused_eq, herr]
  split_ifs <;> rfl

/-- A row from what the command does with too few or too many arguments, and with as many as it takes. -/
theorem cmdRow_of {k : Kw} {modes : Nat} {lock loc : Bool} {lo hi : Nat} {P : WCtx → List Tok → State → State → Prop}
    {f : WCtx → List Tok → List Byte → State → State} (hmodes : modesCode (kwModes k) = modes) (hlock : kwLocked k = lock)
    (hloc : kwLocal k = loc)
    (hargs : ∀ c ts body s, ¬ (lo ≤ ts.length ∧ ts.length ≤ hi) → commitBusy s = false →
      f c ts body s = answerLines c [erText 6 []] s)
    (hP : ∀ c ts body s, lo ≤ ts.length → ts.length ≤ hi → P c ts s (f c ts body s)) (r : State) :
    CmdRow k modes lock loc lo hi P r (wCommand k f r) := by
  subst hmodes hlock hloc
  refine ⟨fun h => wCommand_of_none h f, fun q hq => ?_⟩
  obtain ⟨w, hw⟩ := wTake_state hq
  rw [wCommand_of_some hq]
  refine ⟨fun he => if_neg he, fun he hn hb => ?_, fun he hlo hhi => ?_⟩
  · rw [if_pos he]
    refine hargs _ _ _ _ hn ?_
    rw [hw]
    exact hb
  · rw [if_pos he]
    exact hP _ _ _ _ hlo hhi

/-! ### Arguments (R810-R812) -/

theorem argc_ok {ts : List Tok} {lo hi : Nat} (hlo : lo ≤ ts.length) (hhi : ts.length ≤ hi) : argc ts lo hi = .ok () :=
  if_pos ⟨hlo, hhi⟩

theorem argc_error {ts : List Tok} {lo hi : Nat} (h : ¬ (lo ≤ ts.length ∧ ts.length ≤ hi)) : argc ts lo hi = .error 6 :=
  if_neg h

theorem ok_of_toOption {α : Type} {x : Except Nat α} {a : α} (h : x.toOption = some a) : x = .ok a := by
  cases x with
  | ok b => exact congrArg Except.ok (Option.some.inj h)
  | error e => exact absurd h (by simp [Except.toOption])

/-- The row of a command that counts its arguments first, then reads them. -/
theorem cmdRow_args {α : Type} {k : Kw} {modes : Nat} {lock loc : Bool} {lo hi : Nat}
    {P : WCtx → List Tok → State → State → Prop} (g : List Tok → State → Except Nat α) (f : WCtx → α → State → State)
    (hmodes : modesCode (kwModes k) = modes) (hlock : kwLocked k = lock) (hloc : kwLocal k = loc)
    (hP : ∀ c ts s, lo ≤ ts.length → ts.length ≤ hi → P c ts s (wArgs (g ts s) c (f c) s)) (r : State) :
    CmdRow k modes lock loc lo hi P r
      (wCommand k (fun c ts _ s => wArgs (argc ts lo hi >>= fun _ => g ts s) c (f c) s) r) := by
  refine cmdRow_of hmodes hlock hloc (fun c ts _ s h _ => ?_) (fun c ts _ s hlo hhi => ?_) r
  · rw [argc_error h]
    rfl
  · rw [argc_ok hlo hhi]
    exact hP c ts s hlo hhi

/-- The row of a command without arguments. -/
theorem cmdRow_plain {k : Kw} {modes : Nat} {lock : Bool} {P : WCtx → List Tok → State → State → Prop}
    (f : WCtx → State → State) (hmodes : modesCode (kwModes k) = modes) (hlock : kwLocked k = lock) (hloc : kwLocal k = false)
    (hP : ∀ c ts s, P c ts s (f c s)) (r : State) : CmdRow k modes lock false 0 0 P r (wPlain k f r) := by
  refine cmdRow_of hmodes hlock hloc (fun c ts _ s h _ => ?_) (fun c ts _ s hlo hhi => ?_) r
  · rw [argc_error h]
    rfl
  · rw [argc_ok hlo hhi]
    exact hP c ts s

end Sys2Proof.Machine

/-! ## The Waili commands (R827-R838) -/

namespace Sys2Proof.Machine

/-- A number argument in its range, an address argument, and a field of ARMSTAT as it is printed. -/
def natArg (ts : List Tok) (i lo hi : Nat) : Option Nat := (natIn lo hi (argAt ts i)).toOption
def addrArg (ts : List Tok) : Option Nat := (addrTok (argAt ts 0)).toOption
def armField (r : State) (lo len : Nat) : List Byte := dec (regF r Reg.sys_ARMSTAT lo len)

/-! ### The session (R827) -/

theorem respond_regs (c : WCtx) (l : List Byte) (s : State) : (respond c l s).regs = s.regs := by
  unfold respond
  split
  · rfl
  · split <;> rfl

theorem wEchoCmd_row (r : State) : CmdRow .echo 0 false true 1 1 (fun c ts r u => ∀ n, natArg ts 0 0 1 = some n →
    u = setRegBit Reg.waili_CTL 0 (n == 1) (respond c (codes "OK") r)) r (wEchoCmd r) :=
  cmdRow_args (fun ts _ => natIn 0 1 (argAt ts 0)) _ rfl rfl rfl
    (fun c ts s _ _ n hn => by rw [ok_of_toOption hn]; rfl) r

theorem wStrict_row (r : State) : CmdRow .strict 0 false true 1 1 (fun c ts r u => ∀ n, natArg ts 0 0 1 = some n →
    u = setRegBit Reg.waili_CTL 1 (n == 1) (respond (if n = 1 then { c with suffix := true } else c) (codes "OK") r)) r
    (wStrict r) :=
  cmdRow_args (fun ts _ => natIn 0 1 (argAt ts 0)) _ rfl rfl rfl
    (fun c ts s _ _ n hn => by rw [ok_of_toOption hn]; rfl) r

theorem wBaud_row (r : State) : CmdRow .baud 0 false true 1 1 (fun c ts r u => ∀ n, natArg ts 0 6 65535 = some n →
    (onBackup r = true → u = answerLines c [erText 7 []] r) ∧
    (onBackup r = false → u.waili.out = (respond c (codes "OK") r).waili.out ∧
      u.waili.divPend = some (n, u.waili.out.length) ∧ u.regs = r.regs)) r (wBaud r) := by
  refine cmdRow_args (fun ts _ => natIn 6 65535 (argAt ts 0)) _ rfl rfl rfl (fun c ts s _ _ n hn => ?_) r
  rw [ok_of_toOption hn, wArgs]
  refine ⟨fun hb => if_pos hb, fun hb => ?_⟩
  rw [if_neg (by simp [hb])]
  exact ⟨rfl, rfl, respond_regs c _ s⟩

/-! ### Words read and written (R828, R829) -/

theorem wWords_one (c : WCtx) (pre : Nat → List Byte) (a : Nat) (s : State) : wWords c pre [] 0 a 1 s =
    match memRead .waili false a 1 s with
    | (.ok ws, s) => answerLines c [pre a ++ codes " " ++ hexH 4 (ws.headD 0).toNat, codes "OK"] s
    | (.refused _, s) => answerLines c [erText 20 (codes " " ++ addrText a)] s
    | (.parity, s) => answerLines c [erText 22 (codes " " ++ addrText a)] s := by
  unfold wWords
  obtain ⟨ans, s'⟩ := memRead .waili false a 1 s
  cases ans <;> rfl

theorem wRead_eq (side : Bool) (w : Nat) (c : WCtx) (a : Nat) (s : State) : wRead side w c a s =
    match memRead .waili side a w s with
    | (.ok ws, s) => answerLines c
        [addrText a ++ codes " " ++ hexH (4 * w) ((ws.getD 1 0).toNat * 0x10000 + (ws.getD 0 0).toNat), codes "OK"] s
    | (.refused _, s) => answerLines c [erText 20 (codes " " ++ addrText a)] s
    | (.parity, s) => answerLines c [erText 22 (codes " " ++ addrText a)] s := by
  unfold wRead
  obtain ⟨ans, s'⟩ := memRead .waili side a w s
  cases ans <;> rfl

theorem wWrote_eq (c : WCtx) (x : Option (Nat × WrAns) × State) : wWrote c x =
    match x with
    | (none, r) => answerLines c [codes "OK"] r
    | (some (b, .collision), r) => answerLines c [erText 21 (codes " " ++ addrText b)] r
    | (some (b, _), r) => answerLines c [erText 20 (codes " " ++ addrText b)] r := by
  obtain ⟨_ | ⟨b, ans⟩, s⟩ := x
  · rfl
  · cases ans <;> rfl

theorem wRd_row (r : State) : CmdRow .rd 0 true false 1 2 (fun c ts r u => ∀ a, addrArg ts = some a →
    (ts.length = 1 → u = (match memRead .waili false a 1 r with
      | (.ok ws, r) => answerLines c [addrText a ++ codes " " ++ hexH 4 (ws.headD 0).toNat, codes "OK"] r
      | (.refused _, r) => answerLines c [erText 20 (codes " " ++ addrText a)] r
      | (.parity, r) => answerLines c [erText 22 (codes " " ++ addrText a)] r)) ∧
    (∀ n, natArg ts 1 1 256 = some n → ts.length = 2 → u = wWords c addrText [] 0 a n r)) r (wRd r) := by
  refine cmdRow_args (fun ts _ => do return (← addrTok (argAt ts 0), ← optNat ts 1 1 256 1)) _ rfl rfl rfl
    (fun c ts s _ _ a ha => ⟨fun h1 => ?_, fun n hn h2 => ?_⟩) r
  · rw [ok_of_toOption ha, optNat, if_neg (by omega)]
    exact wWords_one c addrText a s
  · rw [ok_of_toOption ha, optNat, if_pos (by omega), ok_of_toOption hn]
    rfl

theorem wRdx_row (r : State) : CmdRow .rdx 1 true false 1 1 (fun c ts r u => ∀ a, addrArg ts = some a →
    u = (match memRead .waili true a 1 r with
      | (.ok ws, r) => answerLines c
          [addrText a ++ codes " " ++ hexH 4 ((ws.getD 1 0).toNat * 0x10000 + (ws.getD 0 0).toNat), codes "OK"] r
      | (.refused _, r) => answerLines c [erText 20 (codes " " ++ addrText a)] r
      | (.parity, r) => answerLines c [erText 22 (codes " " ++ addrText a)] r)) r (wRdx r) :=
  cmdRow_args (fun ts _ => addrTok (argAt ts 0)) _ rfl rfl rfl
    (fun c ts s _ _ a ha => by rw [ok_of_toOption ha]; exact wRead_eq true 1 c a s) r

theorem wRd32_row (r : State) : CmdRow .rd32 1 true false 1 1 (fun c ts r u => ∀ a, addrArg ts = some a →
    u = (match memRead .waili false a 2 r with
      | (.ok ws, r) => answerLines c
          [addrText a ++ codes " " ++ hexH 8 ((ws.getD 1 0).toNat * 0x10000 + (ws.getD 0 0).toNat), codes "OK"] r
      | (.refused _, r) => answerLines c [erText 20 (codes " " ++ addrText a)] r
      | (.parity, r) => answerLines c [erText 22 (codes " " ++ addrText a)] r)) r (wRd32 r) :=
  cmdRow_args (fun ts _ => addrTok (argAt ts 0)) _ rfl rfl rfl
    (fun c ts s _ _ a ha => by rw [ok_of_toOption ha]; exact wRead_eq false 2 c a s) r

theorem wWr_row (r : State) : CmdRow .wr 1 true false 2 9 (fun c ts r u => ∀ a, addrArg ts = some a →
    ∀ vs, (numsIn (-32768) 65535 (ts.drop 1)).toOption = some vs →
      u = (match memWrites .waili a (vs.map (BitVec.ofInt 16)) r with
      | (none, r) => answerLines c [codes "OK"] r
      | (some (b, .collision), r) => answerLines c [erText 21 (codes " " ++ addrText b)] r
      | (some (b, _), r) => answerLines c [erText 20 (codes " " ++ addrText b)] r)) r (wWr r) :=
  cmdRow_args (fun ts _ => do return (← addrTok (argAt ts 0), ← numsIn (-32768) 65535 (ts.drop 1))) _ rfl rfl rfl
    (fun c ts s _ _ a ha vs hvs => by rw [ok_of_toOption ha, ok_of_toOption hvs]; exact wWrote_eq c _) r

theorem wWr32_row (r : State) : CmdRow .wr32 1 true false 2 2 (fun c ts r u => ∀ a, addrArg ts = some a →
    ∀ n, natArg ts 1 0 0xFFFFFFFF = some n →
      u = (match memWrite .waili a [wd n, wd (n / 0x10000)] r with
      | (.ok, r) => answerLines c [codes "OK"] r
      | (.collision, r) => answerLines c [erText 21 (codes " " ++ addrText a)] r
      | (_, r) => answerLines c [erText 20 (codes " " ++ addrText a)] r)) r (wWr32 r) := by
  refine cmdRow_args (fun ts _ => do return (← addrTok (argAt ts 0), ← natIn 0 0xFFFFFFFF (argAt ts 1))) _ rfl rfl rfl
    (fun c ts s _ _ a ha n hn => ?_) r
  rw [ok_of_toOption ha, ok_of_toOption hn]
  show (match memWrite .waili a [wd n, wd (n / 0x10000)] s with
    | (.ok, s) => wOk c s
    | (r, s) => wAccErr c (wrCode r) a s) = _
  obtain ⟨ans, s'⟩ := memWrite .waili a [wd n, wd (n / 0x10000)] s
  cases ans <;> rfl

end Sys2Proof.Machine

/-! ## Mode, configuration, fault and abort commands (R830-R835, R957, R971) -/

namespace Sys2Proof.Machine

theorem natIn_le {lo hi n : Nat} {t : Tok} (h : natIn lo hi t = .ok n) : n ≤ hi := by
  unfold natIn numIn at h
  split at h
  · split_ifs at h with hv
    · have hn : Int.toNat _ = n := Except.ok.inj h
      omega
    · exact absurd h (by simp [Except.map])
  · exact absurd h (by simp [Except.map])

theorem wMode_row (r : State) : CmdRow .mode 1 false false 0 0 (fun c _ r u =>
    u = answerLines c [codes "MODE " ++ codes (modeName r.modes.mode) ++ (if r.modes.pend then codes " PEND" else [])
      ++ codes " REFUSE " ++ dec (regF r Reg.sys_MODESTAT 0 4), codes "OK"] r) r (wMode r) :=
  cmdRow_plain (k := .mode) (fun c s => wOk c (respond c (modeText s) s)) rfl rfl rfl (fun _ _ _ => by rfl) r

theorem wModeReq_row {k : Kw} (hk : kwModes k = .run) (hlock : kwLocked k = false) (hloc : kwLocal k = false) (q : ModeReq)
    (r : State) : CmdRow k 1 false false 0 0 (fun c _ r u =>
      u.modes = (modeRequest true q r).modes ∧ u.waili.run.any (fun q => q.2 == c) = true ∧
        u.waili.out = (modeRequest true q r).waili.out) r (wModeReq k q r) :=
  cmdRow_plain _ (by rw [hk]; rfl) hlock hloc
    (fun c _ s => ⟨rfl, show (some (_, c) : Option (WWait × WCtx)).any (fun q => q.2 == c) = true by simp, rfl⟩) r

theorem wCfgGet_row (r : State) : CmdRow .cfgGet 1 false false 1 2 (fun c ts r u => ∀ a, natArg ts 0 0 4095 = some a →
    (ts.length = 1 → u = (match memRead .waili false (0x16000 + a) 1 r with
      | (.ok ws, r) => answerLines c
          [codes "W " ++ dec (0x16000 + a - 0x16000) ++ codes " " ++ hexH 4 (ws.headD 0).toNat, codes "OK"] r
      | (.refused _, r) => answerLines c [erText 20 (codes " " ++ addrText (0x16000 + a))] r
      | (.parity, r) => answerLines c [erText 22 (codes " " ++ addrText (0x16000 + a))] r)) ∧
    (∀ n, natArg ts 1 1 256 = some n → ts.length = 2 → 4096 < a + n → u = answerLines c [erText 6 []] r)) r (wCfgGet r) := by
  refine cmdRow_args (fun ts _ => do
      let w ← natIn 0 4095 (argAt ts 0)
      let n ← optNat ts 1 1 256 1
      cfgIn w n
      return (w, n)) _ rfl rfl rfl (fun c ts s _ _ a ha => ⟨fun h1 => ?_, fun n hn h2 hout => ?_⟩) r
  · have hin : a ≤ 4095 := natIn_le (ok_of_toOption ha)
    rw [ok_of_toOption ha, optNat, if_neg (by omega)]
    show wArgs (cfgIn a 1 >>= fun _ => pure (a, 1)) _ _ _ = _
    rw [cfgIn, if_pos (by omega)]
    exact wWords_one c (fun a => codes "W " ++ dec (a - 0x16000)) (0x16000 + a) s
  · rw [ok_of_toOption ha, optNat, if_pos (by omega), ok_of_toOption hn]
    show wArgs (cfgIn a n >>= fun _ => pure (a, n)) _ _ _ = _
    rw [cfgIn, if_neg (by omega)]
    rfl

theorem numsIn_length {lo hi : Int} {ts : List Tok} {vs : List Int} (h : numsIn lo hi ts = .ok vs) : vs.length = ts.length := by
  induction ts generalizing vs with
  | nil => exact (Except.ok.inj h) ▸ rfl
  | cons t ts ih =>
    unfold numsIn at h
    split at h
    · next v l hv hl =>
      rw [← Except.ok.inj h, List.length_cons, List.length_cons, ih hl]
    · exact absurd h (by simp)
    · exact absurd h (by simp)

theorem wCfgSet_row (r : State) : CmdRow .cfgSet 2 false false 2 9 (fun c ts r u =>
    (commitBusy r = true → u = answerLines c [erText 32 []] r) ∧
    (commitBusy r = false → ∀ a, natArg ts 0 0 4095 = some a → ∀ vs, (numsIn (-32768) 65535 (ts.drop 1)).toOption = some vs →
      if 4096 < a + vs.length then u = answerLines c [erText 6 []] r
      else u = (match memWrites .waili (0x16000 + a) (vs.map (BitVec.ofInt 16)) r with
        | (none, r) => answerLines c [codes "OK"] r
        | (some (b, .collision), r) => answerLines c [erText 21 (codes " " ++ addrText b)] r
        | (some (b, _), r) => answerLines c [erText 20 (codes " " ++ addrText b)] r))) r (wCfgSet r) := by
  refine cmdRow_of rfl rfl rfl (fun c ts _ s h hb => ?_) (fun c ts _ s hlo hhi => ⟨fun hb => ?_, fun hb a ha vs hvs => ?_⟩) r
  · rw [if_neg (by simp [hb]), argc_error h]
    rfl
  · rw [if_pos hb]
    rfl
  · have hlen : vs.length = ts.length - 1 := by
      rw [numsIn_length (ok_of_toOption hvs), List.length_drop]
    have hbusy : ¬ commitBusy s = true := by simp [hb]
    split_ifs with hout
    · rw [argc_ok hlo hhi, ok_of_toOption ha, ok_of_toOption hvs]
      show wArgs (cfgIn a (ts.length - 1) >>= fun _ => pure (a, vs)) c _ s = _
      rw [cfgIn, if_neg (by omega)]
      rfl
    · rw [argc_ok hlo hhi, ok_of_toOption ha, ok_of_toOption hvs]
      show wArgs (cfgIn a (ts.length - 1) >>= fun _ => pure (a, vs)) c _ s = _
      rw [cfgIn, if_pos (by omega)]
      exact wWrote_eq c _

theorem wCfgCheck_row (r : State) : CmdRow .cfgCheck 1 false false 0 0 (fun c _ r u =>
    if commitBusy r = true then u = answerLines c [erText 32 []] r
    else u = answerLines c [codes "RSN " ++ dec (wcCheck r).1 ++ codes " " ++ codes (reasonName (wcCheck r).1),
      if (wcCheck r).1 = 0 then codes "OK" else erText 30 []] (wcCheck r).2) r (wCfgCheck r) := by
  refine cmdRow_plain _ rfl rfl rfl (fun c _ s => ?_) r
  by_cases hb : commitBusy s = true
  · rw [if_pos hb, if_pos hb]
    rfl
  · rw [if_neg hb, if_neg hb]
    generalize wcCheck s = x
    by_cases h : x.1 = 0
    · rw [if_pos h, if_pos h]
      rfl
    · rw [if_neg h, if_neg h]
      rfl

/-! ### The commit (R181-R185, R834) -/

/-- What a commit writes as it starts: registers, the memory and the flash's record. -/
def CommitWrites (s u : State) : Prop := ∃ regs hw mem flash, u = { s with regs := regs, hw := hw, mem := mem, flash := flash }

theorem CommitWrites.refl (s : State) : CommitWrites s s := ⟨_, _, _, _, rfl⟩

theorem CommitWrites.trans {s t u : State} (h : CommitWrites s t) (h' : CommitWrites t u) : CommitWrites s u := by
  obtain ⟨_, _, _, _, rfl⟩ := h
  obtain ⟨_, _, _, _, rfl⟩ := h'
  exact ⟨_, _, _, _, rfl⟩

theorem commitWrites_wcCheck (s : State) : CommitWrites s (wcCheck s).2 := by
  obtain ⟨mem, h⟩ := storeCrc_eq s
  rw [wcCheck_eq, h]
  exact ⟨_, s.hw, mem, s.flash, rfl⟩

theorem commitWrites_commitStop (ok tmo : Bool) (s : State) : CommitWrites s (commitStop ok tmo s) := by
  unfold commitStop
  split_ifs
  · exact ⟨s.regs, s.hw, s.mem, _, rfl⟩
  · exact ⟨_, _, s.mem, _, rfl⟩

theorem commitWrites_copyPrepared (gen : Nat) (s : State) : CommitWrites s (copyPrepared gen s) := by
  obtain ⟨mem, h⟩ := copyPrepared_eq gen s
  exact ⟨s.regs, s.hw, mem, s.flash, h⟩

theorem commitWrites_commitGoesOn (s : State) : CommitWrites s (commitGoesOn s) := by
  have hgen : CommitWrites s (genTaken s) := ⟨s.regs, s.hw, s.mem, _, rfl⟩
  unfold commitGoesOn
  split_ifs
  · exact hgen.trans (commitWrites_commitStop false false _)
  · dsimp only
    refine hgen.trans ((commitWrites_copyPrepared (nextGen s) _).trans ?_)
    generalize copyPrepared (nextGen s) (genTaken s) = t
    split_ifs
    · exact ⟨t.regs, t.hw, t.mem, _, rfl⟩
    · exact ⟨t.regs, t.hw, t.mem, _, rfl⟩

theorem commitWrites_armCommit (m : Master) (s : State) : CommitWrites s (armCommit m s) := by
  rw [armCommit_eq]
  split_ifs
  · exact .refl s
  · have hbegun : CommitWrites s (commitBegun m s) := ⟨_, s.hw, s.mem, _, rfl⟩
    refine (hbegun.trans (commitWrites_wcCheck _)).trans ?_
    dsimp only
    split_ifs
    · exact commitWrites_commitStop false false _
    · exact commitWrites_commitGoesOn _

theorem wCfgCommit_row (r : State) : CmdRow .cfgCommit 2 false false 0 0 (fun c _ r u =>
    if commitBusy r = true then u = answerLines c [erText 32 []] r
    else u.flash = (armCommit .waili r).flash ∧ u.waili.run = some (.commit, c) ∧ u.waili.progDue = r.now + 8000000 ∧
      u.waili.out = r.waili.out) r (wCfgCommit r) := by
  refine cmdRow_plain _ rfl rfl rfl (fun c _ s => ?_) r
  by_cases hb : commitBusy s = true
  · rw [if_pos hb, if_pos hb]
    rfl
  · obtain ⟨_, _, _, _, h⟩ := commitWrites_armCommit .waili s
    rw [if_neg hb, if_neg hb]
    refine ⟨rfl, rfl, ?_, ?_⟩
    · rw [h]
      rfl
    · rw [h]
      rfl

/-! ### Faults and aborts (R835, R957, R971) -/

theorem answerLines_append (c : WCtx) (l l' : List (List Byte)) (s : State) :
    answerLines c (l ++ l') s = answerLines c l' (answerLines c l s) := List.foldl_append

theorem wFault_row (r : State) : CmdRow .fault 0 false false 0 0 (fun c _ r u =>
    u = answerLines c ((codes "FSW " ++ hexH 4 (reg r Reg.fcol_FSW).toNat) ::
      r.fcol.hist.zipIdx.map (fun p => codes "H " ++ dec p.2 ++ codes " " ++ hexH 12 p.1.stamp.toNat ++ codes " "
        ++ codes (classNames.getD p.1.cls.val "") ++ codes " L" ++ dec p.1.level ++ codes " " ++ hexH 4 p.1.detail.toNat)
      ++ [codes "OK"]) r) r (wFault r) := by
  refine cmdRow_plain _ rfl rfl rfl (fun c _ s => ?_) r
  rw [answerLines_append]
  show wOk c _ = wOk c _
  rw [answerLines, List.foldl_cons, List.foldl_map]
  rfl

/-- A step taken for one element of a list without repetitions is taken once. -/
theorem foldl_if_eq {α β : Type} [DecidableEq α] (f : β → β) (i : α) {l : List α} (hl : l.Nodup) (s : β) :
    l.foldl (fun s x => if x = i then f s else s) s = if i ∈ l then f s else s := by
  induction l generalizing s with
  | nil => rfl
  | cons x l ih =>
    have hx : x ∉ l := (List.nodup_cons.mp hl).1
    rw [List.foldl_cons, ih (List.nodup_cons.mp hl).2]
    by_cases hxi : x = i
    · subst hxi
      simp [hx]
    · simp [hxi, Ne.symm hxi]

theorem classNames_findIdx_lt {t : Tok} {i : Nat} (h : classNames.findIdx? (fun n => codes n == t) = some i) : i < 16 :=
  (List.findIdx?_eq_some_iff_getElem.mp h).1

theorem fswWrite_class (i : Fin 16) (s : State) : fswWrite .waili (wd (2 ^ i.val)) s = clearClass i s := by
  have hbit : ∀ c : Fin 16, (wd (2 ^ i.val)).getLsbD c = decide (c = i) := by decide +revert
  have hone : ∀ s c, (if (wd (2 ^ i.val)).getLsbD (c : Fin 16) then clearClass c s else s) = if c = i then clearClass i s else s := by
    intro s c
    rw [hbit]
    by_cases h : c = i <;> simp [h]
  rw [fswWrite, show privileged .waili = true from rfl, if_pos rfl]
  simp only [hone]
  exact (foldl_if_eq (clearClass i) i (List.nodup_finRange 16) s).trans (if_pos (List.mem_finRange i))

theorem ackWrite_class {i : Nat} (hi : i < 16) (s : State) : ackWrite .waili (wd (2 ^ i)) s = ackClass i s := by
  have hbit : ∀ c, (wd (2 ^ i)).getLsbD c = decide (c = i) := by
    intro c
    simp only [wd, BitVec.getLsbD_ofNat, Nat.testBit_two_pow]
    by_cases h : i = c
    · simp [h ▸ hi, h]
    · simp [h, Ne.symm h]
  have hone : ∀ s c, (if (wd (2 ^ i)).getLsbD c then ackClass c s else s) = if c = i then ackClass i s else s := by
    intro s c
    rw [hbit]
    by_cases h : c = i <;> simp [h]
  rw [ackWrite, show privileged .waili = true from rfl, if_pos rfl]
  simp only [hone]
  exact (foldl_if_eq (ackClass i) i List.nodup_range s).trans (if_pos (List.mem_range.mpr hi))

/-- A class not handled in this tick is cleared with its acknowledgement. -/
theorem clearClass_ackClass {i : Nat} (hi : i < 16) {s : State} (h : handledNow s i = false) :
    regBit (clearClass ⟨i, hi⟩ (ackClass i s)) Reg.fcol_FSW i = false ∧
      regBit (clearClass ⟨i, hi⟩ (ackClass i s)) Reg.fcol_ACK i = false := by
  have hack : handledNow (ackClass i s) i = false := by
    unfold ackClass
    split_ifs
    · exact h
    · exact h
  have hlv : ∀ a, a < Reg.fcol_LV 0 → ∀ t, reg (setLv ⟨i, hi⟩ 0 t) a = reg t a := fun a ha t =>
    reg_setRegF_other _ _ _ t (by simp only [Reg.fcol_LV] at ha ⊢; omega)
  rw [clearClass, hack, if_neg (by decide), regBit, regBit, hlv _ (by decide), hlv _ (by decide)]
  refine ⟨?_, regBit_setRegBit_same _ _ _ _ hi⟩
  rw [reg_setRegBit_other _ _ _ (by decide)]
  exact regBit_setRegBit_same _ _ _ _ hi

theorem wFaultClr_row (r : State) : CmdRow .faultClr 1 false false 1 1 (fun c ts r u =>
    (classNames.findIdx? (fun n => codes n == argAt ts 0) = none → u = answerLines c [erText 6 []] r) ∧
    ∀ i, classNames.findIdx? (fun n => codes n == argAt ts 0) = some i →
      u = answerLines c [codes "OK"] (fswWrite .waili (wd (2 ^ i)) (ackWrite .waili (wd (2 ^ i)) r)) ∧
      (handledNow r i = false → regBit u Reg.fcol_FSW i = false ∧ regBit u Reg.fcol_ACK i = false)) r (wFaultClr r) := by
  refine cmdRow_args (fun ts _ => classTok (argAt ts 0)) _ rfl rfl rfl
    (fun c ts s _ _ => ⟨fun hnone => ?_, fun i hi => ?_⟩) r
  · rw [classTok, hnone]
    rfl
  · have hlt := classNames_findIdx_lt hi
    rw [classTok, hi]
    refine ⟨rfl, fun hnow => ?_⟩
    obtain ⟨hfsw, hack⟩ := clearClass_ackClass hlt hnow
    rw [← ackWrite_class hlt, ← fswWrite_class ⟨i, hlt⟩] at hfsw hack
    have hregs := respond_regs c (codes "OK") (fswWrite .waili (wd (2 ^ i)) (ackWrite .waili (wd (2 ^ i)) s))
    exact ⟨(congrArg (fun l => (cget regReset l Reg.fcol_FSW).getLsbD i) hregs).trans hfsw,
      (congrArg (fun l => (cget regReset l Reg.fcol_ACK).getLsbD i) hregs).trans hack⟩

/-- ABORT takes one or two arguments. -/
theorem abortTok_error {ts : List Tok} (h : ¬ (1 ≤ ts.length ∧ ts.length ≤ 2)) : abortTok ts = .error 6 := by
  have h1 : ¬ (1 ≤ ts.length ∧ ts.length ≤ 1) := by omega
  have h2 : ¬ (2 ≤ ts.length ∧ ts.length ≤ 2) := by omega
  unfold abortTok
  split
  · rfl
  · rw [argc_error h1]
    rfl
  · rw [argc_error h2]
    rfl

theorem wAbort_row (r : State) : CmdRow .abort 1 false false 1 2 (fun c ts r u => ∀ p, (abortTok ts).toOption = some p →
    if abortPending r 8 = true then u = answerLines c [erText 6 []] r
    else u.fcol = (abortRequest 8 p.1 p.2 r).fcol ∧ u.waili.run = some (.abort p.1 p.2, c) ∧
      u.waili.out = (abortRequest 8 p.1 p.2 r).waili.out) r (wAbort r) := by
  refine cmdRow_of rfl rfl rfl (fun c ts _ s h _ => ?_) (fun c ts _ s _ _ p hp => ?_) r
  · rw [abortTok_error h]
    rfl
  · rw [ok_of_toOption hp, wArgs]
    split_ifs
    · rfl
    · exact ⟨rfl, rfl, rfl⟩

end Sys2Proof.Machine

/-! ## Flash commands and their polls (R836-R838) -/

namespace Sys2Proof.Machine

theorem wFlId_row (r : State) : CmdRow .flId 0 true false 0 0 (fun c _ r u =>
    u = answerLines c [codes "SFDP " ++ dec (regF r Reg.sys_BOOTSTAT 10 1) ++ codes " SIZE "
      ++ dec (flashCap r / 1024) ++ codes " ERASE " ++ dec (eraseSize r) ++ codes " ADDR "
      ++ dec (if regBit r Reg.flash_STAT 7 then 4 else 3), codes "OK"] r) r (wFlId r) :=
  cmdRow_plain (k := .flId) _ rfl rfl rfl (fun _ _ _ => by rfl) r

/-- A flash command waits for the flash master. -/
theorem flWait_spec (w : WWait) (c : WCtx) (s : State) :
    (flWait w c s).waili.run = some (w, c) ∧ (flWait w c s).waili.out = s.waili.out ∧
      (flWait w c s).flash.cells = s.flash.cells ∧ (flWait w c s).regs = s.regs := by
  unfold flWait flashWait
  split_ifs <;> exact ⟨rfl, rfl, rfl, rfl⟩

theorem ok_bind {α β : Type} (a : α) (f : α → Except Nat β) : (Except.ok a >>= f) = f a := rfl

theorem flIn_eq (s : State) (f n : Nat) : flIn s f n = if flashCap s < f + n then .error 6 else .ok () := by
  unfold flIn
  by_cases h : flashCap s < f + n
  · rw [if_pos h, if_neg (by omega)]
  · rw [if_neg h, if_pos (by omega)]

theorem flWindow_eq (s : State) (f n : Nat) : flWindow s f n =
    if s.modes.bootsu = false ∧ ¬ ((reg32 s Reg.cour_FWIN).toNat ≤ f ∧ f + n ≤ (reg32 s Reg.cour_FWLIM).toNat + 1)
    then .error 23 else .ok () := by
  unfold flWindow
  cases hb : s.modes.bootsu <;>
    by_cases h : (reg32 s Reg.cour_FWIN).toNat ≤ f ∧ f + n ≤ (reg32 s Reg.cour_FWLIM).toNat + 1 <;> simp [h]

theorem wFlRd_row (r : State) : CmdRow .flRd 0 true false 1 2 (fun c ts r u => ∀ f, natArg ts 0 0 0xFFFFFFFF = some f →
    ∀ n, (if ts.length = 1 then some 16 else natArg ts 1 1 64) = some n →
      if flashCap r < f + n then u = answerLines c [erText 6 []] r
      else u.waili.run = some (.flashRead f n, c) ∧ u.waili.out = r.waili.out ∧ u.flash.cells = r.flash.cells ∧
        u.regs = r.regs) r (wFlRd r) := by
  refine cmdRow_args (fun ts s => do
      let f ← natIn 0 0xFFFFFFFF (argAt ts 0)
      let n ← optNat ts 1 1 64 16
      flIn s f n
      return (f, n)) _ rfl rfl rfl (fun c ts s hlo hhi f hf n hn => ?_) r
  have hopt : optNat ts 1 1 64 16 = .ok n := by
    unfold optNat
    by_cases h1 : ts.length = 1
    · rw [if_pos h1] at hn
      rw [if_neg (by omega), Option.some.inj hn]
    · rw [if_neg h1] at hn
      rw [if_pos (by omega), ok_of_toOption hn]
  simp only [ok_of_toOption hf, hopt, ok_bind, flIn_eq]
  by_cases hcap : flashCap s < f + n
  · rw [if_pos hcap, if_pos hcap]
    rfl
  · rw [if_neg hcap, if_neg hcap]
    exact flWait_spec (.flashRead f n) c s

theorem wFlEr_row (r : State) : CmdRow .flEr 3 true false 1 1 (fun c ts r u => ∀ f, natArg ts 0 0 0xFFFFFFFF = some f →
    if flashCap r < f + 1 then u = answerLines c [erText 6 []] r
    else if r.modes.bootsu = false ∧ ¬ ((reg32 r Reg.cour_FWIN).toNat ≤ eraseBase r f ∧
        eraseBase r f + eraseSize r ≤ (reg32 r Reg.cour_FWLIM).toNat + 1) then u = answerLines c [erText 23 []] r
    else u.waili.run = some (.flash false (eraseBase r f) [], c) ∧ u.waili.out = r.waili.out ∧
      u.flash.cells = r.flash.cells ∧ u.regs = r.regs) r (wFlEr r) := by
  refine cmdRow_args (fun ts s => do
      let f ← natIn 0 0xFFFFFFFF (argAt ts 0)
      flIn s f 1
      flWindow s (eraseBase s f) (eraseSize s)
      return eraseBase s f) _ rfl rfl rfl (fun c ts s _ _ f hf => ?_) r
  simp only [ok_of_toOption hf, ok_bind, flIn_eq, flWindow_eq]
  by_cases hcap : flashCap s < f + 1
  · rw [if_pos hcap, if_pos hcap]
    rfl
  · rw [if_neg hcap, if_neg hcap]
    split_ifs
    · rfl
    · exact flWait_spec (.flash false (eraseBase s f) []) c s

theorem wFlPg_row (r : State) : CmdRow .flPg 3 true false 2 2 (fun c ts r u => ∀ f, natArg ts 0 0 0xFFFFFFFF = some f →
    ∀ d, (dataTok (argAt ts 1)).toOption = some d →
      if f / 256 ≠ (f + d.length - 1) / 256 ∨ flashCap r < f + d.length then u = answerLines c [erText 6 []] r
      else if r.modes.bootsu = false ∧ ¬ ((reg32 r Reg.cour_FWIN).toNat ≤ f ∧ f + d.length ≤ (reg32 r Reg.cour_FWLIM).toNat + 1) then
        u = answerLines c [erText 23 []] r
      else u.waili.run = some (.flash true f d, c) ∧ u.waili.out = r.waili.out ∧ u.flash.cells = r.flash.cells ∧
        u.regs = r.regs) r (wFlPg r) := by
  refine cmdRow_args (fun ts s => do
      let f ← natIn 0 0xFFFFFFFF (argAt ts 0)
      let d ← dataTok (argAt ts 1)
      inPage f d.length
      flIn s f d.length
      flWindow s f d.length
      return (f, d)) _ rfl rfl rfl (fun c ts s _ _ f hf d hd => ?_) r
  simp only [ok_of_toOption hf, ok_of_toOption hd, ok_bind, flIn_eq, flWindow_eq, inPage]
  by_cases hpage : f / 256 = (f + d.length - 1) / 256
  · by_cases hcap : flashCap s < f + d.length
    · rw [if_pos hpage, if_pos hcap, if_pos (.inr hcap)]
      rfl
    · rw [if_pos hpage, if_neg hcap, if_neg (by rintro (h | h); exacts [h hpage, hcap h])]
      simp only [ok_bind]
      split_ifs
      · rfl
      · exact flWait_spec (.flash true f d) c s
  · rw [if_neg hpage, if_pos (.inl hpage)]
    rfl

/-! ### The polls -/

theorem flashRelease_cells (s : State) : ∃ f, flashRelease s = { s with flash := f } ∧ f.cells = s.flash.cells := by
  unfold flashRelease
  extract_lets t
  split
  · split_ifs
    · exact ⟨_, rfl, rfl⟩
    · exact ⟨_, rfl, rfl⟩
  · exact ⟨_, rfl, rfl⟩

/-- A line of a command goes to the Loop or to WTX. -/
theorem respond_eq (c : WCtx) (l : List Byte) (s : State) : ∃ loop out uwait, respond c l s =
    { s with loop := loop, waili := { s.waili with out := out, uwait := uwait } } := by
  have hline : ∀ sfx l, ∃ out uwait, wline sfx l s = { s with waili := { s.waili with out := out, uwait := uwait } } := by
    intro sfx l
    unfold wline wchars setWaili
    dsimp only
    split_ifs <;> exact ⟨_, _, rfl⟩
  unfold respond
  split
  · exact ⟨_, s.waili.out, s.waili.uwait, rfl⟩
  · split
    · obtain ⟨out, uwait, h⟩ := hline c.suffix _
      exact ⟨s.loop, out, uwait, h⟩
    · obtain ⟨out, uwait, h⟩ := hline c.suffix l
      exact ⟨s.loop, out, uwait, h⟩

/-- What WTX sends of a line rests on what it sends already, on the data line begun and on STRICT. -/
theorem respond_out_congr (c : WCtx) (l : List Byte) {s t : State} (hout : t.waili.out = s.waili.out)
    (hbegun : t.waili.ubegun = s.waili.ubegun) (hregs : t.regs = s.regs) :
    (respond c l t).waili.out = (respond c l s).waili.out := by
  have hline : ∀ sfx l, (wline sfx l t).waili.out = (wline sfx l s).waili.out := by
    intro sfx l
    have hstrict : strict t = strict s := congrArg (fun q => (cget regReset q Reg.waili_CTL).getLsbD 1) hregs
    unfold wline wchars setWaili
    dsimp only
    rw [hbegun, hstrict]
    split_ifs
    · exact hout
    · exact hout
    · exact congrArg (· ++ _) hout
    · exact congrArg (· ++ _) hout
  unfold respond
  split
  · exact hout
  · split
    · exact hline _ _
    · exact hline _ _

/-- A flash command that ends is answered by a line once the flash master is free. -/
theorem flashEnds_spec (c : WCtx) (l : List Byte) {r s : State} (hwaili : s.waili = r.waili) (hregs : s.regs = r.regs) :
    let u := respond c l (wEnd (flashRelease s))
    u.waili.run = none ∧ u.waili.polling = false ∧ u.flash.cells = s.flash.cells ∧
      u.waili.out = (respond c l r).waili.out := by
  obtain ⟨f, hf, hcells⟩ := flashRelease_cells s
  have hout := respond_out_congr c l (s := r) (t := wEnd (flashRelease s)) (by rw [hf, ← hwaili]; rfl)
    (by rw [hf, ← hwaili]; rfl) (by rw [hf, ← hregs]; rfl)
  obtain ⟨loop, out, uwait, hu⟩ := respond_eq c l (wEnd (flashRelease s))
  dsimp only
  refine ⟨?_, ?_, ?_, hout⟩
  · rw [hu]
    rfl
  · rw [hu]
    rfl
  · rw [hu, hf]
    exact hcells

theorem wPollDone_outcome (r : State) :
    let due := r.waili.polling = true ∧ r.flash.answers = true ∧ r.now ≤ r.waili.pollDue
    let u := wPollDone r
    (¬ due → u = r) ∧
    ∀ q, (match r.waili.run with | some (.flash page a d, c) => some (page, a, d, c) | _ => none) = some q → due →
      (r.waili.pollPre = true → u.flash.cut = none ∧ u.waili.run = r.waili.run ∧ u.waili.pollPre = false ∧
        u.waili.out = r.waili.out) ∧
      (r.waili.pollPre = false → u.waili.run = none ∧ u.waili.polling = false ∧
        u.flash.cells = (if q.1 then flashProgram q.2.1 q.2.2.1 r else flashErase q.2.1 (eraseSize r) r).flash.cells ∧
        u.waili.out = (respond q.2.2.2 (codes "OK") r).waili.out) := by
  have hguard : (!r.waili.polling || !r.flash.answers || decide (r.waili.pollDue < r.now)) = true ↔
      ¬ (r.waili.polling = true ∧ r.flash.answers = true ∧ r.now ≤ r.waili.pollDue) := by
    cases r.waili.polling <;> cases r.flash.answers <;> simp
  dsimp only
  refine ⟨fun h => if_pos (hguard.mpr h), fun q hq hdue => ?_⟩
  rw [wPollDone, if_neg (fun h => hguard.mp h hdue)]
  split at hq
  · next page a d c hrun =>
    obtain rfl := Option.some.inj hq
    rw [hrun]
    dsimp only
    refine ⟨fun hpre => ?_, fun hpre => ?_⟩
    · rw [if_pos hpre]
      exact ⟨rfl, hrun, rfl, rfl⟩
    · rw [if_neg (by simp [hpre])]
      cases page with
      | true => exact flashEnds_spec c (codes "OK") (r := r) rfl rfl
      | false => exact flashEnds_spec c (codes "OK") (r := r) rfl rfl
  · exact absurd hq (by simp)

theorem flashUndefined_eq (a n : Nat) (s : State) : ∃ flash free, flashUndefined a n s = { s with flash := flash, free := free } := by
  induction n generalizing a s with
  | zero => exact ⟨_, _, rfl⟩
  | succ n ih =>
    obtain ⟨flash, free, h⟩ := ih (a + 1)
      { s with flash := { s.flash with cells := cset flashDefault s.flash.cells a (Config.freeByte s.free) }, free := s.free + 1 }
    exact ⟨flash, free, h⟩

theorem wPollTimeout_outcome (r : State) :
    let due := r.waili.polling = true ∧ r.waili.pollDue < r.now
    let u := wPollTimeout r
    (¬ due → u = r) ∧
    ∀ q, r.waili.run = some q → due → u.waili.run = none ∧ u.waili.polling = false ∧
      u.waili.out = (respond q.2 (erText 24 []) r).waili.out := by
  have hguard : (!r.waili.polling || decide (r.now ≤ r.waili.pollDue)) = true ↔
      ¬ (r.waili.polling = true ∧ r.waili.pollDue < r.now) := by
    cases r.waili.polling <;> simp
  dsimp only
  refine ⟨fun h => if_pos (hguard.mpr h), fun q hq hdue => ?_⟩
  rw [wPollTimeout, if_neg (fun h => hguard.mp h hdue), hq]
  have hend : ∀ s : State, s.waili = r.waili → s.regs = r.regs → ∀ c : WCtx,
      (wErr c 24 (wEnd (flashRelease s))).waili.run = none ∧ (wErr c 24 (wEnd (flashRelease s))).waili.polling = false ∧
        (wErr c 24 (wEnd (flashRelease s))).waili.out = (respond c (erText 24 []) r).waili.out := fun s hw hregs c =>
    have h := flashEnds_spec c (erText 24 []) hw hregs
    ⟨h.1, h.2.1, h.2.2.2⟩
  obtain ⟨w, c⟩ := q
  split
  · next page a d c' heq =>
    obtain ⟨-, rfl⟩ := Prod.mk.inj (Option.some.inj heq)
    have hhalf : ∃ flash free, (if r.waili.pollPre then r else flashHalf (flKind page) a r) =
        { r with flash := flash, free := free } := by
      split_ifs
      · exact ⟨r.flash, r.free, rfl⟩
      · cases page
        · exact flashUndefined_eq _ _ r
        · exact flashUndefined_eq _ _ r
    obtain ⟨flash, free, h⟩ := hhalf
    dsimp only
    rw [h]
    exact hend { r with flash := flash, free := free } rfl rfl c
  · next heq =>
    obtain ⟨-, rfl⟩ := Prod.mk.inj (Option.some.inj heq)
    exact hend r rfl rfl c
  · next heq => exact absurd heq (by simp)

end Sys2Proof.Machine

/-! ## Every Waili command is answered (R825-R838) -/

namespace Sys2Proof.Machine

/-- Settles O55: each command by its row lemma, the polls by `wPollDone_outcome` and `wPollTimeout_outcome`. -/
theorem wailiCommandsAnswer : Obligations.WailiCommandsAnswer := by
  unfold Obligations.WailiCommandsAnswer
  intro s dt hup lines row nat at_ flag
  have hlines : lines = answerLines := rfl
  have hrow : row = CmdRow := rfl
  have hnat : nat = natArg := rfl
  have hat : at_ = addrArg := rfl
  have hflag : flag = armField := rfl
  clear_value flag at_ nat row lines
  subst hlines hrow hnat hat hflag
  exact ⟨Acts.of rfl hup (cmdRow_plain (k := .id) _ rfl rfl rfl (fun _ _ _ => by rfl) _),
    Acts.of rfl hup (cmdRow_plain (k := .ping) wOk rfl rfl rfl (fun _ _ _ => by rfl) _),
    Acts.of rfl hup (cmdRow_plain (k := .help) _ rfl rfl rfl (fun _ _ _ => by rfl) _),
    Acts.of rfl hup (wEchoCmd_row _), Acts.of rfl hup (wStrict_row _), Acts.of rfl hup (wBaud_row _),
    Acts.of rfl hup (cmdRow_plain (k := .boot) _ rfl rfl rfl (fun _ _ _ => by rfl) _),
    Acts.of rfl hup (cmdRow_plain (k := .stat) _ rfl rfl rfl (fun _ _ _ => by rfl) _),
    Acts.of rfl hup (wRd_row _), Acts.of rfl hup (wRdx_row _), Acts.of rfl hup (wRd32_row _), Acts.of rfl hup (wWr_row _),
    Acts.of rfl hup (wWr32_row _), Acts.of rfl hup (wMode_row _),
    Acts.of rfl hup (wModeReq_row (k := .modeRun) rfl rfl rfl .run _),
    Acts.of rfl hup (wModeReq_row (k := .modeSetup) rfl rfl rfl .setup _),
    Acts.of rfl hup (wModeReq_row (k := .modeLimp) rfl rfl rfl .limp _),
    Acts.of rfl hup (cmdRow_plain (k := .cfgStat) _ rfl rfl rfl (fun _ _ _ => by rfl) _),
    Acts.of rfl hup (wCfgGet_row _), Acts.of rfl hup (wCfgSet_row _), Acts.of rfl hup (wCfgCheck_row _),
    Acts.of rfl hup (wCfgCommit_row _), Acts.of rfl hup (wFault_row _), Acts.of rfl hup (wFaultClr_row _),
    Acts.of rfl hup (wAbort_row _), Acts.of rfl hup (wFlId_row _), Acts.of rfl hup (wFlRd_row _),
    Acts.of rfl hup (wFlEr_row _), Acts.of rfl hup (wFlPg_row _),
    ActsAfter.of rfl hup (wPollDone_outcome _), ActsAt.of rfl hup (wPollTimeout_outcome _)⟩

end Sys2Proof.Machine

/-! ## Waili receives characters (R803-R808) -/

namespace Sys2Proof.Machine

theorem regF_hwCountF_one (a lo : Nat) (h : lo + 8 ≤ 16) (s : State) :
    regF (hwCountF a lo 8 1 s) a lo 8 = min 255 (regF s a lo 8 + 1) := by
  rw [regF, reg_hwCountF_same, fld_putFld _ _ _ _ h, satAdd, regF]
  omega

theorem regF_signal {a : Nat} (ha : a ∉ runst) (lo len : Nat) (n : Fin 96) (s : State) :
    regF (signal n s) a lo len = regF s a lo len := congrArg (fld · lo len) (reg_signal ha n s)

/-- Characters for WTX wait behind a data line of firmware that has begun. -/
theorem wchars_eq (l : List Byte) (s : State) : ∃ out uwait,
    wchars l s = { s with waili := { s.waili with out := out, uwait := uwait } } ∧
      (s.waili.ubegun = false → out = s.waili.out ++ l) := by
  by_cases hb : s.waili.ubegun = true
  · exact ⟨s.waili.out, s.waili.uwait ++ l, by simp only [wchars, setWaili, hb, if_true], fun h => absurd hb (by simp [h])⟩
  · exact ⟨s.waili.out ++ l, s.waili.uwait, by simp only [wchars, setWaili, hb, if_false, Bool.false_eq_true], fun _ => rfl⟩

/-- The suffix of a line, where asked for or in a STRICT session. -/
def lineTail (sfx : Bool) (s : State) (l : List Byte) : List Byte :=
  if sfx || strict s then 0x7E :: hexDigits 2 (crc8 l).toNat else []

theorem wline_eq (sfx : Bool) (l : List Byte) (s : State) : ∃ out uwait,
    wline sfx l s = { s with waili := { s.waili with out := out, uwait := uwait } } ∧
      (s.waili.ubegun = false → out = s.waili.out ++ l ++ lineTail sfx s l ++ [0x0D, 0x0A]) := by
  obtain ⟨out, uwait, h, hout⟩ := wchars_eq (l ++ lineTail sfx s l ++ [0x0D, 0x0A]) s
  exact ⟨out, uwait, h, fun hb => by rw [hout hb]; simp⟩

theorem wEcho_eq (l : List Byte) (s : State) : ∃ out uwait,
    wEcho l s = { s with waili := { s.waili with out := out, uwait := uwait } } ∧
      (s.waili.ubegun = false → out = s.waili.out ++ if echoOn s then l else []) := by
  unfold wEcho
  cases echoOn s
  · exact ⟨s.waili.out, s.waili.uwait, rfl, fun _ => (List.append_nil _).symm⟩
  · exact wchars_eq l s

/-- An answer at the end of a line goes out, or waits behind the command running. -/
theorem wAnswer_eq (sfx : Bool) (n : Nat) (s : State) : ∃ out uwait later,
    wAnswer sfx n s = { s with waili := { s.waili with out := out, uwait := uwait, later := later } } ∧
      (wBusy s = false → strict s = false → sfx = false → s.waili.ubegun = false →
        out = s.waili.out ++ erText n [] ++ [0x0D, 0x0A]) := by
  unfold wAnswer
  cases hb : wBusy s
  · obtain ⟨out, uwait, h, hout⟩ := wline_eq sfx (erText n []) s
    refine ⟨out, uwait, s.waili.later, h, fun _ hs hx hu => ?_⟩
    rw [hout hu, lineTail, hs, hx]
    simp
  · exact ⟨s.waili.out, s.waili.uwait, _, rfl, fun h => absurd h (by decide)⟩

theorem erText_five : erText 5 [] = codes "ER 05 BUSY" := by decide

/-- A framing error or a break is counted and signalled. -/
theorem wFrameCount_spec (s : State) : (wFrameCount s).waili = s.waili ∧
    regF (wFrameCount s) (Reg.waili_ERR + 1) 8 8 = min 255 (regF s (Reg.waili_ERR + 1) 8 8 + 1) ∧
    hasEvent (wFrameCount s) 56 :=
  ⟨signal_waili _ _, (regF_signal (by decide) _ _ _ _).trans (regF_hwCountF_one _ 8 (by decide) s), hasEvent_signal_same _ _⟩

/-- The line that ended is handed over, or answered. -/
structure LineEnded (s u : State) : Prop where
  edit : u.waili.edit = []
  long : u.waili.long = false
  framing : u.waili.framing = false
  run : u.waili.run = s.waili.run
  lastCr : u.waili.lastCr = s.waili.lastCr
  of_long : s.waili.long = true → u.waili.hold = s.waili.hold ∧
    regF u (Reg.waili_ERR + 1) 0 8 = min 255 (regF s (Reg.waili_ERR + 1) 0 8 + 1) ∧ hasEvent u 56
  of_framing : s.waili.long = false → s.waili.framing = true → u.waili.hold = s.waili.hold ∧ hasEvent u 56
  of_empty : s.waili.long = false → s.waili.framing = false → s.waili.edit = [] → u.waili.hold = s.waili.hold ∧ u.regs = s.regs
  of_free : s.waili.long = false → s.waili.framing = false → s.waili.edit ≠ [] → s.waili.hold = none →
    u.waili.hold = some s.waili.edit ∧ u.regs = s.regs
  of_busy : s.waili.long = false → s.waili.framing = false → s.waili.edit ≠ [] → s.waili.hold ≠ none →
    u.waili.hold = s.waili.hold ∧ regF u Reg.waili_ERR 0 8 = min 255 (regF s Reg.waili_ERR 0 8 + 1) ∧
      (wBusy s = false → strict s = false → sfxRight s.waili.edit = false → s.waili.ubegun = false →
        u.waili.out = s.waili.out ++ codes "ER 05 BUSY" ++ [0x0D, 0x0A])

/-- The answer to a line too long or damaged. -/
theorem wAnswer_signalled (n : Nat) (s : State) :
    let u := wAnswer false n (signal 56 s)
    u.waili.edit = s.waili.edit ∧ u.waili.long = s.waili.long ∧ u.waili.framing = s.waili.framing ∧
      u.waili.run = s.waili.run ∧ u.waili.lastCr = s.waili.lastCr ∧ u.waili.hold = s.waili.hold ∧
      (∀ a, a ∉ runst → reg u a = reg s a) ∧ hasEvent u 56 := by
  obtain ⟨out, uwait, later, h, -⟩ := wAnswer_eq false n (signal 56 s)
  dsimp only
  rw [h, signal_waili]
  exact ⟨rfl, rfl, rfl, rfl, rfl, rfl, fun _ ha => reg_signal ha 56 s, hasEvent_signal_same 56 s⟩

theorem wLineEnd_ended (s : State) : LineEnded s (wLineEnd s) := by
  unfold wLineEnd
  extract_lets w v
  cases hlong : s.waili.long with
  | true =>
    obtain ⟨hedit, hl, hf, hrun, hcr, hhold, hreg, hev⟩ := wAnswer_signalled 2 (hwCountF (Reg.waili_ERR + 1) 0 8 1 v)
    rw [if_pos rfl]
    exact ⟨hedit, hl, hf, hrun, hcr, fun _ => ⟨hhold, (congrArg (fld · 0 8) (hreg _ (by decide))).trans
      (regF_hwCountF_one _ 0 (by decide) v), hev⟩, fun h => by simp [hlong] at h, fun h => by simp [hlong] at h,
      fun h => by simp [hlong] at h, fun h => by simp [hlong] at h⟩
  | false =>
    rw [if_neg Bool.false_ne_true]
    cases hframing : s.waili.framing with
    | true =>
      obtain ⟨hedit, hl, hf, hrun, hcr, hhold, -, hev⟩ := wAnswer_signalled 9 v
      rw [if_pos rfl]
      exact ⟨hedit, hl, hf, hrun, hcr, fun h => by simp [hlong] at h, fun _ _ => ⟨hhold, hev⟩,
        fun _ h => by simp [hframing] at h, fun _ h => by simp [hframing] at h, fun _ h => by simp [hframing] at h⟩
    | false =>
      rw [if_neg Bool.false_ne_true]
      by_cases hedit : s.waili.edit = []
      · rw [if_pos (by simp [w, hedit])]
        exact ⟨rfl, rfl, rfl, rfl, rfl, fun h => by simp [hlong] at h, fun _ h => by simp [hframing] at h,
          fun _ _ _ => ⟨rfl, rfl⟩, fun _ _ h => absurd hedit h, fun _ _ h => absurd hedit h⟩
      · rw [if_neg (by simp [w, hedit])]
        cases hhold : s.waili.hold with
        | none =>
          exact ⟨rfl, rfl, rfl, rfl, rfl, fun h => by simp [hlong] at h, fun _ h => by simp [hframing] at h,
            fun _ _ h => absurd h hedit, fun _ _ _ _ => ⟨rfl, rfl⟩, fun _ _ _ h => absurd hhold h⟩
        | some l =>
          obtain ⟨out, uwait, later, h, hout⟩ := wAnswer_eq (sfxRight w.edit) 5 (hwCountF Reg.waili_ERR 0 8 1 v)
          have hstrict : strict (hwCountF Reg.waili_ERR 0 8 1 v) = strict s :=
            congrArg (BitVec.getLsbD · 1) (reg_hwCountF_other 0 8 1 v (by decide : Reg.waili_CTL ≠ Reg.waili_ERR))
          dsimp only
          rw [h]
          exact ⟨rfl, rfl, rfl, rfl, rfl, fun h => by simp [hlong] at h, fun _ h => by simp [hframing] at h,
            fun _ _ h => absurd h hedit, fun _ _ _ h => by simp [hhold] at h,
            fun _ _ _ _ => ⟨rfl, regF_hwCountF_one _ 0 (by decide) v, fun hb hs hx hu => by
              rw [← erText_five]
              exact hout hb (hstrict.trans hs) hx hu⟩⟩

end Sys2Proof.Machine

namespace Sys2Proof.Machine

/-- A printable character, or a tab taken for a space. -/
theorem wType_spec (x : Byte) (r : State) :
    let u := wType x { r with waili := { r.waili with lastCr := false } }
    u.waili.run = r.waili.run ∧ u.waili.lastCr = false ∧ u.waili.hold = r.waili.hold ∧ u.regs = r.regs ∧
      if r.waili.edit.length < 120 then u.waili.edit = r.waili.edit ++ [x] ∧ u.waili.long = r.waili.long ∧
        (r.waili.ubegun = false → u.waili.out = r.waili.out ++ if echoOn r then [x] else [])
      else u.waili.edit = r.waili.edit ∧ u.waili.long = true ∧ u.waili.out = r.waili.out := by
  dsimp only
  rw [wType]
  by_cases hlen : r.waili.edit.length < 120
  · rw [if_pos hlen, if_pos hlen]
    obtain ⟨out, uwait, h, hout⟩ := wEcho_eq [x]
      (setWaili (fun w => { w with edit := w.edit ++ [x] }) { r with waili := { r.waili with lastCr := false } })
    rw [h]
    exact ⟨rfl, rfl, rfl, rfl, rfl, rfl, hout⟩
  · rw [if_neg hlen, if_neg hlen]
    exact ⟨rfl, rfl, rfl, rfl, rfl, rfl, rfl⟩

/-- The end of a line is echoed, and the line ends. -/
theorem wLineEnd_echoed (c : Bool) (r : State) :
    let s := { r with waili := { r.waili with lastCr := c } }
    let u := wLineEnd (wEcho [0x0D, 0x0A] s)
    (∃ out uwait, LineEnded { s with waili := { s.waili with out := out, uwait := uwait } } u ∧
      (r.waili.ubegun = false → out = r.waili.out ++ if echoOn r then [0x0D, 0x0A] else [])) := by
  dsimp only
  obtain ⟨out, uwait, h, hout⟩ := wEcho_eq [0x0D, 0x0A] { r with waili := { r.waili with lastCr := c } }
  exact ⟨out, uwait, h ▸ wLineEnd_ended _, hout⟩

/-- What the row of a received character says at the end of a line. -/
theorem wLineEnd_outcome (c : Bool) (r : State) :
    let u := wLineEnd (wEcho [0x0D, 0x0A] { r with waili := { r.waili with lastCr := c } })
    let w := r.waili
    u.waili.run = w.run ∧ u.waili.lastCr = c ∧ u.waili.edit = [] ∧ u.waili.long = false ∧ u.waili.framing = false ∧
      (w.long = true → u.waili.hold = w.hold ∧
        regF u (Reg.waili_ERR + 1) 0 8 = min 255 (regF r (Reg.waili_ERR + 1) 0 8 + 1) ∧ hasEvent u 56) ∧
      (w.long = false → w.framing = true → u.waili.hold = w.hold ∧ hasEvent u 56) ∧
      (w.long = false → w.framing = false → w.edit = [] → u.waili.hold = w.hold ∧ u.regs = r.regs) ∧
      (w.long = false → w.framing = false → w.edit ≠ [] → w.hold = none → u.waili.hold = some w.edit ∧ u.regs = r.regs) ∧
      (w.long = false → w.framing = false → w.edit ≠ [] → w.hold ≠ none → u.waili.hold = w.hold ∧
        regF u Reg.waili_ERR 0 8 = min 255 (regF r Reg.waili_ERR 0 8 + 1) ∧
        (wBusy r = false → strict r = false → sfxRight w.edit = false → w.ubegun = false →
          u.waili.out = w.out ++ (if echoOn r then [0x0D, 0x0A] else []) ++ codes "ER 05 BUSY" ++ [0x0D, 0x0A])) := by
  dsimp only
  obtain ⟨out, uwait, h, hout⟩ := wLineEnd_echoed c r
  refine ⟨h.run, h.lastCr, h.edit, h.long, h.framing, h.of_long, h.of_framing, h.of_empty, h.of_free, fun hl hf he hh => ?_⟩
  obtain ⟨hhold, hcount, hline⟩ := h.of_busy hl hf he hh
  exact ⟨hhold, hcount, fun hb hs hx hu => by rw [← hout hu]; exact hline hb hs hx hu⟩

/-- A backspace drops a character. -/
theorem wBackspace_spec (r : State) :
    let s := { r with waili := { r.waili with lastCr := false } }
    let u := if s.waili.edit.isEmpty then s else wEcho [0x08, 0x20, 0x08] (setWaili (fun w => { w with edit := w.edit.dropLast }) s)
    u.waili.run = r.waili.run ∧ u.waili.lastCr = false ∧ u.waili.edit = r.waili.edit.dropLast ∧ u.waili.hold = r.waili.hold ∧
      u.regs = r.regs := by
  dsimp only
  split_ifs with he
  · exact ⟨rfl, rfl, by rw [List.isEmpty_iff.mp he]; rfl, rfl, rfl⟩
  · obtain ⟨out, uwait, h, -⟩ := wEcho_eq [0x08, 0x20, 0x08]
      (setWaili (fun w => { w with edit := w.edit.dropLast }) { r with waili := { r.waili with lastCr := false } })
    rw [h]
    exact ⟨rfl, rfl, rfl, rfl, rfl⟩

/-- 15h drops the line being typed. -/
theorem wClear_echoed (r : State) :
    let u := wEcho [0x0D, 0x0A] (wClear { r with waili := { r.waili with lastCr := false } })
    u.waili.run = r.waili.run ∧ u.waili.lastCr = false ∧ u.waili.edit = [] ∧ u.waili.long = false ∧ u.waili.framing = false ∧
      u.waili.hold = r.waili.hold ∧ u.regs = r.regs := by
  obtain ⟨out, uwait, h, -⟩ := wEcho_eq [0x0D, 0x0A] (wClear { r with waili := { r.waili with lastCr := false } })
  dsimp only
  rw [h]
  exact ⟨rfl, rfl, rfl, rfl, rfl, rfl, rfl⟩

/-- A character with a bad stop bit marks the line. -/
theorem wBadStop_spec (r : State) :
    let s := { r with waili := { r.waili with lastCr := false } }
    let u := wFrameCount (setWaili (fun w => { w with framing := true }) s)
    u.waili.run = r.waili.run ∧ u.waili.lastCr = false ∧ u.waili.framing = true ∧ u.waili.edit = r.waili.edit ∧
      regF u (Reg.waili_ERR + 1) 8 8 = min 255 (regF r (Reg.waili_ERR + 1) 8 8 + 1) ∧ hasEvent u 56 := by
  obtain ⟨hw, hcount, hev⟩ := wFrameCount_spec
    (setWaili (fun w => { w with framing := true }) { r with waili := { r.waili with lastCr := false } })
  dsimp only
  rw [hw]
  exact ⟨rfl, rfl, rfl, rfl, hcount, hev⟩

/-- The characters that are printed are none of those that edit. -/
theorem ne_of_printable {x : Byte} (h : 0x20 ≤ x.toNat ∧ x.toNat ≤ 0x7E) :
    x ≠ 0x09 ∧ x ≠ 0x08 ∧ x ≠ 0x7F ∧ x ≠ 0x15 ∧ x ≠ 0x0D ∧ x ≠ 0x0A := by
  refine ⟨?_, ?_, ?_, ?_, ?_, ?_⟩ <;> rintro rfl <;> revert h <;> decide

/-- What a character does that came with a good stop bit while Waili is on. -/
theorem wReceive_good (x : Byte) {r : State} (hon : r.waili.on = true) : wReceive x true r =
    let s := { r with waili := { r.waili with lastCr := x == 0x0D } }
    if 0x20 ≤ x.toNat ∧ x.toNat ≤ 0x7E then wType x s
    else if x = 0x09 then wType 0x20 s
    else if x = 0x08 ∨ x = 0x7F then
      (if s.waili.edit.isEmpty then s else wEcho [0x08, 0x20, 0x08] (setWaili (fun w => { w with edit := w.edit.dropLast }) s))
    else if x = 0x15 then wEcho [0x0D, 0x0A] (wClear s)
    else if x = 0x0D then wLineEnd (wEcho [0x0D, 0x0A] s)
    else if x = 0x0A then (if r.waili.lastCr then s else wLineEnd (wEcho [0x0D, 0x0A] s))
    else s := by
  rw [wReceive, if_neg (by simp [hon])]
  rfl

theorem wReceive_outcome (x : Byte) (b : Bool) (r : State) :
    let u := wReceive x b r
    let w := r.waili
    let ends := x = 0x0D ∨ (x = 0x0A ∧ w.lastCr = false)
    let typed := if x = 0x09 then 0x20 else x
    let shown := (0x20 ≤ x.toNat ∧ x.toNat ≤ 0x7E) ∨ x = 0x09
    (w.on = false → u = r) ∧
    (w.on = true → u.waili.run = w.run ∧ u.waili.lastCr = (b && x == 0x0D) ∧
      (b = false → u.waili.framing = true ∧ u.waili.edit = w.edit ∧
        regF u (Reg.waili_ERR + 1) 8 8 = min 255 (regF r (Reg.waili_ERR + 1) 8 8 + 1) ∧ hasEvent u 56) ∧
      (b = true → shown → u.waili.hold = w.hold ∧ u.regs = r.regs ∧
        (if w.edit.length < 120 then u.waili.edit = w.edit ++ [typed] ∧ u.waili.long = w.long ∧
          (w.ubegun = false → u.waili.out = w.out ++ (if echoOn r then [typed] else []))
         else u.waili.edit = w.edit ∧ u.waili.long = true ∧ u.waili.out = w.out)) ∧
      (b = true → x = 0x08 ∨ x = 0x7F → u.waili.edit = w.edit.dropLast ∧ u.waili.hold = w.hold ∧ u.regs = r.regs) ∧
      (b = true → x = 0x15 → u.waili.edit = [] ∧ u.waili.long = false ∧ u.waili.framing = false ∧ u.waili.hold = w.hold ∧
        u.regs = r.regs) ∧
      (b = true → ends → u.waili.edit = [] ∧ u.waili.long = false ∧ u.waili.framing = false ∧
        (w.long = true → u.waili.hold = w.hold ∧
          regF u (Reg.waili_ERR + 1) 0 8 = min 255 (regF r (Reg.waili_ERR + 1) 0 8 + 1) ∧ hasEvent u 56) ∧
        (w.long = false → w.framing = true → u.waili.hold = w.hold ∧ hasEvent u 56) ∧
        (w.long = false → w.framing = false → w.edit = [] → u.waili.hold = w.hold ∧ u.regs = r.regs) ∧
        (w.long = false → w.framing = false → w.edit ≠ [] → w.hold = none → u.waili.hold = some w.edit ∧ u.regs = r.regs) ∧
        (w.long = false → w.framing = false → w.edit ≠ [] → w.hold ≠ none → u.waili.hold = w.hold ∧
          regF u Reg.waili_ERR 0 8 = min 255 (regF r Reg.waili_ERR 0 8 + 1) ∧
          (wBusy r = false → strict r = false → sfxRight w.edit = false → w.ubegun = false →
            u.waili.out = w.out ++ (if echoOn r then [0x0D, 0x0A] else []) ++ codes "ER 05 BUSY" ++ [0x0D, 0x0A]))) ∧
      (b = true → ¬ shown → ¬ ends → x ≠ 0x08 → x ≠ 0x7F → x ≠ 0x15 → u = { r with waili := { w with lastCr := false } })) := by
  extract_lets u w ends typed shown
  refine ⟨fun hoff => if_pos (by simp [show r.waili.on = false from hoff]), fun hon => ?_⟩
  cases b with
  | false =>
    have hu : u = wFrameCount (setWaili (fun w => { w with framing := true }) { r with waili := { r.waili with lastCr := false } }) := by
      unfold u
      rw [wReceive, if_neg (by simp [show r.waili.on = true from hon])]
      rfl
    obtain ⟨hrun, hcr, hframing, hedit, hcount, hev⟩ := wBadStop_spec r
    rw [hu]
    refine ⟨hrun, hcr, fun _ => ⟨hframing, hedit, hcount, hev⟩, ?_, ?_, ?_, ?_, ?_⟩ <;> intro h <;> exact absurd h (by decide)
  | true =>
    have hu : u = _ := wReceive_good x hon
    simp only [Bool.true_and]
    by_cases hprint : 0x20 ≤ x.toNat ∧ x.toNat ≤ 0x7E
    · obtain ⟨h9, h8, h7f, h15, hd, ha⟩ := ne_of_printable hprint
      have hcr : (x == 0x0D) = false := by simpa using hd
      obtain ⟨hrun, hlast, hhold, hregs, hout⟩ := wType_spec x r
      rw [if_pos hprint, hcr] at hu
      rw [hu, hcr, show typed = x from if_neg h9]
      exact ⟨hrun, hlast, nofun, fun _ _ => ⟨hhold, hregs, hout⟩, fun _ h => (h.elim h8 h7f).elim, fun _ h => (h15 h).elim,
        fun _ h => (h.elim hd (fun h => ha h.1)).elim, fun _ h => (h (.inl hprint)).elim⟩
    · rw [if_neg hprint] at hu
      by_cases h9 : x = 0x09
      · obtain ⟨hrun, hlast, hhold, hregs, hout⟩ := wType_spec 0x20 r
        subst h9
        rw [if_pos rfl] at hu
        rw [hu]
        exact ⟨hrun, hlast, nofun, fun _ _ => ⟨hhold, hregs, hout⟩, fun _ h => absurd h (by decide), fun _ h => absurd h (by decide),
          fun _ h => h.elim (fun h => absurd h (by decide)) (fun h => absurd h.1 (by decide)), fun _ h => absurd (.inr rfl) h⟩
      rw [if_neg h9] at hu
      have hshown : ¬ shown := fun h => h.elim hprint h9
      by_cases hbs : x = 0x08 ∨ x = 0x7F
      · obtain ⟨hrun, hlast, hedit, hhold, hregs⟩ := wBackspace_spec r
        have hd : x ≠ 0x0D := by rintro rfl; exact absurd hbs (by decide)
        have ha : x ≠ 0x0A := by rintro rfl; exact absurd hbs (by decide)
        have h15 : x ≠ 0x15 := by rintro rfl; exact absurd hbs (by decide)
        have hcr : (x == 0x0D) = false := by simpa using hd
        rw [if_pos hbs, hcr] at hu
        rw [hu, hcr]
        exact ⟨hrun, hlast, nofun, fun _ h => absurd h hshown, fun _ _ => ⟨hedit, hhold, hregs⟩, fun _ h => absurd h h15,
          fun _ h => (h.elim (absurd · hd) (fun h => absurd h.1 ha)), fun _ _ _ h8 h7f => (hbs.elim h8 h7f).elim⟩
      rw [if_neg hbs] at hu
      by_cases h15 : x = 0x15
      · obtain ⟨hrun, hlast, hedit, hlong, hframing, hhold, hregs⟩ := wClear_echoed r
        subst h15
        rw [if_pos rfl] at hu
        rw [hu]
        exact ⟨hrun, hlast, nofun, fun _ h => absurd h hshown, fun _ h => absurd h hbs,
          fun _ _ => ⟨hedit, hlong, hframing, hhold, hregs⟩,
          fun _ h => h.elim (fun h => absurd h (by decide)) (fun h => absurd h.1 (by decide)), fun _ _ _ _ _ h => absurd rfl h⟩
      rw [if_neg h15] at hu
      by_cases hd : x = 0x0D
      · obtain ⟨hrun, hlast, hend⟩ := wLineEnd_outcome true r
        subst hd
        rw [if_pos rfl] at hu
        rw [hu]
        exact ⟨hrun, hlast, nofun, fun _ h => absurd h hshown, fun _ h => absurd h hbs, fun _ h => absurd h h15,
          fun _ _ => hend, fun _ _ h => absurd (.inl rfl) h⟩
      rw [if_neg hd] at hu
      have hcr : (x == 0x0D) = false := by simpa using hd
      rw [hcr] at hu ⊢
      by_cases hend : x = 0x0A ∧ r.waili.lastCr = false
      · obtain ⟨hrun, hlast, hended⟩ := wLineEnd_outcome false r
        rw [if_pos hend.1, if_neg (by simp [hend.2])] at hu
        rw [hu]
        exact ⟨hrun, hlast, nofun, fun _ h => absurd h hshown, fun _ h => absurd h hbs, fun _ h => absurd h h15,
          fun _ _ => hended, fun _ _ h => absurd (.inr hend) h⟩
      have hnot : ¬ ends := fun h => h.elim hd hend
      have hskip : u = { r with waili := { r.waili with lastCr := false } } := by
        rw [hu]
        by_cases ha : x = 0x0A
        · rw [if_pos ha, if_pos (by simpa [ha] using hend)]
        · rw [if_neg ha]
      rw [hskip]
      exact ⟨rfl, rfl, nofun, fun _ h => absurd h hshown, fun _ h => absurd h hbs, fun _ h => absurd h h15,
        fun _ h => absurd h hnot, fun _ _ _ _ _ _ => rfl⟩

/-- A break drops the line being typed. -/
theorem wBreak_outcome (r : State) :
    let u := wBreak r
    if r.waili.on = false then u = r
    else u.waili.edit = [] ∧ u.waili.long = false ∧ u.waili.framing = false ∧
      regF u (Reg.waili_ERR + 1) 8 8 = min 255 (regF r (Reg.waili_ERR + 1) 8 8 + 1) ∧ hasEvent u 56 ∧
      u.waili.hold = r.waili.hold := by
  dsimp only
  by_cases hon : r.waili.on = false
  · rw [if_pos hon]
    exact if_pos (by simp [hon])
  · rw [if_neg hon, wBreak, if_neg (by simpa using hon)]
    obtain ⟨out, uwait, h, -⟩ := wEcho_eq [0x0D, 0x0A] (wClear (setWaili (fun w => { w with lastCr := false }) r))
    obtain ⟨hw, hcount, hev⟩ := wFrameCount_spec (wEcho [0x0D, 0x0A] (wClear (setWaili (fun w => { w with lastCr := false }) r)))
    rw [hw]
    rw [h] at hcount ⊢
    exact ⟨rfl, rfl, rfl, hcount, h ▸ hev, rfl⟩

end Sys2Proof.Machine

/-! ## Lines for firmware, progress lines and characters sent (R808, R822, R839-R842, R853) -/

namespace Sys2Proof.Machine

/-! ### USR hands its text to firmware -/

/-- The line and its status as firmware finds them, and the command that waits. -/
def usrHanded (c : WCtx) (body : List Byte) (s : State) : State :=
  let t := usrText body
  let s := setReg Reg.waili_USRC
    (wd (0x8000 + c.remote.isSome.toNat * 0x4000 + c.remote.getD 0 % 64 * 0x100 + t.length)) s
  let due := s.now + max 1 (reg s Reg.waili_UTMO).toNat * msTicks
  wWait .usr c (setWaili (fun w => { w with uline := t, utx := [], uend := none, ubegun := false, usrDue := due }) s)

theorem wUsr_eq : wUsr = wCommand .usr (fun c _ body s => signal (if c.remote.isSome then 41 else 54) (usrHanded c body s)) := by
  unfold wUsr
  congr 1
  funext c _ body s
  obtain ⟨suffix, own, _ | unit⟩ := c <;> rfl

theorem wUsr_outcome (r : State) :
    let u := wUsr r
    (wTake .usr r = none → u = r) ∧
    ∀ q, wTake .usr r = some q → r.modes.bootsu = false →
      let t := usrText q.2.2.1
      let far := q.1.remote.isSome
      u.waili.uline = t ∧ u.waili.utx = [] ∧ u.waili.uend = none ∧ u.waili.run = some (.usr, q.1) ∧
      u.waili.hold = q.2.2.2.waili.hold ∧
      u.waili.usrDue = r.now + max 1 (reg r Reg.waili_UTMO).toNat * 160000 ∧
      reg u Reg.waili_USRC = wd (0x8000 + far.toNat * 0x4000 + q.1.remote.getD 0 % 64 * 0x100 + t.length) ∧
      (far = true → hasEvent u 41) ∧ (far = false → hasEvent u 54) := by
  dsimp only
  refine ⟨fun h => (congrFun wUsr_eq r).trans (wCommand_of_none h _), fun q hq hboot => ?_⟩
  obtain ⟨w, hw⟩ := wTake_state hq
  obtain ⟨c, ts, body, s⟩ := q
  dsimp only at hw
  have hfree : rowError (modesCode (kwModes .usr)) (kwLocked .usr) (kwLocal .usr) c r = 0 := by
    simp [rowError, kwModes, modesCode, kwLocked, kwLocal, hboot]
  have hu : wUsr r = signal (if c.remote.isSome then 41 else 54) (usrHanded c body s) := by
    rw [wUsr_eq, wCommand_of_some hq, if_pos hfree]
  have htmo (v : Word) : reg (setReg Reg.waili_USRC v s) Reg.waili_UTMO = reg r Reg.waili_UTMO := by
    rw [reg_setReg_other _ _ (by decide), hw]
    rfl
  have hdue : (usrHanded c body s).waili.usrDue = r.now + max 1 (reg r Reg.waili_UTMO).toNat * 160000 := by
    rw [← htmo, show r.now = s.now by rw [hw]]
    rfl
  dsimp only
  rw [hu, signal_waili, reg_signal (by decide)]
  refine ⟨rfl, rfl, rfl, rfl, rfl, hdue, reg_setReg_same _ _ _, fun hfar => ?_, fun hfar => ?_⟩
  · rw [if_pos hfar]
    exact hasEvent_signal_same _ _
  · rw [if_neg (by simp [hfar])]
    exact hasEvent_signal_same _ _

/-! ### What firmware writes goes out -/

/-- No register but INTC.RUNST changes while firmware's answer moves on. -/
theorem regsBut_usrMove (c : WCtx) (s : State) : RegsBut runst s (usrMove c s) := by
  unfold usrMove
  split
  · have hbegin : (if s.waili.ubegun then s else usrBegin c s).regs = s.regs := by split_ifs <;> rfl
    generalize (if s.waili.ubegun then s else usrBegin c s) = t at hbegin ⊢
    intro a ha
    dsimp only
    split_ifs <;> first
      | exact (reg_signal ha _ _).trans (congrArg (cget regReset · a) hbegin)
      | exact congrArg (cget regReset · a) hbegin
  · split
    · refine fun a _ => congrArg (cget regReset · a) ?_
      refine (respond_regs _ _ _).trans ?_
      split_ifs <;> rfl
    · exact fun a _ => rfl

theorem usrFinal_regs (c : WCtx) (k : Nat) (s : State) : (usrFinal c k s).regs = s.regs := respond_regs _ _ _

theorem regsBut_usrRemote (c : WCtx) (n : Nat) (s : State) : RegsBut runst s (usrRemote c n s) := by
  induction n generalizing s with
  | zero => exact fun _ _ => rfl
  | succ n ih =>
    intro a ha
    unfold usrRemote
    by_cases hline : s.waili.utx.contains 0x0A = true
    · rw [if_pos hline]
      refine (ih _ a ha).trans ?_
      split_ifs
      · exact (reg_signal ha _ _).trans (congrArg (cget regReset · a) (respond_regs _ _ _))
      · exact congrArg (cget regReset · a) (respond_regs _ _ _)
    · rw [if_neg hline]
      split
      · refine (congrArg (cget regReset · a) (usrFinal_regs _ _ _)).trans ?_
        split_ifs
        · rfl
        · exact (reg_signal ha _ _).trans (congrArg (cget regReset · a) (respond_regs _ _ _))
      · rfl

theorem regsBut_usrPump (s : State) : RegsBut runst s (usrPump s) := by
  unfold usrPump
  split
  · exact fun _ _ => rfl
  · split_ifs
    · exact regsBut_usrRemote _ _ _
    · exact regsBut_usrMove _ _
    · exact fun _ _ => rfl

theorem usrPump_of_none {s : State} (h : usrRun s = none) : usrPump s = s := by rw [usrPump, h]

/-- With the buffer empty and UEND written, a local line ends. -/
theorem usrPump_ended {c : WCtx} {k : Nat} {s : State} (hrun : usrRun s = some c) (hremote : c.remote = none)
    (hout : s.waili.out = []) (hutx : s.waili.utx = []) (huend : s.waili.uend = some k) (hbegun : s.waili.ubegun = false) :
    usrPump s = usrFinal c k s := by
  rw [usrPump, hrun]
  dsimp only
  rw [hremote, if_neg (by decide), hout, if_pos (by decide), usrMove, hutx, huend, hbegun]
  rfl

/-- The text of the final line of a USR command. -/
def usrEndText (code : Nat) : List Byte :=
  if code = 0 then codes "OK" else codes "ER " ++ hexDigits 1 (code / 10) ++ hexDigits 1 (code % 10) ++ codes " FW"

/-- A line of a command of this unit without an address goes to WTX. -/
theorem respond_out {c : WCtx} (hremote : c.remote = none) (hown : c.own = none) {s : State} (hbegun : s.waili.ubegun = false)
    (l : List Byte) : (respond c l s).waili.out = s.waili.out ++ l ++ lineTail c.suffix s l ++ [0x0D, 0x0A] := by
  obtain ⟨out, uwait, h, hout⟩ := wline_eq c.suffix l s
  rw [respond, hremote, hown]
  dsimp only
  rw [h]
  exact hout hbegun

/-- A thread may write UTX or UEND while the firmware line awaits its answer. -/
theorem utxWrite_outcome (m : Master) (x : Byte) (r : State) :
    let u := utxWrite m x r
    if (match m with | .thread _ => usrHeld r && decide (r.waili.utx.length < 128) | _ => false) = true then
      u = usrPump { r with waili := { r.waili with utx := r.waili.utx ++ [x] } } ∧
      (usrRun r = none → u.waili.utx = r.waili.utx ++ [x] ∧ u.regs = r.regs)
    else u = r := by
  cases m with
  | thread i =>
    dsimp only [utxWrite]
    by_cases h : (usrHeld r && decide (r.waili.utx.length < 128)) = true
    · have hf : ¬ (!usrHeld r || decide (128 ≤ r.waili.utx.length)) = true := by
        simp only [Bool.and_eq_true, decide_eq_true_eq] at h
        simp [h.1, h.2]
      rw [if_pos h, if_neg hf]
      refine ⟨rfl, fun hn => ?_⟩
      rw [usrPump_of_none (s := setWaili (fun w => { w with utx := w.utx ++ [x] }) r) (show usrRun r = none from hn)]
      exact ⟨rfl, rfl⟩
    · have ht : (!usrHeld r || decide (128 ≤ r.waili.utx.length)) = true := by
        cases hu : usrHeld r <;> simp_all
      rw [if_neg h, if_pos ht]
  | _ => exact (if_neg Bool.false_ne_true).mpr rfl

theorem uendWrite_outcome (m : Master) (v : Word) (r : State) :
    let u := uendWrite m v r
    if (match m with | .thread _ => usrHeld r && (v == 0 || decide (70 ≤ v.toNat ∧ v.toNat ≤ 99)) | _ => false) = true then
      usrHeld u = false ∧ RegsBut (Reg.waili_USRC :: runst) r u ∧
      (∀ c, usrRun r = some c → c.remote = none → r.waili.ubegun = false → r.waili.utx = [] → r.waili.out = [] →
        u.waili.run = none ∧ (c.own = none → u.waili.out =
          (let l := if v = 0 then codes "OK" else codes "ER " ++ hexDigits 1 (v.toNat / 10) ++ hexDigits 1 (v.toNat % 10) ++ codes " FW"
           l ++ lineTail c.suffix r l ++ [0x0D, 0x0A])))
    else u = r := by
  cases m with
  | thread i =>
    dsimp only [uendWrite]
    by_cases h : (usrHeld r && (v == 0 || decide (70 ≤ v.toNat ∧ v.toNat ≤ 99))) = true
    · rw [if_pos h, if_pos h]
      have hpump := regsBut_usrPump (setRegBit Reg.waili_USRC 15 false (setWaili (fun w => { w with uend := some v.toNat }) r))
      refine ⟨(congrArg (BitVec.getLsbD · 15) (hpump _ (by decide))).trans (regBit_setRegBit_same _ 15 false _ (by decide)),
        fun a ha => ?_, fun c hc hrem hbegun hutx hout => ?_⟩
      · rw [List.mem_cons, not_or] at ha
        exact (hpump a ha.2).trans (reg_setRegBit_other _ _ _ ha.1)
      · have hstrict : strict (setRegBit Reg.waili_USRC 15 false (setWaili (fun w => { w with uend := some v.toNat }) r)) = strict r :=
          congrArg (BitVec.getLsbD · 1) (reg_setRegBit_other (a := Reg.waili_USRC) (b := Reg.waili_CTL) _ _ _ (by decide))
        have hend := usrPump_ended (c := c) (k := v.toNat)
          (s := setRegBit Reg.waili_USRC 15 false (setWaili (fun w => { w with uend := some v.toNat }) r)) hc hrem hout hutx rfl hbegun
        rw [hend]
        generalize ht : setRegBit Reg.waili_USRC 15 false (setWaili (fun w => { w with uend := some v.toNat }) r) = t at hstrict
        have hw : t.waili = { r.waili with uend := some v.toNat } := by rw [← ht]; rfl
        refine ⟨rfl, fun hown => ?_⟩
        have hl : (if v.toNat = 0 then codes "OK" else
            codes "ER " ++ hexDigits 1 (v.toNat / 10) ++ hexDigits 1 (v.toNat % 10) ++ codes " FW") = usrEndText v.toNat := rfl
        have hv : v = 0 ↔ v.toNat = 0 := ⟨fun h => by rw [h]; rfl, fun h => BitVec.eq_of_toNat_eq h⟩
        simp only [hv, hl]
        rw [show (usrFinal c v.toNat t).waili.out = (respond c (usrEndText v.toNat) t).waili.out from rfl,
          respond_out hrem hown (by rw [hw]; exact hbegun), hw, hout, lineTail, lineTail, hstrict]
        rfl
    · rw [if_neg h, if_neg h]
  | _ => exact (if_neg Bool.false_ne_true).mpr rfl

/-! ### No answer of firmware (R841) -/

theorem regsBut_usrMoves (c : WCtx) (n : Nat) (s : State) : RegsBut runst s (usrMoves c n s) := by
  induction n generalizing s with
  | zero => exact fun _ _ => rfl
  | succ n ih => exact fun a ha => (ih _ a ha).trans (regsBut_usrMove c s a ha)

/-- What is left of the data line goes out before ER 60. -/
def usrFlushed (c : WCtx) (s : State) : State :=
  if c.remote.isSome then
    (if s.waili.utx.isEmpty then s else signal 55 (setWaili (fun w => { w with utx := [] }) (respond c s.waili.utx s)))
  else
    let s := usrMoves c s.waili.utx.length s
    if s.waili.ubegun then usrLineEnd c s else s

theorem regsBut_usrFlushed (c : WCtx) (s : State) : RegsBut runst s (usrFlushed c s) := by
  intro a ha
  unfold usrFlushed
  by_cases hremote : c.remote.isSome = true
  · rw [if_pos hremote]
    split_ifs
    · rfl
    · exact (reg_signal ha _ _).trans (congrArg (cget regReset · a) (respond_regs _ _ _))
  · rw [if_neg hremote]
    refine Eq.trans ?_ (regsBut_usrMoves c s.waili.utx.length s a ha)
    dsimp only
    split_ifs <;> rfl

theorem wNofw_eq (s : State) : wNofw s =
    match usrRun s with
    | none => s
    | some c => if s.now < s.waili.usrDue then s
      else wErr c 60 (wEnd (usrFlushed c (setRegBit Reg.waili_USRC 15 false s))) := by
  unfold wNofw usrFlushed
  rfl

theorem erText_sixty : erText 60 [] = codes "ER 60 NOFW" := by decide

theorem wNofw_outcome (r : State) :
    let u := wNofw r
    (usrRun r = none ∨ r.now < r.waili.usrDue → u = r) ∧
    ∀ c, usrRun r = some c → r.waili.usrDue ≤ r.now → usrHeld u = false ∧ u.waili.run = none ∧
      (c = {} → strict r = false → r.waili.ubegun = false → r.waili.utx = [] →
        u.waili.out = r.waili.out ++ codes "ER 60 NOFW" ++ [0x0D, 0x0A]) := by
  dsimp only
  rw [wNofw_eq]
  refine ⟨fun h => ?_, fun c hc hdue => ?_⟩
  · cases hrun : usrRun r with
    | none => rfl
    | some c => exact if_pos (h.resolve_left (by simp [hrun]))
  · rw [hc]
    dsimp only
    rw [if_neg (by omega)]
    have hflushed := regsBut_usrFlushed c (setRegBit Reg.waili_USRC 15 false r)
    obtain ⟨loop, out, uwait, hline⟩ := respond_eq c (erText 60 []) (wEnd (usrFlushed c (setRegBit Reg.waili_USRC 15 false r)))
    have hheld : usrHeld (usrFlushed c (setRegBit Reg.waili_USRC 15 false r)) = false :=
      (congrArg (BitVec.getLsbD · 15) (hflushed _ (by decide))).trans (regBit_setRegBit_same _ 15 false _ (by decide))
    refine ⟨?_, ?_, fun hdef hstrict hbegun hutx => ?_⟩
    · rw [wErr, wErrX, hline]
      exact hheld
    · rw [wErr, wErrX, hline]
      rfl
    · have hidle : usrFlushed c (setRegBit Reg.waili_USRC 15 false r) = setRegBit Reg.waili_USRC 15 false r := by
        have hw : (setRegBit Reg.waili_USRC 15 false r).waili = r.waili := rfl
        rw [hdef, usrFlushed, if_neg (by decide), hw, hutx]
        exact if_neg (by rw [show (usrMoves {} ([] : List Byte).length (setRegBit Reg.waili_USRC 15 false r)).waili = r.waili from rfl]; simp [hbegun])
      have hcold : strict (wEnd (setRegBit Reg.waili_USRC 15 false r)) = false :=
        (congrArg (BitVec.getLsbD · 1) (reg_setRegBit_other (a := Reg.waili_USRC) (b := Reg.waili_CTL) _ _ _ (by decide))).trans hstrict
      rw [hidle, hdef, wErr, wErrX, respond_out rfl rfl (show (wEnd (setRegBit Reg.waili_USRC 15 false r)).waili.ubegun = false from hbegun),
        lineTail, hcold, erText_sixty, if_neg (by decide), List.append_nil]
      rfl

/-! ### Progress lines (R822) -/

theorem wProgress_outcome (r : State) :
    let u := wProgress r
    let long : Bool := match r.waili.run with
      | some (.commit, _) => true
      | some (.flash page _ _, _) => !page
      | some _ => false
      | none => !r.waili.targets.isEmpty && r.waili.inner.isNone
    let c := (r.waili.run.map Prod.snd).getD { suffix := r.waili.tctx.suffix }
    if r.waili.progDue ≤ r.now ∧ long = true then
      u.waili.progDue = r.waili.progDue + 8000000 ∧ u.regs = r.regs ∧ u.waili.run = r.waili.run ∧ u.waili.targets = r.waili.targets ∧
      (r.waili.ubegun = false → c.own = none → c.remote = none →
        u.waili.out = r.waili.out ++ codes "..." ++ lineTail c.suffix r (codes "...") ++ [0x0D, 0x0A])
    else u = r := by
  have hgo : ∀ c, let u := progNext (respond c progText r)
      u.waili.progDue = r.waili.progDue + 8000000 ∧ u.regs = r.regs ∧ u.waili.run = r.waili.run ∧ u.waili.targets = r.waili.targets ∧
      (r.waili.ubegun = false → c.own = none → c.remote = none →
        u.waili.out = r.waili.out ++ codes "..." ++ lineTail c.suffix r (codes "...") ++ [0x0D, 0x0A]) := by
    intro c
    obtain ⟨loop, out, uwait, h⟩ := respond_eq c progText r
    have hout := fun hremote hown hbegun => respond_out (c := c) hremote hown (s := r) hbegun progText
    dsimp only
    rw [h] at hout ⊢
    exact ⟨rfl, rfl, rfl, rfl, fun hbegun hown hremote => hout hremote hown hbegun⟩
  dsimp only
  unfold wProgress
  by_cases hdue : r.now < r.waili.progDue
  · rw [if_pos hdue, if_neg (by omega)]
  rw [if_neg hdue]
  have hle : r.waili.progDue ≤ r.now := by omega
  cases hrun : r.waili.run with
  | none =>
    rw [hrun] at hgo
    dsimp only
    cases hlong : !r.waili.targets.isEmpty && r.waili.inner.isNone with
    | true =>
      have hno : ¬ (r.waili.targets.isEmpty || r.waili.inner.isSome) = true := by
        cases ht : r.waili.targets.isEmpty <;> cases hi : r.waili.inner <;> simp_all
      rw [if_pos ⟨hle, rfl⟩, if_neg hno]
      exact hgo { suffix := r.waili.tctx.suffix }
    | false =>
      have hyes : (r.waili.targets.isEmpty || r.waili.inner.isSome) = true := by
        cases ht : r.waili.targets.isEmpty <;> cases hi : r.waili.inner <;> simp_all
      rw [if_neg (by simp), if_pos hyes]
  | some p =>
    obtain ⟨k, c⟩ := p
    rw [hrun] at hgo
    cases k with
    | commit =>
      rw [if_pos ⟨hle, rfl⟩]
      exact hgo c
    | flash page a data =>
      cases page with
      | true => exact (if_neg (by simp)).mpr rfl
      | false =>
        rw [if_pos ⟨hle, rfl⟩]
        exact hgo c
    | _ => exact (if_neg (by simp)).mpr rfl

/-! ### Sending (R808, R853) -/

theorem divStep_outcome (s : State) :
    let u := divStep s
    u.waili.run = s.waili.run ∧ u.waili.out = s.waili.out ∧ u.waili.hold = s.waili.hold ∧ u.intc = s.intc ∧
    (∀ p, s.waili.divPend = some p → if p.2 ≤ 1 then u.waili.divEff = p.1 ∧ reg u Reg.waili_DIV = wd p.1 ∧ u.waili.divPend = none
      else u.waili.divPend = some (p.1, p.2 - 1) ∧ u.regs = s.regs) ∧
    (s.waili.divPend = none → u.regs = s.regs ∧ u.waili.divPend = none) := by
  dsimp only
  unfold divStep
  cases hp : s.waili.divPend with
  | none => exact ⟨rfl, rfl, rfl, rfl, nofun, fun _ => ⟨rfl, hp⟩⟩
  | some p =>
    obtain ⟨d, k⟩ := p
    dsimp only
    by_cases hk : k ≤ 1
    · rw [if_pos hk]
      refine ⟨rfl, rfl, rfl, rfl, fun q hq => ?_, nofun⟩
      rw [← Option.some.inj hq, if_pos hk]
      exact ⟨rfl, reg_setReg_same _ _ _, rfl⟩
    · rw [if_neg hk]
      refine ⟨rfl, rfl, rfl, rfl, fun q hq => ?_, nofun⟩
      rw [← Option.some.inj hq, if_neg hk]
      exact ⟨rfl, rfl⟩

theorem wSent_outcome (r : State) :
    let u := wSent r
    if r.waili.out = [] then u = r
    else usrRun r = none → u.waili.out = r.waili.out.tail ∧ u.waili.hold = r.waili.hold ∧ u.intc = r.intc ∧
      (∀ p, r.waili.divPend = some p → if p.2 ≤ 1 then u.waili.divEff = p.1 ∧ reg u Reg.waili_DIV = wd p.1 ∧ u.waili.divPend = none
        else u.waili.divPend = some (p.1, p.2 - 1) ∧ u.regs = r.regs) ∧
      (r.waili.divPend = none → u.regs = r.regs ∧ u.waili.divPend = none) := by
  dsimp only
  by_cases hout : r.waili.out = []
  · rw [if_pos hout]
    exact if_pos (by simp [hout])
  · rw [if_neg hout]
    intro hrun
    rw [wSent, if_neg (by simpa using hout)]
    obtain ⟨hr, ho, hh, hi, hpend, hnone⟩ := divStep_outcome (setWaili (fun w => { w with out := w.out.drop 1 }) r)
    have hidle : usrRun (divStep (setWaili (fun w => { w with out := w.out.drop 1 }) r)) = none := by
      unfold usrRun at hrun ⊢
      rw [hr]
      exact hrun
    rw [usrPump_of_none hidle]
    exact ⟨ho.trans List.drop_one, hh, hi, hpend, hnone⟩

end Sys2Proof.Machine

/-! ## Routed lines (R844-R849) -/

namespace Sys2Proof.Machine

/-- The text of the next line where it was received here. -/
def routedText (r : State) : Option (WCtx × List Byte) :=
  (wFront r).bind (fun f => if f.1 = .hold then (wText r .hold f.2.1).toOption.map (fun l => (f.2.2, l)) else none)

/-- The line begins with a routing prefix. -/
def beginsRouted (l : List Byte) : Bool := (tokens l).head?.any (fun t => t.head? == some 0x40)

theorem beginsRouted_eq (l : List Byte) : ((tokens l).head?.map isRouted).getD false = beginsRouted l := by
  unfold beginsRouted
  cases (tokens l).head? <;> rfl

/-- Where a routed line goes (R845). -/
def routeTo (c : WCtx) (body : List Byte) (s : State) : State :=
  match prefixTok (routeOf body).1 with
  | .error e => wErr c e s
  | .ok dest =>
    match routeRefused s (routeOf body).2, loopAddr s with
    | some e, _ => wErr c e s
    | none, none => wErr c 51 s
    | none, some own =>
      match dest with
      | some n =>
        if n = own then routeOwn own c (routeOf body).2 s
        else streamLine (BitVec.ofNat 8 (0x80 + n)) (routeOf body).2 (routeWait [n] c s)
      | none =>
        routeOwn own c (routeOf body).2 (streamLine 0x7F (routeOf body).2
          (routeWait ((List.range (regF s Reg.loop_RINFO 0 7)).filter (· != own)) c s))

theorem routeLine_eq (s : State) : routeLine s =
    match routedText s with
    | none => s
    | some q => if s.modes.bootsu || !beginsRouted q.2 then s else routeTo q.1 q.2 (wDrop .hold s) := by
  unfold routeLine routedText
  cases wFront s with
  | none => rfl
  | some f =>
    obtain ⟨slot, l, c⟩ := f
    cases slot with
    | hold =>
      dsimp only [Option.bind_some]
      rw [if_pos rfl]
      cases wText s .hold l with
      | error e => rfl
      | ok body =>
        dsimp only [Except.toOption, Option.map_some]
        rw [beginsRouted_eq]
        rfl
    | inner => rfl
    | rhold => rfl

/-- A line received here is of this unit's session. -/
theorem routedText_local {r : State} {q : WCtx × List Byte} (h : routedText r = some q) : q.1.remote = none := by
  unfold routedText at h
  obtain ⟨f, hf, hq⟩ := Option.bind_eq_some_iff.mp h
  split_ifs at hq with hslot
  obtain ⟨l, -, rfl⟩ := Option.map_eq_some_iff.mp hq
  obtain ⟨slot, l', c⟩ := f
  obtain rfl : slot = .hold := hslot
  unfold wFront at hf
  split at hf
  · exact absurd hf (by simp)
  split at hf
  · exact absurd hf (by simp)
  split at hf
  · exact absurd hf (by simp)
  split at hf
  · exact (Prod.mk.inj (Prod.mk.inj (Option.some.inj hf)).2).2 ▸ rfl
  · exact absurd hf (by simp)
  · exact absurd hf (by simp)

/-- A refused line of this unit's session changes nothing but what WTX sends. -/
theorem wErr_local {c : WCtx} (h : c.remote = none) (e : Nat) (s : State) : ∃ out uwait, wErr c e s =
    { s with waili := { s.waili with out := out, uwait := uwait } } := by
  unfold wErr wErrX respond
  rw [h]
  dsimp only
  split
  · obtain ⟨out, uwait, h, -⟩ := wline_eq c.suffix _ s
    exact ⟨out, uwait, h⟩
  · obtain ⟨out, uwait, h, -⟩ := wline_eq c.suffix _ s
    exact ⟨out, uwait, h⟩

/-- A line that goes to its target, or is refused, leaves the buffer and the registers. -/
theorem routeTo_kept {c : WCtx} (hc : c.remote = none) (body : List Byte) (s : State) :
    (routeTo c body s).waili.hold = s.waili.hold ∧ (routeTo c body s).regs = s.regs := by
  have herr : ∀ e, (wErr c e s).waili.hold = s.waili.hold ∧ (wErr c e s).regs = s.regs := by
    intro e
    obtain ⟨out, uwait, h⟩ := wErr_local hc e s
    rw [h]
    exact ⟨rfl, rfl⟩
  unfold routeTo
  split
  · exact herr _
  · split
    · exact herr _
    · exact herr _
    · split
      · split_ifs <;> exact ⟨rfl, rfl⟩
      · exact ⟨rfl, rfl⟩

theorem routeTo_unit {c : WCtx} {body : List Byte} {s : State} {n own : Nat} (hp : (prefixTok (routeOf body).1).toOption = some (some n))
    (href : routeRefused s (routeOf body).2 = none) (haddr : loopAddr s = some own) : routeTo c body s =
      if n = own then routeOwn own c (routeOf body).2 s
      else streamLine (BitVec.ofNat 8 (0x80 + n)) (routeOf body).2 (routeWait [n] c s) := by
  rw [routeTo, ok_of_toOption hp]
  dsimp only
  rw [href, haddr]

theorem routeTo_all {c : WCtx} {body : List Byte} {s : State} {own : Nat} (hp : (prefixTok (routeOf body).1).toOption = some none)
    (href : routeRefused s (routeOf body).2 = none) (haddr : loopAddr s = some own) : routeTo c body s =
      routeOwn own c (routeOf body).2 (streamLine 0x7F (routeOf body).2
        (routeWait ((List.range (regF s Reg.loop_RINFO 0 7)).filter (· != own)) c s)) := by
  rw [routeTo, ok_of_toOption hp]
  dsimp only
  rw [href, haddr]

theorem routeTo_refused {c : WCtx} {body : List Byte} {s : State} {d : Option Nat} {e : Nat}
    (hp : (prefixTok (routeOf body).1).toOption = some d) (href : routeRefused s (routeOf body).2 = some e) :
    routeTo c body s = wErr c e s := by
  rw [routeTo, ok_of_toOption hp]
  dsimp only
  rw [href]

theorem routeLine_outcome (r : State) :
    let u := routeLine r
    let line := (wFront r).bind (fun f => if f.1 = .hold then (wText r .hold f.2.1).toOption.map (fun l => (f.2.2, l)) else none)
    (line = none ∨ r.modes.bootsu = true → u = r) ∧
    ∀ q, line = some q → r.modes.bootsu = false →
      let p := (routeOf q.2).1
      let rest := (routeOf q.2).2
      ((tokens q.2).head?.any (fun t => t.head? == some 0x40) = false → u = r) ∧
      ((tokens q.2).head?.any (fun t => t.head? == some 0x40) = true → u.waili.hold = none ∧ u.regs = r.regs ∧
        (∀ n own, (prefixTok p).toOption = some (some n) → routeRefused r rest = none → loopAddr r = some own →
          (n = own → u.waili.inner = some (rest, { q.1 with own := some own }) ∧ u.loop = r.loop) ∧
          (n ≠ own → u.loop.tx = r.loop.tx ++ BitVec.ofNat 8 (0x80 + n) :: rest ++ [0x0D] ∧
            u.waili.targets = [(n, r.now + max 1 (regF r Reg.waili_RTMO 0 8) * 160000)] ∧ u.waili.progDue = r.now + 16000000 ∧
            u.waili.out = r.waili.out)) ∧
        (∀ own, (prefixTok p).toOption = some none → routeRefused r rest = none → loopAddr r = some own →
          u.loop.tx = r.loop.tx ++ 0x7F :: rest ++ [0x0D] ∧ u.waili.inner = some (rest, { q.1 with own := some own }) ∧
          u.waili.targets.map Prod.fst = (List.range (regF r Reg.loop_RINFO 0 7)).filter (· != own)) ∧
        (∀ n, (prefixTok p).toOption = some n → ∀ e, routeRefused r rest = some e → u.loop = r.loop ∧
          u.waili.targets = r.waili.targets ∧ u.waili.inner = r.waili.inner)) := by
  intro u line
  have hu : u = _ := routeLine_eq r
  have hline : line = routedText r := rfl
  clear_value u line
  subst hline
  refine ⟨fun h => ?_, fun q hq hboot => ?_⟩
  · rw [hu]
    cases hq : routedText r with
    | none => rfl
    | some q =>
      dsimp only
      exact if_pos (by rw [h.resolve_left (by simp [hq])]; rfl)
  · rw [hq] at hu
    dsimp only at hu
    have hlocal := routedText_local hq
    refine ⟨fun hb => ?_, fun hb => ?_⟩
    · rw [hu]
      exact if_pos (by rw [hboot, show beginsRouted q.2 = false from hb]; rfl)
    · rw [if_neg (by rw [hboot, show beginsRouted q.2 = true from hb]; decide)] at hu
      have hkept := routeTo_kept hlocal q.2 (wDrop .hold r)
      rw [hu]
      refine ⟨hkept.1, hkept.2, fun n own hp href haddr => ?_, fun own hp href haddr => ?_, fun n hp e href => ?_⟩
      · rw [routeTo_unit hp (s := wDrop .hold r) href haddr]
        refine ⟨fun h => ?_, fun h => ?_⟩
        · rw [if_pos h]
          exact ⟨rfl, rfl⟩
        · rw [if_neg h]
          exact ⟨rfl, rfl, rfl, rfl⟩
      · rw [routeTo_all hp (s := wDrop .hold r) href haddr]
        refine ⟨rfl, rfl, ?_⟩
        show (List.map _ _).map Prod.fst = _
        rw [List.map_map]
        exact List.map_id _
      · obtain ⟨out, uwait, h⟩ := wErr_local hlocal e (wDrop .hold r)
        rw [routeTo_refused hp (s := wDrop .hold r) href, h]
        exact ⟨rfl, rfl, rfl⟩

/-! ### Lines that come over the Loop (R846-R849) -/

theorem routeReceive_outcome (r : State) :
    let u := routeReceive r
    (routedIn r = none → u = r) ∧
    ∀ l, routedIn r = some l → u.loop.inbox = r.loop.inbox.erase l ∧ u.waili.hold = r.waili.hold ∧
      (r.modes.bootsu = false → r.waili.on = true → r.waili.rhold = none → u.waili.rhold = some (l.unit, l.chars) ∧ u.loop.tx = r.loop.tx) ∧
      (r.modes.bootsu = false → r.waili.on = true → r.waili.rhold ≠ none → u.waili.rhold = r.waili.rhold ∧
        regF u (Reg.waili_ERR + 0) 0 8 = min 255 (regF r (Reg.waili_ERR + 0) 0 8 + 1) ∧
        u.loop.tx = r.loop.tx ++ BitVec.ofNat 8 (0xC0 + l.unit) :: codes "ER 05 BUSY" ++ [0x0D]) := by
  dsimp only
  unfold routeReceive
  refine ⟨fun h => by rw [h], fun l hl => ?_⟩
  rw [hl]
  dsimp only
  by_cases hoff : (r.modes.bootsu || !r.waili.on) = true
  · rw [if_pos (c := ((inboxDrop l r).modes.bootsu || !(inboxDrop l r).waili.on) = true) hoff]
    exact ⟨rfl, rfl, fun hb ho => absurd hoff (by simp [hb, ho]), fun hb ho => absurd hoff (by simp [hb, ho])⟩
  · rw [if_neg (c := ((inboxDrop l r).modes.bootsu || !(inboxDrop l r).waili.on) = true) hoff]
    cases hr : r.waili.rhold with
    | none =>
      rw [show (inboxDrop l r).waili.rhold = none from hr]
      exact ⟨rfl, rfl, fun _ _ _ => ⟨rfl, rfl⟩, fun _ _ h => absurd rfl h⟩
    | some x =>
      rw [show (inboxDrop l r).waili.rhold = some x from hr]
      dsimp only
      refine ⟨rfl, rfl, nofun, fun _ _ _ => ⟨hr, ?_, ?_⟩⟩
      · exact (congrArg (fun q => fld (cget regReset q Reg.waili_ERR) 0 8) (respond_regs _ _ _)).trans
          (regF_hwCountF_one Reg.waili_ERR 0 (by decide) (inboxDrop l r))
      · rw [← erText_five]
        rfl

theorem routeAnswer_outcome (r : State) :
    let u := routeAnswer r
    (answerIn r = none → u = r) ∧
    ∀ l, answerIn r = some l → u.loop.inbox = r.loop.inbox.erase l ∧ u.regs = r.regs ∧
      (awaited r l.unit = false → u.waili.out = r.waili.out ∧ u.waili.targets = r.waili.targets) ∧
      (awaited r l.unit = true →
        let line := 0x23 :: dec l.unit ++ 0x20 :: l.chars
        let final := l.chars = codes "OK" ∨ l.chars.take 3 = codes "ER "
        (r.waili.ubegun = false → u.waili.out = r.waili.out ++ line ++ lineTail r.waili.tctx.suffix r line ++ [0x0D, 0x0A]) ∧
        (final → u.waili.targets = r.waili.targets.filter (fun e => e.1 != l.unit)) ∧
        (¬ final → u.waili.targets.map Prod.fst = r.waili.targets.map Prod.fst ∧ u.waili.speak = some l.unit)) := by
  dsimp only
  unfold routeAnswer
  refine ⟨fun h => by rw [h], fun l hl => ?_⟩
  rw [hl]
  dsimp only
  cases haw : awaited r l.unit with
  | false =>
    rw [if_pos (by rw [show awaited (inboxDrop l r) l.unit = false from haw]; rfl)]
    exact ⟨rfl, rfl, fun _ => ⟨rfl, rfl⟩, nofun⟩
  | true =>
    rw [if_neg (by rw [show awaited (inboxDrop l r) l.unit = true from haw]; decide)]
    obtain ⟨out, uwait, h, hout⟩ := wline_eq (inboxDrop l r).waili.tctx.suffix (0x23 :: dec l.unit ++ 0x20 :: l.chars) (inboxDrop l r)
    have hfinal : isFinal l.chars = true ↔ l.chars = codes "OK" ∨ l.chars.take 3 = codes "ER " := by simp [isFinal]
    rw [h]
    by_cases hf : isFinal l.chars = true
    · rw [if_pos hf]
      exact ⟨rfl, rfl, nofun, fun _ => ⟨fun hb => hout hb, fun _ => rfl, fun hn => absurd (hfinal.mp hf) hn⟩⟩
    · rw [if_neg hf]
      refine ⟨rfl, rfl, nofun, fun _ => ⟨fun hb => hout hb, fun hn => absurd (hfinal.mpr hn) hf, fun _ => ⟨?_, rfl⟩⟩⟩
      show (List.map _ _).map Prod.fst = _
      rw [List.map_map]
      refine List.map_congr_left fun e _ => ?_
      by_cases he : e.1 = l.unit
      · exact (congrArg Prod.fst (if_pos he)).trans he.symm
      · exact congrArg Prod.fst (if_neg he)

/-! ### Units that stay silent (R848) -/

/-- The line for a silent unit goes out. -/
def silentLine (s : State) (e : Nat × Nat) : State := wline s.waili.tctx.suffix (0x23 :: dec e.1 ++ 0x20 :: erText 50 []) s

theorem silentLines_eq (gone : List (Nat × Nat)) (s : State) : ∃ out uwait,
    gone.foldl silentLine s = { s with waili := { s.waili with out := out, uwait := uwait } } := by
  induction gone generalizing s with
  | nil => exact ⟨_, _, rfl⟩
  | cons e gone ih =>
    obtain ⟨out, uwait, h, -⟩ := wline_eq s.waili.tctx.suffix (0x23 :: dec e.1 ++ 0x20 :: erText 50 []) s
    obtain ⟨out', uwait', h'⟩ := ih (silentLine s e)
    refine ⟨out', uwait', h'.trans ?_⟩
    rw [silentLine, h]

theorem erText_fifty : 0x20 :: erText 50 [] = codes " ER 50 NOUNIT" := by decide

theorem routeSilent_outcome (r : State) :
    let u := routeSilent r
    if r.waili.run ≠ none ∨ r.waili.inner ≠ none then u = r
    else u.regs = r.regs ∧ u.loop = r.loop ∧
      (∀ e ∈ r.waili.targets, e ∈ u.waili.targets ↔
        ¬ (e.2 ≤ r.now ∧ r.loop.inbox.any (fun l => l.unit == e.1 && decide (0xC0 ≤ l.code.toNat)) = false)) ∧
      (∀ e, r.waili.targets.head? = some e → r.waili.targets.tail = [] → e.2 ≤ r.now → r.loop.inbox = [] → r.waili.ubegun = false →
        let line := 0x23 :: dec e.1 ++ codes " ER 50 NOUNIT"
        u.waili.out = r.waili.out ++ line ++ lineTail r.waili.tctx.suffix r line ++ [0x0D, 0x0A]) := by
  dsimp only
  by_cases hbusy : r.waili.run ≠ none ∨ r.waili.inner ≠ none
  · rw [if_pos hbusy]
    exact if_pos (by simpa [Option.isSome_iff_ne_none] using hbusy)
  rw [if_neg hbusy, routeSilent, if_neg (by simpa [Option.isSome_iff_ne_none] using hbusy)]
  have hsilent : ∀ e, silentNow r e = true ↔
      e.2 ≤ r.now ∧ r.loop.inbox.any (fun l => l.unit == e.1 && decide (0xC0 ≤ l.code.toNat)) = false := by
    intro e
    simp only [silentNow, Bool.and_eq_true, decide_eq_true_eq, Bool.not_eq_true']
  obtain ⟨out, uwait, h⟩ := silentLines_eq (r.waili.targets.filter (silentNow r)) r
  have hregs := congrArg State.regs h
  have hloop := congrArg State.loop h
  refine ⟨hregs, hloop, fun e he => ?_, fun e hhead htail hdue hinbox hbegun => ?_⟩
  · show e ∈ List.filter _ (List.foldl silentLine r _).waili.targets ↔ _
    rw [h, ← hsilent e]
    simp [List.mem_filter, he]
  · have htargets : r.waili.targets = [e] := by
      cases ht : r.waili.targets with
      | nil => simp [ht] at hhead
      | cons a l => simp_all
    have hgone : r.waili.targets.filter (silentNow r) = [e] := by
      rw [htargets, List.filter_cons_of_pos ((hsilent e).mpr ⟨hdue, by rw [hinbox]; rfl⟩), List.filter_nil]
    obtain ⟨out', uwait', h', hout⟩ := wline_eq r.waili.tctx.suffix (0x23 :: dec e.1 ++ 0x20 :: erText 50 []) r
    rw [← erText_fifty, ← hout hbegun]
    show (List.foldl silentLine r _).waili.out = _
    rw [hgone]
    exact congrArg (fun t => t.waili.out) h'

/-- Settles O54: each row by its outcome lemma. -/
theorem wailiReceivesRoutesAndSends : Obligations.WailiReceivesRoutesAndSends := by
  unfold Obligations.WailiReceivesRoutesAndSends
  intro s m dt x v b hup w tail plain counted
  exact ⟨ActsAfter.of rfl hup (wReceive_outcome x b _), ActsAfter.of rfl hup (wBreak_outcome _), Acts.of rfl hup (wUsr_outcome _),
    Acts.of rfl hup (utxWrite_outcome m x _), Acts.of rfl hup (uendWrite_outcome m v _), ActsAt.of rfl hup (wNofw_outcome _),
    ActsAt.of rfl hup (wProgress_outcome _), ActsAfter.of rfl hup (wSent_outcome _), Acts.of rfl hup (routeLine_outcome _),
    Acts.of rfl hup (routeReceive_outcome _), Acts.of rfl hup (routeAnswer_outcome _), ActsAt.of rfl hup (routeSilent_outcome _)⟩

end Sys2Proof.Machine

/-! ## The CAN controllers: what each operation leaves (R916-R933) -/

namespace Sys2Proof.Machine

/-! ### Words of a controller -/

theorem can_not_mem_runst {k : Fin 2} {a : Nat} (h : canBase k ≤ a) : a ∉ runst :=
  not_mem_runst (.inr (Nat.lt_of_lt_of_le (by decide) ((canBase_ge k).trans h)))

/-- Two words of the first twelve of objects are the same where object and word are. -/
theorem objAt_inj {k : Fin 2} {i j : Fin 32} {w x : Nat} (hw : w < 0x0C) (hx : x < 0x0C) :
    objAt k i w = objAt k j x ↔ i = j ∧ w = x := by
  rw [Fin.ext_iff]
  unfold objAt objOff
  constructor
  · split_ifs <;> omega
  · rintro ⟨h, rfl⟩
    rw [h]

theorem objAt_word {k : Fin 2} {j : Fin 32} {w x : Nat} : objAt k j w = objAt k j x ↔ w = x := by
  unfold objAt
  omega

theorem canBase_le (k : Fin 2) (o : Nat) : canBase k ≤ canAt k o := Nat.le_add_right _ _

theorem canAt_ne {k : Fin 2} {o p : Nat} (h : o ≠ p) : canAt k o ≠ canAt k p := fun he => h (Nat.add_left_cancel he)

theorem objAt_ne_canAt {k : Fin 2} {j : Fin 32} {w o : Nat} (h : o < 0x100) : objAt k j w ≠ canAt k o := by
  have := objAt_ge k j w
  unfold canAt
  omega

theorem objAt_ne {k : Fin 2} {j : Fin 32} {w x : Nat} (h : w ≠ x) : objAt k j w ≠ objAt k j x := fun he => h (objAt_word.mp he)

/-! ### Register records -/

theorem reg_of_regs {s u : State} (h : u.regs = s.regs) (a : Nat) : reg u a = reg s a := congrArg (cget regReset · a) h

theorem reg32_congr {s u : State} {a : Nat} (h : reg u a = reg s a) (h' : reg u (a + 1) = reg s (a + 1)) : reg32 u a = reg32 s a := by
  rw [reg32, reg32, h, h']

theorem reg_setReg32_other {a b : Nat} (v : Pair) (s : State) (h : b ≠ a) (h' : b ≠ a + 1) : reg (setReg32 a v s) b = reg s b := by
  rw [setReg32, reg_setReg_other _ _ h', reg_setReg_other _ _ h]

/-- A register bit that hardware sets. -/
theorem regBit_hwSet (a i : Nat) (m : Word) (s : State) : regBit (hwSet a m s) a i = (regBit s a i || m.getLsbD i) := by
  rw [regBit, reg_hwSet_same, BitVec.getLsbD_or]
  rfl

/-- Request `j` of a controller after one of its request bits is written. -/
theorem pendingTx_setReg32 (k : Fin 2) (i j : Fin 32) (b : Bool) (s : State) :
    pendingTx (setReg32 (canAt k cTXREQ) (putBit (reg32 s (canAt k cTXREQ)) i b) s) k j = if j = i then b else pendingTx s k j := by
  rw [pendingTx, reg32_setReg32, getLsbD_putBit _ _ _ _ j.isLt]
  simp only [Fin.ext_iff]
  rfl

/-! ### Controllers -/

theorem canRec_setCan (k : Fin 2) (f : Can → Can) (s : State) : (setCan k f s).can[k] = f s.can[k] := by simp [setCan]

theorem canRec_setCan_other {k j : Fin 2} (h : j ≠ k) (f : Can → Can) (s : State) : (setCan k f s).can[j] = s.can[j] := by
  have hne : k.val ≠ j.val := fun hv => h (Fin.ext hv.symm)
  simp [setCan, hne]

theorem setCan_self (k : Fin 2) (f : Can → Can) (s : State) (h : f s.can[k] = s.can[k]) : setCan k f s = s := by
  have : s.can.set k (f s.can[k]) = s.can := by rw [h]; exact Vector.set_getElem_self _
  rw [setCan, this]

/-- The state of a controller rests on its record and MCTL. -/
theorem canState_congr {s u : State} {k : Fin 2} (hc : u.can = s.can) (hr : reg u (canAt k cMCTL) = reg s (canAt k cMCTL)) :
    canState u k = canState s k := by
  have hm : canMode u k = canMode s k := congrArg (fld · 13 3) hr
  rw [canState, canState, hm, canRec, canRec, hc]

theorem canState_signal (n : Fin 96) (k : Fin 2) (s : State) : canState (signal n s) k = canState s k :=
  canState_congr (signal_can n s) (reg_signal (mctl_not_mem_runst k) n s)

theorem reg_canChange {a : Nat} (ha : a ∉ runst) (k : Fin 2) (f : State → State) (s : State) : reg (canChange k f s) a = reg (f s) a :=
  canChange_induction (P := fun u => reg u a = reg (f s) a) rfl fun n => reg_signal ha n _

theorem canChange_can (k : Fin 2) (f : State → State) (s : State) : (canChange k f s).can = (f s).can :=
  canChange_induction (P := fun u => u.can = (f s).can) rfl fun n => signal_can n _

theorem canChange_plinth (k : Fin 2) (f : State → State) (s : State) : (canChange k f s).plinth = (f s).plinth :=
  canChange_induction (P := fun u => u.plinth = (f s).plinth) rfl fun n => signal_plinth n _

theorem hasEvent_canChange {n : Fin 96} (k : Fin 2) {f : State → State} {s : State} (h : hasEvent (f s) n) :
    hasEvent (canChange k f s) n :=
  canChange_induction (P := fun u => hasEvent u n) h fun m => hasEvent_signal h m

/-- A change of BUSST.STATE is signalled. -/
theorem canChange_signals (k : Fin 2) (f : State → State) (s : State) (h : canState s k ≠ canState (canChange k f s) k) :
    hasEvent (canChange k f s) (Fin.ofNat 96 (45 + 4 * k.val)) := by
  unfold canChange at h ⊢
  dsimp only at h ⊢
  split_ifs at h ⊢ with hs
  · exact absurd hs.symm h
  · rw [show (Fin.ofNat 96 (45 + 4 * k.val)) = ⟨45 + 4 * k.val, by omega⟩ from Fin.ext (Nat.mod_eq_of_lt (by omega))]
    exact hasEvent_signal_same _ _

/-- A controller that may start to transmit takes its object, and nothing else changes. -/
theorem canPick_eq (k : Fin 2) (s : State) : ∃ cur cancelled,
    canPick k s = setCan k (fun c => { c with cur := cur, cancelled := cancelled }) s := by
  unfold canPick
  dsimp only
  split_ifs
  · exact ⟨_, _, rfl⟩
  · exact ⟨s.can[k].cur, s.can[k].cancelled, (setCan_self k _ s rfl).symm⟩

theorem canPick_regs (k : Fin 2) (s : State) : (canPick k s).regs = s.regs := by
  obtain ⟨_, _, h⟩ := canPick_eq k s
  rw [h]
  rfl

theorem reg_canPick (k : Fin 2) (s : State) (a : Nat) : reg (canPick k s) a = reg s a :=
  congrArg (cget regReset · a) (canPick_regs k s)

theorem canPick_intc (k : Fin 2) (s : State) : (canPick k s).intc = s.intc := by
  obtain ⟨_, _, h⟩ := canPick_eq k s
  rw [h]
  rfl

theorem hasEvent_canPick {n : Fin 96} (k : Fin 2) {s : State} (h : hasEvent s n) : hasEvent (canPick k s) n := by
  unfold hasEvent
  rw [canPick_intc]
  exact h

/-- What picking an object leaves of a controller's record. -/
theorem canPick_rec (k : Fin 2) (s : State) : ∃ cur cancelled,
    (canPick k s).can[k] = { s.can[k] with cur := cur, cancelled := cancelled } := by
  obtain ⟨cur, cancelled, h⟩ := canPick_eq k s
  exact ⟨cur, cancelled, by rw [h, canRec_setCan]⟩

theorem canState_canPick (k : Fin 2) (s : State) : canState (canPick k s) k = canState s k := by
  obtain ⟨cur, cancelled, h⟩ := canPick_rec k s
  have hm : canMode (canPick k s) k = canMode s k := congrArg (fld · 13 3) (reg_canPick k s _)
  rw [canState, canState, hm, canRec, canRec, h]

/-! ### Requests one after the other -/

/-- What object `j` is before its own bit of the pair, and after, where the other objects keep both. -/
theorem eachObj_one {v : Pair} {f : Fin 32 → State → State} {j : Fin 32} {Before After : State → Prop}
    (step : ∀ s, Before s → After (f j s)) (keepBefore : ∀ i s, i ≠ j → Before s → Before (f i s))
    (keepAfter : ∀ i s, i ≠ j → After s → After (f i s)) {s : State} (h : Before s) :
    if v.getLsbD j = true then After (eachObj v f s) else Before (eachObj v f s) := by
  have hfold : ∀ (l : List (Fin 32)) (s : State), j ∉ l → (Before s → Before (l.foldl (fun s (i : Fin 32) => if v.getLsbD i then f i s else s) s)) ∧
      (After s → After (l.foldl (fun s (i : Fin 32) => if v.getLsbD i then f i s else s) s)) := by
    intro l
    induction l with
    | nil => exact fun s _ => ⟨id, id⟩
    | cons i l ih =>
      intro s hj
      rw [List.mem_cons, not_or] at hj
      rw [List.foldl_cons]
      obtain ⟨hb, ha⟩ := ih (if v.getLsbD i then f i s else s) hj.2
      refine ⟨fun h => hb ?_, fun h => ha ?_⟩
      · split_ifs
        · exact keepBefore i s (Ne.symm hj.1) h
        · exact h
      · split_ifs
        · exact keepAfter i s (Ne.symm hj.1) h
        · exact h
  obtain ⟨pre, post, hsplit⟩ := List.append_of_mem (List.mem_finRange j)
  have hnodup : (pre ++ j :: post).Nodup := hsplit ▸ List.nodup_finRange 32
  have hpre : j ∉ pre := fun hm => (List.nodup_append.mp hnodup).2.2 j hm j (List.mem_cons_self ..) rfl
  have hpost : j ∉ post := (List.nodup_cons.mp (List.nodup_append.mp hnodup).2.1).1
  unfold eachObj
  rw [hsplit, List.foldl_append, List.foldl_cons]
  have hmid := (hfold pre s hpre).1 h
  generalize pre.foldl _ s = t at hmid ⊢
  split_ifs with hv
  · exact (hfold post _ hpost).2 (step t hmid)
  · exact (hfold post _ hpost).1 hmid

end Sys2Proof.Machine

/-! ## CAN modes and requests (R918, R921, R924-R926, R928) -/

namespace Sys2Proof.Machine

/-! ### Entering OFF -/

/-- The record of a controller that enters OFF. -/
def offRec (c : Can) : Can :=
  { c with integrating := false, recovering := false, busOff := c.busOff || c.recovering, cur := none, cancelled := false, busy := false }

theorem canOff_change (k : Fin 2) (s : State) : canOff k s = canChange k (fun s => setCan k offRec (offRegs k s)) s := rfl

theorem offRegs_can (k : Fin 2) (s : State) : (offRegs k s).can = s.can := by
  obtain ⟨_, _, h⟩ := offRegs_eq k s
  rw [h]

theorem canOff_rec (k : Fin 2) (s : State) : (canOff k s).can[k] = offRec s.can[k] := by
  simp only [canOff_change, canChange_can, canRec_setCan, offRegs_can]

theorem reg_canOff_offRegs {k : Fin 2} {a : Nat} (ha : canBase k ≤ a) (s : State) : reg (canOff k s) a = reg (offRegs k s) a := by
  rw [canOff_change, reg_canChange (can_not_mem_runst ha)]
  exact reg_setCan k offRec (offRegs k s) a

theorem reg_canOff_mctl (k : Fin 2) (s : State) :
    reg (canOff k s) (canAt k cMCTL) = putFld (reg s (canAt k cMCTL)) 13 3 0 := by
  rw [reg_canOff_offRegs (canBase_le k _), offRegs, reg_setRegF_same,
    reg_setReg32_other _ _ (canAt_ne (o := cMCTL) (p := cTXREQ) (by decide)) (canAt_ne (o := cMCTL) (p := 0x11) (by decide)), reg_abtAll (a := canAt k cMCTL) (.inl (Nat.add_lt_add_left (by decide) _))]

theorem pendingTx_canOff (k : Fin 2) (j : Fin 32) (s : State) : pendingTx (canOff k s) k j = false := by
  have h : ∀ a, canAt k cMCTL < a → reg (canOff k s) a = reg (setReg32 (canAt k cTXREQ) 0 (abtAll k s)) a := by
    intro a ha
    rw [reg_canOff_offRegs ((canBase_le k cMCTL).trans ha.le), offRegs, reg_setRegF_other _ _ _ _ (Nat.ne_of_gt ha)]
  have hpair : reg32 (canOff k s) (canAt k cTXREQ) = 0 := by
    rw [reg32_congr (h (canAt k 0x10) (Nat.add_lt_add_left (by decide) _)) (h (canAt k 0x11) (Nat.add_lt_add_left (by decide) _)), reg32_setReg32]
  rw [pendingTx, hpair]
  exact BitVec.getLsbD_zero

/-- A request that enters OFF ends with ABT. -/
theorem abt_canOff (k : Fin 2) (j : Fin 32) (s : State) (h : pendingTx s k j = true) : regBit (canOff k s) (objAt k j 1) 9 = true := by
  have hge := objAt_ge k j 1
  have habt := eachObj_one (v := reg32 s (canAt k cTXREQ)) (f := fun i s => setAbt k i s) (j := j) (Before := fun _ => True)
    (After := fun u => regBit u (objAt k j 1) 9 = true) (s := s)
    (fun s _ => by rw [setAbt, regBit_hwSet]; exact Bool.or_true _) (fun _ _ _ _ => trivial)
    (fun i u hij hu => by
      rw [setAbt, regBit, reg_hwSet_other _ _ (by rw [Ne, objAt_inj (by decide) (by decide)]; exact fun h => hij h.1.symm)]
      exact hu) trivial
  rw [if_pos (show (reg32 s (canAt k cTXREQ)).getLsbD j = true from h)] at habt
  rw [regBit, reg_canOff_offRegs (by omega), offRegs, reg_setRegF_other _ _ _ _ (objAt_ne_canAt (by decide)),
    reg_setReg32_other _ _ (objAt_ne_canAt (by decide)) (objAt_ne_canAt (o := 0x11) (by decide))]
  exact habt

theorem canOff_plinth (k : Fin 2) (s : State) : (canOff k s).plinth = s.plinth := by
  obtain ⟨_, _, _, _, _, h⟩ := canOff_eq k s
  rw [h]

/-! ### Starting -/

/-- What starting a controller does. -/
structure CanStarted (k : Fin 2) (n : Nat) (s u : State) : Prop where
  plinth : u.plinth = s.plinth
  other : u.can[otherConv k] = s.can[otherConv k]
  of_ok : canConfigOk s k = true → reg u (canAt k cMCTL) = putFld (reg s (canAt k cMCTL)) 13 3 n ∧
    u.can[k].integrating = !s.can[k].busOff ∧ u.can[k].recovering = s.can[k].busOff
  of_bad : canConfigOk s k = false → reg u (canAt k cMCTL) = reg s (canAt k cMCTL) ∧
    regBit u (canAt k cBUSST) 13 = true ∧ u.can = s.can

theorem otherConv_ne (k : Fin 2) : otherConv k ≠ k := by
  revert k
  decide

/-- The record of a controller that starts. -/
def startRec (c : Can) : Can :=
  { c with integrating := !c.busOff, recovering := c.busOff, busOff := false, busy := false }

theorem canStart_eq (k : Fin 2) (n : Nat) : canStart k n = canChange k (fun s =>
    if canConfigOk s k then setCan k startRec (setRegF (canAt k cMCTL) 13 3 n s) else hwSet (canAt k cBUSST) 0x2000 s) := rfl

theorem canStart_started (k : Fin 2) (n : Nat) (s : State) : CanStarted k n s (canStart k n s) := by
  have hmctl : canAt k cMCTL ∉ runst := mctl_not_mem_runst k
  rw [canStart_eq]
  cases hok : canConfigOk s k with
  | true =>
    have hf : (if canConfigOk s k then setCan k startRec (setRegF (canAt k cMCTL) 13 3 n s) else hwSet (canAt k cBUSST) 0x2000 s) =
      setCan k startRec (setRegF (canAt k cMCTL) 13 3 n s) := if_pos hok
    have hplinth := congrArg State.plinth hf
    refine ⟨(canChange_plinth k _ s).trans hplinth, ?_, fun _ => ⟨?_, ?_⟩,
      fun h => absurd (hok.symm.trans h) (by decide)⟩
    · rw [canChange_can, hf, canRec_setCan_other (otherConv_ne k)]
      rfl
    · rw [reg_canChange hmctl, hf, reg_setCan, reg_setRegF_same]
    · rw [canChange_can, hf, canRec_setCan]
      exact ⟨rfl, rfl⟩
  | false =>
    have hf : (if canConfigOk s k then setCan k startRec (setRegF (canAt k cMCTL) 13 3 n s) else hwSet (canAt k cBUSST) 0x2000 s) =
      hwSet (canAt k cBUSST) 0x2000 s := if_neg (by simp [hok])
    have hplinth := congrArg State.plinth hf
    refine ⟨(canChange_plinth k _ s).trans hplinth, ?_,
      fun h => absurd (hok.symm.trans h) (by decide), fun _ => ⟨?_, ?_, ?_⟩⟩
    · rw [canChange_can, hf]
      rfl
    · rw [reg_canChange hmctl, hf, reg_hwSet_other _ _ (canAt_ne (by decide))]
    · rw [regBit, reg_canChange (can_not_mem_runst (canBase_le k _)), hf]
      exact (regBit_hwSet (canAt k cBUSST) 13 0x2000 s).trans (Bool.or_true _)
    · rw [canChange_can, hf]
      rfl

/-! ### MCTL written (R918, R930) -/

/-- The state with CSTBY at `b`. -/
def setCstby (b : Bool) (s : State) : State := { s with plinth := { s.plinth with cstby := b } }

/-- CSTBY follows CAN0's XSTB. -/
def standby (k : Fin 2) (v : Word) (s : State) : State :=
  if k = 0 then setCstby (v.getLsbD 12) (setRegBit (canAt k cMCTL) 12 (v.getLsbD 12) s) else s

theorem reg_setCstby (b : Bool) (s : State) (a : Nat) : reg (setCstby b s) a = reg s a := rfl

theorem standby_can (k : Fin 2) (v : Word) (s : State) : (standby k v s).can = s.can := by
  unfold standby
  split_ifs <;> rfl

theorem reg_standby_other {k : Fin 2} {a : Nat} (h : a ≠ canAt k cMCTL) (v : Word) (s : State) : reg (standby k v s) a = reg s a := by
  unfold standby
  split_ifs
  · rw [reg_setCstby, reg_setRegBit_other _ _ _ h]
  · rfl

theorem fld_standby (k : Fin 2) (v : Word) (s : State) {lo len : Nat} (h : lo + len ≤ 16) (h' : lo + len ≤ 12 ∨ 13 ≤ lo) :
    fld (reg (standby k v s) (canAt k cMCTL)) lo len = fld (reg s (canAt k cMCTL)) lo len := by
  unfold standby
  split_ifs
  · rw [reg_setCstby, reg_setRegBit_same, putBit, fld_putFld_other _ _ _ _ _ _ h (by omega)]
  · rfl

theorem standby_cstby {k : Fin 2} (h : k = 0) (v : Word) (s : State) :
    (standby k v s).plinth.cstby = v.getLsbD 12 ∧ regBit (standby k v s) (canAt k cMCTL) 12 = v.getLsbD 12 := by
  unfold standby
  rw [if_pos h, regBit, reg_setCstby, reg_setRegBit_same, getLsbD_putBit _ _ _ _ (by decide), if_pos rfl]
  exact ⟨rfl, rfl⟩

theorem mctlWrite_eq {m : Master} (hm : privileged m = true) (k : Fin 2) (v : Word) (s : State) : mctlWrite m k v s =
    if canMode (standby k v s) k = 0 then
      (if 1 ≤ fld v 13 3 ∧ fld v 13 3 ≤ 3 then canStart k (fld v 13 3) (setRegF (canAt k cMCTL) 7 5 (fld v 7 5) (standby k v s))
       else setRegF (canAt k cMCTL) 7 5 (fld v 7 5) (standby k v s))
    else if fld v 13 3 = 0 then canOff k (standby k v s) else standby k v s := by
  rw [mctlWrite, if_neg (by simp [hm])]
  rfl

theorem canMode_standby (k : Fin 2) (v : Word) (s : State) : canMode (standby k v s) k = canMode s k :=
  fld_standby k v s (by decide) (.inr (by decide))

/-- The timing of a controller and its clock, not MCTL, decide whether it may start. -/
theorem canConfigOk_congr {k : Fin 2} {s u : State} (h : ∀ a, a ≠ canAt k cMCTL → reg u a = reg s a) :
    canConfigOk u k = canConfigOk s k := by
  have ha : reg32 u (canAt k cABTIME) = reg32 s (canAt k cABTIME) :=
    reg32_congr (h _ (canAt_ne (by decide))) (h (canAt k 3) (canAt_ne (by decide)))
  have hd : reg32 u (canAt k cDBTIME) = reg32 s (canAt k cDBTIME) :=
    reg32_congr (h _ (canAt_ne (by decide))) (h (canAt k 5) (canAt_ne (by decide)))
  have hb : onBackup u = onBackup s := by
    rw [onBackup_eq, onBackup_eq, regBit, h _ (Nat.ne_of_lt (Nat.lt_of_lt_of_le (by decide) ((canBase_ge k).trans (canBase_le k _))))]
    rfl
  rw [canConfigOk, canConfigOk, ha, hd, hb]

/-- The state with the options of MCTL written. -/
def optioned (k : Fin 2) (v : Word) (s : State) : State := setRegF (canAt k cMCTL) 7 5 (fld v 7 5) (standby k v s)

theorem reg_optioned (k : Fin 2) (v : Word) (s : State) :
    reg (optioned k v s) (canAt k cMCTL) = putFld (reg (standby k v s) (canAt k cMCTL)) 7 5 (fld v 7 5) := reg_setRegF_same _ _ _ _ _

theorem canConfigOk_optioned (k : Fin 2) (v : Word) (s : State) : canConfigOk (optioned k v s) k = canConfigOk s k :=
  canConfigOk_congr fun a ha => by rw [optioned, reg_setRegF_other _ _ _ _ ha, reg_standby_other ha]

theorem optioned_can (k : Fin 2) (v : Word) (s : State) : (optioned k v s).can = s.can := standby_can k v s

theorem optioned_plinth (k : Fin 2) (v : Word) (s : State) : (optioned k v s).plinth = (standby k v s).plinth := rfl

theorem getLsbD_putFld_twelve (w : Word) {lo len : Nat} (x : Nat) (h : lo + len ≤ 12 ∨ 13 ≤ lo) :
    (putFld w lo len x).getLsbD 12 = w.getLsbD 12 := by
  rw [getLsbD_putFld _ _ _ _ _ (by decide), if_neg (by omega)]

theorem mctlWrite_outcome (m : Master) (k : Fin 2) (v : Word) (r : State) :
    let u := mctlWrite m k v r
    let n := fld v 13 3
    if privileged m = false then u = r
    else (k = 0 → u.plinth.cstby = v.getLsbD 12 ∧ regBit u (canAt k cMCTL) 12 = v.getLsbD 12) ∧
      (canMode r k ≠ 0 → regF u (canAt k cMCTL) 7 5 = regF r (canAt k cMCTL) 7 5) ∧
      (canMode r k = 0 → regF u (canAt k cMCTL) 7 5 = fld v 7 5 ∧ u.can[otherConv k] = r.can[otherConv k]) ∧
      (canMode r k ≠ 0 → n ≠ 0 → canMode u k = canMode r k ∧ u.can = r.can) ∧
      (canMode r k ≠ 0 → n = 0 → canMode u k = 0 ∧ u.can[k].cur = none ∧ u.can[k].integrating = false ∧
        u.can[k].tec = r.can[k].tec ∧ u.can[k].rec_ = r.can[k].rec_ ∧
        ∀ j : Fin 32, pendingTx u k j = false ∧ (pendingTx r k j = true → regBit u (objAt k j 1) 9 = true)) ∧
      (canMode r k = 0 → 1 ≤ n → n ≤ 3 →
        if canConfigOk r k = true then canMode u k = n ∧ u.can[k].integrating = !r.can[k].busOff ∧ u.can[k].recovering = r.can[k].busOff
        else canMode u k = 0 ∧ regBit u (canAt k cBUSST) 13 = true ∧ u.can = r.can) ∧
      (canMode r k = 0 → n = 0 ∨ 3 < n → canMode u k = 0 ∧ u.can = r.can) := by
  intro u n
  by_cases hm : privileged m = false
  · rw [if_pos hm]
    exact if_pos (by simp [hm])
  rw [if_neg hm]
  have hu : u = _ := mctlWrite_eq (by simpa using hm) k v r
  rw [canMode_standby] at hu
  by_cases hmode : canMode r k = 0
  · rw [if_pos hmode] at hu
    have hrec : canMode (optioned k v r) k = 0 := by
      rw [canMode, regF, reg_optioned, fld_putFld_other _ _ _ _ _ _ (by decide) (by decide)]
      exact (canMode_standby k v r).trans hmode
    have hopt : fld (reg (optioned k v r) (canAt k cMCTL)) 7 5 = fld v 7 5 := by
      rw [reg_optioned, fld_putFld _ _ _ _ (by decide), Nat.mod_eq_of_lt (fld_lt v 7 5)]
    have h12 (h : k = 0) : (optioned k v r).plinth.cstby = v.getLsbD 12 ∧
        (reg (optioned k v r) (canAt k cMCTL)).getLsbD 12 = v.getLsbD 12 := by
      rw [reg_optioned, getLsbD_putFld_twelve _ _ (.inl (by decide)), optioned_plinth]
      exact standby_cstby h v r
    by_cases hn : 1 ≤ n ∧ n ≤ 3
    · rw [if_pos hn] at hu
      have hstart : CanStarted k n (optioned k v r) u := hu ▸ canStart_started k n _
      clear_value u
      have hmctl : reg u (canAt k cMCTL) = putFld (reg (optioned k v r) (canAt k cMCTL)) 13 3 n ∨
          reg u (canAt k cMCTL) = reg (optioned k v r) (canAt k cMCTL) := by
        cases hok : canConfigOk (optioned k v r) k with
        | true => exact .inl (hstart.of_ok hok).1
        | false => exact .inr (hstart.of_bad hok).1
      have hlow : fld (reg u (canAt k cMCTL)) 7 5 = fld v 7 5 ∧
          (reg u (canAt k cMCTL)).getLsbD 12 = (reg (optioned k v r) (canAt k cMCTL)).getLsbD 12 := by
        rcases hmctl with h | h
        · rw [h, fld_putFld_other _ _ _ _ _ _ (by decide) (by decide), getLsbD_putFld_twelve _ _ (.inr (by decide))]
          exact ⟨hopt, rfl⟩
        · rw [h]
          exact ⟨hopt, rfl⟩
      refine ⟨fun h => ⟨(congrArg Plinth.cstby hstart.plinth).trans (h12 h).1, hlow.2.trans (h12 h).2⟩, fun h => absurd hmode h,
        fun _ => ⟨hlow.1, hstart.other.trans (by rw [optioned_can])⟩, fun h => absurd hmode h, fun h => absurd hmode h, fun _ _ _ => ?_,
        fun _ h => absurd hn (by omega)⟩
      have hok := canConfigOk_optioned k v r
      by_cases hc : canConfigOk r k = true
      · obtain ⟨hreg, hint, hrecov⟩ := hstart.of_ok (hok.trans hc)
        rw [if_pos hc, canMode, regF, hreg, fld_putFld _ _ _ _ (by decide), Nat.mod_eq_of_lt (by omega), hint, hrecov, optioned_can]
        exact ⟨rfl, rfl, rfl⟩
      · obtain ⟨hreg, hbit, hcan⟩ := hstart.of_bad (hok.trans (by simpa using hc))
        rw [if_neg hc, canMode, regF, hreg, hcan, optioned_can]
        exact ⟨hrec, hbit, rfl⟩
    · rw [if_neg hn] at hu
      have hu : u = optioned k v r := hu
      rw [hu]
      exact ⟨h12, fun h => absurd hmode h, fun _ => ⟨hopt, by rw [optioned_can]⟩, fun h => absurd hmode h,
        fun h => absurd hmode h, fun _ h h' => absurd ⟨h, h'⟩ hn, fun _ _ => ⟨hrec, optioned_can k v r⟩⟩
  · rw [if_neg hmode] at hu
    have hkept : fld (reg (standby k v r) (canAt k cMCTL)) 7 5 = fld (reg r (canAt k cMCTL)) 7 5 :=
      fld_standby k v r (by decide) (.inl (by decide))
    by_cases hn : n = 0
    · rw [if_pos hn] at hu
      have hoff : u.can[k] = offRec r.can[k] := by rw [hu, canOff_rec, standby_can]
      have hreg : reg u (canAt k cMCTL) = putFld (reg (standby k v r) (canAt k cMCTL)) 13 3 0 := by rw [hu, reg_canOff_mctl]
      have hpend (j : Fin 32) : pendingTx (standby k v r) k j = pendingTx r k j := by
        rw [pendingTx, pendingTx, reg32_congr (reg_standby_other (canAt_ne (by decide)) v r)
          (reg_standby_other (a := canAt k 0x11) (canAt_ne (by decide)) v r)]
      refine ⟨fun h => ?_, fun _ => ?_, fun h => absurd h hmode, fun _ h => absurd hn h, fun _ _ => ⟨?_, ?_, ?_, ?_, ?_, fun j => ⟨?_, fun h => ?_⟩⟩,
        fun h => absurd h hmode, fun h => absurd h hmode⟩
      · rw [regBit, hreg, getLsbD_putFld_twelve _ _ (.inr (by decide)), hu, canOff_plinth]
        exact standby_cstby h v r
      · rw [regF, hreg, fld_putFld_other _ _ _ _ _ _ (by decide) (by decide)]
        exact hkept
      · rw [hu]
        exact canMode_canOff k _
      · rw [hoff]; rfl
      · rw [hoff]; rfl
      · rw [hoff]; rfl
      · rw [hoff]; rfl
      · rw [hu, pendingTx_canOff]
      · rw [hu, abt_canOff k j _ ((hpend j).trans h)]
    · rw [if_neg hn] at hu
      rw [hu]
      exact ⟨fun h => standby_cstby h v r, fun _ => hkept, fun h => absurd h hmode,
        fun _ _ => ⟨canMode_standby k v r, standby_can k v r⟩, fun _ h => absurd h hn, fun h => absurd h hmode, fun h => absurd h hmode⟩

/-! ### Integration and recovery end (R918, R921) -/

theorem canIntegrated_outcome (k : Fin 2) (r : State) :
    let u := canIntegrated k r
    if r.can[k].integrating = false then u = r
    else u.can[k].integrating = false ∧ u.can[k].tec = r.can[k].tec ∧ u.can[k].rec_ = r.can[k].rec_ ∧
      (canState r k ≠ canState u k → hasEvent u (Fin.ofNat 96 (45 + 4 * k.val))) := by
  dsimp only
  by_cases h : r.can[k].integrating = false
  · rw [if_pos h]
    exact if_neg (by rw [canRec, h]; decide)
  rw [if_neg h, canIntegrated, if_pos (by simpa [canRec] using h)]
  obtain ⟨cur, cancelled, hpick⟩ := canPick_rec k (canChange k (setCan k (fun c => { c with integrating := false })) r)
  rw [hpick, canChange_can, canRec_setCan, canState_canPick]
  exact ⟨rfl, rfl, rfl, fun hs => hasEvent_canPick k (canChange_signals k _ r hs)⟩

theorem canRecovered_outcome (k : Fin 2) (r : State) :
    let u := canRecovered k r
    if r.can[k].recovering = false then u = r
    else u.can[k].recovering = false ∧ u.can[k].tec = 0 ∧ u.can[k].rec_ = 0 ∧
      (canState r k ≠ canState u k → hasEvent u (Fin.ofNat 96 (45 + 4 * k.val))) := by
  dsimp only
  by_cases h : r.can[k].recovering = false
  · rw [if_pos h]
    exact if_neg (by rw [canRec, h]; decide)
  rw [if_neg h, canRecovered, if_pos (by simpa [canRec] using h)]
  obtain ⟨cur, cancelled, hpick⟩ := canPick_rec k (canChange k (setCan k (fun c => { c with recovering := false, tec := 0, rec_ := 0 })) r)
  rw [hpick, canChange_can, canRec_setCan, canState_canPick]
  exact ⟨rfl, rfl, rfl, fun hs => hasEvent_canPick k (canChange_signals k _ r hs)⟩

end Sys2Proof.Machine

/-! ## CAN requests, cancels and attempts (R924-R926) -/

namespace Sys2Proof.Machine

/-! ### Requests -/

/-- A request for object `j` breaks a rule of R924. -/
def badRequest (r : State) (k : Fin 2) (j : Fin 32) : Bool :=
  !objEn r k j || !objDir r k j || (objFdf r k j && !regBit r (canAt k cMCTL) 11)
    || (objBrs r k j && (!objFdf r k j || !regBit r (canAt k cMCTL) 10)) || (objRtr r k j && objFdf r k j)
    || decide (objCap j < dlcBytes (objFdf r k j) (objDlc r k j))

theorem requestTx_eq (k : Fin 2) (j : Fin 32) (s : State) : requestTx k j s =
    if pendingTx s k j then s
    else if badRequest s k j then hwSet (objAt k j 1) 0x0400 s
    else setReg32 (canAt k cTXREQ) (putBit (reg32 s (canAt k cTXREQ)) j true) s := rfl

theorem badRequest_congr {k : Fin 2} {j : Fin 32} {s u : State} (h0 : reg u (objAt k j 0) = reg s (objAt k j 0))
    (hm : reg u (canAt k cMCTL) = reg s (canAt k cMCTL)) : badRequest u k j = badRequest s k j := by
  have hbit (i : Nat) : objBit u k j 0 i = objBit s k j 0 i := congrArg (BitVec.getLsbD · i) h0
  have hctl (i : Nat) : regBit u (canAt k cMCTL) i = regBit s (canAt k cMCTL) i := congrArg (BitVec.getLsbD · i) hm
  have hdlc : objDlc u k j = objDlc s k j := congrArg (fld · 0 4) h0
  rw [badRequest, badRequest, objEn, objDir, objFdf, objBrs, objRtr, hbit, hbit, hbit, hbit, hbit, hctl, hctl, hdlc]
  rfl

theorem pendingTx_congr {k : Fin 2} {s u : State} (h : ∀ o, o = 0x10 ∨ o = 0x11 → reg u (canAt k o) = reg s (canAt k o)) (j : Fin 32) :
    pendingTx u k j = pendingTx s k j := by
  rw [pendingTx, pendingTx, reg32_congr (h 0x10 (.inl rfl)) (h 0x11 (.inr rfl))]

/-- A flag set in word 1 of an object leaves the request bits. -/
theorem pendingTx_hwSet_obj (k : Fin 2) (i j : Fin 32) (m : Word) (s : State) :
    pendingTx (hwSet (objAt k i 1) m s) k j = pendingTx s k j :=
  pendingTx_congr (fun o ho => reg_hwSet_other _ _ (objAt_ne_canAt (by omega)).symm) j

/-- What the request or the cancel of object `i` may change: its own request bit and its word 1. -/
structure OneRequest (k : Fin 2) (i : Fin 32) (s u : State) : Prop where
  intc : u.intc = s.intc
  reg : ∀ a, a ≠ canAt k 0x10 → a ≠ canAt k 0x11 → a ≠ objAt k i 1 → reg u a = reg s a
  pend : ∀ j, j ≠ i → pendingTx u k j = pendingTx s k j
  cur : u.can[k].cur = s.can[k].cur
  cancelled : s.can[k].cancelled = true → u.can[k].cancelled = true

theorem OneRequest.refl (k : Fin 2) (i : Fin 32) (s : State) : OneRequest k i s s :=
  ⟨rfl, fun _ _ _ _ => rfl, fun _ _ => rfl, rfl, id⟩

theorem oneRequest_hwSet (k : Fin 2) (i : Fin 32) (m : Word) (s : State) : OneRequest k i s (hwSet (objAt k i 1) m s) :=
  ⟨rfl, fun _ _ _ h => reg_hwSet_other _ _ h, fun j _ => pendingTx_hwSet_obj k i j m s, rfl, id⟩

theorem oneRequest_setReg32 (k : Fin 2) (i : Fin 32) (b : Bool) (s : State) :
    OneRequest k i s (setReg32 (canAt k cTXREQ) (putBit (reg32 s (canAt k cTXREQ)) i b) s) :=
  ⟨rfl, fun _ h h' _ => reg_setReg32_other _ _ h h', fun j hj => (pendingTx_setReg32 k i j b s).trans (if_neg hj), rfl, id⟩

theorem OneRequest.trans {k : Fin 2} {i : Fin 32} {s t u : State} (h : OneRequest k i s t) (h' : OneRequest k i t u) :
    OneRequest k i s u :=
  ⟨h'.intc.trans h.intc, fun a h0 h1 h2 => (h'.reg a h0 h1 h2).trans (h.reg a h0 h1 h2), fun j hj => (h'.pend j hj).trans (h.pend j hj),
    h'.cur.trans h.cur, fun hc => h'.cancelled (h.cancelled hc)⟩

theorem oneRequest_requestTx (k : Fin 2) (i : Fin 32) (s : State) : OneRequest k i s (requestTx k i s) := by
  rw [requestTx_eq]
  split_ifs
  · exact .refl k i s
  · exact oneRequest_hwSet k i _ s
  · exact oneRequest_setReg32 k i true s

theorem OneRequest.obj {k : Fin 2} {i : Fin 32} {s u : State} (h : OneRequest k i s u) {j : Fin 32} {w : Nat} (hw : w < 0x0C)
    (hne : ¬ (j = i ∧ w = 1)) : Machine.reg u (objAt k j w) = Machine.reg s (objAt k j w) :=
  h.reg _ (objAt_ne_canAt (by decide)) (objAt_ne_canAt (by decide)) fun he => hne ((objAt_inj hw (by decide)).mp he)

theorem OneRequest.badRequest {k : Fin 2} {i : Fin 32} {s u : State} (h : OneRequest k i s u) (j : Fin 32) :
    badRequest u k j = Machine.badRequest s k j :=
  badRequest_congr (h.obj (by decide) (by simp))
    (h.reg _ (canAt_ne (by decide)) (canAt_ne (by decide)) (objAt_ne_canAt (by decide)).symm)

theorem eachObj_intc {v : Pair} {k : Fin 2} {f : Fin 32 → State → State} (h : ∀ i s, OneRequest k i s (f i s)) (s : State) :
    (eachObj v f s).intc = s.intc :=
  eachObj_induction (P := fun u => u.intc = s.intc) v rfl fun i u hu => (h i u).intc.trans hu

/-- What a requested object is: pending, or refused with its flag. -/
theorem requestTx_done (k : Fin 2) (j : Fin 32) (s : State) :
    pendingTx (requestTx k j s) k j = (pendingTx s k j || !badRequest s k j) ∧
      (pendingTx s k j = false → badRequest s k j = true → regBit (requestTx k j s) (objAt k j 1) 10 = true) := by
  rw [requestTx_eq]
  cases hp : pendingTx s k j with
  | true => exact ⟨hp, nofun⟩
  | false =>
    rw [if_neg (by decide)]
    cases hb : badRequest s k j with
    | true =>
      rw [if_pos rfl]
      refine ⟨(pendingTx_hwSet_obj k j j _ s).trans hp, fun _ _ => ?_⟩
      rw [regBit_hwSet]
      exact Bool.or_true _
    | false =>
      rw [if_neg (by decide)]
      exact ⟨(pendingTx_setReg32 k j j true s).trans (if_pos rfl), nofun⟩

theorem txreqWrite_outcome (m : Master) (k : Fin 2) (p : Pair) (r : State) :
    let u := txreqWrite m k p r
    if canWriter m = false then u = r
    else u.intc = r.intc ∧ ∀ j : Fin 32, pendingTx u k j = (pendingTx r k j || (p.getLsbD j && !badRequest r k j)) ∧
      (p.getLsbD j = true → pendingTx r k j = false → badRequest r k j = true → regBit u (objAt k j 1) 10 = true) := by
  dsimp only
  unfold txreqWrite
  by_cases hm : canWriter m = false
  · rw [if_pos hm, if_neg (by simp [hm])]
  rw [if_neg hm, if_pos (by simpa using hm), canPick_intc]
  refine ⟨eachObj_intc (fun i s => oneRequest_requestTx k i s) r, fun j => ?_⟩
  have hone := eachObj_one (v := p) (f := requestTx k) (j := j) (s := r)
    (Before := fun u => badRequest u k j = badRequest r k j ∧ pendingTx u k j = pendingTx r k j)
    (After := fun u => pendingTx u k j = (pendingTx r k j || !badRequest r k j) ∧
      (pendingTx r k j = false → badRequest r k j = true → regBit u (objAt k j 1) 10 = true))
    (fun s ⟨hb, hp⟩ => by
      have hdone := requestTx_done k j s
      rwa [hb, hp] at hdone)
    (fun i s hij ⟨hb, hp⟩ => ⟨((oneRequest_requestTx k i s).badRequest j).trans hb, ((oneRequest_requestTx k i s).pend j (Ne.symm hij)).trans hp⟩)
    (fun i s hij ⟨hp, hf⟩ => ⟨((oneRequest_requestTx k i s).pend j (Ne.symm hij)).trans hp, fun h h' => by
      rw [regBit, (oneRequest_requestTx k i s).obj (by decide) (fun hj => hij hj.1.symm)]
      exact hf h h'⟩) ⟨rfl, rfl⟩
  have hpick : pendingTx (canPick k (eachObj p (requestTx k) r)) k j = pendingTx (eachObj p (requestTx k) r) k j :=
    pendingTx_congr (fun o _ => reg_canPick k _ _) j
  rw [hpick, regBit, reg_canPick]
  by_cases hv : p.getLsbD j = true
  · rw [if_pos hv] at hone
    rw [hv, Bool.true_and]
    exact ⟨hone.1, fun _ => hone.2⟩
  · rw [if_neg hv] at hone
    rw [hone.2]
    exact ⟨by rw [Bool.eq_false_iff.mpr hv, Bool.false_and, Bool.or_false], fun h => absurd h hv⟩

/-! ### Cancels -/

theorem oneRequest_setCan (k : Fin 2) (i : Fin 32) (s : State) :
    OneRequest k i s (setCan k (fun c => { c with cancelled := true }) s) := by
  refine ⟨rfl, fun _ _ _ _ => rfl, fun _ _ => rfl, ?_, fun _ => ?_⟩
  · rw [canRec_setCan]
  · rw [canRec_setCan]

theorem oneRequest_cancelTx (k : Fin 2) (i : Fin 32) (s : State) : OneRequest k i s (cancelTx k i s) := by
  unfold cancelTx
  split_ifs
  · exact .refl k i s
  · exact oneRequest_setCan k i s
  · exact (oneRequest_setReg32 k i false s).trans (oneRequest_hwSet k i _ _)

/-- A request that ends with ABT. -/
theorem ended_request (k : Fin 2) (j : Fin 32) (s : State) : pendingTx (setAbt k j (clearTxreq k j s)) k j = false ∧
    regBit (setAbt k j (clearTxreq k j s)) (objAt k j 1) 9 = true := by
  refine ⟨?_, ?_⟩
  · rw [setAbt, pendingTx_hwSet_obj]
    exact (pendingTx_setReg32 k j j false s).trans (if_pos rfl)
  · rw [setAbt, regBit_hwSet]
    exact Bool.or_true _

theorem ended_request_eq (k : Fin 2) (j : Fin 32) (s : State) : ∃ regs hw,
    setAbt k j (clearTxreq k j s) = { s with regs := regs, hw := hw } := by
  obtain ⟨regs, h⟩ := setReg32_eq (canAt k cTXREQ) (putBit (reg32 s (canAt k cTXREQ)) j false) s
  obtain ⟨regs', hw, h'⟩ := setAbt_eq k j (clearTxreq k j s)
  exact ⟨regs', hw, by rw [h', clearTxreq, h]⟩

/-- A cancelled object: its request ended, or its transmission is told to end. -/
theorem cancelTx_done (k : Fin 2) (j : Fin 32) (s : State) :
    pendingTx (cancelTx k j s) k j = (pendingTx s k j && !decide (s.can[k].cur ≠ some j)) ∧
      (pendingTx s k j = true → if s.can[k].cur = some j then (cancelTx k j s).can[k].cancelled = true
        else regBit (cancelTx k j s) (objAt k j 1) 9 = true) := by
  unfold cancelTx
  cases hp : pendingTx s k j with
  | false => exact ⟨hp, nofun⟩
  | true =>
    rw [if_neg (by decide)]
    by_cases hc : s.can[k].cur = some j
    · rw [if_pos (show (canRec s k).cur = some j from hc), if_pos hc]
      refine ⟨?_, fun _ => by rw [canRec_setCan]⟩
      rw [hc]
      exact hp.trans (by simp)
    · rw [if_neg (show ¬ (canRec s k).cur = some j from hc), if_neg hc]
      obtain ⟨hpend, habt⟩ := ended_request k j s
      exact ⟨hpend.trans (by rw [decide_eq_true hc]; rfl), fun _ => habt⟩

theorem txcanWrite_outcome (m : Master) (k : Fin 2) (p : Pair) (r : State) :
    let u := txcanWrite m k p r
    if canWriter m = false then u = r
    else u.intc = r.intc ∧ ∀ j : Fin 32, pendingTx u k j = (pendingTx r k j && !(p.getLsbD j && decide (r.can[k].cur ≠ some j))) ∧
      (p.getLsbD j = true → pendingTx r k j = true →
        if r.can[k].cur = some j then u.can[k].cancelled = true else regBit u (objAt k j 1) 9 = true) := by
  dsimp only
  unfold txcanWrite
  by_cases hm : canWriter m = false
  · rw [if_pos hm, if_neg (by simp [hm])]
  rw [if_neg hm, if_pos (by simpa using hm)]
  refine ⟨eachObj_intc (fun i s => oneRequest_cancelTx k i s) r, fun j => ?_⟩
  have hone := eachObj_one (v := p) (f := cancelTx k) (j := j) (s := r)
    (Before := fun u => pendingTx u k j = pendingTx r k j ∧ u.can[k].cur = r.can[k].cur)
    (After := fun u => pendingTx u k j = (pendingTx r k j && !decide (r.can[k].cur ≠ some j)) ∧
      (pendingTx r k j = true → if r.can[k].cur = some j then u.can[k].cancelled = true else regBit u (objAt k j 1) 9 = true))
    (fun s ⟨hp, hc⟩ => by
      have hdone := cancelTx_done k j s
      rwa [hp, hc] at hdone)
    (fun i s hij ⟨hp, hc⟩ => ⟨((oneRequest_cancelTx k i s).pend j (Ne.symm hij)).trans hp, (oneRequest_cancelTx k i s).cur.trans hc⟩)
    (fun i s hij ⟨hp, hf⟩ => ⟨((oneRequest_cancelTx k i s).pend j (Ne.symm hij)).trans hp, fun h => by
      have hf := hf h
      by_cases hc : r.can[k].cur = some j
      · rw [if_pos hc] at hf ⊢
        exact (oneRequest_cancelTx k i s).cancelled hf
      · rw [if_neg hc] at hf ⊢
        rw [regBit, (oneRequest_cancelTx k i s).obj (by decide) (fun hj => hij hj.1.symm)]
        exact hf⟩) ⟨rfl, rfl⟩
  by_cases hv : p.getLsbD j = true
  · rw [if_pos hv] at hone
    rw [hv, Bool.true_and]
    exact ⟨hone.1, fun _ => hone.2⟩
  · rw [if_neg hv] at hone
    rw [hone.1]
    exact ⟨by rw [Bool.eq_false_iff.mpr hv, Bool.false_and, Bool.not_false, Bool.and_true], fun h => absurd h hv⟩

/-! ### Attempts (R925) -/

/-- What an attempt that did not succeed does. -/
structure AttemptEnded (k : Fin 2) (s u : State) : Prop where
  intc : u.intc = s.intc
  free : u.free = s.free
  rec_ : u.can[k] = { s.can[k] with cur := none, cancelled := false } ∨ (s.can[k].cur = none ∧ u = s)
  reg : ∀ a, canAt k cMCTL ≤ a → a < canAt k 0x10 → reg u a = reg s a
  of_ends : (regBit s (canAt k cMCTL) 9 = true ∨ s.can[k].cancelled = true) → ∀ j, s.can[k].cur = some j →
    pendingTx u k j = false ∧ regBit u (objAt k j 1) 9 = true
  of_goes_on : ¬ (regBit s (canAt k cMCTL) 9 = true ∨ s.can[k].cancelled = true) → u.regs = s.regs

theorem attemptFailed_ended (k : Fin 2) (s : State) : AttemptEnded k s (attemptFailed k s) := by
  unfold attemptFailed
  split
  · next hc =>
    exact ⟨rfl, rfl, .inr ⟨hc, rfl⟩, fun _ _ _ => rfl, fun _ j hj => absurd (hc.symm.trans hj) (by simp), fun _ => rfl⟩
  · next j hc =>
    dsimp only
    by_cases hends : (regBit s (canAt k cMCTL) 9 || (canRec s k).cancelled) = true
    · rw [if_pos hends]
      have hends' : regBit s (canAt k cMCTL) 9 = true ∨ s.can[k].cancelled = true := by
        simpa [Bool.or_eq_true, canRec] using hends
      obtain ⟨hpend, habt⟩ := ended_request k j (setCan k (fun c => { c with cur := none, cancelled := false }) s)
      obtain ⟨regs, hw, heq⟩ := ended_request_eq k j (setCan k (fun c => { c with cur := none, cancelled := false }) s)
      refine ⟨?_, ?_, .inl ?_, fun a ha ha' => ?_, fun _ i hi => ?_, fun h => absurd hends' h⟩
      · rw [heq]
        rfl
      · rw [heq]
        rfl
      · rw [heq]
        exact canRec_setCan k (fun c => { c with cur := none, cancelled := false }) s
      · rw [setAbt, reg_hwSet_other _ _ (Nat.ne_of_lt (ha'.trans (Nat.lt_of_lt_of_le (Nat.add_lt_add_left (by decide) _) (objAt_ge k j 1)))),
          clearTxreq, reg_setReg32_other _ _ (Nat.ne_of_lt ha') (Nat.ne_of_lt (ha'.trans (Nat.lt_succ_self _))), reg_setCan]
      · obtain rfl : j = i := Option.some.inj (hc.symm.trans hi)
        exact ⟨hpend, habt⟩
    · rw [if_neg hends]
      have hends' : ¬ (regBit s (canAt k cMCTL) 9 = true ∨ s.can[k].cancelled = true) := by
        simpa [Bool.or_eq_true, canRec] using hends
      exact ⟨rfl, rfl, .inl (canRec_setCan k _ s), fun _ _ _ => rfl, fun h => absurd h hends', fun _ => rfl⟩

theorem canArbLost_outcome (k : Fin 2) (r : State) :
    let u := canArbLost k r
    (r.can[k].cur = none → u = r) ∧
    ∀ j, r.can[k].cur = some j → u.can[k].busy = true ∧ u.can[k].cur = none ∧ u.can[k].tec = r.can[k].tec ∧ u.intc = r.intc ∧
      ((regBit r (canAt k cMCTL) 9 = true ∨ r.can[k].cancelled = true) → pendingTx u k j = false ∧ regBit u (objAt k j 1) 9 = true) ∧
      (¬ (regBit r (canAt k cMCTL) 9 = true ∨ r.can[k].cancelled = true) → u.regs = r.regs) := by
  dsimp only
  unfold canArbLost
  refine ⟨fun h => if_pos (by rw [canRec, h]; rfl), fun j hj => ?_⟩
  rw [if_neg (by rw [canRec, hj]; exact Bool.false_ne_true)]
  have hended := attemptFailed_ended k r
  generalize attemptFailed k r = t at hended
  have hrec := hended.rec_.resolve_right (fun h => absurd (hj.symm.trans h.1) (by simp))
  rw [canRec_setCan, hrec]
  exact ⟨rfl, rfl, rfl, hended.intc, fun h => hended.of_ends h j hj, hended.of_goes_on⟩

end Sys2Proof.Machine

/-! ## CAN frames received (R923, R927, R937) -/

namespace Sys2Proof.Machine

theorem fld_or {n : Nat} (w m : BitVec n) (lo len : Nat) : fld (w ||| m) lo len = fld w lo len ||| fld m lo len := by
  apply Nat.eq_of_testBit_eq
  intro i
  simp only [fld, Nat.testBit_mod_two_pow, Nat.testBit_shiftRight, Nat.testBit_or, BitVec.toNat_or]
  cases decide (i < len) <;> simp

/-! ### The word and the data of an object that takes a frame -/

/-- Word 1 of an object that takes a frame. -/
def takenWord (f : CanFrame) (full : Bool) (n : Nat) (w : Word) : Word :=
  putBit (putBit (putBit (putFld (putFld w 0 4 f.dlc.toNat) 4 4 n) 11 f.brs) 12 f.fdf) 13 f.esi ||| (if full then 0xC000 else 0x8000)

theorem takenWord_flags (f : CanFrame) (full : Bool) (n : Nat) (w : Word) :
    (takenWord f full n w).getLsbD 15 = true ∧ (takenWord f full n w).getLsbD 14 = (w.getLsbD 14 || full) ∧
      (takenWord f full n w).getLsbD 13 = f.esi ∧ (takenWord f full n w).getLsbD 12 = f.fdf ∧
      (takenWord f full n w).getLsbD 11 = f.brs := by
  have hm (j : Nat) (hj : j < 14) : (if full then 0xC000 else 0x8000 : Word).getLsbD j = false := by
    cases full
    · exact (by decide : ∀ j, j < 14 → (0x8000 : Word).getLsbD j = false) j hj
    · exact (by decide : ∀ j, j < 14 → (0xC000 : Word).getLsbD j = false) j hj
  unfold takenWord
  refine ⟨?_, ?_, ?_, ?_, ?_⟩
  · rw [BitVec.getLsbD_or]
    cases full <;> exact Bool.or_true _
  · rw [BitVec.getLsbD_or, getLsbD_putBit _ _ _ _ (by decide), if_neg (by decide), getLsbD_putBit _ _ _ _ (by decide),
      if_neg (by decide), getLsbD_putBit _ _ _ _ (by decide), if_neg (by decide), getLsbD_putFld _ _ _ _ _ (by decide),
      if_neg (by decide), getLsbD_putFld _ _ _ _ _ (by decide), if_neg (by decide)]
    cases full <;> rfl
  · rw [BitVec.getLsbD_or, hm 13 (by decide), Bool.or_false, getLsbD_putBit _ _ _ _ (by decide), if_pos rfl]
  · rw [BitVec.getLsbD_or, hm 12 (by decide), Bool.or_false, getLsbD_putBit _ _ _ _ (by decide), if_neg (by decide),
      getLsbD_putBit _ _ _ _ (by decide), if_pos rfl]
  · rw [BitVec.getLsbD_or, hm 11 (by decide), Bool.or_false, getLsbD_putBit _ _ _ _ (by decide), if_neg (by decide),
      getLsbD_putBit _ _ _ _ (by decide), if_neg (by decide), getLsbD_putBit _ _ _ _ (by decide), if_pos rfl]

theorem fld_putBit_other {n : Nat} (w : BitVec n) (i : Nat) (b : Bool) (lo len : Nat) (h : lo + len ≤ n)
    (hd : lo + len ≤ i ∨ i + 1 ≤ lo) : fld (putBit w i b) lo len = fld w lo len := fld_putFld_other _ _ _ _ _ _ h hd

theorem takenWord_fields (f : CanFrame) (full : Bool) (n : Nat) (w : Word) :
    fld (takenWord f full n w) 0 4 = f.dlc.toNat ∧ fld (takenWord f full n w) 4 4 = n % 16 := by
  have hm (lo : Nat) (h : lo = 0 ∨ lo = 4) : fld (if full then 0xC000 else 0x8000 : Word) lo 4 = 0 := by
    rcases h with rfl | rfl <;> cases full <;> rfl
  unfold takenWord
  refine ⟨?_, ?_⟩
  · rw [fld_or, hm 0 (.inl rfl), Nat.or_zero, fld_putBit_other _ _ _ _ _ (by decide) (by decide), fld_putBit_other _ _ _ _ _ (by decide) (by decide),
      fld_putBit_other _ _ _ _ _ (by decide) (by decide), fld_putFld_other _ _ _ _ _ _ (by decide) (by decide),
      fld_putFld _ _ _ _ (by decide), Nat.mod_eq_of_lt f.dlc.isLt]
  · rw [fld_or, hm 4 (.inr rfl), Nat.or_zero, fld_putBit_other _ _ _ _ _ (by decide) (by decide), fld_putBit_other _ _ _ _ _ (by decide) (by decide),
      fld_putBit_other _ _ _ _ _ (by decide) (by decide), fld_putFld _ _ _ _ (by decide)]
    rfl

/-- The first `n` data bytes written. -/
def putObjBytes (k : Fin 2) (j : Fin 32) (data : List Byte) (n : Nat) (s : State) : State :=
  (List.range n).foldl (fun s i => putObjByte k j i (data.getD i 0) s) s

theorem putObjBytes_succ (k : Fin 2) (j : Fin 32) (data : List Byte) (n : Nat) (s : State) :
    putObjBytes k j data (n + 1) s = putObjByte k j n (data.getD n 0) (putObjBytes k j data n s) := by
  rw [putObjBytes, List.range_succ, List.foldl_append]
  rfl

/-- Only register words differ. -/
def OnlyRegs (s u : State) : Prop := ∃ regs, u = { s with regs := regs }

theorem OnlyRegs.setReg {s u : State} (h : OnlyRegs s u) (a : Nat) (v : Word) : OnlyRegs s (setReg a v u) := by
  obtain ⟨regs, rfl⟩ := h
  exact ⟨_, rfl⟩

theorem OnlyRegs.setRegF {s u : State} (h : OnlyRegs s u) (a lo len v : Nat) : OnlyRegs s (setRegF a lo len v u) := h.setReg a _

theorem OnlyRegs.setRegBit {s u : State} (h : OnlyRegs s u) (a i : Nat) (b : Bool) : OnlyRegs s (setRegBit a i b u) := h.setReg a _

theorem OnlyRegs.setReg32 {s u : State} (h : OnlyRegs s u) (a : Nat) (v : Pair) : OnlyRegs s (setReg32 a v u) :=
  (h.setReg a _).setReg (a + 1) _

theorem onlyRegs_putObjBytes (k : Fin 2) (j : Fin 32) (data : List Byte) (n : Nat) (s : State) :
    OnlyRegs s (putObjBytes k j data n s) := by
  induction n with
  | zero => exact ⟨s.regs, rfl⟩
  | succ n ih => rw [putObjBytes_succ]; exact ih.setRegF _ _ _ _

theorem reg_putObjBytes {k : Fin 2} {j : Fin 32} {a : Nat} (h : ∀ w, 8 ≤ w → a ≠ objAt k j w) (data : List Byte) (n : Nat) (s : State) :
    reg (putObjBytes k j data n s) a = reg s a := by
  induction n with
  | zero => rfl
  | succ n ih => rw [putObjBytes_succ, putObjByte, reg_setRegF_other _ _ _ _ (h _ (by omega)), ih]

theorem regF_putObjBytes (k : Fin 2) (j : Fin 32) (data : List Byte) (n : Nat) (s : State) {i : Nat} (hi : i < n) :
    regF (putObjBytes k j data n s) (objAt k j (8 + i / 2)) (8 * (i % 2)) 8 = (data.getD i 0).toNat := by
  induction n with
  | zero => omega
  | succ n ih =>
    rw [putObjBytes_succ, putObjByte, regF]
    by_cases h : i = n
    · subst h
      rw [reg_setRegF_same, fld_putFld _ _ _ _ (by omega), Nat.mod_eq_of_lt (data.getD i 0).isLt]
    · by_cases hw : i / 2 = n / 2
      · rw [hw, reg_setRegF_same, fld_putFld_other _ _ _ _ _ _ (by omega) (by omega), ← hw]
        exact ih (by omega)
      · rw [reg_setRegF_other _ _ _ _ (objAt_ne (by omega))]
        exact ih (by omega)

/-! ### An object takes a frame -/

/-- The data and word 1 of the object that takes a frame, but for FULL and LOST. -/
def objFilled (k : Fin 2) (f : CanFrame) (j : Fin 32) (s : State) : State :=
  let a := objAt k j 1
  setRegBit a 13 f.esi (setRegBit a 12 f.fdf (setRegBit a 11 f.brs (setRegF a 4 4 ((regF s a 4 4 + 1) % 16)
    (setRegF a 0 4 f.dlc.toNat (putObjBytes k j f.data (frameLen f) s)))))

/-- The object with its data, its time stamp and its flags. -/
def frameStored (k : Fin 2) (f : CanFrame) (j : Fin 32) (s : State) : State :=
  hwSet (objAt k j 1) (if regBit s (objAt k j 1) 15 then 0xC000 else 0x8000)
    (setReg32 (objAt k j 6) (stamp32 (objFilled k f j s)) (objFilled k f j s))

theorem takeFrame_eq (k : Fin 2) (f : CanFrame) (j : Fin 32) (s : State) : takeFrame k f j s =
    if objIrq (frameStored k f j s) k j then signal ⟨42 + 4 * k.val, by omega⟩ (frameStored k f j s) else frameStored k f j s := rfl

theorem onlyRegs_objFilled (k : Fin 2) (f : CanFrame) (j : Fin 32) (s : State) : OnlyRegs s (objFilled k f j s) :=
  (((((onlyRegs_putObjBytes k j f.data (frameLen f) s).setRegF _ _ _ _).setRegF _ _ _ _).setRegBit _ _ _).setRegBit _ _ _).setRegBit _ _ _

theorem reg_objFilled_other {k : Fin 2} {j : Fin 32} {a : Nat} (h1 : a ≠ objAt k j 1) (h8 : ∀ w, 8 ≤ w → a ≠ objAt k j w)
    (f : CanFrame) (s : State) : reg (objFilled k f j s) a = reg s a := by
  unfold objFilled
  rw [reg_setRegBit_other _ _ _ h1, reg_setRegBit_other _ _ _ h1, reg_setRegBit_other _ _ _ h1, reg_setRegF_other _ _ _ _ h1,
    reg_setRegF_other _ _ _ _ h1, reg_putObjBytes h8]

theorem frameStored_eq (k : Fin 2) (f : CanFrame) (j : Fin 32) (s : State) : ∃ regs hw,
    frameStored k f j s = { s with regs := regs, hw := hw } := by
  obtain ⟨regs, h⟩ := (onlyRegs_objFilled k f j s).setReg32 (objAt k j 6) (stamp32 (objFilled k f j s))
  rw [frameStored, h]
  exact ⟨_, _, rfl⟩

/-- The words of an object that takes a frame. -/
structure FrameTaken (k : Fin 2) (f : CanFrame) (j : Fin 32) (s u : State) : Prop where
  can : u.can = s.can
  now : u.now = s.now
  free : u.free = s.free
  flags : reg u (objAt k j 1) = takenWord f (regBit s (objAt k j 1) 15) ((regF s (objAt k j 1) 4 4 + 1) % 16) (reg s (objAt k j 1))
  stamp : reg32 u (objAt k j 6) = BitVec.ofNat 32 s.now
  bytes : ∀ i, i < frameLen f → regF u (objAt k j (8 + i / 2)) (8 * (i % 2)) 8 = (f.data.getD i 0).toNat
  other : ∀ a, a ∉ runst → a ≠ objAt k j 1 → a ≠ objAt k j 6 → a ≠ objAt k j 7 → (∀ w, 8 ≤ w → a ≠ objAt k j w) → reg u a = reg s a
  irq : objIrq s k j = true → hasEvent u (Fin.ofNat 96 (42 + 4 * k.val))
  events : ∀ n, hasEvent s n → hasEvent u n

theorem reg_frameStored_flags (k : Fin 2) (f : CanFrame) (j : Fin 32) (s : State) : reg (frameStored k f j s) (objAt k j 1) =
    takenWord f (regBit s (objAt k j 1) 15) ((regF s (objAt k j 1) 4 4 + 1) % 16) (reg s (objAt k j 1)) := by
  have hbytes : reg (putObjBytes k j f.data (frameLen f) s) (objAt k j 1) = reg s (objAt k j 1) :=
    reg_putObjBytes (fun w hw => objAt_ne (by omega)) _ _ _
  rw [frameStored, reg_hwSet_same, reg_setReg32_other _ _ (objAt_ne (by decide)) (objAt_ne (x := 7) (by decide)),
    objFilled, reg_setRegBit_same, reg_setRegBit_same, reg_setRegBit_same, reg_setRegF_same, reg_setRegF_same, hbytes]
  rfl

theorem reg_frameStored_stamp (k : Fin 2) (f : CanFrame) (j : Fin 32) (s : State) :
    reg32 (frameStored k f j s) (objAt k j 6) = BitVec.ofNat 32 s.now := by
  have h (w : Nat) (hw : w ≠ 1) (m : Word) (t : State) : reg (hwSet (objAt k j 1) m t) (objAt k j w) = reg t (objAt k j w) :=
    reg_hwSet_other _ _ (objAt_ne hw)
  obtain ⟨regs, hwords⟩ := onlyRegs_objFilled k f j s
  have hstamp : stamp32 (objFilled k f j s) = BitVec.ofNat 32 s.now := by rw [hwords]; rfl
  rw [frameStored, reg32_congr (h 6 (by decide) _ _) (h 7 (by decide) _ _), reg32_setReg32, hstamp]

theorem reg_frameStored_other {k : Fin 2} {j : Fin 32} {a : Nat} (h1 : a ≠ objAt k j 1) (h6 : a ≠ objAt k j 6) (h7 : a ≠ objAt k j 7)
    (h8 : ∀ w, 8 ≤ w → a ≠ objAt k j w) (f : CanFrame) (s : State) : reg (frameStored k f j s) a = reg s a := by
  rw [frameStored, reg_hwSet_other _ _ h1, reg_setReg32_other _ _ h6 h7, reg_objFilled_other h1 h8]

theorem regF_frameStored_byte (k : Fin 2) (f : CanFrame) (j : Fin 32) (s : State) {i : Nat} (hi : i < frameLen f) :
    regF (frameStored k f j s) (objAt k j (8 + i / 2)) (8 * (i % 2)) 8 = (f.data.getD i 0).toNat := by
  have hne (w : Nat) (hw : w < 8) : objAt k j (8 + i / 2) ≠ objAt k j w := objAt_ne (by omega)
  rw [← regF_putObjBytes k j f.data (frameLen f) s hi, regF, frameStored, reg_hwSet_other _ _ (hne 1 (by decide)),
    reg_setReg32_other _ _ (hne 6 (by decide)) (hne 7 (by decide)), objFilled, reg_setRegBit_other _ _ _ (hne 1 (by decide)),
    reg_setRegBit_other _ _ _ (hne 1 (by decide)), reg_setRegBit_other _ _ _ (hne 1 (by decide)), reg_setRegF_other _ _ _ _ (hne 1 (by decide)),
    reg_setRegF_other _ _ _ _ (hne 1 (by decide))]
  rfl

/-- An event source of a controller. -/
theorem canSource (i : Nat) (hi : i ≤ 45) (k : Fin 2) : (⟨i + 4 * k.val, by omega⟩ : Fin 96) = Fin.ofNat 96 (i + 4 * k.val) :=
  Fin.ext (Nat.mod_eq_of_lt (by omega)).symm

theorem frameTaken_frameStored (k : Fin 2) (f : CanFrame) (j : Fin 32) (s : State) (hirq : objIrq s k j = false) :
    FrameTaken k f j s (frameStored k f j s) := by
  obtain ⟨regs, hw, h⟩ := frameStored_eq k f j s
  refine ⟨by rw [h], by rw [h], by rw [h], reg_frameStored_flags k f j s, reg_frameStored_stamp k f j s,
    fun i hi => regF_frameStored_byte k f j s hi, fun a _ h1 h6 h7 h8 => reg_frameStored_other h1 h6 h7 h8 f s,
    fun hi => absurd (hirq.symm.trans hi) (by decide), fun n hn => ?_⟩
  rw [h]
  exact hn

theorem frameTaken_signal {k : Fin 2} {f : CanFrame} {j : Fin 32} {s : State} :
    FrameTaken k f j s (signal ⟨42 + 4 * k.val, by omega⟩ (frameStored k f j s)) := by
  obtain ⟨regs, hw, h⟩ := frameStored_eq k f j s
  have hsig (a : Nat) (ha : a ∉ runst) : reg (signal ⟨42 + 4 * k.val, by omega⟩ (frameStored k f j s)) a = reg (frameStored k f j s) a :=
    reg_signal ha _ _
  have hobj (w : Nat) : objAt k j w ∉ runst := can_not_mem_runst ((Nat.le_add_right _ _).trans (objAt_ge k j w))
  refine ⟨by rw [signal_can, h], by rw [signal_now, h], by rw [signal_free, h], ?_, ?_, fun i hi => ?_,
    fun a ha h1 h6 h7 h8 => (hsig a ha).trans (reg_frameStored_other h1 h6 h7 h8 f s), fun _ => ?_, fun n hn => hasEvent_signal ?_ _⟩
  · rw [hsig _ (hobj 1)]
    exact reg_frameStored_flags k f j s
  · rw [reg32_congr (hsig _ (hobj 6)) (hsig _ (hobj 7))]
    exact reg_frameStored_stamp k f j s
  · rw [regF, hsig _ (hobj _)]
    exact regF_frameStored_byte k f j s hi
  · rw [canSource 42 (by decide)]
    exact hasEvent_signal_same _ _
  · rw [h]
    exact hn

theorem takeFrame_taken (k : Fin 2) (f : CanFrame) (j : Fin 32) (s : State) : FrameTaken k f j s (takeFrame k f j s) := by
  have hirq : objIrq (frameStored k f j s) k j = objIrq s k j :=
    congrArg (BitVec.getLsbD · 9) (reg_frameStored_other (objAt_ne (by decide)) (objAt_ne (by decide))
      (objAt_ne (by decide)) (fun w hw => objAt_ne (by omega)) f s)
  rw [takeFrame_eq, hirq]
  cases hi : objIrq s k j with
  | true => rw [if_pos rfl]; exact frameTaken_signal
  | false => rw [if_neg (by decide)]; exact frameTaken_frameStored k f j s hi

/-! ### A frame is offered (R923) -/

/-- Object `j` has room for a frame. -/
def objRoom (s : State) (k : Fin 2) (j : Fin 32) : Bool := !objBit s k j 1 15 || objOvw s k j

/-- What offering a frame does, whichever object takes it. -/
structure FrameOffered (k : Fin 2) (f : CanFrame) (s u : State) : Prop where
  can : u.can = s.can
  now : u.now = s.now
  free : u.free = s.free
  taken : ∀ j, (List.finRange 32).find? (fun j => objMatches s k f j && objRoom s k j) = some j → FrameTaken k f j s u
  lost : ∀ j, (List.finRange 32).find? (objMatches s k f) = some j →
    (List.finRange 32).find? (fun j => objMatches s k f j && objRoom s k j) = none →
    regBit u (objAt k j 1) 14 = true ∧ (reg u (canAt k cLOSTCNT)).toNat = min 0xFFFF ((reg s (canAt k cLOSTCNT)).toNat + 1)
  none : (List.finRange 32).find? (objMatches s k f) = none → u = s
  low : ∀ o, o < 0x100 → o ≠ cLOSTCNT → reg u (canAt k o) = reg s (canAt k o)
  events : ∀ n, hasEvent s n → hasEvent u n

theorem offerFrame_offered (k : Fin 2) (f : CanFrame) (s : State) : FrameOffered k f s (offerFrame k f s) := by
  have hroom : ((List.finRange 32).filter (objMatches s k f)).find? (fun j => !objBit s k j 1 15 || objOvw s k j) =
      (List.finRange 32).find? (fun j => objMatches s k f j && objRoom s k j) := by
    rw [List.find?_filter]
    congr 1
    funext j
    rw [Bool.decide_and, Bool.decide_coe, Bool.decide_coe]
    rfl
  have hhead : ((List.finRange 32).filter (objMatches s k f)).head? = (List.finRange 32).find? (objMatches s k f) := List.head?_filter
  unfold offerFrame
  dsimp only
  rw [hroom]
  cases ht : (List.finRange 32).find? (fun j => objMatches s k f j && objRoom s k j) with
  | some j =>
    have h := takeFrame_taken k f j s
    refine ⟨h.can, h.now, h.free, fun i hi => Option.some.inj (ht.symm.trans hi) ▸ h, fun _ _ hn => absurd (ht.symm.trans hn) (by simp), fun hn => ?_, fun o ho _ => ?_, h.events⟩
    · have hm := List.find?_some ht
      rw [Bool.and_eq_true] at hm
      exact absurd hm.1 (List.find?_eq_none.mp hn j (List.mem_finRange j))
    · exact h.other _ (can_not_mem_runst (canBase_le k o)) (objAt_ne_canAt ho).symm (objAt_ne_canAt ho).symm (objAt_ne_canAt ho).symm
        fun w _ => (objAt_ne_canAt ho).symm
  | none =>
    dsimp only
    cases hm : (List.finRange 32).filter (objMatches s k f) with
    | nil =>
      rw [hm, List.head?_nil] at hhead
      exact ⟨rfl, rfl, rfl, fun i hi => absurd (ht.symm.trans hi) (by simp), fun j hj => absurd (hhead.trans hj) (by simp), fun _ => rfl, fun _ _ _ => rfl, fun _ => id⟩
    | cons j l =>
      rw [hm, List.head?_cons] at hhead
      refine ⟨hwCount_can _ _, hwCount_now _ _, hwCount_free _ _, fun i hi => absurd (ht.symm.trans hi) (by simp), fun i hi _ => ?_,
        fun hn => absurd (hhead.trans hn) (by simp), fun o ho hne => ?_, fun n hn => ?_⟩
      · obtain rfl : j = i := Option.some.inj (hhead.trans hi)
        rw [regBit, reg_hwCount_other _ (objAt_ne_canAt (by decide)), reg_hwCount_toNat, reg_hwSet_other _ _ (objAt_ne_canAt (by decide)).symm]
        exact ⟨(regBit_hwSet _ 14 _ s).trans (Bool.or_true _), rfl⟩
      · rw [reg_hwCount_other _ (canAt_ne hne), reg_hwSet_other _ _ (objAt_ne_canAt ho).symm]
      · rw [hasEvent, hwCount_intc, hwSet_intc]
        exact hn

end Sys2Proof.Machine

/-! ## CAN errors and transmissions (R921, R924-R927) -/

namespace Sys2Proof.Machine

/-! ### Errors (R927) -/

/-- The counters after an error. -/
def errRec (tx special : Bool) (c : Can) : Can :=
  { c with
    busy := false
    tec := if tx && !special then c.tec + 8 else c.tec
    rec_ := if tx then c.rec_ else min 255 (c.rec_ + if special then 8 else 1) }

/-- The attempt ends and the counters change. -/
def errCounted (k : Fin 2) (tx special : Bool) (s : State) : State :=
  setCan k (errRec tx special) (if tx then attemptFailed k s else s)

/-- Bus off follows a TEC above 255. -/
def errEnded (k : Fin 2) (s : State) : State := if 255 < (canRec s k).tec then enterBusOff k s else s

/-- The error is recorded, counted and signalled. -/
def errNoted (k : Fin 2) (dp : Bool) (code : Nat) (s : State) : State :=
  signal ⟨44 + 4 * k.val, by omega⟩ (hwCount (canAt k cERRCNT) (setRegF (canAt k cBUSST) (if dp then 4 else 0) 3 code s))

theorem canError_eq (k : Fin 2) (dp : Bool) (code : Nat) (tx special : Bool) (s : State) : canError k dp code tx special s =
    canPick k (canChange k (fun s => errEnded k (errCounted k tx special s)) (errNoted k dp code s)) := rfl

theorem errNoted_can (k : Fin 2) (dp : Bool) (code : Nat) (s : State) : (errNoted k dp code s).can = s.can := signal_can _ _

theorem reg_errNoted_other {k : Fin 2} {a : Nat} (ha : canBase k ≤ a) (h6 : a ≠ canAt k cBUSST) (h10 : a ≠ canAt k cERRCNT)
    (dp : Bool) (code : Nat) (s : State) : reg (errNoted k dp code s) a = reg s a := by
  rw [errNoted, reg_signal (can_not_mem_runst ha), reg_hwCount_other _ h10, reg_setRegF_other _ _ _ _ h6]

theorem errNoted_recorded (k : Fin 2) (dp : Bool) {code : Nat} (hc : code < 8) (s : State) :
    fld (reg (errNoted k dp code s) (canAt k cBUSST)) (if dp then 4 else 0) 3 = code ∧
      (reg (errNoted k dp code s) (canAt k cERRCNT)).toNat = min 0xFFFF ((reg s (canAt k cERRCNT)).toNat + 1) := by
  rw [errNoted, reg_signal (can_not_mem_runst (canBase_le k _)), reg_signal (can_not_mem_runst (canBase_le k _)),
    reg_hwCount_other _ (canAt_ne (by decide)), reg_setRegF_same, reg_hwCount_toNat, reg_setRegF_other _ _ _ _ (canAt_ne (by decide)),
    fld_putFld _ _ _ _ (by cases dp <;> decide), Nat.mod_eq_of_lt (show code < 2 ^ 3 from hc)]
  exact ⟨rfl, rfl⟩

/-- What entering bus off, where TEC says so, does. -/
structure ErrEnded (k : Fin 2) (s u : State) : Prop where
  intc : u.intc = s.intc
  tec : u.can[k].tec = s.can[k].tec
  rec_ : u.can[k].rec_ = s.can[k].rec_
  reg : ∀ a, a ≠ canAt k cMCTL → reg u a = reg s a
  off : 255 < s.can[k].tec → if regBit s (canAt k cMCTL) 8 = true then canMode u k = 0 ∧ u.can[k].busOff = true
    else u.can[k].recovering = true

theorem errEnded_ended (k : Fin 2) (s : State) : ErrEnded k s (errEnded k s) := by
  unfold errEnded
  by_cases htec : 255 < s.can[k].tec
  · rw [if_pos (show 255 < (canRec s k).tec from htec), enterBusOff]
    by_cases hold : regBit s (canAt k cMCTL) 8 = true
    · rw [if_pos hold]
      refine ⟨rfl, ?_, ?_, fun a ha => ?_, fun _ => ?_⟩
      · rw [canRec_setCan]; rfl
      · rw [canRec_setCan]; rfl
      · rw [reg_setCan, reg_setRegF_other _ _ _ _ ha]
      · rw [if_pos hold, canMode, regF, reg_setCan, reg_setRegF_same, fld_putFld _ _ _ _ (by decide), canRec_setCan]
        exact ⟨rfl, rfl⟩
    · rw [if_neg hold]
      refine ⟨rfl, ?_, ?_, fun a _ => rfl, fun _ => ?_⟩
      · rw [canRec_setCan]
      · rw [canRec_setCan]
      · rw [if_neg hold, canRec_setCan]
  · rw [if_neg (show ¬ 255 < (canRec s k).tec from htec)]
    exact ⟨rfl, rfl, rfl, fun _ _ => rfl, fun h => absurd h htec⟩

/-- What the end of the attempt and the counters do. -/
structure ErrCounted (k : Fin 2) (tx special : Bool) (s u : State) : Prop where
  intc : u.intc = s.intc
  tec : u.can[k].tec = if tx = true ∧ special = false then s.can[k].tec + 8 else s.can[k].tec
  rec_ : u.can[k].rec_ = if tx = true then s.can[k].rec_ else min 255 (s.can[k].rec_ + if special then 8 else 1)
  reg : ∀ a, canAt k cMCTL ≤ a → a < canAt k 0x10 → reg u a = reg s a
  ends : tx = true → (regBit s (canAt k cMCTL) 9 = true ∨ s.can[k].cancelled = true) → ∀ j, s.can[k].cur = some j →
    pendingTx u k j = false ∧ regBit u (objAt k j 1) 9 = true

theorem errRec_tec (tx special : Bool) (c : Can) : (errRec tx special c).tec = if tx = true ∧ special = false then c.tec + 8 else c.tec := by
  cases tx <;> cases special <;> rfl

theorem errCounted_counted (k : Fin 2) (tx special : Bool) (s : State) : ErrCounted k tx special s (errCounted k tx special s) := by
  unfold errCounted
  cases tx with
  | true =>
    have h := attemptFailed_ended k s
    rw [if_pos rfl]
    generalize attemptFailed k s = t at h
    have hrec : t.can[k].tec = s.can[k].tec ∧ t.can[k].rec_ = s.can[k].rec_ := by
      rcases h.rec_ with hr | ⟨-, hr⟩
      · rw [hr]; exact ⟨rfl, rfl⟩
      · rw [hr]; exact ⟨rfl, rfl⟩
    refine ⟨h.intc, ?_, ?_, h.reg, fun _ => h.of_ends⟩
    · rw [canRec_setCan, errRec_tec, hrec.1]
    · rw [canRec_setCan]; exact hrec.2
  | false =>
    rw [if_neg (by decide)]
    refine ⟨rfl, ?_, ?_, fun _ _ _ => rfl, nofun⟩
    · rw [canRec_setCan, errRec_tec]
    · rw [canRec_setCan]; rfl

/-- An error as R927 gives it. -/
structure CanErrored (k : Fin 2) (dp : Bool) (code : Nat) (tx special : Bool) (r u : State) : Prop where
  recorded : regF u (canAt k cBUSST) (if dp then 4 else 0) 3 = code
  counted : (reg u (canAt k cERRCNT)).toNat = min 0xFFFF ((reg r (canAt k cERRCNT)).toNat + 1)
  signalled : hasEvent u (Fin.ofNat 96 (44 + 4 * k.val))
  tec : u.can[k].tec = if tx = true ∧ special = false then r.can[k].tec + 8 else r.can[k].tec
  rec_ : u.can[k].rec_ = if tx = true then r.can[k].rec_ else min 255 (r.can[k].rec_ + if special then 8 else 1)
  ends : tx = true → (regBit r (canAt k cMCTL) 9 = true ∨ r.can[k].cancelled = true) → ∀ j, r.can[k].cur = some j →
    pendingTx u k j = false ∧ regBit u (objAt k j 1) 9 = true
  off : 255 < (if tx = true ∧ special = false then r.can[k].tec + 8 else r.can[k].tec) →
    if regBit r (canAt k cMCTL) 8 = true then canMode u k = 0 ∧ u.can[k].busOff = true else u.can[k].recovering = true

theorem canError_errored (k : Fin 2) (dp : Bool) {code : Nat} (hc : code < 8) (tx special : Bool) (r : State) :
    CanErrored k dp code tx special r (canError k dp code tx special r) := by
  rw [canError_eq]
  obtain ⟨hrec, hcnt⟩ := errNoted_recorded k dp hc r
  have hev : hasEvent (errNoted k dp code r) (Fin.ofNat 96 (44 + 4 * k.val)) := canSource 44 (by decide) k ▸ hasEvent_signal_same _ _
  have hnoted (a : Nat) := reg_errNoted_other (k := k) (a := a)
  have hmctl : reg (errNoted k dp code r) (canAt k cMCTL) = reg r (canAt k cMCTL) :=
    reg_errNoted_other (canBase_le k _) (canAt_ne (by decide)) (canAt_ne (by decide)) dp code r
  have hcan := errNoted_can k dp code r
  generalize errNoted k dp code r = n at hrec hcnt hev hmctl hcan
  have hcounted := errCounted_counted k tx special n
  have hended := errEnded_ended k (errCounted k tx special n)
  have hreg (a : Nat) (ha : canBase k ≤ a) : reg (canPick k (canChange k (fun s => errEnded k (errCounted k tx special s)) n)) a =
      reg (errEnded k (errCounted k tx special n)) a := by
    rw [reg_canPick, reg_canChange (can_not_mem_runst ha)]
  obtain ⟨cur, cancelled, hpick⟩ := canPick_rec k (canChange k (fun s => errEnded k (errCounted k tx special s)) n)
  have hev' : hasEvent (canPick k (canChange k (fun s => errEnded k (errCounted k tx special s)) n)) (Fin.ofNat 96 (44 + 4 * k.val)) := by
    refine hasEvent_canPick k (hasEvent_canChange k ?_)
    rw [hasEvent, hended.intc, hcounted.intc]
    exact hev
  rw [canChange_can] at hpick
  generalize canPick k (canChange k (fun s => errEnded k (errCounted k tx special s)) n) = u at hreg hpick hev' ⊢
  generalize errEnded k (errCounted k tx special n) = e at hended hreg hpick
  generalize errCounted k tx special n = c at hended hcounted
  have hlow (o : Nat) (ho : 0 < o) (ho' : o < 0x10) : reg u (canAt k o) = reg n (canAt k o) := by
    rw [hreg _ (canBase_le k o), hended.reg _ (canAt_ne (Nat.ne_of_gt ho)),
      hcounted.reg (canAt k o) (Nat.add_le_add_left (Nat.zero_le _) _) (Nat.add_lt_add_left ho' _)]
  have hmctl' : reg c (canAt k cMCTL) = reg r (canAt k cMCTL) :=
    (hcounted.reg _ le_rfl (Nat.add_lt_add_left (by decide) _)).trans hmctl
  refine ⟨?_, ?_, hev', ?_, ?_, fun htx hends j hj => ?_, fun htec => ?_⟩
  · rw [regF, hlow cBUSST (by decide) (by decide)]
    exact hrec
  · rw [hlow cERRCNT (by decide) (by decide)]
    exact hcnt
  · rw [hpick, hended.tec, hcounted.tec, hcan]
  · rw [hpick, hended.rec_, hcounted.rec_, hcan]
  · obtain ⟨hpend, habt⟩ := hcounted.ends htx (by rw [regBit, hmctl, hcan]; exact hends) j (by rw [hcan]; exact hj)
    have hobj : objAt k j 1 ≠ canAt k cMCTL := objAt_ne_canAt (by decide)
    refine ⟨(pendingTx_congr (fun o ho => ?_) j).trans hpend, ?_⟩
    · rw [hreg _ (canBase_le k o), hended.reg _ (canAt_ne (by rcases ho with rfl | rfl <;> decide))]
    · rw [regBit, hreg _ ((Nat.le_add_right _ _).trans (objAt_ge k j 1)), hended.reg _ hobj]
      exact habt
  · have hoff := hended.off (by rw [hcounted.tec, hcan]; exact htec)
    rw [regBit, hmctl'] at hoff
    rw [hpick, canMode, regF, hreg _ (canBase_le k _)]
    exact hoff

theorem canErrorEvent_outcome (k : Fin 2) (px dp tx sp : Bool) (code : BitVec 3) (r : State) :
    let u := canErrorEvent k px dp code tx sp r
    let plain := px = false ∧ code ≠ 0 ∧ code ≠ 7 ∧ (tx = true → r.can[k].cur ≠ none)
    (¬ canOnBus r k = true ∨ (px = false ∧ ¬ plain) → u = r) ∧
    (canOnBus r k = true → px = true → regBit r (canAt k cMCTL) 7 = true → CanErrored k false 3 false false r u) ∧
    (canOnBus r k = true → px = true → regBit r (canAt k cMCTL) 7 = false → u.can[k].integrating = true ∧
      (reg u (canAt k cPXCNT)).toNat = min 0xFFFF ((reg r (canAt k cPXCNT)).toNat + 1) ∧ hasEvent u (Fin.ofNat 96 (45 + 4 * k.val))) ∧
    (canOnBus r k = true → plain → CanErrored k dp code.toNat tx sp r u) := by
  dsimp only
  unfold canErrorEvent
  by_cases hon : canOnBus r k = true
  · rw [if_neg (by simp [hon])]
    cases px with
    | true =>
      rw [if_pos rfl]
      refine ⟨fun h => h.elim (absurd hon) (fun h => absurd h.1 (by decide)), fun _ _ h7 => ?_, fun _ _ h7 => ?_, fun _ h => absurd h.1 (by decide)⟩
      · rw [if_pos h7]
        exact canError_errored k false (by decide) false false r
      · rw [if_neg (by simp [h7])]
        have hstate : canState (hwCount (canAt k cPXCNT) r) k < 2 := by
          rw [canState_congr (s := r) (u := hwCount (canAt k cPXCNT) r) (k := k) rfl (reg_hwCount_other r (canAt_ne (o := cMCTL) (p := cPXCNT) (by decide)))]
          exact of_decide_eq_true hon
        have hint : (canChange k (setCan k (fun c => { c with integrating := true, busy := false })) (hwCount (canAt k cPXCNT) r)).can[k].integrating = true := by
          rw [canChange_can, canRec_setCan]
        refine ⟨hint, ?_, ?_⟩
        · rw [reg_canChange (can_not_mem_runst (canBase_le k _)), reg_setCan, reg_hwCount_toNat]
        · refine canChange_signals k _ _ fun h => ?_
          have h3 : canState (canChange k (setCan k (fun c => { c with integrating := true, busy := false })) (hwCount (canAt k cPXCNT) r)) k = 3 :=
            if_pos (.inr hint)
          omega
    | false =>
      rw [if_neg (by decide)]
      refine ⟨fun h => if_pos ?_, nofun, nofun, fun _ h => ?_⟩
      · obtain ⟨-, h⟩ := h.resolve_left (fun h => h hon)
        by_contra hn
        simp only [not_or, not_and] at hn
        refine h ⟨rfl, hn.1, hn.2.1, fun htx hcur => hn.2.2 htx ?_⟩
        rw [canRec, hcur]
        rfl
      · obtain ⟨-, h0, h7, hcur⟩ := h
        rw [if_neg]
        · exact canError_errored k dp code.isLt tx sp r
        · rintro (h | h | ⟨htx, h⟩)
          · exact h0 h
          · exact h7 h
          · exact hcur htx (Option.isNone_iff_eq_none.mp h)
  · rw [if_pos (by simpa using hon)]
    exact ⟨fun _ => rfl, fun h => absurd h hon, fun h => absurd h hon, fun h => absurd h hon⟩

/-! ### A transmission that succeeds (R920, R924) -/

/-- The request ends, TXDONE is set, and the object has its time stamp. -/
def txRecorded (k : Fin 2) (j : Fin 32) (s : State) : State :=
  setReg32 (objAt k j 6) (stamp32 (hwSet (canAt k cTXDONE + j.val / 16) (wd (2 ^ (j.val % 16))) (clearTxreq k j s)))
    (hwSet (canAt k cTXDONE + j.val / 16) (wd (2 ^ (j.val % 16))) (clearTxreq k j s))

/-- The loop delay is stored where it was measured. -/
def txMeasured (k : Fin 2) (j : Fin 32) (delay : BitVec 7) (s : State) : State :=
  if objFdf s k j && objBrs s k j && regBit s (canAt k cDBTIME) 7 then setReg (canAt k cSSPDLY) (wd delay.toNat) s else s

/-- The success is signalled where the object asks for it. -/
def txSignalled (k : Fin 2) (j : Fin 32) (s : State) : State :=
  if objIrq s k j then signal ⟨43 + 4 * k.val, by omega⟩ s else s

/-- The controller's own frame is offered to it in SELFTEST. -/
def txLooped (k : Fin 2) (f : CanFrame) (s : State) : State := if canMode s k = 3 then offerFrame k f s else s

theorem canTxDone_eq {k : Fin 2} {j : Fin 32} {s : State} (h : s.can[k].cur = some j) (delay : BitVec 7) : canTxDone k delay s =
    canPick k (txLooped k (frameOf s k j) (canChange k (setCan k (fun c => { c with cur := none, cancelled := false, tec := c.tec - 1 }))
      (txSignalled k j (txMeasured k j delay (txRecorded k j s))))) := by
  rw [canTxDone, show (canRec s k).cur = some j from h]
  rfl

theorem txRecorded_eq (k : Fin 2) (j : Fin 32) (s : State) : ∃ regs hw, txRecorded k j s = { s with regs := regs, hw := hw } := by
  obtain ⟨regs, h⟩ := setReg32_eq (canAt k cTXREQ) (putBit (reg32 s (canAt k cTXREQ)) j false) s
  have hset (a : Nat) (m : Word) (t : State) : ∃ regs hw, hwSet a m t = { t with regs := regs, hw := hw } := ⟨_, _, rfl⟩
  obtain ⟨regs', hw, h'⟩ := hset (canAt k cTXDONE + j.val / 16) (wd (2 ^ (j.val % 16))) { s with regs := regs }
  obtain ⟨regs'', h''⟩ := setReg32_eq (objAt k j 6) (stamp32 { s with regs := regs', hw := hw }) { s with regs := regs', hw := hw }
  exact ⟨regs'', hw, by rw [txRecorded, clearTxreq, h, h', h'']⟩

theorem reg_txRecorded_other {k : Fin 2} {j : Fin 32} {a : Nat} (h0 : a ≠ canAt k 0x10) (h1 : a ≠ canAt k 0x11)
    (hd : a ≠ canAt k (cTXDONE + j.val / 16)) (h6 : a ≠ objAt k j 6) (h7 : a ≠ objAt k j 7) (s : State) :
    reg (txRecorded k j s) a = reg s a := by
  rw [txRecorded, reg_setReg32_other _ _ h6 h7, reg_hwSet_other _ _ (by rw [canAt, Nat.add_assoc]; exact hd), clearTxreq,
    reg_setReg32_other _ _ h0 h1]

theorem getLsbD_two_pow (i : Nat) (hi : i < 16) : (wd (2 ^ i)).getLsbD i = true :=
  (by decide : ∀ i, i < 16 → (wd (2 ^ i)).getLsbD i = true) i hi

theorem txRecorded_done (k : Fin 2) (j : Fin 32) (s : State) : pendingTx (txRecorded k j s) k j = false ∧
    regBit (txRecorded k j s) (canAt k (cTXDONE + j.val / 16)) (j.val % 16) = true ∧
    reg32 (txRecorded k j s) (objAt k j 6) = BitVec.ofNat 32 s.now := by
  have hobj (o : Nat) (ho : o < 0x100) : reg (txRecorded k j s) (canAt k o) =
      reg (hwSet (canAt k cTXDONE + j.val / 16) (wd (2 ^ (j.val % 16))) (clearTxreq k j s)) (canAt k o) :=
    reg_setReg32_other _ _ (objAt_ne_canAt ho).symm (objAt_ne_canAt (w := 7) ho).symm
  have hdone (o : Nat) (ho : o < 0x14) : canAt k o ≠ canAt k cTXDONE + j.val / 16 := by
    simp only [canAt, cTXDONE]
    omega
  refine ⟨?_, ?_, ?_⟩
  · refine Eq.trans ?_ ((pendingTx_setReg32 k j j false s).trans (if_pos rfl))
    refine pendingTx_congr (fun o ho => ?_) j
    rw [hobj o (by omega), reg_hwSet_other _ _ (hdone o (by omega))]
    rfl
  · rw [regBit, hobj _ (by simp only [cTXDONE]; omega), show canAt k (cTXDONE + j.val / 16) = canAt k cTXDONE + j.val / 16 from (Nat.add_assoc ..).symm]
    exact (regBit_hwSet _ _ _ _).trans (by rw [getLsbD_two_pow _ (Nat.mod_lt _ (by decide)), Bool.or_true])
  · rw [txRecorded, reg32_setReg32]
    rfl

theorem canTxDone_outcome (k : Fin 2) (delay : BitVec 7) (r : State) :
    let u := canTxDone k delay r
    (r.can[k].cur = none → u = r) ∧
    ∀ j, r.can[k].cur = some j → pendingTx u k j = false ∧ regBit u (canAt k (cTXDONE + j.val / 16)) (j.val % 16) = true ∧
      (canMode r k ≠ 3 → reg32 u (objAt k j 6) = BitVec.ofNat 32 r.now) ∧ u.can[k].tec = r.can[k].tec - 1 ∧
      (objIrq r k j = true → hasEvent u (Fin.ofNat 96 (43 + 4 * k.val))) ∧
      (objFdf r k j = true → objBrs r k j = true → regBit r (canAt k cDBTIME) 7 = true → reg u (canAt k cSSPDLY) = wd delay.toNat) := by
  dsimp only
  refine ⟨fun h => by rw [canTxDone, show (canRec r k).cur = none from h], fun j hj => ?_⟩
  rw [canTxDone_eq hj]
  obtain ⟨hpend, hdone, hstamp⟩ := txRecorded_done k j r
  have hword0 : reg (txRecorded k j r) (objAt k j 0) = reg r (objAt k j 0) :=
    reg_txRecorded_other (objAt_ne_canAt (by decide)) (objAt_ne_canAt (by decide)) (objAt_ne_canAt (by simp only [cTXDONE]; omega)) (objAt_ne (by decide))
      (objAt_ne (by decide)) r
  have hlow (o : Nat) (ho : o < 0x10) : reg (txRecorded k j r) (canAt k o) = reg r (canAt k o) :=
    reg_txRecorded_other (canAt_ne (by omega)) (canAt_ne (by omega)) (canAt_ne (by simp only [cTXDONE]; omega))
      (objAt_ne_canAt (by omega)).symm (objAt_ne_canAt (by omega)).symm r
  have hcan : (txRecorded k j r).can = r.can := by
    obtain ⟨_, _, h⟩ := txRecorded_eq k j r
    rw [h]
  generalize txRecorded k j r = t at hpend hdone hstamp hword0 hlow hcan
  have hmeas (a : Nat) (ha : a ≠ canAt k cSSPDLY) : reg (txMeasured k j delay t) a = reg t a := by
    unfold txMeasured
    split_ifs
    · exact reg_setReg_other _ _ ha
    · rfl
  have hssp : objFdf r k j = true → objBrs r k j = true → regBit r (canAt k cDBTIME) 7 = true →
      reg (txMeasured k j delay t) (canAt k cSSPDLY) = wd delay.toNat := by
    intro hf hb h7
    have hf' : objFdf t k j = true := (congrArg (BitVec.getLsbD · 12) hword0).trans hf
    have hb' : objBrs t k j = true := (congrArg (BitVec.getLsbD · 11) hword0).trans hb
    have h7' : regBit t (canAt k cDBTIME) 7 = true := (congrArg (BitVec.getLsbD · 7) (hlow _ (by decide))).trans h7
    rw [txMeasured, if_pos (by rw [hf', hb', h7']; rfl), reg_setReg_same]
  have hcan' : (txMeasured k j delay t).can = r.can := by
    rw [← hcan]
    unfold txMeasured
    split_ifs <;> rfl
  have hirq' : objIrq (txMeasured k j delay t) k j = objIrq r k j :=
    congrArg (BitVec.getLsbD · 9) ((hmeas _ (objAt_ne_canAt (by decide))).trans hword0)
  generalize txMeasured k j delay t = m at hmeas hssp hcan' hirq'
  have hsig (a : Nat) (ha : canBase k ≤ a) : reg (txSignalled k j m) a = reg m a := by
    unfold txSignalled
    split_ifs
    · exact reg_signal (can_not_mem_runst ha) _ _
    · rfl
  have hev : objIrq r k j = true → hasEvent (txSignalled k j m) (Fin.ofNat 96 (43 + 4 * k.val)) := by
    intro hi
    rw [txSignalled, if_pos (hirq'.trans hi), canSource 43 (by decide)]
    exact hasEvent_signal_same _ _
  have hcan'' : (txSignalled k j m).can = r.can := by
    unfold txSignalled
    split_ifs
    · rw [signal_can, hcan']
    · exact hcan'
  generalize txSignalled k j m = g at hsig hev hcan''
  have hchg (a : Nat) (ha : canBase k ≤ a) :
      reg (canChange k (setCan k (fun c => { c with cur := none, cancelled := false, tec := c.tec - 1 })) g) a = reg m a := by
    rw [reg_canChange (can_not_mem_runst ha), reg_setCan, hsig a ha]
  have hchgrec : (canChange k (setCan k (fun c => { c with cur := none, cancelled := false, tec := c.tec - 1 })) g).can[k].tec =
      r.can[k].tec - 1 := by rw [canChange_can, canRec_setCan, hcan'']
  have hchgev : objIrq r k j = true →
      hasEvent (canChange k (setCan k (fun c => { c with cur := none, cancelled := false, tec := c.tec - 1 })) g) (Fin.ofNat 96 (43 + 4 * k.val)) :=
    fun hi => hasEvent_canChange k (hev hi)
  generalize canChange k (setCan k (fun c => { c with cur := none, cancelled := false, tec := c.tec - 1 })) g = c at hchg hchgrec hchgev
  have hmode : canMode c k = canMode r k := by
    rw [canMode, regF, hchg _ (canBase_le k _), hmeas _ (canAt_ne (by decide)), hlow _ (by decide)]
    rfl
  have hloop (o : Nat) (ho : o < 0x100) (hne : o ≠ cLOSTCNT) : reg (txLooped k (frameOf r k j) c) (canAt k o) = reg m (canAt k o) := by
    unfold txLooped
    split_ifs
    · rw [(offerFrame_offered k _ c).low o ho hne, hchg _ (canBase_le k o)]
    · exact hchg _ (canBase_le k o)
  have hlooprec : (txLooped k (frameOf r k j) c).can = c.can := by
    unfold txLooped
    split_ifs
    · exact (offerFrame_offered k _ c).can
    · rfl
  have hloopev : ∀ n, hasEvent c n → hasEvent (txLooped k (frameOf r k j) c) n := by
    unfold txLooped
    split_ifs
    · exact (offerFrame_offered k _ c).events
    · exact fun _ => id
  obtain ⟨cur, cancelled, hpick⟩ := canPick_rec k (txLooped k (frameOf r k j) c)
  refine ⟨?_, ?_, fun h3 => ?_, ?_, fun hi => hasEvent_canPick k (hloopev _ (hchgev hi)), fun hf hb h7 => ?_⟩
  · refine (pendingTx_congr (fun o ho => ?_) j).trans hpend
    rw [reg_canPick, hloop o (by omega) (by simp only [cLOSTCNT]; omega), hmeas _ (canAt_ne (by simp only [cSSPDLY]; omega))]
  · rw [regBit, reg_canPick, hloop _ (by simp only [cTXDONE]; omega) (by simp only [cTXDONE, cLOSTCNT]; omega),
      hmeas _ (canAt_ne (by simp only [cTXDONE, cSSPDLY]; omega))]
    exact hdone
  · have hnot : txLooped k (frameOf r k j) c = c := if_neg (by rw [hmode]; exact h3)
    have hobj (w : Nat) : reg (canPick k (txLooped k (frameOf r k j) c)) (objAt k j w) = reg t (objAt k j w) := by
      rw [reg_canPick, hnot, hchg _ ((Nat.le_add_right _ _).trans (objAt_ge k j w)), hmeas _ (objAt_ne_canAt (by decide))]
    rw [reg32_congr (hobj 6) (hobj 7)]
    exact hstamp
  · rw [hpick, hlooprec]
    exact hchgrec
  · rw [reg_canPick, hloop _ (by decide) (by decide)]
    exact hssp hf hb h7

end Sys2Proof.Machine

/-! ## CAN reception, and the rows of the CAN controllers (R917, R923) -/

namespace Sys2Proof.Machine

/-- Object `j` fits the frame, as the row spells it. -/
def frameFits (r : State) (k : Fin 2) (f : CanFrame) (j : Fin 32) : Bool :=
  regBit r (objAt k j 0) 15 && !regBit r (objAt k j 0) 14 && regBit r (objAt k j 0) 13 == f.ide && regBit r (objAt k j 0) 10 == f.rtr &&
    decide (frameLen f ≤ objCap j) &&
    ((BitVec.ofNat 29 (frameId f) ^^^ (reg32 r (objAt k j 2)).setWidth 29) &&& (reg32 r (objAt k j 4)).setWidth 29) == 0

theorem frameFits_eq (r : State) (k : Fin 2) (f : CanFrame) : frameFits r k f = objMatches r k f := by
  funext j
  rw [Bool.eq_iff_iff]
  unfold frameFits objMatches objEn objDir objIde objRtr objBit
  simp only [Bool.and_eq_true]
  tauto

/-- REC after a frame received. -/
def recAfter (free : Nat) (n : Nat) : Nat := if 127 < n then 119 + free % 9 else n - 1

/-- The record of a controller that received a frame. -/
def receivedRec (free : Nat) (c : Can) : Can := { c with busy := false, rec_ := recAfter free c.rec_ }

/-- The counters after a frame received. -/
def canCounted (k : Fin 2) (s : State) : State := setCan k (receivedRec s.free) { s with free := s.free + 1 }

theorem canReceived_good {k : Fin 2} {f : CanFrame} {s : State} (hon : canOnBus s k = true) (hmode : canMode s k ≠ 3)
    (hfd : f.fdf = false ∨ regBit s (canAt k cMCTL) 11 = true) :
    canReceived k f s = canPick k (canChange k (canCounted k) (offerFrame k f s)) := by
  rw [canReceived, if_neg (by simp [hon, hmode]), if_neg (by rcases hfd with h | h <;> simp [h])]
  rfl

/-- What a frame received does. -/
theorem canReceived_outcome (k : Fin 2) (f : CanFrame) (r : State) :
    let u := canReceived k f r
    let on := canOnBus r k = true ∧ canMode r k ≠ 3
    (¬ on → u = r) ∧ (on → f.fdf = true → regBit r (canAt k cMCTL) 11 = false → CanErrored k false 3 false false r u) ∧
    (on → f.fdf = false ∨ regBit r (canAt k cMCTL) 11 = true →
      u.can[k].rec_ = recAfter r.free r.can[k].rec_ ∧ FrameOffered k f r (offerFrame k f r) ∧
      (∀ a, a ∉ runst → reg u a = reg (offerFrame k f r) a) ∧ ∀ n, hasEvent (offerFrame k f r) n → hasEvent u n) := by
  dsimp only
  refine ⟨fun hoff => ?_, fun ⟨hon, hmode⟩ hfd h11 => ?_, fun ⟨hon, hmode⟩ hfd => ?_⟩
  · refine if_pos ?_
    cases hon : canOnBus r k with
    | false => rfl
    | true => simpa [hon] using hoff
  · rw [canReceived, if_neg (by simp [hon, hmode]), if_pos (by simp [hfd, h11])]
    exact canError_errored k false (by decide) false false r
  · rw [canReceived_good hon hmode hfd]
    have hoffer := offerFrame_offered k f r
    generalize offerFrame k f r = t at hoffer
    obtain ⟨cur, cancelled, hpick⟩ := canPick_rec k (canChange k (canCounted k) t)
    refine ⟨?_, hoffer, fun a ha => ?_, fun n hn => hasEvent_canPick k (hasEvent_canChange k hn)⟩
    · rw [hpick, canChange_can, canCounted, canRec_setCan, receivedRec, hoffer.free, hoffer.can]
    · rw [reg_canPick, reg_canChange ha]
      rfl

theorem recAfter_bounds (free n : Nat) : (n ≤ 127 → recAfter free n = n - 1) ∧
    (127 < n → 119 ≤ recAfter free n ∧ recAfter free n ≤ 127) := by
  unfold recAfter
  refine ⟨fun h => if_neg (by omega), fun h => ?_⟩
  rw [if_pos h]
  omega

/-- The row of a frame received. -/
theorem canReceived_row (k : Fin 2) (f : CanFrame) (r : State) :
    let u := canReceived k f r
    let free (j : Fin 32) : Bool := !regBit r (objAt k j 1) 15 || regBit r (objAt k j 0) 8
    let on := canOnBus r k = true ∧ canMode r k ≠ 3
    (¬ on → u = r) ∧
    (on → f.fdf = true → regBit r (canAt k cMCTL) 11 = false → regF u (canAt k cBUSST) 0 3 = 3 ∧
      (reg u (canAt k cERRCNT)).toNat = min 0xFFFF ((reg r (canAt k cERRCNT)).toNat + 1) ∧ hasEvent u (Fin.ofNat 96 (44 + 4 * k.val))) ∧
    (on → f.fdf = false ∨ regBit r (canAt k cMCTL) 11 = true →
      (r.can[k].rec_ ≤ 127 → u.can[k].rec_ = r.can[k].rec_ - 1) ∧ (127 < r.can[k].rec_ → 119 ≤ u.can[k].rec_ ∧ u.can[k].rec_ ≤ 127) ∧
      (∀ j, (List.finRange 32).find? (fun j => frameFits r k f j && free j) = some j →
        let a := objAt k j 1
        regBit u a 15 = true ∧ regBit u a 14 = (regBit r a 14 || regBit r a 15) ∧ regF u a 4 4 = (regF r a 4 4 + 1) % 16 ∧
        regF u a 0 4 = f.dlc.toNat ∧ regBit u a 13 = f.esi ∧ regBit u a 12 = f.fdf ∧ regBit u a 11 = f.brs ∧
        reg32 u (objAt k j 6) = BitVec.ofNat 32 r.now ∧
        (∀ i : Fin 64, i.val < frameLen f → regF u (objAt k j (8 + i.val / 2)) (8 * (i.val % 2)) 8 = (f.data.getD i 0).toNat) ∧
        (regBit r (objAt k j 0) 9 = true → hasEvent u (Fin.ofNat 96 (42 + 4 * k.val))) ∧ reg u (canAt k cLOSTCNT) = reg r (canAt k cLOSTCNT)) ∧
      (∀ j, (List.finRange 32).find? (fun j => frameFits r k f j) = some j →
        (List.finRange 32).find? (fun j => frameFits r k f j && free j) = none →
        regBit u (objAt k j 1) 14 = true ∧ (reg u (canAt k cLOSTCNT)).toNat = min 0xFFFF ((reg r (canAt k cLOSTCNT)).toNat + 1)) ∧
      ((List.finRange 32).find? (fun j => frameFits r k f j) = none → RegsBut runst r u)) := by
  obtain ⟨hoff, hfd, hgood⟩ := canReceived_outcome k f r
  dsimp only at hoff hfd hgood ⊢
  generalize canReceived k f r = u at hoff hfd hgood
  refine ⟨hoff, fun hon h h11 => ?_, fun hon h => ?_⟩
  · have herr := hfd hon h h11
    exact ⟨herr.recorded, herr.counted, herr.signalled⟩
  · obtain ⟨hrec, hoffer, hreg, hev⟩ := hgood hon h
    obtain ⟨hlow, hhigh⟩ := recAfter_bounds r.free r.can[k].rec_
    have hobj (j : Fin 32) (w : Nat) : reg u (objAt k j w) = reg (offerFrame k f r) (objAt k j w) :=
      hreg _ (can_not_mem_runst ((Nat.le_add_right _ _).trans (objAt_ge k j w)))
    have hlost := hreg (canAt k cLOSTCNT) (can_not_mem_runst (canBase_le k _))
    simp only [frameFits_eq]
    refine ⟨fun h => hrec.trans (hlow h), fun h => hrec ▸ hhigh h, fun j hj => ?_, fun j hj hn => ?_, fun hn a ha => ?_⟩
    · have htaken := hoffer.taken j hj
      obtain ⟨h15, h14, h13, h12, h11⟩ := takenWord_flags f (regBit r (objAt k j 1) 15) ((regF r (objAt k j 1) 4 4 + 1) % 16) (reg r (objAt k j 1))
      obtain ⟨hdlc, hcnt⟩ := takenWord_fields f (regBit r (objAt k j 1) 15) ((regF r (objAt k j 1) 4 4 + 1) % 16) (reg r (objAt k j 1))
      simp only [regBit, regF, hobj, htaken.flags]
      refine ⟨h15, h14, hcnt.trans (Nat.mod_mod _ _), hdlc, h13, h12, h11, ?_, fun i hi => htaken.bytes i hi,
        fun hi => hev _ (htaken.irq hi), ?_⟩
      · rw [reg32_congr (hobj j 6) (hobj j 7)]
        exact htaken.stamp
      · rw [hlost]
        exact htaken.other _ (can_not_mem_runst (canBase_le k _)) (objAt_ne_canAt (by decide)).symm (objAt_ne_canAt (by decide)).symm
          (objAt_ne_canAt (by decide)).symm fun w _ => (objAt_ne_canAt (by decide)).symm
    · rw [regBit, hobj, hlost]
      exact hoffer.lost j hj hn
    · rw [hreg a ha, hoffer.none hn]

/-- Settles O57: each row by its outcome lemma; a frame's by `canReceived_outcome` and `FrameOffered`. -/
theorem canTakesSendsAndCountsErrors : Obligations.CanTakesSendsAndCountsErrors := by
  unfold Obligations.CanTakesSendsAndCountsErrors
  intro s m k dt v p id ide rtr fdf brs esi px dp tx sp dlc data delay code hup c ctl busst mode pend abt w0 src up1 ends err
  refine ⟨Acts.of rfl hup (mctlWrite_outcome m k v _), ActsAfter.of rfl hup (canIntegrated_outcome k _),
    ActsAfter.of rfl hup (canRecovered_outcome k _), ActsAfter.of rfl hup ?frame, Acts.of rfl hup (txreqWrite_outcome m k p _),
    Acts.of rfl hup (txcanWrite_outcome m k p _), ActsAfter.of rfl hup ?done, ActsAfter.of rfl hup (canArbLost_outcome k _),
    ActsAfter.of rfl hup ?error⟩
  case frame => exact canReceived_row k ⟨id, ide, rtr, fdf, brs, esi, dlc, data⟩ _
  case done =>
    obtain ⟨hnone, hsome⟩ := canTxDone_outcome k delay (ready dt s)
    refine ⟨hnone, fun j hj => ?_⟩
    obtain ⟨hpend, hdone, hrest⟩ := hsome j hj
    exact ⟨hpend, (congrArg (fun a => regBit (canTxDone k delay (ready dt s)) a (j.val % 16)) (Nat.add_assoc ..)).trans hdone, hrest⟩
  case error =>
    obtain ⟨hoff, hstrict, hpx, hplain⟩ := canErrorEvent_outcome k px dp tx sp code (ready dt s)
    refine ⟨hoff, fun hon h h7 => ?_, hpx, fun hon h => ?_⟩
    · have herr := hstrict hon h h7
      exact ⟨herr.recorded, herr.counted, herr.signalled⟩
    · have herr := hplain hon h
      exact ⟨⟨herr.recorded, herr.counted, herr.signalled⟩, herr.tec, herr.rec_, herr.ends, herr.off⟩

end Sys2Proof.Machine

/-! ## The Linric Loop: rounds (R866-R891, R901-R905) -/

namespace Sys2Proof.Machine

/-! ### The address and its check (R883, R888) -/

/-- The address a word of STAT holds. -/
def addrOf (w : Word) : Option Nat := if w.getLsbD 7 then some (fld w 0 6) else none

theorem loopAddr_eq (s : State) : loopAddr s = addrOf (reg s Reg.loop_STAT) := rfl

theorem addrOf_putBit (w : Word) {i : Nat} (hi : 8 ≤ i) (b : Bool) : addrOf (putBit w i b) = addrOf w := by
  rw [addrOf, getLsbD_putBit _ _ _ _ (by decide), if_neg (Nat.ne_of_lt hi), fld_putBit_other _ _ _ _ _ (by decide) (.inl (by omega))]
  rfl

theorem loopAddr_setRegBit {i : Nat} (hi : 8 ≤ i) (b : Bool) (s : State) : loopAddr (setRegBit Reg.loop_STAT i b s) = loopAddr s := by
  rw [loopAddr_eq, reg_setRegBit_same, addrOf_putBit _ hi, loopAddr_eq]

theorem loopAddr_congr {s u : State} (h : reg u Reg.loop_STAT = reg s Reg.loop_STAT) : loopAddr u = loopAddr s := congrArg addrOf h

theorem reg_partnerRaise (d : Nat) (s : State) (a : Nat) : reg (partnerRaise d s) a = reg s a := rfl

/-- The address and PIN differ where a PIN is set. -/
def pinDiffers (s : State) : Bool := (reg s Reg.loop_PIN).toNat != 0xFFFF && loopAddr s != some (reg s Reg.loop_PIN).toNat

theorem reg_pinCheck (s : State) (a : Nat) : reg (pinCheck s) a = reg (setRegBit Reg.loop_STAT 9 (pinDiffers s) s) a := by
  unfold pinCheck
  dsimp only
  rw [← pinDiffers]
  split_ifs
  · rw [reg_partnerRaise]
  · rfl

theorem reg_pinCheck_stat (s : State) : reg (pinCheck s) Reg.loop_STAT = putBit (reg s Reg.loop_STAT) 9 (pinDiffers s) := by
  rw [reg_pinCheck, reg_setRegBit_same]

theorem reg_pinCheck_other {a : Nat} (h : a ≠ Reg.loop_STAT) (s : State) : reg (pinCheck s) a = reg s a := by
  rw [reg_pinCheck, reg_setRegBit_other _ _ _ h]

theorem loopAddr_pinCheck (s : State) : loopAddr (pinCheck s) = loopAddr s := by
  rw [loopAddr_eq, reg_pinCheck_stat, addrOf_putBit _ (by decide), loopAddr_eq]

theorem setAddr_none (s : State) : setAddr none s = pinCheck (setRegF Reg.loop_STAT 0 8 0 s) := rfl

theorem loopAddr_setAddr_none (s : State) : loopAddr (setAddr none s) = none := by
  rw [setAddr_none, loopAddr_pinCheck, loopAddr_eq, reg_setRegF_same, addrOf, getLsbD_putFld _ _ _ _ _ (by decide)]
  rfl

theorem reg_setAddr_none_other {a : Nat} (h : a ≠ Reg.loop_STAT) (s : State) : reg (setAddr none s) a = reg s a := by
  rw [setAddr_none, reg_pinCheck_other h, reg_setRegF_other _ _ _ _ h]

theorem regBit_setAddr_none {i : Nat} (hi : 8 ≤ i) (h9 : i ≠ 9) (h16 : i < 16) (s : State) :
    regBit (setAddr none s) Reg.loop_STAT i = regBit s Reg.loop_STAT i := by
  rw [setAddr_none, (aside_pinCheck _).stat i h9, regBit, reg_setRegF_same, getLsbD_putFld _ _ _ _ _ h16, if_neg (by omega)]
  rfl

theorem setAddr_none_loop (s : State) : (setAddr none s).loop = s.loop := (aside_pinCheck (setRegF Reg.loop_STAT 0 8 0 s)).loop

theorem setAddr_none_now (s : State) : (setAddr none s).now = s.now := (aside_pinCheck (setRegF Reg.loop_STAT 0 8 0 s)).now

/-! ### What the start of a round leaves alone -/

/-- The registers that the start of a round may write beside its header. -/
def roundRegs : List Nat := [Reg.loop_ERRA, Reg.loop_TURN, Reg.loop_OFS]

/-- Of the Loop at most the fold, the turn times and the epoch changed, and of the registers `roundRegs`. -/
structure RoundKept (s u : State) : Prop where
  frame : ∃ regs hw fold dnGood badBacks foldNext turns epochDue epv, u = { s with
    regs := regs
    hw := hw
    loop := { s.loop with
      fold := fold, dnGood := dnGood, badBacks := badBacks, foldNext := foldNext, turns := turns, epochDue := epochDue, epv := epv } }
  reg : ∀ a, a ∉ roundRegs → reg u a = reg s a

theorem RoundKept.refl (s : State) : RoundKept s s := ⟨⟨s.regs, s.hw, _, _, _, _, _, _, _, rfl⟩, fun _ _ => rfl⟩

theorem RoundKept.trans {s t u : State} (h : RoundKept s t) (h' : RoundKept t u) : RoundKept s u := by
  refine ⟨?_, fun a ha => (h'.reg a ha).trans (h.reg a ha)⟩
  obtain ⟨_, _, _, _, _, _, _, _, _, rfl⟩ := h.frame
  obtain ⟨_, _, _, _, _, _, _, _, _, rfl⟩ := h'.frame
  exact ⟨_, _, _, _, _, _, _, _, _, rfl⟩

theorem roundKept_fold (s : State) (fold : Bool) (dnGood badBacks : Nat) (foldNext : Bool) :
    RoundKept s { s with loop := { s.loop with fold := fold, dnGood := dnGood, badBacks := badBacks, foldNext := foldNext } } :=
  ⟨⟨s.regs, s.hw, _, _, _, _, _, _, _, rfl⟩, fun _ _ => rfl⟩

theorem roundKept_enterFold (s : State) : RoundKept s (enterFold s) := by
  unfold enterFold
  split_ifs
  · exact .refl s
  · refine (roundKept_fold s true 0 0 false).trans ⟨⟨_, _, _, _, _, _, _, _, _, rfl⟩, fun a ha => ?_⟩
    exact reg_hwCountF_other _ _ _ _ (ne_of_mem_of_not_mem (by decide) ha).symm

theorem roundKept_foldAtStart (s : State) : RoundKept s (foldAtStart s) := by
  unfold foldAtStart
  split_ifs
  · exact roundKept_fold s _ _ _ _
  · exact .refl s
  · exact roundKept_enterFold s
  · exact .refl s

theorem roundKept_noteTurn (t : Nat) (s : State) : RoundKept s (noteTurn t s) :=
  ⟨⟨_, s.hw, _, _, _, _, _, _, _, rfl⟩, fun a ha => reg_setReg_other _ _ (ne_of_mem_of_not_mem (by decide) ha).symm⟩

theorem roundKept_planEpoch (turn0 start : Nat) (s : State) : RoundKept s (planEpoch turn0 start s) := by
  have hclear : RoundKept s (setLoop (fun l => { l with epochDue := none, epv := false }) s) :=
    ⟨⟨s.regs, s.hw, _, _, _, _, _, _, _, rfl⟩, fun _ _ => rfl⟩
  unfold planEpoch
  dsimp only
  split_ifs
  · refine hclear.trans ⟨⟨_, s.hw, _, _, _, _, _, _, _, rfl⟩, fun a ha => ?_⟩
    exact reg_setReg_other _ _ (ne_of_mem_of_not_mem (by decide) ha).symm
  · exact hclear

/-- The round's own fields are set. -/
def roundNoted (seq n turn0 : Nat) (enum : Bool) (s : State) : State :=
  setLoop (fun l => { l with
    seq := seq, n := n, turn0 := turn0, enum := enum, provis := none, outStart := some s.now, backSeen := false
    dropMirror := false }) s

/-- What the round's turn and epoch do once its fields are set. -/
def roundTurned (turn0 : Nat) (s : State) : State :=
  planEpoch turn0 s.now (if s.loop.fold then noteTurn 0 s else s)

theorem roundKept_roundTurned (turn0 : Nat) (s : State) : RoundKept s (roundTurned turn0 s) := by
  refine RoundKept.trans ?_ (roundKept_planEpoch turn0 s.now _)
  split_ifs
  · exact roundKept_noteTurn 0 s
  · exact .refl s

theorem roundAt_eq (seq n turn0 : Nat) (enum : Bool) (relay : Nat) (s : State) : roundAt seq n turn0 enum relay s =
    let u := roundTurned turn0 (roundNoted seq n turn0 enum (foldAtStart s))
    setLoop (fun l => { l with letterDue := (letterUnit u).map (fun a => u.now + relay + slotTicks a - 1) }) u := by
  have hnow : (if (roundNoted seq n turn0 enum (foldAtStart s)).loop.fold then noteTurn 0 (roundNoted seq n turn0 enum (foldAtStart s))
      else roundNoted seq n turn0 enum (foldAtStart s)).now = (roundNoted seq n turn0 enum (foldAtStart s)).now := by
    split_ifs <;> rfl
  rw [roundTurned, ← hnow]
  rfl

/-- What the start of a round does. -/
structure RoundBegun (seq n turn0 : Nat) (enum : Bool) (relay : Nat) (s u : State) : Prop where
  frame : ∃ regs hw loop, u = { s with regs := regs, hw := hw, loop := loop }
  reg : ∀ a, a ∉ roundRegs → reg u a = reg s a
  seq : u.loop.seq = seq
  n : u.loop.n = n
  outStart : u.loop.outStart = some s.now
  provis : u.loop.provis = none
  nextStart : u.loop.nextStart = s.loop.nextStart
  enumPend : u.loop.enumPend = s.loop.enumPend
  enumWait : u.loop.enumWait = s.loop.enumWait
  rstTx : u.loop.rstTx = s.loop.rstTx
  trailer : u.loop.trailer = s.loop.trailer
  letterDue : u.loop.letterDue =
    (if enum = true ∧ isHead s = false then none else loopAddr s).map (fun a => s.now + relay + slotTicks a - 1)

theorem roundAt_begun (seq n turn0 : Nat) (enum : Bool) (relay : Nat) (s : State) :
    RoundBegun seq n turn0 enum relay s (roundAt seq n turn0 enum relay s) := by
  have hfold := roundKept_foldAtStart s
  have hturn := roundKept_roundTurned turn0 (roundNoted seq n turn0 enum (foldAtStart s))
  rw [roundAt_eq]
  dsimp only
  generalize roundTurned turn0 (roundNoted seq n turn0 enum (foldAtStart s)) = u at hturn
  generalize foldAtStart s = t at hfold hturn
  have hreg : ∀ a, a ∉ roundRegs → reg u a = reg s a := fun a ha => (hturn.reg a ha).trans (hfold.reg a ha)
  have hletter : letterUnit u = if enum = true ∧ isHead s = false then none else loopAddr s := by
    have haddr : loopAddr u = loopAddr s := loopAddr_congr (hreg _ (by decide))
    have hhead : isHead u = isHead s := congrArg (BitVec.getLsbD · 15) (hreg Reg.sys_STRAP (by decide))
    have hu : u.loop.enum = enum ∧ u.loop.provis = none := by
      obtain ⟨_, _, _, _, _, _, _, _, _, hu⟩ := hturn.frame
      rw [hu]
      exact ⟨rfl, rfl⟩
    rw [letterUnit, haddr, hhead, hu.1, hu.2]
    cases enum <;> cases isHead s <;> rfl
  rw [hletter]
  obtain ⟨_, _, _, _, _, _, _, _, _, ht⟩ := hfold.frame
  obtain ⟨_, _, _, _, _, _, _, _, _, hu⟩ := hturn.frame
  subst ht hu
  exact ⟨⟨_, _, _, rfl⟩, hreg, rfl, rfl, rfl, rfl, rfl, rfl, rfl, rfl, rfl, rfl⟩

end Sys2Proof.Machine

/-! ## Rounds start, turn and end (R875-R891, R901-R905, R912) -/

namespace Sys2Proof.Machine

theorem loopRuns_iff (r : State) : loopRuns r = true ↔ r.loop.started = true ∧ onBackup r = false := by
  simp [loopRuns]

theorem isHead_congr {s u : State} (h : reg u Reg.sys_STRAP = reg s Reg.sys_STRAP) : isHead u = isHead s :=
  congrArg (BitVec.getLsbD · 15) h

/-! ### The head starts a round (R876, R883, R904) -/

/-- N of the round the head starts. -/
def startN (s : State) : Nat := if s.loop.enumPend then 64 else s.loop.headN

/-- A reset request goes with the round. -/
def startRst (s : State) : Bool := decide (0 < s.loop.rstTx)

/-- The header words but for the CRC. -/
def headWords (s : State) : List Word :=
  [wd ((s.loop.seq + 1) % 65536),
   wd (s.loop.enumPend.toNat * 0x8000 + (startRst s).toNat * 0x4000 + (if startRst s then regF s Reg.loop_RSTREQ 0 7 else 0) * 128 + startN s),
   wd (headTurn0 s)]

/-- The round's header and its times at the head. -/
def headNoted (s : State) : State :=
  setLoop (fun l => { l with
    enumPend := false, enumWait := s.loop.enumPend, nextStart := s.now + roundTicks (startN s), rstTx := l.rstTx - 1, trailer := 0 })
    (setReg Reg.loop_TURN0 (wd (headTurn0 s)) (setRegF Reg.loop_RINFO 0 7 (startN s)
      { s with result := headWords s ++ [crc16 (headWords s)] }))

/-- The last round of a reset request ends it. -/
def headAsked (s : State) : State :=
  if startRst s && (headNoted s).loop.rstTx == 0 then setRegBit Reg.loop_RSTREQ 15 false (headNoted s) else headNoted s

theorem roundStart_eq {s : State} (hr : loopRuns s = true) (hh : isHead s = true) (hw : s.loop.enumWait = false) :
    roundStart s = roundAt ((s.loop.seq + 1) % 65536) (startN s) (headTurn0 s) s.loop.enumPend 0 (headAsked s) := by
  rw [roundStart, if_neg (by rw [hr, hh, hw]; decide)]
  rfl

/-- What the header of the round leaves. -/
structure HeadAsked (s u : State) : Prop where
  result : u.result = headWords s ++ [crc16 (headWords s)]
  now : u.now = s.now
  nextStart : u.loop.nextStart = s.now + roundTicks (startN s)
  enumPend : u.loop.enumPend = false
  enumWait : u.loop.enumWait = s.loop.enumPend
  rstTx : u.loop.rstTx = s.loop.rstTx - 1
  rinfo : regF u Reg.loop_RINFO 0 7 = startN s % 128
  turn0 : reg u Reg.loop_TURN0 = wd (headTurn0 s)
  rstreq : regBit u Reg.loop_RSTREQ 15 = (regBit s Reg.loop_RSTREQ 15 && decide (s.loop.rstTx ≠ 1))
  reg : ∀ a, a ≠ Reg.loop_RINFO → a ≠ Reg.loop_TURN0 → a ≠ Reg.loop_RSTREQ → reg u a = reg s a

theorem reg_headNoted (s : State) (a : Nat) : reg (headNoted s) a = reg (setReg Reg.loop_TURN0 (wd (headTurn0 s))
    (setRegF Reg.loop_RINFO 0 7 (startN s) { s with result := headWords s ++ [crc16 (headWords s)] })) a := rfl

theorem headNoted_regs (s : State) : regF (headNoted s) Reg.loop_RINFO 0 7 = startN s % 128 ∧
    reg (headNoted s) Reg.loop_TURN0 = wd (headTurn0 s) ∧
    ∀ a, a ≠ Reg.loop_RINFO → a ≠ Reg.loop_TURN0 → reg (headNoted s) a = reg s a := by
  refine ⟨?_, ?_, fun a h h' => ?_⟩
  · rw [regF, reg_headNoted, reg_setReg_other _ _ (by decide), reg_setRegF_same, fld_putFld _ _ _ _ (by decide)]
    rfl
  · rw [reg_headNoted, reg_setReg_same]
  · rw [reg_headNoted, reg_setReg_other _ _ h', reg_setRegF_other _ _ _ _ h]
    rfl

theorem headAsked_asked (s : State) : HeadAsked s (headAsked s) := by
  obtain ⟨hrinfo, hturn, hreg⟩ := headNoted_regs s
  have hrst : (headNoted s).loop.rstTx = s.loop.rstTx - 1 := rfl
  have hreq : reg (headNoted s) Reg.loop_RSTREQ = reg s Reg.loop_RSTREQ := hreg _ (by decide) (by decide)
  unfold headAsked
  by_cases hlast : s.loop.rstTx = 1
  · have hc : (startRst s && (headNoted s).loop.rstTx == 0) = true := by rw [hrst, startRst, hlast]; rfl
    rw [if_pos hc]
    refine ⟨rfl, rfl, rfl, rfl, rfl, rfl, ?_, ?_, ?_, fun a h h' h'' => ?_⟩
    · rw [regF, reg_setRegBit_other _ _ _ (by decide)]
      exact hrinfo
    · rw [reg_setRegBit_other _ _ _ (by decide), hturn]
    · rw [regBit_setRegBit_same _ _ _ _ (by decide), hlast]
      exact (Bool.and_false _).symm
    · rw [reg_setRegBit_other _ _ _ h'', hreg a h h']
  · have hc : ¬ (startRst s && (headNoted s).loop.rstTx == 0) = true := by
      rw [hrst, startRst, Bool.and_eq_true, decide_eq_true_eq, beq_iff_eq]
      omega
    rw [if_neg hc]
    refine ⟨rfl, rfl, rfl, rfl, rfl, rfl, hrinfo, hturn, ?_, fun a h h' _ => hreg a h h'⟩
    rw [regBit, hreq, decide_eq_true hlast, Bool.and_true]
    rfl

theorem roundStart_outcome (r : State) :
    let u := roundStart r
    let enum := r.loop.enumPend
    let n := if enum then 64 else r.loop.headN
    let seq := (r.loop.seq + 1) % 65536
    let rst := 0 < r.loop.rstTx
    let runs := r.loop.started = true ∧ onBackup r = false
    (¬ runs ∨ ¬ isHead r = true ∨ r.loop.enumWait = true → u = r) ∧
    (runs → isHead r = true → r.loop.enumWait = false →
      u.loop.seq = seq ∧ u.loop.n = n ∧ u.loop.nextStart = r.now + 16 * (452 + 128 * n) ∧ u.loop.enumPend = false ∧ u.loop.enumWait = enum ∧
      u.loop.outStart = some r.now ∧ u.loop.letterDue = (loopAddr r).map (fun a => r.now + 16 * (64 + 128 * a) - 1) ∧
      regF u Reg.loop_RINFO 0 7 = n % 128 ∧ reg u Reg.loop_TURN0 = wd (headTurn0 r) ∧
      u.result.take 3 = [wd seq, wd (enum.toNat * 0x8000 + (if rst then 0x4000 + regF r Reg.loop_RSTREQ 0 7 * 128 else 0) + n), wd (headTurn0 r)] ∧
      u.result.drop 3 = [crc16 (u.result.take 3)] ∧ u.loop.rstTx = r.loop.rstTx - 1 ∧
      regBit u Reg.loop_RSTREQ 15 = (regBit r Reg.loop_RSTREQ 15 && decide (r.loop.rstTx ≠ 1))) := by
  intro u enum n seq rst runs
  refine ⟨fun h => if_pos ?_, fun hr hh hw => ?_⟩
  · rw [show runs ↔ loopRuns r = true from (loopRuns_iff r).symm] at h
    cases hl : loopRuns r <;> cases hd : isHead r <;> cases hw : r.loop.enumWait <;> simp_all
  · have hasked := headAsked_asked r
    have hu : u = _ := roundStart_eq ((loopRuns_iff r).mpr hr) hh hw
    have hbegun := roundAt_begun seq n (headTurn0 r) enum 0 (headAsked r)
    have hwords : headWords r = [wd seq, wd (enum.toNat * 0x8000 + (if rst then 0x4000 + regF r Reg.loop_RSTREQ 0 7 * 128 else 0) + n),
        wd (headTurn0 r)] := by
      have hsum : (startRst r).toNat * 0x4000 + (if startRst r then regF r Reg.loop_RSTREQ 0 7 else 0) * 128 =
          if rst then 0x4000 + regF r Reg.loop_RSTREQ 0 7 * 128 else 0 := by
        by_cases hrst : rst
        · rw [startRst, decide_eq_true hrst, if_pos rfl, if_pos hrst]
          rfl
        · rw [startRst, decide_eq_false hrst, if_neg (by decide), if_neg hrst]
          rfl
      rw [headWords, Nat.add_assoc (r.loop.enumPend.toNat * 0x8000), hsum]
      rfl
    have hhead : isHead (headAsked r) = true := (isHead_congr (hasked.reg _ (by decide) (by decide) (by decide))).trans hh
    have haddr : loopAddr (headAsked r) = loopAddr r := loopAddr_congr (hasked.reg _ (by decide) (by decide) (by decide))
    have hu : u = roundAt seq n (headTurn0 r) enum 0 (headAsked r) := hu
    rw [← hu] at hbegun
    clear_value u
    have hresult : u.result = headWords r ++ [crc16 (headWords r)] := by
      obtain ⟨_, _, _, h⟩ := hbegun.frame
      rw [h]
      exact hasked.result
    rw [hresult, ← hwords]
    refine ⟨hbegun.seq, hbegun.n, hbegun.nextStart.trans hasked.nextStart, hbegun.enumPend.trans hasked.enumPend,
      hbegun.enumWait.trans hasked.enumWait, hbegun.outStart.trans (by rw [hasked.now]), ?_, ?_, ?_, rfl, rfl,
      hbegun.rstTx.trans hasked.rstTx, ?_⟩
    · rw [hbegun.letterDue, hhead, haddr, hasked.now, if_neg (fun h => absurd h.2 (by decide))]
      rfl
    · rw [regF, hbegun.reg _ (by decide)]
      exact hasked.rinfo
    · rw [hbegun.reg _ (by decide), hasked.turn0]
    · rw [regBit, hbegun.reg _ (by decide)]
      exact hasked.rstreq

/-! ### Out legs (R873, R875, R883, R887, R905) -/

/-- The unit's address after a header of `n` slots. -/
def addrChecked (n : Nat) (s : State) : State :=
  match loopAddr s with
  | some a => if n ≤ a then setAddr none s else s
  | none => s

/-- The header of an out leg with a good CRC is registered. -/
def headerNoted (h : Header) (s : State) : State :=
  let t := addrChecked (hdrN h) (setReg Reg.loop_TURN0 h.h2 (setRegF Reg.loop_RINFO 0 7 (hdrN h) (resetSeen h s)))
  setLoop (fun l => { l with trailer := trailerFlags t }) t

theorem outLegStart_good {h : Header} {s : State} (hr : loopRuns s = true) (hh : isHead s = false) (hok : headerOk h = true) :
    outLegStart h s = roundAt h.h0.toNat (hdrN h) h.h2.toNat (hdrEnum h) 64 (headerNoted h s) := by
  rw [outLegStart, if_neg (by rw [hr, hh]; decide), if_neg (by rw [hok]; decide)]
  rfl

theorem outLegStart_bad {h : Header} {s : State} (hr : loopRuns s = true) (hh : isHead s = false) (hok : headerOk h = false) :
    outLegStart h s = setLoop (fun l => { l with outStart := none, letterDue := none, epochDue := none, epv := false, rstSeen := 0 })
      (foldAtStart s) := by
  rw [outLegStart, if_neg (by rw [hr, hh]; decide), if_pos (by rw [hok]; rfl)]

theorem loopAddr_addrChecked (n : Nat) (s : State) :
    loopAddr (addrChecked n s) = (loopAddr s).filter (fun a => decide (a < n)) := by
  unfold addrChecked
  cases h : loopAddr s with
  | none => exact h
  | some a =>
    dsimp only
    by_cases hn : n ≤ a
    · rw [if_pos hn, loopAddr_setAddr_none, Option.filter_some, if_neg (by simpa using hn)]
    · rw [if_neg hn, h, Option.filter_some, if_pos (by simpa using hn)]

theorem reg_addrChecked_other {a : Nat} (h : a ≠ Reg.loop_STAT) (n : Nat) (s : State) : reg (addrChecked n s) a = reg s a := by
  unfold addrChecked
  split
  · split_ifs
    · exact reg_setAddr_none_other h s
    · rfl
  · rfl

theorem addrChecked_loop (n : Nat) (s : State) : (addrChecked n s).loop = s.loop ∧ (addrChecked n s).now = s.now ∧
    regBit (addrChecked n s) Reg.loop_STAT 10 = regBit s Reg.loop_STAT 10 := by
  unfold addrChecked
  split
  · split_ifs
    · exact ⟨setAddr_none_loop s, setAddr_none_now s, regBit_setAddr_none (by decide) (by decide) (by decide) s⟩
    · exact ⟨rfl, rfl, rfl⟩
  · exact ⟨rfl, rfl, rfl⟩

/-- What a header with a good CRC leaves. -/
structure HeaderNoted (h : Header) (s u : State) : Prop where
  now : u.now = s.now
  turn0 : reg u Reg.loop_TURN0 = h.h2
  rinfo : regF u Reg.loop_RINFO 0 7 = hdrN h
  addr : loopAddr u = (loopAddr s).filter (fun a => decide (a < hdrN h))
  strap : reg u Reg.sys_STRAP = reg s Reg.sys_STRAP
  trailer : u.loop.trailer = if ((loopAddr s).filter (fun a => decide (a < hdrN h))).isSome then 0
    else if regBit s Reg.loop_STAT 10 then 0x4000 else 0x8000

/-- The registers of a header before the address is checked. -/
def headerRegs (h : Header) (s : State) : State := setReg Reg.loop_TURN0 h.h2 (setRegF Reg.loop_RINFO 0 7 (hdrN h) (resetSeen h s))

theorem reg_resetSeen (h : Header) (s : State) (a : Nat) : reg (resetSeen h s) a = reg s a := rfl

theorem headerRegs_regs (h : Header) (s : State) : reg (headerRegs h s) Reg.loop_TURN0 = h.h2 ∧
    regF (headerRegs h s) Reg.loop_RINFO 0 7 = hdrN h ∧
    ∀ a, a ≠ Reg.loop_RINFO → a ≠ Reg.loop_TURN0 → reg (headerRegs h s) a = reg s a := by
  refine ⟨reg_setReg_same _ _ _, ?_, fun a h h' => ?_⟩
  · rw [headerRegs, regF, reg_setReg_other _ _ (by decide), reg_setRegF_same, fld_putFld _ _ _ _ (by decide),
      Nat.mod_eq_of_lt (show hdrN h < 2 ^ 7 from fld_lt h.h1 0 7)]
  · rw [headerRegs, reg_setReg_other _ _ h', reg_setRegF_other _ _ _ _ h, reg_resetSeen]

theorem headerNoted_noted (h : Header) (s : State) : HeaderNoted h s (headerNoted h s) := by
  obtain ⟨hturn, hrinfo, hreg⟩ := headerRegs_regs h s
  have hloop : loopAddr (headerRegs h s) = loopAddr s := loopAddr_congr (hreg _ (by decide) (by decide))
  have hbit : regBit (headerRegs h s) Reg.loop_STAT 10 = regBit s Reg.loop_STAT 10 :=
    congrArg (BitVec.getLsbD · 10) (hreg _ (by decide) (by decide))
  have hnow : (headerRegs h s).now = s.now := rfl
  have heq : headerNoted h s = setLoop (fun l => { l with trailer := trailerFlags (addrChecked (hdrN h) (headerRegs h s)) })
      (addrChecked (hdrN h) (headerRegs h s)) := rfl
  have haddr := loopAddr_addrChecked (hdrN h) (headerRegs h s)
  obtain ⟨-, hnow', hbit'⟩ := addrChecked_loop (hdrN h) (headerRegs h s)
  have hreg' (a : Nat) (ha : a ≠ Reg.loop_STAT) := reg_addrChecked_other ha (hdrN h) (headerRegs h s)
  have htrailer : trailerFlags (addrChecked (hdrN h) (headerRegs h s)) = if ((loopAddr s).filter (fun a => decide (a < hdrN h))).isSome then 0
      else if regBit s Reg.loop_STAT 10 then 0x4000 else 0x8000 := by
    rw [trailerFlags, haddr, hloop, hbit', hbit]
  rw [heq]
  generalize addrChecked (hdrN h) (headerRegs h s) = t at haddr hnow' hbit' hreg' htrailer ⊢
  exact ⟨hnow'.trans hnow, (hreg' _ (by decide)).trans hturn, (congrArg (fld · 0 7) (hreg' Reg.loop_RINFO (by decide))).trans hrinfo,
    haddr.trans (by rw [hloop]), (hreg' _ (by decide)).trans (hreg _ (by decide) (by decide)), htrailer⟩

theorem outLegStart_outcome (h : Header) (r : State) :
    let u := outLegStart h r
    let runs := r.loop.started = true ∧ onBackup r = false
    let okh := crc16 [h.h0, h.h1, h.h2] = h.h3
    let n := fld h.h1 0 7
    let kept := (loopAddr r).filter (fun a => decide (a < n))
    (¬ runs ∨ isHead r = true → u = r) ∧
    (runs → ¬ isHead r = true → ¬ okh → u.loop.letterDue = none ∧ u.loop.epochDue = none ∧ u.loop.outStart = none ∧ loopAddr u = loopAddr r ∧
      reg u Reg.loop_RINFO = reg r Reg.loop_RINFO) ∧
    (runs → ¬ isHead r = true → okh → reg u Reg.loop_TURN0 = h.h2 ∧ regF u Reg.loop_RINFO 0 7 = n ∧ loopAddr u = kept ∧
      u.loop.seq = h.h0.toNat ∧ u.loop.n = n ∧ u.loop.outStart = some r.now ∧ u.loop.provis = none ∧
      u.loop.letterDue = (if h.h1.getLsbD 15 then none else kept.map (fun a => r.now + 64 + 16 * (64 + 128 * a) - 1)) ∧
      u.loop.trailer = (if kept.isSome then 0 else if regBit r Reg.loop_STAT 10 then 0x4000 else 0x8000)) := by
  intro u runs okh n kept
  have hok : headerOk h = true ↔ okh := by rw [headerOk, beq_iff_eq]
  refine ⟨fun hc => if_pos ?_, fun hr hh hbad => ?_, fun hr hh hgood => ?_⟩
  · rw [show runs ↔ loopRuns r = true from (loopRuns_iff r).symm] at hc
    cases hl : loopRuns r <;> cases hd : isHead r <;> simp_all
  · have hu : u = _ := outLegStart_bad ((loopRuns_iff r).mpr hr) (by simpa using hh) (Bool.eq_false_iff.mpr fun h => hbad (hok.mp h))
    have hkept := roundKept_foldAtStart r
    generalize foldAtStart r = t at hkept hu
    rw [hu]
    exact ⟨rfl, rfl, rfl, loopAddr_congr (hkept.reg Reg.loop_STAT (by decide)), hkept.reg Reg.loop_RINFO (by decide)⟩
  · have hh : isHead r = false := by simpa using hh
    have hu : u = _ := outLegStart_good ((loopRuns_iff r).mpr hr) hh (hok.mpr hgood)
    have hnoted := headerNoted_noted h r
    generalize headerNoted h r = t at hnoted hu
    have hbegun := roundAt_begun h.h0.toNat (hdrN h) h.h2.toNat (hdrEnum h) 64 t
    rw [← hu] at hbegun
    clear_value u
    have hhead : isHead t = false := (isHead_congr hnoted.strap).trans hh
    refine ⟨(hbegun.reg _ (by decide)).trans hnoted.turn0, (congrArg (fld · 0 7) (hbegun.reg Reg.loop_RINFO (by decide))).trans hnoted.rinfo,
      (loopAddr_congr (hbegun.reg _ (by decide))).trans hnoted.addr, hbegun.seq, hbegun.n, hbegun.outStart.trans (by rw [hnoted.now]),
      hbegun.provis, ?_, hbegun.trailer.trans hnoted.trailer⟩
    rw [hbegun.letterDue, hhead, hnoted.addr, hnoted.now, hdrEnum]
    cases h.h1.getLsbD 15 with
    | true => rfl
    | false => rfl

/-! ### No back leg in time (R879) -/

theorem enterFold_counts {s : State} (h : s.loop.fold = false) : (enterFold s).loop.fold = true ∧
    regF (enterFold s) Reg.loop_ERRA 8 8 = min 255 (regF s Reg.loop_ERRA 8 8 + 1) ∧
    (enterFold s).loop.outStart = s.loop.outStart ∧ (enterFold s).intc = s.intc ∧ (enterFold s).now = s.now := by
  have hu : enterFold s = _ := if_neg (by simp [h])
  rw [hu]
  exact ⟨rfl, regF_hwCountF_one _ _ (by decide) _, rfl, rfl, rfl⟩

theorem foldTimeout_stays {r : State}
    (h : loopRuns r = false ∨ r.loop.outStart = none ∨ r.loop.fold = true ∨ r.loop.backSeen = true) : foldTimeout r = r := by
  cases hout : r.loop.outStart with
  | none => rw [foldTimeout, hout]
  | some t =>
    rw [foldTimeout, hout]
    refine if_pos ?_
    rcases h with h | h | h | h
    · rw [h]; rfl
    · exact absurd (hout.symm.trans h) (by simp)
    · rw [h, Bool.or_true, Bool.true_or]
    · rw [h, Bool.or_true]

theorem foldTimeout_goes {r : State} {t : Nat} (hout : r.loop.outStart = some t) (hr : loopRuns r = true) (hf : r.loop.fold = false)
    (hb : r.loop.backSeen = false) : foldTimeout r =
      if 1024 * 16 < (noteTurn (r.now - t) (enterFold r)).now - t then
        setLoop (fun l => { l with outStart := none }) (noteTurn (r.now - t) (enterFold r))
      else noteTurn (r.now - t) (enterFold r) := by
  rw [foldTimeout, hout]
  exact if_neg (by rw [hr, hf, hb]; decide)

theorem foldTimeout_outcome (r : State) :
    let u := foldTimeout r
    let runs := r.loop.started = true ∧ onBackup r = false
    let lost := 1024 * 16 < r.now - r.loop.outStart.getD 0
    if ¬ runs ∨ r.loop.outStart = none ∨ r.loop.fold = true ∨ r.loop.backSeen = true then u = r
    else u.loop.fold = true ∧ regF u (Reg.loop_ERRA + 0) 8 8 = min 255 (regF r (Reg.loop_ERRA + 0) 8 8 + 1) ∧
      reg u Reg.loop_TURN = wd (r.now - r.loop.outStart.getD 0) ∧
      u.loop.outStart = (if lost then none else r.loop.outStart) ∧ u.intc = r.intc := by
  intro u runs lost
  by_cases hstay : ¬ runs ∨ r.loop.outStart = none ∨ r.loop.fold = true ∨ r.loop.backSeen = true
  · rw [if_pos hstay]
    exact foldTimeout_stays (hstay.imp_left fun h => Bool.eq_false_iff.mpr fun hr => h ((loopRuns_iff r).mp hr))
  · rw [if_neg hstay]
    simp only [not_or, not_not, Bool.not_eq_true] at hstay
    obtain ⟨hr, ho, hf, hb⟩ := hstay
    obtain ⟨t, hout⟩ := Option.ne_none_iff_exists'.mp ho
    have hu : u = _ := foldTimeout_goes hout ((loopRuns_iff r).mpr hr) hf hb
    obtain ⟨hfold, hcnt, hstart, hintc, hnow⟩ := enterFold_counts hf
    generalize enterFold r = e at hfold hcnt hstart hintc hnow hu
    have hturn : reg (noteTurn (r.now - t) e) Reg.loop_TURN = wd (r.now - t) := reg_setReg_same _ _ _
    have herr : regF (noteTurn (r.now - t) e) Reg.loop_ERRA 8 8 = regF e Reg.loop_ERRA 8 8 :=
      congrArg (fld · 8 8) (reg_setReg_other _ _ (by decide))
    have hget : r.loop.outStart.getD 0 = t := by rw [hout]; rfl
    rw [show (noteTurn (r.now - t) e).now = r.now from hnow] at hu
    unfold lost
    rw [hget]
    by_cases hl : 1024 * 16 < r.now - t
    · rw [if_pos hl] at hu ⊢
      rw [hu]
      exact ⟨hfold, herr.trans hcnt, hturn, rfl, hintc⟩
    · rw [if_neg hl] at hu ⊢
      rw [hu]
      exact ⟨hfold, herr.trans hcnt, hturn, hstart, hintc⟩

end Sys2Proof.Machine

/-! ## The Loop's other rows (R882-R884, R890, R901-R904, R912) -/

namespace Sys2Proof.Machine

theorem reg_setLoop (f : Loop → Loop) (s : State) (a : Nat) : reg (setLoop f s) a = reg s a := rfl

theorem hasEvent_of_intc {s u : State} (h : u.intc = s.intc) {n : Fin 96} (hn : hasEvent s n) : hasEvent u n := by
  rw [hasEvent, h]
  exact hn

/-! ### Enumeration (R883, R884) -/

theorem enumeration_outcome (slot : Option (Fin 64)) (r : State) :
    let u := enumeration slot r
    let runs := r.loop.started = true ∧ onBackup r = false
    (¬ runs ∨ isHead r = true ∨ r.loop.enum = false ∨ r.loop.provis ≠ none ∨ r.loop.outStart = none → u = r) ∧
    (runs → ¬ isHead r = true → r.loop.enum = true → r.loop.provis = none → ∀ t, r.loop.outStart = some t →
      (∀ a, slot = some a → u.loop.provis = some a.val ∧ u.loop.letterDue = some (t + 64 + 16 * (64 + 128 * a.val) - 1) ∧
        regBit u Reg.loop_STAT 10 = false ∧ loopAddr u = loopAddr r) ∧
      (slot = none → loopAddr u = none ∧ regBit u Reg.loop_STAT 10 = true ∧ u.loop.provis = none)) := by
  intro u runs
  refine ⟨fun hc => ?_, fun hr hh he hp t hout => ?_⟩
  · unfold u enumeration
    by_cases hstay : (!loopRuns r || isHead r || !r.loop.enum || r.loop.provis.isSome) = true
    · exact if_pos hstay
    · rw [if_neg hstay]
      have hout : r.loop.outStart = none := by
        rw [show runs ↔ loopRuns r = true from (loopRuns_iff r).symm] at hc
        cases hl : loopRuns r <;> cases hd : isHead r <;> cases he : r.loop.enum <;> cases hp : r.loop.provis <;> simp_all
      rw [hout]
  · have hgo : u = _ := if_neg (by rw [(loopRuns_iff r).mpr hr, Bool.eq_false_iff.mpr hh, he, hp]; decide)
    rw [hout] at hgo
    refine ⟨fun a ha => ?_, fun hs => ?_⟩
    · rw [ha] at hgo
      rw [hgo]
      refine ⟨rfl, rfl, ?_, ?_⟩
      · rw [regBit, reg_setLoop]
        exact regBit_setRegBit_same _ _ _ _ (by decide)
      · rw [loopAddr_eq, reg_setLoop, ← loopAddr_eq, loopAddr_setRegBit (by decide)]
    · rw [hs] at hgo
      rw [hgo]
      refine ⟨loopAddr_setAddr_none _, ?_, ?_⟩
      · exact (regBit_setAddr_none (by decide) (by decide) (by decide) _).trans (regBit_setRegBit_same _ _ _ _ (by decide))
      · exact (congrArg Loop.provis (setAddr_none_loop _)).trans hp

theorem loopEnumerate_outcome (m : Master) (r : State) :
    loopEnumerate m r = if privileged m = true ∧ isHead r = true then { r with loop := { r.loop with enumPend := true } } else r := by
  unfold loopEnumerate
  simp only [Bool.and_eq_true]
  rfl

/-! ### A second head (R882) -/

theorem secondHead_outcome (r : State) :
    let u := secondHead r
    if ¬ (r.loop.started = true ∧ onBackup r = false) ∨ ¬ isHead r = true then u = r
    else regBit u Reg.loop_STAT 8 = true ∧ u.loop.hconf = true ∧ RegsBut [Reg.loop_STAT] r u ∧
      u.fcol.raises = r.fcol.raises ++ (if r.loop.hconf then [] else [{ cls := clsPartner, detail := 0x0400 }]) := by
  dsimp only
  have hruns := loopRuns_iff r
  unfold secondHead
  by_cases hstay : ¬ (r.loop.started = true ∧ onBackup r = false) ∨ ¬ isHead r = true
  · rw [if_pos hstay]
    exact if_pos (by rw [← hruns] at hstay; simpa using hstay)
  · rw [if_neg hstay, if_neg (by rw [← hruns] at hstay; simpa using hstay)]
    have hbit : regBit (hwSet Reg.loop_STAT 0x0100 r) Reg.loop_STAT 8 = true :=
      (regBit_hwSet _ _ _ _).trans (Bool.or_true _)
    have hregs : RegsBut [Reg.loop_STAT] r (hwSet Reg.loop_STAT 0x0100 r) := fun a ha =>
      reg_hwSet_other _ _ (List.ne_of_not_mem_cons ha)
    have hloop : (hwSet Reg.loop_STAT 0x0100 r).loop = r.loop := rfl
    have hraises : (hwSet Reg.loop_STAT 0x0100 r).fcol.raises = r.fcol.raises := rfl
    generalize hwSet Reg.loop_STAT 0x0100 r = t at hbit hregs hloop hraises
    dsimp only
    cases hc : r.loop.hconf with
    | true =>
      rw [if_pos (by rw [hloop, hc]), hloop, hraises]
      exact ⟨hbit, hc, hregs, (List.append_nil _).symm⟩
    | false =>
      rw [if_neg (by rw [hloop, hc]; decide)]
      exact ⟨hbit, rfl, hregs, congrArg (· ++ _) hraises⟩

/-! ### Silence and the loss policy (R210-R212, R901, R903) -/

theorem besideModes_forceLimp (src cause : Nat) (s : State) : BesideModes s (forceLimp src cause s) := by
  unfold forceLimp
  split
  · split_ifs
    · have hmodes := besideModes_setModes (fun m => { m with mode := .limp, pend := false, runTick := none }) s
      exact hmodes.trans (((aside_clearPh _).trans ((aside_setReg (a := Reg.kern_MPEND) (by decide) _ _).trans
        ((aside_evalCut _).trans (aside_modeSignal _ _)))).toBesideModes)
    · exact besideModes_enterLimp _ _ _
  · exact besideModes_setModes _ s
  · split
    · exact .ite (.refl s) (besideModes_setModes _ s)
    · exact .refl s

theorem besideModes_forceSetup (s : State) : BesideModes s (forceSetup s) := by
  unfold forceSetup
  split
  · exact .ite ((besideModes_setModes _ s).trans (besideModes_setRefuse _ _)) (.refl s)
  · exact besideModes_enterSetup s

theorem besideModes_applyLossPolicy (s : State) : BesideModes s (applyLossPolicy s) := by
  unfold applyLossPolicy
  split
  · exact besideModes_forceLimp _ _ _
  · exact besideModes_forceSetup _
  · exact .refl s

/-- The unit after 3 T(N) without a back leg, before the loss policy acts. -/
def silentNoted (s : State) : State :=
  setLoop (fun l => { l with goodBacks := 0 }) (partnerRaise 0x0200 (signal 39 (setRegBit Reg.loop_STAT 12 true s)))

theorem silentNoted_noted (s : State) : regBit (silentNoted s) Reg.loop_STAT 12 = true ∧ hasEvent (silentNoted s) 39 ∧
    (silentNoted s).loop.goodBacks = 0 ∧ ({ cls := clsPartner, detail := 0x0200 } : Raise) ∈ (silentNoted s).fcol.raises := by
  have hbit : regBit (signal 39 (setRegBit Reg.loop_STAT 12 true s)) Reg.loop_STAT 12 = true := by
    rw [regBit, reg_signal (by decide)]
    exact regBit_setRegBit_same _ _ _ _ (by decide)
  have hev := hasEvent_signal_same 39 (setRegBit Reg.loop_STAT 12 true s)
  rw [silentNoted]
  generalize signal 39 (setRegBit Reg.loop_STAT 12 true s) = t at hbit hev
  exact ⟨hbit, hev, rfl, List.mem_append_right _ (List.mem_singleton.mpr rfl)⟩

theorem loopSilent_eq (s : State) : loopSilent s =
    if !s.loop.started || regBit s Reg.loop_STAT 12 || decide (s.now < silentDue s) then s
    else if lossPolicy s < lossPolicy (silentNoted s) then applyLossPolicy (silentNoted s) else silentNoted s := rfl

theorem loopSilent_outcome (r : State) :
    let u := loopSilent r
    if r.loop.started = false ∨ regBit r Reg.loop_STAT 12 = true ∨ r.now < silentDue r then u = r
    else regBit u Reg.loop_STAT 12 = true ∧ hasEvent u 39 ∧ u.loop.goodBacks = 0 ∧
      u.fcol.raises.any (fun x => x == { cls := clsPartner, detail := 0x0200 }) = true := by
  dsimp only
  rw [loopSilent_eq]
  by_cases hstay : r.loop.started = false ∨ regBit r Reg.loop_STAT 12 = true ∨ r.now < silentDue r
  · rw [if_pos hstay]
    exact if_pos (by simpa [or_assoc] using hstay)
  · rw [if_neg hstay, if_neg (by simpa [or_assoc] using hstay)]
    obtain ⟨hbit, hev, hgood, hraise⟩ := silentNoted_noted r
    have hbeside : BesideModes (silentNoted r)
        (if lossPolicy r < lossPolicy (silentNoted r) then applyLossPolicy (silentNoted r) else silentNoted r) :=
      .ite (besideModes_applyLossPolicy _) (.refl _)
    generalize (if lossPolicy r < lossPolicy (silentNoted r) then applyLossPolicy (silentNoted r) else silentNoted r) = u at hbeside
    exact ⟨(hbeside.stat 12 (by decide)).trans hbit, hbeside.events _ hev, (congrArg Loop.goodBacks hbeside.loop).trans hgood,
      List.any_eq_true.mpr ⟨_, hbeside.raises.subset hraise, beq_self_eq_true _⟩⟩

/-! ### The epoch (R890) -/

/-- The stamps of the epoch. -/
def epochStamped (s : State) : State :=
  setReg Reg.loop_ERPM (wd s.ang.rpm) (setReg Reg.loop_EANG (wd (angleNow s)) (setReg32 Reg.loop_EPOST (stamp32 s) s))

theorem epochStamped_regs (s : State) : reg32 (epochStamped s) Reg.loop_EPOST = BitVec.ofNat 32 s.now ∧
    reg (epochStamped s) Reg.loop_ERPM = wd s.ang.rpm ∧ reg (epochStamped s) Reg.loop_EANG = wd (angleNow s) ∧
    RegsBut [Reg.loop_EPOST, Reg.loop_EPOST + 1, Reg.loop_ERPM, Reg.loop_EANG] s (epochStamped s) := by
  have hlow (a : Nat) (h : a ≠ Reg.loop_ERPM) (h' : a ≠ Reg.loop_EANG) :
      reg (epochStamped s) a = reg (setReg32 Reg.loop_EPOST (stamp32 s) s) a := by
    rw [epochStamped, reg_setReg_other _ _ h, reg_setReg_other _ _ h']
  refine ⟨?_, reg_setReg_same _ _ _, ?_, fun a ha => ?_⟩
  · rw [reg32_congr (hlow _ (by decide) (by decide)) (hlow _ (by decide) (by decide)), reg32_setReg32]
    rfl
  · rw [epochStamped, reg_setReg_other _ _ (by decide), reg_setReg_same]
  · simp only [List.mem_cons, List.not_mem_nil, or_false, not_or] at ha
    obtain ⟨h0, h1, hrpm, hang⟩ := ha
    rw [hlow a hrpm hang, reg_setReg32_other _ _ h0 h1]

theorem loopEpoch_outcome (r : State) :
    let u := loopEpoch r
    if r.loop.epochDue = none then u = r
    else reg32 u Reg.loop_EPOST = BitVec.ofNat 32 r.now ∧ reg u Reg.loop_ERPM = wd r.ang.rpm ∧ reg u Reg.loop_EANG = wd (angleNow r) ∧
      u.loop.epochDue = none ∧ u.loop.epv = angSync r ∧ RegsBut [Reg.loop_EPOST, Reg.loop_EPOST + 1, Reg.loop_ERPM, Reg.loop_EANG] r u := by
  dsimp only
  cases hdue : r.loop.epochDue with
  | none =>
    rw [if_pos rfl, loopEpoch, hdue]
  | some d =>
    have hregs : ∀ a, reg (loopEpoch r) a = reg (epochStamped r) a := fun a => by
      rw [loopEpoch, hdue]
      rfl
    obtain ⟨hepost, herpm, heang, hother⟩ := epochStamped_regs r
    rw [if_neg (by simp)]
    refine ⟨?_, (hregs _).trans herpm, (hregs _).trans heang, ?_, ?_, fun a ha => (hregs a).trans (hother a ha)⟩
    · rw [reg32_congr (hregs _) (hregs _), hepost]
    · rw [loopEpoch, hdue]
      rfl
    · rw [loopEpoch, hdue]
      rfl

/-! ### Requests and misses (R904, R912) -/

/-- The target bits of RSTREQ take the value written. -/
theorem regF_rstreq (v : Word) (s : State) : regF (regWriteBits Reg.loop_RSTREQ v s) Reg.loop_RSTREQ 0 7 = fld v 0 7 := by
  have hrw : ∀ i, i < 7 → (regMask RegRow.rw Reg.loop_RSTREQ).getLsbD i = true := by decide
  have hc : regMask RegRow.w1c Reg.loop_RSTREQ = 0 := by decide
  have hs : ∀ i, i < 7 → (regMask RegRow.w1s Reg.loop_RSTREQ).getLsbD i = false := by decide
  exact fld_congr fun i _ hi => regBit_regWriteBits_rw v s (by omega) (hrw i (by omega)) (by rw [hc]; exact BitVec.getLsbD_zero) (hs i (by omega))

theorem rstreqWrite_outcome (m : Master) (v : Word) (r : State) :
    let u := rstreqWrite m v r
    if privileged m = true ∧ isHead r = true then regF u Reg.loop_RSTREQ 0 7 = fld v 0 7 ∧ RegsBut [Reg.loop_RSTREQ] r u ∧
      u.loop.rstTx = (if v.getLsbD 15 then 2 else r.loop.rstTx)
    else u = r := by
  dsimp only
  unfold rstreqWrite
  by_cases h : privileged m = true ∧ isHead r = true
  · rw [if_pos h, if_pos (by rw [h.1, h.2]; rfl)]
    have hfield := regF_rstreq v r
    have hother : RegsBut [Reg.loop_RSTREQ] r (regWriteBits Reg.loop_RSTREQ v r) := fun a ha =>
      reg_setReg_other _ _ (List.ne_of_not_mem_cons ha)
    have hloop : (regWriteBits Reg.loop_RSTREQ v r).loop = r.loop := rfl
    generalize regWriteBits Reg.loop_RSTREQ v r = t at hfield hother hloop
    dsimp only
    by_cases h15 : v.getLsbD 15 = true
    · rw [if_pos h15, if_pos h15]
      exact ⟨hfield, hother, rfl⟩
    · rw [if_neg h15, if_neg h15]
      exact ⟨hfield, hother, congrArg Loop.rstTx hloop⟩
  · rw [if_neg h]
    exact if_neg (by rw [Bool.and_eq_true]; exact h)

theorem rmissPeriod_outcome (r : State) :
    let u := rmissPeriod r
    let n := if r.loop.everBack then max 1 (regF r Reg.loop_RINFO 0 7) else 64
    if r.loop.started = false ∨ r.now < r.loop.missDue then u = r
    else regF u (Reg.loop_ERRA + 1) 0 8 = min 255 (regF r (Reg.loop_ERRA + 1) 0 8 + 1) ∧
      u.loop.missDue = r.now + 16 * (452 + 128 * n) ∧ u.loop.goodBacks = 0 ∧ u.intc = r.intc := by
  dsimp only
  unfold rmissPeriod
  by_cases hstay : r.loop.started = false ∨ r.now < r.loop.missDue
  · rw [if_pos hstay]
    exact if_pos (by simpa using hstay)
  · rw [if_neg hstay, if_neg (by simpa using hstay)]
    exact ⟨regF_hwCountF_one _ _ (by decide) _, rfl, rfl, rfl⟩

end Sys2Proof.Machine

/-! ## The letters of a back leg go to the mirror (R894-R898) -/

namespace Sys2Proof.Machine

/-! ### One element of a list that is folded over -/

/-- What holds before an element and after it, where the others keep both. -/
theorem foldl_split {α : Type} {f : State → α → State} {Before After : State → Prop} {x : α} {l pre post : List α}
    (hl : l = pre ++ x :: post) (hpre : ∀ y ∈ pre, ∀ s, Before s → Before (f s y)) (step : ∀ s, Before s → After (f s x))
    (hpost : ∀ y ∈ post, ∀ s, After s → After (f s y)) {s : State} (h : Before s) : After (l.foldl f s) := by
  have hfold : ∀ (P : State → Prop) (l : List α), (∀ y ∈ l, ∀ s, P s → P (f s y)) → ∀ s, P s → P (l.foldl f s) := by
    intro P l hP
    induction l with
    | nil => exact fun _ => id
    | cons y l ih =>
      exact fun s h => ih (fun z hz => hP z (List.mem_cons_of_mem y hz)) _ (hP y List.mem_cons_self s h)
  rw [hl, List.foldl_append, List.foldl_cons]
  exact hfold After post hpost _ (step _ (hfold Before pre hpre s h))

/-- An element whose key is its own splits the list from those of other keys. -/
theorem split_of_nodup {α β : Type} {key : α → β} {l : List α} (hnd : (l.map key).Nodup) {x : α} (hx : x ∈ l) :
    ∃ pre post, l = pre ++ x :: post ∧ (∀ y ∈ pre, key y ≠ key x) ∧ ∀ y ∈ post, key y ≠ key x := by
  obtain ⟨pre, post, hl⟩ := List.append_of_mem hx
  rw [hl, List.map_append, List.map_cons] at hnd
  obtain ⟨-, hcons, hdisj⟩ := List.nodup_append.mp hnd
  refine ⟨pre, post, hl, fun y hy h => ?_, fun y hy h => ?_⟩
  · exact hdisj _ (List.mem_map_of_mem hy) _ List.mem_cons_self h
  · exact (List.nodup_cons.mp hcons).1 (h ▸ List.mem_map_of_mem hy)

/-! ### What the letters leave alone -/

/-- The registers that letters may write. -/
def letterRegs : List Nat := Reg.sys_ARMSTAT :: Reg.memc_VIOL :: (Reg.memc_VIOL + 1) :: Reg.memc_COLL 3 :: Reg.loop_ERRA :: Reg.loop_ERRB :: runst

/-- Every write of this tick is of a master no earlier than the Loop's. -/
def LoopWrites (s : State) : Prop := ∀ e ∈ wLogNow s, 3 ≤ e.1

/-- What letters leave alone. -/
structure LettersKept (s u : State) : Prop where
  now : u.now = s.now
  thr : u.thr = s.thr
  modes : u.modes = s.modes
  loop : ∃ rx rxCseq inbox, u.loop = { s.loop with rx := rx, rxCseq := rxCseq, inbox := inbox }
  reg : ∀ a, a ∉ letterRegs → reg u a = reg s a
  busy : commitBusy u = commitBusy s
  writes : LoopWrites s → LoopWrites u
  events : ∀ n, hasEvent s n → hasEvent u n

theorem LettersKept.refl (s : State) : LettersKept s s :=
  ⟨rfl, rfl, rfl, ⟨_, _, _, rfl⟩, fun _ _ => rfl, rfl, id, fun _ => id⟩

theorem LettersKept.trans {s t u : State} (h : LettersKept s t) (h' : LettersKept t u) : LettersKept s u where
  now := h'.now.trans h.now
  thr := h'.thr.trans h.thr
  modes := h'.modes.trans h.modes
  loop := by
    obtain ⟨_, _, _, hl⟩ := h.loop
    obtain ⟨rx, rxCseq, inbox, hl'⟩ := h'.loop
    exact ⟨rx, rxCseq, inbox, by rw [hl', hl]⟩
  reg a ha := (h'.reg a ha).trans (h.reg a ha)
  busy := h'.busy.trans h.busy
  writes hw := h'.writes (h.writes hw)
  events n hn := h'.events n (h.events n hn)

theorem LettersKept.ite {c : Prop} [Decidable c] {s u v : State} (hu : LettersKept s u) (hv : LettersKept s v) :
    LettersKept s (if c then u else v) := by
  split
  · exact hu
  · exact hv

theorem lettersKept_foldl {α : Type} {f : State → α → State} (hf : ∀ s x, LettersKept s (f s x)) (l : List α) (s : State) :
    LettersKept s (l.foldl f s) := by
  induction l generalizing s with
  | nil => exact .refl s
  | cons x l ih => exact (hf s x).trans (ih _)

/-- The check of a mirror word is what it was. -/
theorem LettersKept.refusal {s u : State} (h : LettersKept s u) (a : Nat) :
    refusal u .loop a 1 true = Machine.refusal s .loop a 1 true := by
  refine refusal_of_regions (fun b hb hb' => h.reg b ?_) h.busy h.modes _ _ _ _
  simp only [letterRegs, List.mem_cons, not_or, Reg.sys_ARMSTAT, Reg.memc_VIOL, Reg.memc_COLL, Reg.loop_ERRA, Reg.loop_ERRB]
  refine ⟨by omega, by omega, by omega, by omega, by omega, by omega, not_mem_runst (.inr (Nat.lt_of_lt_of_le (by decide) hb))⟩

theorem LettersKept.mbase {s u : State} (h : LettersKept s u) : reg32 u Reg.loop_MBASE = reg32 s Reg.loop_MBASE :=
  reg32_congr (h.reg _ (by decide)) (h.reg _ (by decide))

theorem LettersKept.dropMirror {s u : State} (h : LettersKept s u) : u.loop.dropMirror = s.loop.dropMirror := by
  obtain ⟨_, _, _, hl⟩ := h.loop
  rw [hl]

/-! ### A mirror word (R894, R895) -/

theorem LoopWrites.of_mem {s u : State} (hmem : u.mem = s.mem) (hnow : u.now = s.now) (h : LoopWrites s) : LoopWrites u := by
  rw [LoopWrites, wLogNow_congr hmem hnow]
  exact h

/-- A counter of hardware, of the letters' registers. -/
theorem lettersKept_hwCountF {a : Nat} (ha : a ∈ letterRegs) (h : a ≠ Reg.sys_ARMSTAT) (lo len n : Nat) (s : State) :
    LettersKept s (hwCountF a lo len n s) :=
  ⟨rfl, rfl, rfl, ⟨_, _, _, rfl⟩, fun _ hb => reg_hwCountF_other _ _ _ _ (ne_of_mem_of_not_mem ha hb).symm,
    congrArg (BitVec.getLsbD · 11) (reg_hwCountF_other _ _ _ _ h.symm), LoopWrites.of_mem rfl rfl, fun _ => id⟩

theorem hasEvent_violNoted {k : Fin 96} {s : State} (h : hasEvent s k) (v : Pair) : hasEvent (violNoted v s) k :=
  hasEvent_signal (hasEvent_of_intc (s := s) (u := hwSet (Reg.memc_VIOL + 1) 0x8000 (setReg32 Reg.memc_VIOL v s)) rfl h) 61

theorem hasEvent_recordViol {k : Fin 96} {s : State} (h : hasEvent s k) (a : Nat) (why : Why) : hasEvent (recordViol .loop a true why s) k :=
  hasEvent_violNoted h _

theorem lettersKept_recordViol (a : Nat) (why : Why) (s : State) : LettersKept s (recordViol .loop a true why s) := by
  obtain ⟨⟨regs, hw, intc, raises, h⟩, hregs⟩ := recordViol_spec .loop a true why s
  have hreg (b : Nat) (hb : b ∉ letterRegs ∨ b = Reg.sys_ARMSTAT) : reg (recordViol .loop a true why s) b = reg s b := by
    refine hregs b ?_
    rcases hb with hb | rfl
    · simp only [letterRegs, List.mem_cons, not_or] at hb ⊢
      exact ⟨hb.2.1, hb.2.2.1, hb.2.2.2.2.2.2⟩
    · decide
  have hev : ∀ n, hasEvent s n → hasEvent (recordViol .loop a true why s) n := fun n hn => hasEvent_recordViol hn a why
  generalize recordViol .loop a true why s = u at h hreg hev
  refine ⟨by rw [h], by rw [h], by rw [h], ⟨s.loop.rx, s.loop.rxCseq, s.loop.inbox, by rw [h]⟩, fun b hb => hreg b (.inl hb),
    congrArg (BitVec.getLsbD · 11) (hreg _ (.inr rfl)), LoopWrites.of_mem (by rw [h]) (by rw [h]), hev⟩

/-- The mark in ARMSTAT of a write to the working copy. -/
def wcMarked (a : Nat) (s : State) : State :=
  if (List.range 1).any (fun i => isWorking (a + i)) then setRegBit Reg.sys_ARMSTAT 12 true s else s

theorem spadMarked_eq (m a : Nat) (s : State) : spadMarked m a 1 s = { wcMarked a s with
    mem := { (wcMarked a s).mem with
      wTick := (wcMarked a s).now
      wLog := wLogNow (wcMarked a s) ++ (List.range 1).map (fun i => (m, a + i, spadGet (wcMarked a s) (a + i))) } } := rfl

theorem wcMarked_eq (a : Nat) (s : State) : (wcMarked a s).mem = s.mem ∧ (wcMarked a s).now = s.now ∧ (wcMarked a s).thr = s.thr ∧
    (wcMarked a s).modes = s.modes ∧ (wcMarked a s).loop = s.loop ∧ (wcMarked a s).intc = s.intc ∧
    commitBusy (wcMarked a s) = commitBusy s ∧ ∀ b, b ≠ Reg.sys_ARMSTAT → reg (wcMarked a s) b = reg s b := by
  unfold wcMarked
  split_ifs
  · exact ⟨rfl, rfl, rfl, rfl, rfl, rfl, regBit_setRegBit_ne (by decide) _ _ _, fun b hb => reg_setRegBit_other _ _ _ hb⟩
  · exact ⟨rfl, rfl, rfl, rfl, rfl, rfl, rfl, fun _ _ => rfl⟩

/-- The writes of this tick are those its log holds. -/
theorem wLogNow_logged (a : Nat) (v : Word) (log : List (Nat × Nat × Word)) (s : State) :
    wLogNow (spadPut a v { s with mem := { s.mem with wTick := s.now, wLog := log } }) = log := if_pos rfl

theorem lettersKept_spadWriteBy (a : Nat) (v : Word) (s : State) : LettersKept s (spadWriteBy 3 a [v] s) := by
  obtain ⟨hmem, hnow, hthr, hmodes, hloop, hintc, hbusy, hreg⟩ := wcMarked_eq a s
  have heq : spadWriteBy 3 a [v] s = spadPut a v (spadMarked 3 a 1 s) := rfl
  rw [heq, spadMarked_eq]
  have hlog := wLogNow_congr hmem hnow
  generalize wcMarked a s = t at *
  refine ⟨hnow, hthr, hmodes, ⟨s.loop.rx, s.loop.rxCseq, s.loop.inbox, hloop⟩, fun b hb => hreg b (ne_of_mem_of_not_mem (by decide) hb).symm,
    hbusy, fun hw e he => ?_, fun n hn => hasEvent_of_intc hintc hn⟩
  rw [wLogNow_logged] at he
  rcases List.mem_append.mp he with h | h
  · exact hw e (hlog ▸ h)
  · have h : e ∈ [(3, a, spadGet t a)] := h
    rw [List.mem_singleton.mp h]

theorem lettersKept_mirrorWord (a : Nat) (v : Word) (s : State) : LettersKept s (mirrorWord a v s) := by
  unfold mirrorWord
  split
  · exact (lettersKept_recordViol a _ s).trans (lettersKept_hwCountF (by decide) (by decide) _ _ _ _)
  · refine .ite ?_ (.refl s)
    unfold spadWrite
    dsimp only
    split
    · exact lettersKept_hwCountF (a := Reg.memc_COLL 3) (by decide) (by decide) 0 16 1 s
    · exact lettersKept_spadWriteBy a v s

/-- A mirror word leaves every other word of the scratchpad. -/
theorem spadGet_mirrorWord_other {a b : Nat} (h : b ≠ a) (v : Word) (s : State) : spadGet (mirrorWord a v s) b = spadGet s b := by
  unfold mirrorWord
  split
  · obtain ⟨⟨_, _, _, _, hn⟩, -⟩ := recordViol_spec .loop a true ‹_› s
    refine spadGet_congr ?_ b
    rw [loopDropw, hwCountF_mem, hn]
  · split_ifs
    · unfold spadWrite
      dsimp only
      split
      · exact spadGet_congr (hwCount_mem _ _) b
      · rw [spadGet_spadWriteBy, if_neg (by simp only [List.length_singleton]; omega)]
    · rfl

theorem spadGet_mirrorWord_same {a : Nat} {s : State} (href : refusal s .loop a 1 true = none) (hspad : isSpad a = true)
    (hw : LoopWrites s) (v : Word) : spadGet (mirrorWord a v s) a = v := by
  rw [mirrorWord, href]
  dsimp only
  rw [if_pos hspad, spadWrite, show masterNo .loop = 3 from rfl, not_collides hw, if_neg (by decide), spadGet_spadWriteBy,
    if_pos (by simp only [List.length_singleton]; omega), Nat.sub_self]
  rfl

/-! ### The letter of a unit (R894, R898) -/

/-- The words a letter leaves in the mirror. -/
def mirrorWords (seq : Nat) (ws : Vector Word 8) : List Word := ws.toList.take 7 ++ [wd seq]

/-- Where the letter of unit `a` lies in the scratchpad. -/
def mirrorBase (s : State) (a : Nat) : Nat := fld (reg32 s Reg.loop_MBASE) 3 17 * 8 + 8 * a

theorem mirrorLetter_eq (a seq : Nat) (ws : Vector Word 8) (s : State) : mirrorLetter a seq ws s =
    if (reg32 s Reg.loop_MBASE).getLsbD 31 && !s.loop.dropMirror then
      (List.range 8).foldl (fun t i => mirrorWord (mirrorBase s a + i) ((mirrorWords seq ws).getD i 0) t) s
    else s := rfl

theorem lettersKept_mirrorLetter (a seq : Nat) (ws : Vector Word 8) (s : State) : LettersKept s (mirrorLetter a seq ws s) := by
  rw [mirrorLetter_eq]
  exact .ite (lettersKept_foldl (fun t i => lettersKept_mirrorWord _ _ t) _ s) (.refl s)

theorem spadGet_mirrorLetter_other {a b : Nat} {s : State} (h : ¬ (mirrorBase s a ≤ b ∧ b < mirrorBase s a + 8)) (seq : Nat)
    (ws : Vector Word 8) : spadGet (mirrorLetter a seq ws s) b = spadGet s b := by
  have hfold : ∀ (l : List Nat) (t : State), (∀ i ∈ l, i < 8) →
      spadGet (l.foldl (fun t i => mirrorWord (mirrorBase s a + i) ((mirrorWords seq ws).getD i 0) t) t) b = spadGet t b := by
    intro l
    induction l with
    | nil => exact fun _ _ => rfl
    | cons i l ih =>
      intro t hl
      have hi := hl i List.mem_cons_self
      rw [List.foldl_cons, ih _ fun j hj => hl j (List.mem_cons_of_mem i hj)]
      exact spadGet_mirrorWord_other (by omega) _ _
  rw [mirrorLetter_eq]
  split_ifs
  · exact hfold _ _ fun i hi => List.mem_range.mp hi
  · rfl

theorem spadGet_mirrorLetter_same {a i : Nat} {s : State} (hi : i < 8) (hon : (reg32 s Reg.loop_MBASE).getLsbD 31 = true)
    (hdrop : s.loop.dropMirror = false) (href : refusal s .loop (mirrorBase s a + i) 1 true = none)
    (hspad : isSpad (mirrorBase s a + i) = true) (hw : LoopWrites s) (seq : Nat) (ws : Vector Word 8) :
    spadGet (mirrorLetter a seq ws s) (mirrorBase s a + i) = (mirrorWords seq ws).getD i 0 := by
  obtain ⟨pre, post, hl, hpre, hpost⟩ := split_of_nodup (key := id) (l := List.range 8) (by rw [List.map_id]; exact List.nodup_range)
    (List.mem_range.mpr hi)
  rw [mirrorLetter_eq, if_pos (by rw [hon, hdrop]; rfl)]
  refine foldl_split (Before := LettersKept s) (After := fun t => spadGet t (mirrorBase s a + i) = (mirrorWords seq ws).getD i 0) hl
    (fun j _ t ht => ht.trans (lettersKept_mirrorWord _ _ t)) (fun t ht => ?_) (fun j hj t ht => ?_) (.refl s)
  · exact spadGet_mirrorWord_same ((ht.refusal _).trans href) hspad (ht.writes hw) _
  · have hne : j ≠ i := hpost j hj
    rw [spadGet_mirrorWord_other (by omega), ht]

theorem mirrorWords_getD (seq : Nat) (ws : Vector Word 8) (i : Fin 8) :
    (mirrorWords seq ws).getD i.val 0 = if i.val = 7 then wd seq else ws[i] := by
  obtain ⟨i, hi⟩ := i
  by_cases h7 : i = 7
  · subst h7
    rw [if_pos rfl, mirrorWords, List.getD_append_right _ _ _ _ (by simp)]
    simp
  · rw [if_neg h7, mirrorWords, List.getD_append _ _ _ _ (by simp; omega), List.getD_eq_getElem _ _ (by simp; omega), List.getElem_take]
    rfl

/-! ### The stream of a letter (R897, R898) -/

theorem lettersKept_setLoop {f : Loop → Loop} (hf : ∀ l, ∃ rx rxCseq inbox, f l = { l with rx := rx, rxCseq := rxCseq, inbox := inbox })
    (s : State) : LettersKept s (setLoop f s) := by
  obtain ⟨rx, rxCseq, inbox, h⟩ := hf s.loop
  exact ⟨rfl, rfl, rfl, ⟨rx, rxCseq, inbox, h⟩, fun _ _ => rfl, rfl, LoopWrites.of_mem rfl rfl, fun _ => id⟩

theorem lettersKept_dropRx (a : Nat) (s : State) : LettersKept s (dropRx a s) := by
  unfold dropRx
  refine .ite ?_ (.refl s)
  exact (lettersKept_setLoop (fun l => ⟨_, l.rxCseq, l.inbox, rfl⟩) s).trans (lettersKept_hwCountF (by decide) (by decide) _ _ _ _)

theorem lettersKept_streamByte (a : Nat) (b : Byte) (s : State) : LettersKept s (streamByte a b s) := by
  unfold streamByte
  dsimp only
  split
  · exact lettersKept_setLoop (fun l => ⟨_, l.rxCseq, l.inbox, rfl⟩) s
  · split
    · exact .refl s
    · split
      · exact lettersKept_setLoop (fun l => ⟨_, l.rxCseq, _, rfl⟩) s
      · split
        · exact lettersKept_setLoop (fun l => ⟨_, l.rxCseq, l.inbox, rfl⟩) s
        · exact .refl s

theorem lettersKept_streamLetter (a : Nat) (ws : Vector Word 8) (s : State) : LettersKept s (streamLetter a ws s) := by
  have hseq : LettersKept s (match s.loop.rxCseq.find? (·.1 == a) with
      | some (_, last) => if fld ws[0] 0 3 = (last + 1) % 8 then s else dropRx a s
      | none => s) := by
    split
    · exact .ite (.refl s) (lettersKept_dropRx a s)
    · exact .refl s
  exact ((hseq.trans (lettersKept_setLoop (fun l => ⟨l.rx, _, l.inbox, rfl⟩) _)).trans (lettersKept_streamByte a _ _)).trans
    (lettersKept_streamByte a _ _)

/-! ### The letters of a back leg -/

/-- One slot of a back leg. -/
def letterSlot (seq : Nat) (s : State) (p : Vector Word 8 × Nat) : State :=
  if letterOk p.2 p.1 then
    (if loopAddr (mirrorLetter p.2 seq p.1 s) = some p.2 then mirrorLetter p.2 seq p.1 s
     else streamLetter p.2 p.1 (mirrorLetter p.2 seq p.1 s))
  else s

theorem lettersKept_letterSlot (seq : Nat) (s : State) (p : Vector Word 8 × Nat) : LettersKept s (letterSlot seq s p) := by
  refine .ite ?_ (.refl s)
  have hm := lettersKept_mirrorLetter p.2 seq p.1 s
  exact .ite hm (hm.trans (lettersKept_streamLetter _ _ _))

end Sys2Proof.Machine

/-! ## Back legs are judged (R885, R889, R894-R901, R907) -/

namespace Sys2Proof.Machine

/-! ### Mirror words of all letters -/

theorem LettersKept.mirrorBase {s u : State} (h : LettersKept s u) (a : Nat) : mirrorBase u a = Machine.mirrorBase s a := by
  rw [Machine.mirrorBase, Machine.mirrorBase, h.mbase]

theorem spadGet_streamByte (a : Nat) (c : Byte) (s : State) (b : Nat) : spadGet (streamByte a c s) b = spadGet s b := by
  unfold streamByte
  dsimp only
  split
  · rfl
  · split
    · rfl
    · split
      · rfl
      · split <;> rfl

theorem spadGet_streamLetter (a : Nat) (ws : Vector Word 8) (s : State) (b : Nat) : spadGet (streamLetter a ws s) b = spadGet s b := by
  rw [streamLetter, spadGet_streamByte, spadGet_streamByte]
  refine spadGet_congr ?_ b
  show (match s.loop.rxCseq.find? (fun p : Nat × Nat => p.1 == a) with
      | some (_, last) => if fld ws[0] 0 3 = (last + 1) % 8 then s else dropRx a s
      | none => s).mem = s.mem
  split
  · split_ifs
    · rfl
    · unfold dropRx
      split_ifs <;> rfl
  · rfl

theorem spadGet_letterSlot (seq : Nat) (s : State) (p : Vector Word 8 × Nat) (b : Nat) :
    spadGet (letterSlot seq s p) b = if letterOk p.2 p.1 then spadGet (mirrorLetter p.2 seq p.1 s) b else spadGet s b := by
  unfold letterSlot
  split_ifs
  · rfl
  · rw [spadGet_streamLetter]
  · rfl

theorem zipIdx_snd_nodup {α : Type} (l : List α) : (l.zipIdx.map Prod.snd).Nodup := by
  rw [List.zipIdx_map_snd]
  exact List.nodup_range'

/-- Each valid letter of a back leg leaves its words in the mirror. -/
theorem spadGet_letterSlots {mine : List (Vector Word 8)} {a i : Nat} {ws : Vector Word 8} (hmine : mine[a]? = some ws)
    (hok : letterOk a ws = true) {s : State} (hi : i < 8) (hon : (reg32 s Reg.loop_MBASE).getLsbD 31 = true)
    (hdrop : s.loop.dropMirror = false) (href : refusal s .loop (mirrorBase s a + i) 1 true = none)
    (hspad : isSpad (mirrorBase s a + i) = true) (hw : LoopWrites s) (seq : Nat) :
    spadGet (mine.zipIdx.foldl (letterSlot seq) s) (mirrorBase s a + i) = (mirrorWords seq ws).getD i 0 := by
  have hmem : (ws, a) ∈ mine.zipIdx := by rw [List.mk_mem_zipIdx_iff_getElem?]; exact hmine
  obtain ⟨pre, post, hl, -, hpost⟩ := split_of_nodup (zipIdx_snd_nodup mine) hmem
  have hafter := foldl_split (f := letterSlot seq) (s := s) (Before := LettersKept s)
    (After := fun t => LettersKept s t ∧ spadGet t (mirrorBase s a + i) = (mirrorWords seq ws).getD i 0) hl
    (fun p _ t ht => ht.trans (lettersKept_letterSlot seq t p)) (fun t ht => ⟨ht.trans (lettersKept_letterSlot seq t _), ?_⟩)
    (fun p hp t ht => ⟨ht.1.trans (lettersKept_letterSlot seq t p), ?_⟩) (.refl s)
  · exact hafter.2
  · rw [spadGet_letterSlot, if_pos hok, ← ht.mirrorBase]
    exact spadGet_mirrorLetter_same hi (by rw [ht.mbase]; exact hon) (ht.dropMirror.trans hdrop)
      ((ht.refusal _).trans (by rw [ht.mirrorBase]; exact href)) (by rw [ht.mirrorBase]; exact hspad) (ht.writes hw) seq ws
  · have hne : p.2 ≠ a := hpost p hp
    rw [spadGet_letterSlot]
    split_ifs
    · rw [spadGet_mirrorLetter_other, ht.2]
      rw [ht.1.mirrorBase]
      unfold mirrorBase
      omega
    · exact ht.2

/-! ### Partners (R899, R900) -/

/-- What is left alone while partners are judged and the loss policy acts. -/
structure BackKept (s u : State) : Prop where
  thr : u.thr = s.thr
  mem : u.mem = s.mem
  lastBack : u.loop.lastBack = s.loop.lastBack
  missDue : u.loop.missDue = s.loop.missDue
  backSeen : u.loop.backSeen = s.loop.backSeen
  reg : ∀ a ∈ [Reg.loop_SEQ, Reg.loop_RINFO, Reg.loop_ERRA + 1], reg u a = reg s a
  events : ∀ n, hasEvent s n → hasEvent u n

theorem BackKept.refl (s : State) : BackKept s s := ⟨rfl, rfl, rfl, rfl, rfl, fun _ _ => rfl, fun _ => id⟩

theorem BackKept.trans {s t u : State} (h : BackKept s t) (h' : BackKept t u) : BackKept s u :=
  ⟨h'.thr.trans h.thr, h'.mem.trans h.mem, h'.lastBack.trans h.lastBack, h'.missDue.trans h.missDue, h'.backSeen.trans h.backSeen,
    fun a ha => (h'.reg a ha).trans (h.reg a ha), fun n hn => h'.events n (h.events n hn)⟩

theorem BackKept.ite {c : Prop} [Decidable c] {s u v : State} (hu : BackKept s u) (hv : BackKept s v) :
    BackKept s (if c then u else v) := by
  split
  · exact hu
  · exact hv

theorem backKept_foldl {α : Type} {f : State → α → State} (l : List α) (hf : ∀ x ∈ l, ∀ s, BackKept s (f s x)) (s : State) :
    BackKept s (l.foldl f s) := by
  induction l generalizing s with
  | nil => exact .refl s
  | cons x l ih => exact (hf x List.mem_cons_self s).trans (ih (fun y hy => hf y (List.mem_cons_of_mem x hy)) _)

theorem BesideModes.backKept {s u : State} (h : BesideModes s u) : BackKept s u :=
  ⟨h.thr, h.mem, congrArg Loop.lastBack h.loop, congrArg Loop.missDue h.loop, congrArg Loop.backSeen h.loop,
    fun a ha => h.regs a (by
      simp only [List.mem_cons, List.not_mem_nil, or_false] at ha
      rcases ha with rfl | rfl | rfl <;> decide), h.events⟩

theorem backKept_setRegBit {a : Nat} (ha : a ∉ [Reg.loop_SEQ, Reg.loop_RINFO, Reg.loop_ERRA + 1]) (i : Nat) (b : Bool) (s : State) :
    BackKept s (setRegBit a i b s) :=
  ⟨rfl, rfl, rfl, rfl, rfl, fun _ hb => reg_setRegBit_other _ _ _ (ne_of_mem_of_not_mem hb ha), fun _ => id⟩

theorem backKept_setRegF {a : Nat} (ha : a ∉ [Reg.loop_SEQ, Reg.loop_RINFO, Reg.loop_ERRA + 1]) (lo len v : Nat) (s : State) :
    BackKept s (setRegF a lo len v s) :=
  ⟨rfl, rfl, rfl, rfl, rfl, fun _ hb => reg_setRegF_other _ _ _ _ (ne_of_mem_of_not_mem hb ha), fun _ => id⟩

theorem backKept_signal (n : Fin 96) (s : State) : BackKept s (signal n s) := (aside_signal n s).toBesideModes.backKept

theorem backKept_partnerRaise (d : Nat) (s : State) : BackKept s (partnerRaise d s) :=
  ⟨rfl, rfl, rfl, rfl, rfl, fun _ _ => rfl, fun _ => id⟩

theorem backKept_setLoop {f : Loop → Loop} {s : State} (hl : (f s.loop).lastBack = s.loop.lastBack) (hm : (f s.loop).missDue = s.loop.missDue)
    (hb : (f s.loop).backSeen = s.loop.backSeen) : BackKept s (setLoop f s) :=
  ⟨rfl, rfl, hl, hm, hb, fun _ _ => rfl, fun _ => id⟩

theorem backKept_hwCountF {a : Nat} (ha : a ∉ [Reg.loop_SEQ, Reg.loop_RINFO, Reg.loop_ERRA + 1]) (lo len n : Nat) (s : State) :
    BackKept s (hwCountF a lo len n s) :=
  ⟨rfl, rfl, rfl, rfl, rfl, fun _ hb => reg_hwCountF_other _ _ _ _ (ne_of_mem_of_not_mem hb ha), fun _ => id⟩

theorem backKept_dropRx (a : Nat) (s : State) : BackKept s (dropRx a s) := by
  unfold dropRx
  refine .ite (.trans ?_ (backKept_hwCountF (by decide) 8 8 1 (setLoop (fun l => { l with rx := l.rx.filter (·.unit != a) }) s))) (.refl s)
  exact backKept_setLoop rfl rfl rfl

/-- The words of the partners lie apart from the others. -/
theorem partner_word (a : Fin 64) : Reg.loop_LOST (a.val / 16) ∉ [Reg.loop_SEQ, Reg.loop_RINFO, Reg.loop_ERRA + 1] ∧
    Reg.loop_WATCH (a.val / 16) ∉ [Reg.loop_SEQ, Reg.loop_RINFO, Reg.loop_ERRA + 1] := by
  revert a
  decide

/-- The counts of a partner's misses. -/
def judgeCounted (a : Fin 64) (present : Bool) (s : State) : State :=
  setLoop (fun l => { l with
    miss := l.miss.set a (if present then 0 else l.miss[a] + 1)
    seen := l.seen.set a (if present then l.seen[a] + 1 else 0) }) s

/-- A partner is lost. -/
def judgeLost (a : Fin 64) (s : State) : State := dropRx a (partnerRaise (0x0100 + a) (signal 38 (setLost a true s)))

theorem judge_eq (a : Fin 64) (present : Bool) (s : State) : judge a present s =
    let t := judgeCounted a present s
    if loopAddr t = some a.val then t
    else if !watchBit t a then (if present && !t.loop.enum then setWatch a true t else t)
    else if lostBit t a then (if 2 ≤ t.loop.seen[a] then setLost a false t else t)
    else if 3 ≤ t.loop.miss[a] then judgeLost a t
    else t := rfl

theorem backKept_judge (a : Fin 64) (present : Bool) (s : State) : BackKept s (judge a present s) := by
  have hc : BackKept s (judgeCounted a present s) := backKept_setLoop rfl rfl rfl
  obtain ⟨hlost, hwatch⟩ := partner_word a
  rw [judge_eq]
  dsimp only
  generalize judgeCounted a present s = t at hc
  refine hc.trans (.ite (.refl t) (.ite (.ite (backKept_setRegBit hwatch _ _ t) (.refl t)) (.ite (.ite (backKept_setRegBit hlost _ _ t) (.refl t))
    (.ite ?_ (.refl t)))))
  exact (((backKept_setRegBit hlost _ _ t).trans (backKept_signal 38 _)).trans (backKept_partnerRaise _ _)).trans (backKept_dropRx _ _)

/-- What the judgement of partner `i` leaves of another partner `a`. -/
structure JudgedApart (a : Fin 64) (s u : State) : Prop where
  addr : loopAddr u = loopAddr s
  watch : watchBit u a = watchBit s a
  lost : lostBit u a = lostBit s a
  miss : u.loop.miss[a] = s.loop.miss[a]

theorem JudgedApart.refl (a : Fin 64) (s : State) : JudgedApart a s s := ⟨rfl, rfl, rfl, rfl⟩

theorem JudgedApart.trans {a : Fin 64} {s t u : State} (h : JudgedApart a s t) (h' : JudgedApart a t u) : JudgedApart a s u :=
  ⟨h'.addr.trans h.addr, h'.watch.trans h.watch, h'.lost.trans h.lost, h'.miss.trans h.miss⟩

theorem JudgedApart.ite {a : Fin 64} {c : Prop} [Decidable c] {s u v : State} (hu : JudgedApart a s u) (hv : JudgedApart a s v) :
    JudgedApart a s (if c then u else v) := by
  split
  · exact hu
  · exact hv

/-- The words of two partners: another bit of the word, or another word. -/
theorem partner_apart {i a : Fin 64} (h : i ≠ a) (base : Nat) : base + a.val / 16 ≠ base + i.val / 16 ∨ a.val % 16 ≠ i.val % 16 := by
  have : i.val ≠ a.val := fun hv => h (Fin.ext hv)
  omega

theorem regBit_partner {i a : Fin 64} (h : i ≠ a) (base : Nat) (b : Bool) (s : State) :
    regBit (setRegBit (base + i.val / 16) (i.val % 16) b s) (base + a.val / 16) (a.val % 16) = regBit s (base + a.val / 16) (a.val % 16) := by
  by_cases hw : base + a.val / 16 = base + i.val / 16
  · rw [hw]
    exact regBit_setRegBit_ne ((partner_apart h base).resolve_left (fun hn => hn hw)) _ _ _
  · rw [regBit, reg_setRegBit_other _ _ _ hw]
    rfl

/-- STAT, the partners' LOST words and their WATCH words are different registers. -/
theorem partner_regs (a i : Fin 64) : Reg.loop_LOST (i.val / 16) ≠ Reg.loop_STAT ∧ Reg.loop_WATCH (i.val / 16) ≠ Reg.loop_STAT ∧
    Reg.loop_LOST (i.val / 16) ≠ Reg.loop_WATCH (a.val / 16) ∧ Reg.loop_ERRB ≠ Reg.loop_LOST (a.val / 16) ∧
    Reg.loop_ERRB ≠ Reg.loop_WATCH (a.val / 16) ∧ Reg.loop_LOST (a.val / 16) ∉ runst ∧ Reg.loop_WATCH (a.val / 16) ∉ runst := by
  refine ⟨?_, ?_, ?_, ?_, ?_, not_mem_runst (.inr ?_), not_mem_runst (.inr ?_)⟩ <;>
    simp only [Reg.loop_LOST, Reg.loop_WATCH, Reg.loop_STAT, Reg.loop_ERRB, Reg.intc_RUNST] <;> omega

theorem judgedApart_setLost {i a : Fin 64} (h : i ≠ a) (b : Bool) (s : State) : JudgedApart a s (setLost i b s) := by
  obtain ⟨hstat, -, hwatch, -⟩ := partner_regs a i
  exact ⟨loopAddr_congr (reg_setRegBit_other _ _ _ hstat.symm), congrArg (BitVec.getLsbD · (a.val % 16)) (reg_setRegBit_other _ _ _ hwatch.symm),
    regBit_partner h _ b s, rfl⟩

theorem judgedApart_setWatch {i a : Fin 64} (h : i ≠ a) (b : Bool) (s : State) : JudgedApart a s (setWatch i b s) := by
  obtain ⟨-, hstat, -⟩ := partner_regs a i
  obtain ⟨-, -, hlost, -⟩ := partner_regs i a
  exact ⟨loopAddr_congr (reg_setRegBit_other _ _ _ hstat.symm), regBit_partner h _ b s,
    congrArg (BitVec.getLsbD · (a.val % 16)) (reg_setRegBit_other _ _ _ hlost), rfl⟩

theorem judgedApart_signal (a : Fin 64) (n : Fin 96) (s : State) : JudgedApart a s (signal n s) := by
  obtain ⟨-, -, -, -, -, hlost, hwatch⟩ := partner_regs a a
  exact ⟨loopAddr_congr (reg_signal (by decide) n s), congrArg (BitVec.getLsbD · (a.val % 16)) (reg_signal hwatch n s),
    congrArg (BitVec.getLsbD · (a.val % 16)) (reg_signal hlost n s), congrArg (fun l : Loop => l.miss[a]) (signal_loop n s)⟩

theorem judgedApart_partnerRaise (a : Fin 64) (d : Nat) (s : State) : JudgedApart a s (partnerRaise d s) := ⟨rfl, rfl, rfl, rfl⟩

theorem judgedApart_dropRx (a : Fin 64) (i : Nat) (s : State) : JudgedApart a s (dropRx i s) := by
  obtain ⟨-, -, -, hlost, hwatch, -⟩ := partner_regs a a
  unfold dropRx
  refine .ite ⟨loopAddr_congr (reg_hwCountF_other _ _ _ _ (by decide)), ?_, ?_, rfl⟩ (.refl a s)
  · exact congrArg (BitVec.getLsbD · (a.val % 16)) (reg_hwCountF_other _ _ _ _ hwatch.symm)
  · exact congrArg (BitVec.getLsbD · (a.val % 16)) (reg_hwCountF_other _ _ _ _ hlost.symm)

theorem judgedApart_judge {i a : Fin 64} (h : i ≠ a) (present : Bool) (s : State) : JudgedApart a s (judge i present s) := by
  have hne : i.val ≠ a.val := fun hv => h (Fin.ext hv)
  have hc : JudgedApart a s (judgeCounted i present s) := ⟨rfl, rfl, rfl, Vector.getElem_set_ne i.isLt a.isLt hne⟩
  rw [judge_eq]
  dsimp only
  generalize judgeCounted i present s = t at hc
  refine hc.trans (.ite (.refl a t) (.ite (.ite (judgedApart_setWatch h true t) (.refl a t)) (.ite (.ite (judgedApart_setLost h false t) (.refl a t))
    (.ite ?_ (.refl a t)))))
  exact (((judgedApart_setLost h true t).trans (judgedApart_signal a 38 _)).trans (judgedApart_partnerRaise a _ _)).trans (judgedApart_dropRx a _ _)

theorem judgeLost_lost (a : Fin 64) (s : State) : lostBit (judgeLost a s) a = true ∧ hasEvent (judgeLost a s) 38 := by
  have hset : lostBit (setLost a true s) a = true := regBit_setRegBit_same _ _ _ _ (Nat.mod_lt _ (by decide))
  have hsig := judgedApart_signal a 38 (setLost a true s)
  have hev := hasEvent_signal_same 38 (setLost a true s)
  unfold judgeLost
  generalize signal 38 (setLost a true s) = t at hsig hev
  have hrest := (judgedApart_partnerRaise a (0x0100 + a) t).trans (judgedApart_dropRx a a (partnerRaise (0x0100 + a) t))
  exact ⟨hrest.lost.trans (hsig.lost.trans hset), (backKept_dropRx a _).events _ ((backKept_partnerRaise _ t).events _ hev)⟩

/-- A watched partner that is missing for the third time is lost. -/
theorem judge_lost {a : Fin 64} {s : State} (haddr : loopAddr s ≠ some a.val) (hwatch : watchBit s a = true) (hlost : lostBit s a = false)
    (hmiss : 2 ≤ s.loop.miss[a]) : lostBit (judge a false s) a = true ∧ hasEvent (judge a false s) 38 := by
  have hcount : (judgeCounted a false s).loop.miss[a] = s.loop.miss[a] + 1 := Vector.getElem_set_self a.isLt
  have hc : loopAddr (judgeCounted a false s) ≠ some a.val ∧ watchBit (judgeCounted a false s) a = true ∧
      lostBit (judgeCounted a false s) a = false := ⟨haddr, hwatch, hlost⟩
  rw [judge_eq]
  dsimp only
  generalize judgeCounted a false s = t at hcount hc
  obtain ⟨haddr, hwatch, hlost⟩ := hc
  rw [if_neg haddr, if_neg (by rw [hwatch]; decide), if_neg (by rw [hlost]; decide), if_pos (by omega)]
  exact judgeLost_lost a t

end Sys2Proof.Machine

/-! ## A back leg with a valid header (R885, R889, R899) -/

namespace Sys2Proof.Machine

/-! ### The letters and their judgement -/

/-- The letter of unit `a` is valid in a back leg. -/
def present (slots : List (Vector Word 8)) (a : Nat) : Bool := (slots[a]?.map (letterOk a)).getD false

/-- The letters of a back leg before partners are judged. -/
def lettersIn (seq : Nat) (slots : List (Vector Word 8)) (s : State) : State := slots.zipIdx.foldl (letterSlot seq) s

theorem backLetters_eq (seq : Nat) (slots : List (Vector Word 8)) (s : State) : backLetters seq slots s =
    (List.finRange 64).foldl (fun t (a : Fin 64) => judge a (present slots a.val) t) (lettersIn seq slots s) := rfl

theorem lettersKept_lettersIn (seq : Nat) (slots : List (Vector Word 8)) (s : State) : LettersKept s (lettersIn seq slots s) :=
  lettersKept_foldl (lettersKept_letterSlot seq) _ s

/-- Letters keep what judgements keep but the scratchpad. -/
theorem LettersKept.backKept {s u : State} (h : LettersKept s u) : BackKept { s with mem := u.mem } u := by
  obtain ⟨_, _, _, hl⟩ := h.loop
  exact ⟨h.thr, rfl, by rw [hl], by rw [hl], by rw [hl], fun a ha => h.reg a (by
    simp only [List.mem_cons, List.not_mem_nil, or_false] at ha
    rcases ha with rfl | rfl | rfl <;> decide), h.events⟩

theorem LettersKept.judgedApart {s u : State} (h : LettersKept s u) (a : Fin 64) : JudgedApart a s u := by
  obtain ⟨_, _, _, hl⟩ := h.loop
  have hword : Reg.loop_WATCH (a.val / 16) ∉ letterRegs ∧ Reg.loop_LOST (a.val / 16) ∉ letterRegs := by
    revert a
    decide
  exact ⟨loopAddr_congr (h.reg _ (by decide)), regBit_of_reg (h.reg _ hword.1) _, regBit_of_reg (h.reg _ hword.2) _, by rw [hl]⟩

theorem backKept_judged (slots : List (Vector Word 8)) (s : State) :
    BackKept s ((List.finRange 64).foldl (fun t (a : Fin 64) => judge a (present slots a.val) t) s) :=
  backKept_foldl _ (fun a _ t => backKept_judge a _ t) s

/-- A watched partner that is missing for the third time is lost after all judgements. -/
theorem judged_lost {a : Fin 64} {slots : List (Vector Word 8)} {s : State} (haddr : loopAddr s ≠ some a.val) (hwatch : watchBit s a = true)
    (hlost : lostBit s a = false) (hmiss : 2 ≤ s.loop.miss[a]) (habsent : present slots a.val = false) :
    let u := (List.finRange 64).foldl (fun t (i : Fin 64) => judge i (present slots i.val) t) s
    lostBit u a = true ∧ hasEvent u 38 := by
  obtain ⟨pre, post, hl, hpre, hpost⟩ := split_of_nodup (key := id) (l := List.finRange 64) (by rw [List.map_id]; exact List.nodup_finRange 64)
    (List.mem_finRange a)
  refine foldl_split (Before := JudgedApart a s) (After := fun t => lostBit t a = true ∧ hasEvent t 38) hl
    (fun i hi t ht => ht.trans (judgedApart_judge (hpre i hi) _ t)) (fun t ht => ?_)
    (fun i hi t ht => ⟨(judgedApart_judge (hpost i hi) _ t).lost.trans ht.1, (backKept_judge i _ t).events _ ht.2⟩) (.refl a s)
  rw [habsent]
  exact judge_lost (ht.addr ▸ haddr) (ht.watch.trans hwatch) (ht.lost.trans hlost) (ht.miss ▸ hmiss)

/-! ### The loss policy and the end of an enumeration (R883, R903) -/

theorem lossUpdate_eq (s : State) : lossUpdate s =
    let u := setRegBit Reg.loop_STAT 11 ((List.range 64).any (fun a => watchBit s a && lostBit s a)) s
    if lossPolicy s < lossPolicy u then applyLossPolicy u else u := rfl

theorem besideModes_lossPolicy (before : Nat) (s : State) : BesideModes s (if before < lossPolicy s then applyLossPolicy s else s) :=
  .ite (besideModes_applyLossPolicy s) (.refl s)

theorem backKept_lossUpdate (s : State) : BackKept s (lossUpdate s) :=
  (backKept_setRegBit (by decide) _ _ s).trans (besideModes_lossPolicy _ _).backKept

theorem lostBit_lossUpdate (s : State) (a : Fin 64) : lostBit (lossUpdate s) a = lostBit s a := by
  have hbeside : Reg.loop_LOST (a.val / 16) ∈ besideRegs := by
    revert a
    decide
  have hu := besideModes_lossPolicy (lossPolicy s)
    (setRegBit Reg.loop_STAT 11 ((List.range 64).any (fun a => watchBit s a && lostBit s a)) s)
  exact regBit_of_reg ((hu.regs _ hbeside).trans (reg_setRegBit_other _ _ _ (partner_regs a a).1)) _

theorem backKept_setAddr (a : Option Nat) (s : State) : BackKept s (setAddr a s) := by
  have hpin (t : State) : BackKept t (pinCheck t) := (aside_pinCheck t).toBesideModes.backKept
  cases a with
  | none => exact (backKept_setRegF (by decide) 0 8 0 s).trans (hpin _)
  | some n => exact (backKept_setRegF (by decide) 0 8 (0x80 + n) s).trans (hpin _)

/-- Partners from the new N on are forgotten. -/
def forgetPartners (n : Nat) (s : State) : State :=
  (List.range 64).foldl (fun s a => if n ≤ a then setLost a false (setWatch a false s) else s) s

theorem backKept_forgetPartners (n : Nat) (s : State) : BackKept s (forgetPartners n s) := by
  refine backKept_foldl _ (fun a ha t => ?_) s
  have ha := List.mem_range.mp ha
  obtain ⟨hlost, hwatch⟩ := partner_word ⟨a, ha⟩
  exact .ite ((backKept_setRegBit hwatch _ _ t).trans (backKept_setRegBit hlost _ _ _)) (.refl t)

/-- The unit takes the address that its letter has shown, or none. -/
def enumAddr (slots : List (Vector Word 8)) (s : State) : State :=
  if isHead s then s
  else
    match s.loop.provis with
    | some a => setAddr (if (slots[a]?.map (letterOk a)).getD false then some a else none) s
    | none => setAddr none s

theorem enumDone_eq (slots : List (Vector Word 8)) (s : State) : enumDone slots s =
    let u := forgetPartners (max 1 (newN slots)) (enumAddr slots s)
    signal 40 (setLoop (fun l => { l with
      headN := max 1 (newN slots), enumWait := false, nextStart := max l.nextStart u.now, enum := false, provis := none }) u) := rfl

theorem enumDone_outcome (slots : List (Vector Word 8)) (s : State) : BackKept s (enumDone slots s) ∧ hasEvent (enumDone slots s) 40 := by
  have haddr : BackKept s (enumAddr slots s) := by
    unfold enumAddr
    split
    · exact .refl s
    · split
      · exact backKept_setAddr _ s
      · exact backKept_setAddr none s
  have hkept := haddr.trans (backKept_forgetPartners (max 1 (newN slots)) _)
  rw [enumDone_eq]
  dsimp only
  generalize forgetPartners (max 1 (newN slots)) (enumAddr slots s) = u at hkept
  exact ⟨(hkept.trans (backKept_setLoop rfl rfl rfl)).trans (backKept_signal 40 _), hasEvent_signal_same 40 _⟩

/-! ### The back leg is noted -/

/-- The words and times of a back leg with a valid header. -/
def backNoted (turn : Nat) (h : Header) (s : State) : State :=
  let s := setReg Reg.loop_SEQ h.h0 (setRegF Reg.loop_RINFO 0 7 (hdrN h) s)
  let s := if s.loop.fold then s else noteTurn turn s
  setLoop (fun l => { l with
    lastBack := s.now, missDue := s.now + roundTicks (hdrN h), everBack := true, headN := if hdrEnum h then l.headN else hdrN h
    goodBacks := l.goodBacks + 1, badBacks := 0 }) s

/-- Threads of NOTIFY take their event. -/
def notified (s : State) : State :=
  (List.finRange 8).foldl (fun s (t : Fin 8) => if regBit s Reg.loop_NOTIFY t then setEvent t 14 s else s) s

/-- Silence ends with the second good back leg, and source 36 shows this one. -/
def backShown (s : State) : State := signal 36 (if 2 ≤ s.loop.goodBacks then setRegBit Reg.loop_STAT 12 false s else s)

/-- A damaged slot counts. -/
def slotsCounted (bad : Bool) (s : State) : State := if bad then signal 37 (loopLerr s) else s

/-- A slot that is neither empty nor a letter. -/
def damaged (slots : List (Vector Word 8)) : Bool := slots.zipIdx.any (fun p => !slotEmpty p.1 && !letterOk p.2 p.1)

/-- The registers that may change before the letters. -/
def backRegs : List Nat := Reg.loop_SEQ :: Reg.loop_RINFO :: Reg.loop_TURN :: Reg.loop_STAT :: (Reg.loop_ERRA + 1) :: runst

/-- What the words of a back leg leave alone, and what they set. -/
structure BackNoted (h : Header) (s u : State) : Prop where
  now : u.now = s.now
  thr : u.thr = s.thr
  mem : u.mem = s.mem
  modes : u.modes = s.modes
  miss : u.loop.miss = s.loop.miss
  dropMirror : u.loop.dropMirror = s.loop.dropMirror
  backSeen : u.loop.backSeen = s.loop.backSeen
  lastBack : u.loop.lastBack = s.now
  missDue : u.loop.missDue = s.now + roundTicks (hdrN h)
  seq : reg u Reg.loop_SEQ = h.h0
  rinfo : regF u Reg.loop_RINFO 0 7 = hdrN h
  stat : reg u Reg.loop_STAT = reg s Reg.loop_STAT
  errs : reg u (Reg.loop_ERRA + 1) = reg s (Reg.loop_ERRA + 1)
  reg : ∀ a, a ∉ backRegs → reg u a = Machine.reg s a

theorem hdrN_lt (h : Header) : hdrN h < 128 := fld_lt _ _ _

theorem backNoted_noted (turn : Nat) (h : Header) (s : State) : BackNoted h s (backNoted turn h s) := by
  have hreg (a : Nat) (ha : a ≠ Reg.loop_TURN) :
      reg (backNoted turn h s) a = reg (setReg Reg.loop_SEQ h.h0 (setRegF Reg.loop_RINFO 0 7 (hdrN h) s)) a := by
    unfold backNoted
    dsimp only
    rw [reg_setLoop]
    split
    · rfl
    · exact reg_setReg_other _ _ ha
  have hother (a : Nat) (ht : a ≠ Reg.loop_TURN) (hs : a ≠ Reg.loop_SEQ) (hr : a ≠ Reg.loop_RINFO) : reg (backNoted turn h s) a = reg s a := by
    rw [hreg a ht, reg_setReg_other _ _ hs, reg_setRegF_other _ _ _ _ hr]
  have hturn (t : State) : ∃ regs turns, (if t.loop.fold then t else noteTurn turn t) = { t with regs := regs, loop := { t.loop with turns := turns } } := by
    split
    · exact ⟨_, _, rfl⟩
    · exact ⟨_, _, rfl⟩
  have hseq : reg (backNoted turn h s) Reg.loop_SEQ = h.h0 := by
    rw [hreg _ (by decide), reg_setReg_same]
  have hrinfo : regF (backNoted turn h s) Reg.loop_RINFO 0 7 = hdrN h := by
    rw [regF, hreg _ (by decide), reg_setReg_other _ _ (by decide), reg_setRegF_same, fld_putFld _ _ _ _ (by decide)]
    exact Nat.mod_eq_of_lt (hdrN_lt h)
  have hstat := hother Reg.loop_STAT (by decide) (by decide) (by decide)
  have herrs := hother (Reg.loop_ERRA + 1) (by decide) (by decide) (by decide)
  have hkept (a : Nat) (ha : a ∉ backRegs) : reg (backNoted turn h s) a = reg s a :=
    hother a (ne_of_mem_of_not_mem (by decide) ha).symm (ne_of_mem_of_not_mem (by decide) ha).symm (ne_of_mem_of_not_mem (by decide) ha).symm
  obtain ⟨regs, turns, hu⟩ := hturn (setReg Reg.loop_SEQ h.h0 (setRegF Reg.loop_RINFO 0 7 (hdrN h) s))
  have hu : backNoted turn h s = setLoop (fun l => { l with
      lastBack := s.now, missDue := s.now + roundTicks (hdrN h), everBack := true, headN := if hdrEnum h then l.headN else hdrN h
      goodBacks := l.goodBacks + 1, badBacks := 0 }) { s with regs := regs, loop := { s.loop with turns := turns } } := by
    unfold backNoted
    dsimp only
    rw [hu]
    rfl
  generalize backNoted turn h s = u at *
  refine ⟨?_, ?_, ?_, ?_, ?_, ?_, ?_, ?_, ?_, hseq, hrinfo, hstat, herrs, hkept⟩ <;> rw [hu] <;> rfl

/-! ### Silence, NOTIFY and damaged slots -/

/-- What is left alone between the words of a back leg and its letters. -/
structure ShownKept (s u : State) : Prop where
  now : u.now = s.now
  mem : u.mem = s.mem
  modes : u.modes = s.modes
  loop : u.loop = s.loop
  addr : loopAddr u = loopAddr s
  reg : ∀ a, a ∉ Reg.loop_STAT :: runst → reg u a = Machine.reg s a
  events : ∀ n, hasEvent s n → hasEvent u n

theorem backShown_shown (s : State) : ShownKept s (backShown s) ∧ (backShown s).thr = s.thr ∧ hasEvent (backShown s) 36 := by
  have hclear : ShownKept s (if 2 ≤ s.loop.goodBacks then setRegBit Reg.loop_STAT 12 false s else s) ∧
      (if 2 ≤ s.loop.goodBacks then setRegBit Reg.loop_STAT 12 false s else s).thr = s.thr := by
    split
    · exact ⟨⟨rfl, rfl, rfl, rfl, loopAddr_setRegBit (by decide) _ s,
        fun a ha => reg_setRegBit_other _ _ _ (ne_of_mem_of_not_mem List.mem_cons_self ha).symm, fun _ => id⟩, rfl⟩
    · exact ⟨⟨rfl, rfl, rfl, rfl, rfl, fun _ _ => rfl, fun _ => id⟩, rfl⟩
  unfold backShown
  generalize (if 2 ≤ s.loop.goodBacks then setRegBit Reg.loop_STAT 12 false s else s) = t at hclear
  obtain ⟨⟨hnow, hmem, hmodes, hloop, haddr, hreg, hev⟩, hthr⟩ := hclear
  refine ⟨⟨(signal_now 36 t).trans hnow, (signal_mem 36 t).trans hmem, (signal_modes 36 t).trans hmodes, (signal_loop 36 t).trans hloop, ?_,
    fun a ha => ?_, fun n hn => hasEvent_signal (hev n hn) 36⟩, (signal_thr 36 t).trans hthr, hasEvent_signal_same 36 t⟩
  · exact (loopAddr_congr (reg_signal (by decide) 36 t)).trans haddr
  · exact (reg_signal (fun h => ha (List.mem_cons_of_mem _ h)) 36 t).trans (hreg a ha)

theorem notified_eq (s : State) : { notified s with thr := s.thr } = s := by
  have hfold : ∀ (l : List (Fin 8)) (s : State),
      { l.foldl (fun s (t : Fin 8) => if regBit s Reg.loop_NOTIFY t then setEvent t 14 s else s) s with thr := s.thr } = s := by
    intro l
    induction l with
    | nil => exact fun _ => rfl
    | cons t l ih =>
      intro s
      have hstep : { (if regBit s Reg.loop_NOTIFY t then setEvent t 14 s else s) with thr := s.thr } = s := by
        split
        · exact setEvent_frame t 14 s
        · rfl
      rw [List.foldl_cons]
      generalize (if regBit s Reg.loop_NOTIFY t then setEvent t 14 s else s) = v at hstep
      have hrest := congrArg (fun r : State => { r with thr := s.thr }) (ih v)
      exact hrest.trans hstep
  exact hfold _ s

theorem reg_notified (s : State) (a : Nat) : reg (notified s) a = reg s a := reg_of_regs (congrArg State.regs (notified_eq s)) a

/-- Each thread of NOTIFY that is not STOPPED has its event. -/
theorem notified_latch {s : State} {t : Fin 8} (hon : regBit s Reg.loop_NOTIFY t = true) (hlive : isStopped s t = false) :
    (thread (notified s) t).latch.getLsbD 14 = true := by
  obtain ⟨pre, post, hl, hpre, hpost⟩ := split_of_nodup (key := id) (l := List.finRange 8) (by rw [List.map_id]; exact List.nodup_finRange 8)
    (List.mem_finRange t)
  have hstate : shownState (thread s t) ≠ .stopped := by simpa [isStopped] using hlive
  have hregs (x : Fin 8) (v : State) : (if regBit v Reg.loop_NOTIFY x then setEvent x 14 v else v).regs = v.regs := by
    split
    · exact setEvent_regs x 14 v
    · rfl
  have hother (x : Fin 8) (hx : x ≠ t) (v : State) : thread (if regBit v Reg.loop_NOTIFY x then setEvent x 14 v else v) t = thread v t := by
    split
    · exact thread_setEvent_other 14 v hx.symm
    · rfl
  refine foldl_split (Before := fun v => v.regs = s.regs ∧ thread v t = thread s t) (After := fun v => (thread v t).latch.getLsbD 14 = true) hl
    (fun x hx v hv => ⟨(hregs x v).trans hv.1, (hother x (hpre x hx) v).trans hv.2⟩) (fun v hv => ?_)
    (fun x hx v hv => (hother x (hpost x hx) v).symm ▸ hv) ⟨rfl, rfl⟩
  rw [if_pos ((regBit_of_reg (reg_of_regs hv.1 _) _).trans hon), thread_setEvent_same, hv.2, if_neg hstate]
  exact getLsbD_putBit_same _ 14 true

theorem slotsCounted_shown (bad : Bool) (s : State) : (slotsCounted bad s).thr = s.thr ∧ (slotsCounted bad s).now = s.now ∧
    (slotsCounted bad s).mem = s.mem ∧ (slotsCounted bad s).modes = s.modes ∧ (slotsCounted bad s).loop = s.loop ∧
    (∀ n, hasEvent s n → hasEvent (slotsCounted bad s) n) ∧
    (∀ a, a ∉ (Reg.loop_ERRA + 1) :: runst → reg (slotsCounted bad s) a = reg s a) ∧
    (bad = true → hasEvent (slotsCounted bad s) 37 ∧
      regF (slotsCounted bad s) (Reg.loop_ERRA + 1) 8 8 = min 255 (regF s (Reg.loop_ERRA + 1) 8 8 + 1)) := by
  cases bad with
  | false => exact ⟨rfl, rfl, rfl, rfl, rfl, fun _ => id, fun _ _ => rfl, nofun⟩
  | true =>
    have hcnt : regF (loopLerr s) (Reg.loop_ERRA + 1) 8 8 = min 255 (regF s (Reg.loop_ERRA + 1) 8 8 + 1) := regF_hwCountF_one _ _ (by decide) s
    have hreg (a : Nat) (ha : a ≠ Reg.loop_ERRA + 1) : reg (loopLerr s) a = reg s a := reg_hwCountF_other _ _ _ _ ha
    have hrest : ∃ regs hw, loopLerr s = { s with regs := regs, hw := hw } := ⟨_, _, rfl⟩
    rw [show slotsCounted true s = signal 37 (loopLerr s) from rfl]
    generalize loopLerr s = t at hcnt hreg hrest
    obtain ⟨regs, hw, ht⟩ := hrest
    have hintc : t.intc = s.intc := by rw [ht]
    refine ⟨(signal_thr 37 t).trans (by rw [ht]), (signal_now 37 t).trans (by rw [ht]), (signal_mem 37 t).trans (by rw [ht]),
      (signal_modes 37 t).trans (by rw [ht]), (signal_loop 37 t).trans (by rw [ht]), fun n hn => hasEvent_signal (hasEvent_of_intc hintc hn) 37,
      fun a ha => ?_, fun _ => ⟨hasEvent_signal_same 37 t, (regF_signal (by decide) 8 8 37 t).trans hcnt⟩⟩
    exact (reg_signal (fun h => ha (List.mem_cons_of_mem _ h)) 37 t).trans (hreg a (ne_of_mem_of_not_mem List.mem_cons_self ha).symm)

end Sys2Proof.Machine

/-! ## Back legs and the rules of the Loop (R885, R889, R899) -/

namespace Sys2Proof.Machine

/-! ### What comes before the letters -/

/-- All that a back leg with a valid header does before its letters. -/
def backBegun (turn : Nat) (h : Header) (slots : List (Vector Word 8)) (s : State) : State :=
  slotsCounted (damaged slots) (notified (backShown (backNoted turn h s)))

structure BackBegun (h : Header) (slots : List (Vector Word 8)) (s u : State) : Prop where
  now : u.now = s.now
  mem : u.mem = s.mem
  modes : u.modes = s.modes
  miss : u.loop.miss = s.loop.miss
  dropMirror : u.loop.dropMirror = s.loop.dropMirror
  backSeen : u.loop.backSeen = s.loop.backSeen
  lastBack : u.loop.lastBack = s.now
  missDue : u.loop.missDue = s.now + roundTicks (hdrN h)
  seq : reg u Reg.loop_SEQ = h.h0
  rinfo : regF u Reg.loop_RINFO 0 7 = hdrN h
  addr : loopAddr u = loopAddr s
  reg : ∀ a, a ∉ backRegs → reg u a = Machine.reg s a
  shown : hasEvent u 36
  latch : ∀ t : Fin 8, regBit s Reg.loop_NOTIFY t = true → isStopped s t = false → (thread u t).latch.getLsbD 14 = true
  damage : damaged slots = true → hasEvent u 37 ∧ regF u (Reg.loop_ERRA + 1) 8 8 = min 255 (regF s (Reg.loop_ERRA + 1) 8 8 + 1)

theorem backBegun_begun (turn : Nat) (h : Header) (slots : List (Vector Word 8)) (s : State) : BackBegun h slots s (backBegun turn h slots s) := by
  unfold backBegun
  have hnoted := backNoted_noted turn h s
  generalize backNoted turn h s = a at hnoted
  obtain ⟨hshown, hthr, h36⟩ := backShown_shown a
  generalize backShown a = b at hshown hthr h36
  have hnot := notified_eq b
  have hlatch : ∀ t : Fin 8, regBit s Reg.loop_NOTIFY t = true → isStopped s t = false → (thread (notified b) t).latch.getLsbD 14 = true := by
    intro t hon hlive
    have hthread : b.thr = s.thr := hthr.trans hnoted.thr
    refine notified_latch ((regBit_of_reg ((hshown.reg _ (by decide)).trans (hnoted.reg _ (by decide))) _).trans hon) ?_
    rw [isStopped, thread, hthread]
    exact hlive
  have hreg := reg_notified b
  generalize notified b = c at hnot hlatch hreg
  obtain ⟨hdthr, hdnow, hdmem, hdmodes, hdloop, hdev, hdreg, hdamage⟩ := slotsCounted_shown (damaged slots) c
  generalize slotsCounted (damaged slots) c = u at hdthr hdnow hdmem hdmodes hdloop hdev hdreg hdamage
  have hloop : u.loop = a.loop := hdloop.trans ((congrArg State.loop hnot).trans hshown.loop)
  have hregs (x : Nat) (hx : x ∉ Reg.loop_STAT :: (Reg.loop_ERRA + 1) :: runst) : reg u x = reg a x := by
    simp only [List.mem_cons, not_or] at hx
    rw [hdreg x (by simp only [List.mem_cons, not_or]; exact hx.2), hreg,
      hshown.reg x (by simp only [List.mem_cons, not_or]; exact ⟨hx.1, hx.2.2⟩)]
  refine ⟨hdnow.trans ((congrArg State.now hnot).trans (hshown.now.trans hnoted.now)),
    hdmem.trans ((congrArg State.mem hnot).trans (hshown.mem.trans hnoted.mem)),
    hdmodes.trans ((congrArg State.modes hnot).trans (hshown.modes.trans hnoted.modes)), by rw [hloop, hnoted.miss],
    by rw [hloop, hnoted.dropMirror], by rw [hloop, hnoted.backSeen], by rw [hloop, hnoted.lastBack], by rw [hloop, hnoted.missDue],
    (hregs _ (by decide)).trans hnoted.seq, (regF_of_reg (hregs _ (by decide)) 0 7).trans hnoted.rinfo, ?_, fun x hx => ?_,
    hdev _ (hasEvent_of_intc (congrArg State.intc hnot) h36), fun t hon hlive => ?_, fun hd => ?_⟩
  · have hc : loopAddr c = loopAddr b := loopAddr_congr (hreg _)
    exact (loopAddr_congr (hdreg _ (by decide))).trans (hc.trans (hshown.addr.trans (loopAddr_congr hnoted.stat)))
  · have hx' := hx
    simp only [backRegs, List.mem_cons, not_or] at hx'
    obtain ⟨-, -, -, hstat, herr, hrun⟩ := hx'
    exact (hregs x (by simp only [List.mem_cons, not_or]; exact ⟨hstat, herr, hrun⟩)).trans (hnoted.reg x hx)
  · rw [thread, hdthr]
    exact hlatch t hon hlive
  · obtain ⟨hev, hcnt⟩ := hdamage hd
    have herrs : reg c (Reg.loop_ERRA + 1) = reg s (Reg.loop_ERRA + 1) := (hreg _).trans ((hshown.reg _ (by decide)).trans hnoted.errs)
    exact ⟨hev, by rw [hcnt, regF_of_reg herrs]⟩

/-- The words of the partners and of the mirror are those before the back leg. -/
theorem BackBegun.partner {h : Header} {slots : List (Vector Word 8)} {s u : State} (hu : BackBegun h slots s u) (a : Fin 64) :
    watchBit u a = watchBit s a ∧ lostBit u a = lostBit s a := by
  have hword : Reg.loop_WATCH (a.val / 16) ∉ backRegs ∧ Reg.loop_LOST (a.val / 16) ∉ backRegs := by
    revert a
    decide
  exact ⟨regBit_of_reg (hu.reg _ hword.1) _, regBit_of_reg (hu.reg _ hword.2) _⟩

theorem BackBegun.mbase {h : Header} {slots : List (Vector Word 8)} {s u : State} (hu : BackBegun h slots s u) :
    reg32 u Reg.loop_MBASE = reg32 s Reg.loop_MBASE := reg32_congr (hu.reg _ (by decide)) (hu.reg _ (by decide))

theorem BackBegun.refusal {h : Header} {slots : List (Vector Word 8)} {s u : State} (hu : BackBegun h slots s u) (a : Nat) :
    refusal u .loop a 1 true = Machine.refusal s .loop a 1 true := by
  refine refusal_of_regions (fun b hb hb' => hu.reg b ?_) (regBit_of_reg (hu.reg Reg.sys_ARMSTAT (by decide)) 11) hu.modes _ _ _ _
  simp only [backRegs, List.mem_cons, not_or, Reg.loop_SEQ, Reg.loop_RINFO, Reg.loop_TURN, Reg.loop_STAT, Reg.loop_ERRA]
  exact ⟨by omega, by omega, by omega, by omega, by omega, not_mem_runst (.inr (Nat.lt_of_lt_of_le (by decide) hb))⟩

/-! ### A back leg with a valid header -/

/-- The letters and the loss policy. -/
def backJudged (h : Header) (slots : List (Vector Word 8)) (s : State) : State := lossUpdate (backLetters h.h0.toNat slots s)

/-- The end of an enumeration round. -/
def backEnded (h : Header) (slots : List (Vector Word 8)) (s : State) : State :=
  if hdrEnum h then lossUpdate (enumDone slots s) else s

/-- The head enumerates once more for a unit without an address. -/
def backAgain (trailer : Word × Word) (s : State) : State :=
  if isHead s && trailer.1.getLsbD 15 && crc16 [trailer.1] == trailer.2 && regBit s Reg.loop_CFG 15 then
    setLoop (fun l => { l with enumPend := true }) s
  else s

theorem backValid_eq (turn : Nat) (h : Header) (slots : List (Vector Word 8)) (trailer : Word × Word) (s : State) :
    backValid turn h slots trailer s = backAgain trailer (backEnded h (slots.take (hdrN h))
      (backJudged h (slots.take (hdrN h)) (backBegun turn h (slots.take (hdrN h)) s))) := rfl

theorem backKept_backEnded (h : Header) (slots : List (Vector Word 8)) (s : State) : BackKept s (backEnded h slots s) :=
  .ite ((enumDone_outcome slots s).1.trans (backKept_lossUpdate _)) (.refl s)

theorem backKept_backAgain (trailer : Word × Word) (s : State) : BackKept s (backAgain trailer s) :=
  .ite (backKept_setLoop rfl rfl rfl) (.refl s)

theorem backJudged_kept (h : Header) (slots : List (Vector Word 8)) (s : State) :
    BackKept { s with mem := (lettersIn h.h0.toNat slots s).mem } (backJudged h slots s) :=
  ((lettersKept_lettersIn _ slots s).backKept.trans (backKept_judged slots _)).trans (backKept_lossUpdate _)

theorem backJudged_lost {a : Fin 64} {slots : List (Vector Word 8)} {s : State} (haddr : loopAddr s ≠ some a.val) (hwatch : watchBit s a = true)
    (hlost : lostBit s a = false) (hmiss : 2 ≤ s.loop.miss[a]) (habsent : present slots a.val = false) (h : Header) :
    lostBit (backJudged h slots s) a = true ∧ hasEvent (backJudged h slots s) 38 := by
  have hin := (lettersKept_lettersIn h.h0.toNat slots s).judgedApart a
  unfold backJudged
  rw [backLetters_eq]
  generalize lettersIn h.h0.toNat slots s = t at hin
  obtain ⟨hbit, hev⟩ := judged_lost (slots := slots) (hin.addr ▸ haddr) (hin.watch.trans hwatch) (hin.lost.trans hlost) (hin.miss ▸ hmiss) habsent
  exact ⟨(lostBit_lossUpdate _ a).trans hbit, (backKept_lossUpdate _).events _ hev⟩

theorem backValid_kept (turn : Nat) (h : Header) (slots : List (Vector Word 8)) (trailer : Word × Word) (s : State) :
    let t := backBegun turn h (slots.take (hdrN h)) s
    BackKept { t with mem := (lettersIn h.h0.toNat (slots.take (hdrN h)) t).mem } (backValid turn h slots trailer s) := by
  rw [backValid_eq]
  exact ((backJudged_kept h _ _).trans (backKept_backEnded h _ _)).trans (backKept_backAgain trailer _)

theorem backEnded_plain {h : Header} (hplain : hdrEnum h = false) (slots : List (Vector Word 8)) (s : State) : backEnded h slots s = s :=
  if_neg (by rw [hplain]; decide)

theorem hasEvent_backEnded {h : Header} (henum : hdrEnum h = true) (slots : List (Vector Word 8)) (s : State) :
    hasEvent (backEnded h slots s) 40 := by
  rw [backEnded, if_pos henum]
  exact (backKept_lossUpdate _).events _ (enumDone_outcome slots s).2

theorem lostBit_backAgain (trailer : Word × Word) (s : State) (a : Nat) : lostBit (backAgain trailer s) a = lostBit s a := by
  unfold backAgain
  split <;> rfl

/-- What a back leg with a valid header does. -/
structure BackValid (h : Header) (mine : List (Vector Word 8)) (s u : State) : Prop where
  seq : reg u Reg.loop_SEQ = h.h0
  rinfo : regF u Reg.loop_RINFO 0 7 = hdrN h
  lastBack : u.loop.lastBack = s.now
  backSeen : u.loop.backSeen = s.loop.backSeen
  shown : hasEvent u 36
  missDue : u.loop.missDue = s.now + roundTicks (hdrN h)
  latch : ∀ t : Fin 8, regBit s Reg.loop_NOTIFY t = true → isStopped s t = false → (thread u t).latch.getLsbD 14 = true
  damage : damaged mine = true → hasEvent u 37 ∧ regF u (Reg.loop_ERRA + 1) 8 8 = min 255 (regF s (Reg.loop_ERRA + 1) 8 8 + 1)
  enum : hdrEnum h = true → hasEvent u 40
  mirror : ∀ a : Fin 64, ∀ ws, mine[a.val]? = some ws → letterOk a ws = true → (reg32 s Reg.loop_MBASE).getLsbD 31 = true →
    s.loop.dropMirror = false → ∀ i : Fin 8, isSpad (mirrorBase s a + i.val) = true → refusal s .loop (mirrorBase s a + i.val) 1 true = none →
      wLogNow s = [] → spadGet u (mirrorBase s a + i.val) = if i.val = 7 then h.h0 else ws[i]
  lost : ∀ a : Fin 64, hdrEnum h = false → loopAddr s ≠ some a.val → watchBit s a = true → lostBit s a = false → 2 ≤ s.loop.miss[a] →
    present mine a.val = false → lostBit u a = true ∧ hasEvent u 38

theorem backValid_valid (turn : Nat) (h : Header) (slots : List (Vector Word 8)) (trailer : Word × Word) (s : State) :
    BackValid h (slots.take (hdrN h)) s (backValid turn h slots trailer s) := by
  have hkept := backValid_kept turn h slots trailer s
  have hbegun := backBegun_begun turn h (slots.take (hdrN h)) s
  have heq := backValid_eq turn h slots trailer s
  generalize hmine : slots.take (hdrN h) = mine at hkept hbegun heq ⊢
  dsimp only at hkept
  generalize backBegun turn h mine s = t at hkept hbegun heq
  generalize backValid turn h slots trailer s = u at hkept heq ⊢
  refine ⟨(hkept.reg _ (by decide)).trans hbegun.seq, (regF_of_reg (hkept.reg _ (by decide)) 0 7).trans hbegun.rinfo,
    hkept.lastBack.trans hbegun.lastBack, hkept.backSeen.trans hbegun.backSeen, hkept.events _ hbegun.shown,
    hkept.missDue.trans hbegun.missDue, fun x hon hlive => ?_, fun hd => ?_, fun he => ?_, ?_, ?_⟩
  · have hthr : u.thr = t.thr := hkept.thr
    rw [thread, hthr]
    exact hbegun.latch x hon hlive
  · obtain ⟨hev, hcnt⟩ := hbegun.damage hd
    exact ⟨hkept.events _ hev, (regF_of_reg (hkept.reg _ (by decide)) 8 8).trans hcnt⟩
  · rw [heq]
    exact (backKept_backAgain trailer _).events _ (hasEvent_backEnded he mine _)
  · intro a ws hws hok hon hdrop i hspad href hlog
    have hbase : mirrorBase t a = mirrorBase s a := by rw [mirrorBase, mirrorBase, hbegun.mbase]
    have hw : LoopWrites t := LoopWrites.of_mem hbegun.mem hbegun.now (by rw [LoopWrites, hlog]; nofun)
    have hin := spadGet_letterSlots hws hok i.isLt (by rw [hbegun.mbase]; exact hon) (hbegun.dropMirror.trans hdrop)
      (by rw [hbase, hbegun.refusal]; exact href) (by rw [hbase]; exact hspad) hw h.h0.toNat
    have hmem : u.mem = (lettersIn h.h0.toNat mine t).mem := hkept.mem
    rw [spadGet_congr hmem, ← hbase, lettersIn, hin, mirrorWords_getD]
    exact if_congr Iff.rfl (by rw [wd, BitVec.ofNat_toNat]; rfl) rfl
  · intro a hplain haddr hwatch hlost hmiss habsent
    obtain ⟨hw, hl⟩ := hbegun.partner a
    obtain ⟨hbit, hev⟩ := backJudged_lost (hbegun.addr ▸ haddr) (hw.trans hwatch) (hl.trans hlost) (hbegun.miss ▸ hmiss) habsent h
    rw [heq, backEnded_plain hplain, lostBit_backAgain]
    exact ⟨hbit, (backKept_backAgain trailer _).events _ hev⟩

end Sys2Proof.Machine

/-! ## The rules of the Loop, settled (R879, R885) -/

namespace Sys2Proof.Machine

/-- The back leg is of the round under way. -/
def ofRound (h : Header) (s : State) : Bool := headerOk h && h.h0.toNat == s.loop.seq

/-- A back leg of the round has come; one in error counts towards a fold. -/
def backTaken (h : Header) (s : State) : State :=
  if ofRound h s || s.loop.fold then setLoop (fun l => { l with backSeen := true }) s
  else setLoop (fun l => { l with badBacks := l.badBacks + 1, foldNext := decide (1 ≤ l.badBacks) })
    (setLoop (fun l => { l with backSeen := true }) s)

theorem backTaken_eq (h : Header) (s : State) : ∃ badBacks foldNext,
    backTaken h s = { s with loop := { s.loop with backSeen := true, badBacks := badBacks, foldNext := foldNext } } := by
  unfold backTaken
  split
  · exact ⟨s.loop.badBacks, s.loop.foldNext, rfl⟩
  · exact ⟨_, _, rfl⟩

theorem backLeg_eq (b : Bool) (turn : Nat) (h : Header) (slots : List (Vector Word 8)) (trailer : Word × Word) (s : State) :
    backLeg b turn h slots trailer s =
      if !loopRuns s then s
      else if s.loop.fold && b then setLoop (fun l => { l with dnGood := if ofRound h s then l.dnGood + 1 else 0 }) s
      else if s.loop.outStart.isNone then s
      else if headerOk h then backValid turn h slots trailer (backTaken h s)
      else setLoop (fun l => { l with goodBacks := 0 }) (backTaken h s) := rfl

theorem backLeg_stays {b : Bool} {r : State} (hstay : loopRuns r = false ∨ (¬ (r.loop.fold = true ∧ b = true) ∧ r.loop.outStart = none))
    (turn : Nat) (h : Header) (slots : List (Vector Word 8)) (trailer : Word × Word) : backLeg b turn h slots trailer r = r := by
  rw [backLeg_eq]
  rcases hstay with hr | ⟨hturned, hout⟩
  · exact if_pos (by rw [hr]; rfl)
  · have hgone : (r.loop.fold && b) ≠ true := fun hc => hturned (Bool.and_eq_true_iff.mp hc)
    have hnone : r.loop.outStart.isNone = true := by rw [hout]; rfl
    rw [if_neg hgone, if_pos hnone, ite_self]

theorem backLeg_turned {b : Bool} {r : State} (hr : loopRuns r = true) (hturned : r.loop.fold = true ∧ b = true)
    (turn : Nat) (h : Header) (slots : List (Vector Word 8)) (trailer : Word × Word) : backLeg b turn h slots trailer r =
      { r with loop := { r.loop with
        dnGood := if crc16 [h.h0, h.h1, h.h2] = h.h3 ∧ h.h0.toNat = r.loop.seq then r.loop.dnGood + 1 else 0 } } := by
  have hgood : ofRound h r = true ↔ crc16 [h.h0, h.h1, h.h2] = h.h3 ∧ h.h0.toNat = r.loop.seq := by
    rw [ofRound, headerOk, Bool.and_eq_true, beq_iff_eq, beq_iff_eq]
  rw [backLeg_eq, if_neg (by rw [hr]; decide), if_pos (by simpa using hturned)]
  simp only [hgood, setLoop]

theorem backLeg_taken {b : Bool} {r : State} (hr : loopRuns r = true) (hturned : ¬ (r.loop.fold = true ∧ b = true)) (hout : r.loop.outStart ≠ none)
    (turn : Nat) (h : Header) (slots : List (Vector Word 8)) (trailer : Word × Word) : backLeg b turn h slots trailer r =
      if headerOk h then backValid turn h slots trailer (backTaken h r) else setLoop (fun l => { l with goodBacks := 0 }) (backTaken h r) := by
  rw [backLeg_eq, if_neg (by rw [hr]; decide), if_neg (by simpa using hturned), if_neg (by simpa using hout)]

/-- A header in error only counts. -/
theorem backLeg_damaged {h : Header} {r : State} (hbad : headerOk h = false) : let u := setLoop (fun l => { l with goodBacks := 0 }) (backTaken h r)
    u.loop.backSeen = true ∧ u.regs = r.regs ∧ u.intc = r.intc ∧ u.mem = r.mem ∧ u.loop.goodBacks = 0 ∧
      (r.loop.fold = false → u.loop.badBacks = r.loop.badBacks + 1 ∧ u.loop.foldNext = decide (1 ≤ r.loop.badBacks)) := by
  have hround : ofRound h r = false := by rw [ofRound, hbad]; rfl
  unfold backTaken
  rw [hround]
  by_cases hf : r.loop.fold = true
  · rw [if_pos (by rw [hf]; rfl)]
    exact ⟨rfl, rfl, rfl, rfl, rfl, fun h => absurd hf (by rw [h]; decide)⟩
  · rw [if_neg (by simpa using hf)]
    exact ⟨rfl, rfl, rfl, rfl, rfl, fun _ => ⟨rfl, rfl⟩⟩

/-- Settles O56: each row by its outcome lemma; a back leg's by `backLeg_damaged` and `backValid_valid`. -/
theorem loopKeepsItsRounds : Obligations.LoopKeepsItsRounds := by
  unfold Obligations.LoopKeepsItsRounds
  intro s m dt turn b h0 h1 h2 h3 t0 t1 v slots slot hup l h n okh head runs first cnt
  refine ⟨ActsAt.of rfl hup (roundStart_outcome _), ActsAfter.of rfl hup (outLegStart_outcome h _), ActsAfter.of rfl hup ?back,
    ActsAt.of rfl hup (foldTimeout_outcome _), ActsAfter.of rfl hup (enumeration_outcome slot _), Acts.of rfl hup (loopEnumerate_outcome m _),
    ActsAfter.of rfl hup (secondHead_outcome _), ActsAt.of rfl hup (loopSilent_outcome _), ActsAt.of rfl hup (loopEpoch_outcome _),
    Acts.of rfl hup (rstreqWrite_outcome m v _), ActsAt.of rfl hup (rmissPeriod_outcome _)⟩
  case back =>
    generalize ready dt s = r
    have hruns : loopRuns r = true ↔ runs r := loopRuns_iff r
    have hok : headerOk h = true ↔ okh := by rw [headerOk, beq_iff_eq]
    refine ⟨fun hstay => backLeg_stays (hstay.imp_left fun hr => Bool.eq_false_iff.mpr fun hl => hr (hruns.mp hl)) _ _ _ _,
      fun hr hturned => backLeg_turned (hruns.mpr hr) hturned turn h slots (t0, t1), fun hr hturned hout => ?_⟩
    have htaken := backLeg_taken (hruns.mpr hr) hturned hout turn h slots (t0, t1)
    cases hh : headerOk h with
    | false =>
      rw [hh, if_neg (by decide)] at htaken
      obtain ⟨hseen, hrest⟩ := backLeg_damaged (r := r) hh
      rw [htaken]
      exact ⟨hseen, fun _ => hrest, fun hgood => absurd (hok.mpr hgood) (by rw [hh]; decide)⟩
    | true =>
      rw [hh, if_pos rfl] at htaken
      obtain ⟨badBacks, foldNext, heq⟩ := backTaken_eq h r
      rw [heq] at htaken
      have hvalid := backValid_valid turn h slots (t0, t1) { r with loop := { r.loop with backSeen := true, badBacks := badBacks, foldNext := foldNext } }
      rw [← htaken] at hvalid
      exact ⟨hvalid.backSeen, fun hbad => absurd (hok.mp hh) hbad, fun _ => ⟨hvalid.seq, hvalid.rinfo, hvalid.lastBack, hvalid.shown,
        hvalid.missDue, hvalid.latch, hvalid.damage, hvalid.enum, hvalid.mirror, hvalid.lost⟩⟩

end Sys2Proof.Machine

/-! ## What a running instruction rests on: the store buffer, the threads and the comparators -/

namespace Sys2Proof.Machine

/-- The store buffer, the threads and the words of the comparators. -/
def stored (s : State) : List SbEntry × Vector Thread 8 × (Fin 128 → Word) := (s.mem.sbuf, s.thr.th, fun a => xreg s (0x100 + a.val))

@[simp] theorem stored_ite (c : Prop) [Decidable c] (u v : State) :
    stored (if c then u else v) = if c then stored u else stored v := apply_ite stored c u v

@[simp] theorem stored_dite (c : Prop) [Decidable c] (u : c → State) (v : ¬ c → State) :
    stored (if h : c then u h else v h) = if h : c then stored (u h) else stored (v h) := apply_dite stored c u v

theorem stored_cases {c : Prop} [Decidable c] {s u v : State} (hu : stored u = stored s) (hv : stored v = stored s) :
    stored (if c then u else v) = stored s := by
  rw [stored_ite, hu, hv, ite_self]

theorem stored_foldl {α : Type} {f : State → α → State} (hf : ∀ s x, stored (f s x) = stored s) (l : List α) (s : State) :
    stored (l.foldl f s) = stored s := by
  induction l generalizing s with
  | nil => rfl
  | cons x l ih => exact (ih _).trans (hf s x)

/-! ### Words, records and the scratchpad -/

section

variable (s : State)

@[simp] theorem stored_with_lines (x) : stored { s with lines := x } = stored s := rfl

@[simp] theorem stored_with_boot (x) : stored { s with boot := x } = stored s := rfl

@[simp] theorem stored_with_plinth (x) : stored { s with plinth := x } = stored s := rfl

@[simp] theorem stored_with_modes (x) : stored { s with modes := x } = stored s := rfl

@[simp] theorem stored_with_intc (x) : stored { s with intc := x } = stored s := rfl

@[simp] theorem stored_with_fcol (x) : stored { s with fcol := x } = stored s := rfl

@[simp] theorem stored_with_flash (x) : stored { s with flash := x } = stored s := rfl

@[simp] theorem stored_with_cour (x) : stored { s with cour := x } = stored s := rfl

@[simp] theorem stored_with_otp (x) : stored { s with otp := x } = stored s := rfl

@[simp] theorem stored_with_out (x) : stored { s with out := x } = stored s := rfl

@[simp] theorem stored_with_ang (x) : stored { s with ang := x } = stored s := rfl

@[simp] theorem stored_with_evt (x) : stored { s with evt := x } = stored s := rfl

@[simp] theorem stored_with_adc (x) : stored { s with adc := x } = stored s := rfl

@[simp] theorem stored_with_tile (x) : stored { s with tile := x } = stored s := rfl

@[simp] theorem stored_with_trace (x) : stored { s with trace := x } = stored s := rfl

@[simp] theorem stored_with_kern (x) : stored { s with kern := x } = stored s := rfl

@[simp] theorem stored_with_post (x) : stored { s with post := x } = stored s := rfl

@[simp] theorem stored_with_can (x) : stored { s with can := x } = stored s := rfl

@[simp] theorem stored_with_kline (x) : stored { s with kline := x } = stored s := rfl

@[simp] theorem stored_with_loop (x) : stored { s with loop := x } = stored s := rfl

@[simp] theorem stored_with_waili (x) : stored { s with waili := x } = stored s := rfl

@[simp] theorem stored_with_chisel (x) : stored { s with chisel := x } = stored s := rfl

@[simp] theorem stored_with_free (x) : stored { s with free := x } = stored s := rfl

@[simp] theorem stored_with_result (x) : stored { s with result := x } = stored s := rfl

@[simp] theorem stored_with_regs (x y) : stored { s with regs := x, hw := y } = stored s := rfl

end

@[simp] theorem stored_setReg (a : Nat) (v : Word) (s : State) : stored (setReg a v s) = stored s := rfl

@[simp] theorem stored_setReg32 (a : Nat) (v : Pair) (s : State) : stored (setReg32 a v s) = stored s := rfl

@[simp] theorem stored_setRegF (a lo len v : Nat) (s : State) : stored (setRegF a lo len v s) = stored s := rfl

@[simp] theorem stored_setRegBit (a i : Nat) (b : Bool) (s : State) : stored (setRegBit a i b s) = stored s := rfl

@[simp] theorem stored_hwSet (a : Nat) (m : Word) (s : State) : stored (hwSet a m s) = stored s := rfl

@[simp] theorem stored_hwCountF (a lo len n : Nat) (s : State) : stored (hwCountF a lo len n s) = stored s := rfl

@[simp] theorem stored_hwCount (a : Nat) (s : State) : stored (hwCount a s) = stored s := rfl

@[simp] theorem stored_hwWrite (a : Nat) (v : Word) (s : State) : stored (hwWrite a v s) = stored s := rfl

@[simp] theorem stored_regWriteBits (a : Nat) (v : Word) (s : State) : stored (regWriteBits a v s) = stored s := rfl

@[simp] theorem stored_raise (r : Raise) (s : State) : stored (raise r s) = stored s := rfl

@[simp] theorem stored_note (cls : Fin 16) (detail : Word) (s : State) : stored (note cls detail s) = stored s := rfl

@[simp] theorem stored_setPlinth (f : Plinth → Plinth) (s : State) : stored (setPlinth f s) = stored s := rfl

@[simp] theorem stored_setModes (f : Modes → Modes) (s : State) : stored (setModes f s) = stored s := rfl

@[simp] theorem stored_setFcol (f : Fcol → Fcol) (s : State) : stored (setFcol f s) = stored s := rfl

@[simp] theorem stored_setAng (f : Ang → Ang) (s : State) : stored (setAng f s) = stored s := rfl

@[simp] theorem stored_setKern (f : Kern → Kern) (s : State) : stored (setKern f s) = stored s := rfl

@[simp] theorem stored_setKline (f : Kline → Kline) (s : State) : stored (setKline f s) = stored s := rfl

@[simp] theorem stored_setLoop (f : Loop → Loop) (s : State) : stored (setLoop f s) = stored s := rfl

@[simp] theorem stored_setWaili (f : Waili → Waili) (s : State) : stored (setWaili f s) = stored s := rfl

@[simp] theorem stored_setChisel (f : Chisel → Chisel) (s : State) : stored (setChisel f s) = stored s := rfl

@[simp] theorem stored_setCan (k : Fin 2) (f : Can → Can) (s : State) : stored (setCan k f s) = stored s := rfl

@[simp] theorem stored_setConv (k : Fin 2) (f : Conv → Conv) (s : State) : stored (setConv k f s) = stored s := rfl

@[simp] theorem stored_setKnock (n : Fin 2) (w : Option KnockWin) (s : State) : stored (setKnock n w s) = stored s := rfl

@[simp] theorem stored_setIon (n : Fin 4) (e : Option IonEval) (s : State) : stored (setIon n e s) = stored s := rfl

@[simp] theorem stored_setStepper (f : Stepper → Stepper) (s : State) : stored (setStepper f s) = stored s := rfl

@[simp] theorem stored_setChan (c : Fin 8) (f : Chan → Chan) (s : State) : stored (setChan c f s) = stored s := rfl

@[simp] theorem stored_setTile (n : Fin 8) (f : Tile → Tile) (s : State) : stored (setTile n f s) = stored s := rfl

@[simp] theorem stored_setCommit (f : Commit → Commit) (s : State) : stored (setCommit f s) = stored s := rfl

@[simp] theorem stored_spadPut (a : Nat) (v : Word) (s : State) : stored (spadPut a v s) = stored s := rfl

@[simp] theorem stored_setEntWord (n i : Nat) (v : Word) (s : State) : stored (setEntWord n i v s) = stored s := rfl

@[simp] theorem stored_sendOut (tgt : Nat) (on : Bool) (pk : Byte) (s : State) : stored (sendOut tgt on pk s) = stored s := rfl

@[simp] theorem stored_endPulse (tgt : Nat) (s : State) : stored (endPulse tgt s) = stored s := rfl

@[simp] theorem stored_setStage (i : Nat) (f : Stage → Stage) (s : State) : stored (setStage i f s) = stored s := by
  unfold setStage
  split <;> rfl

/-! ### Signals -/

@[simp] theorem stored_takeEvent (n : Fin 96) (s : State) : stored (takeEvent n s) = stored s := by simp [takeEvent]

@[simp] theorem stored_moderated (n : Fin 96) (s : State) : stored (moderated n s) = stored s := by simp [moderated]

@[simp] theorem stored_countEvent (n : Fin 96) (s : State) : stored (countEvent n s) = stored s := by simp [countEvent]

@[simp] theorem stored_signal (n : Fin 96) (s : State) : stored (signal n s) = stored s := by simp [signal]

/-! ### The trace (R1031-R1035) -/

@[simp] theorem stored_setXregF_trstat (lo len v : Nat) (s : State) : stored (setXregF X.trstat lo len v s) = stored s := by
  have hxreg (a : Fin 128) : xreg (setXregF X.trstat lo len v s) (0x100 + a.val) = xreg s (0x100 + a.val) :=
    cget_cset_other _ _ _ (by simp only [X.trstat]; omega)
  exact Prod.ext rfl (Prod.ext rfl (funext hxreg))

@[simp] theorem stored_traceDrain (s : State) : stored (traceDrain s) = stored s := by simp [traceDrain]

@[simp] theorem stored_tracePut (hdr : Nat) (body : List Byte) (stamp : Bool) (s : State) :
    stored (tracePut hdr body stamp s) = stored s := by
  simp [tracePut]

@[simp] theorem stored_traceTime (s : State) : stored (traceTime s) = stored s := by simp [traceTime]

@[simp] theorem stored_traceSync (s : State) : stored (traceSync s) = stored s := by simp [traceSync]

@[simp] theorem stored_traceEmit (hdr : Nat) (body : List Byte) (stamp : Bool) (s : State) :
    stored (traceEmit hdr body stamp s) = stored s := by
  simp [traceEmit]

@[simp] theorem stored_traceMode (code : Nat) (s : State) : stored (traceMode code s) = stored s := by simp [traceMode]

@[simp] theorem stored_traceHalt (t cause pc : Nat) (s : State) : stored (traceHalt t cause pc s) = stored s := by simp [traceHalt]

@[simp] theorem stored_stampWrite (t : Fin 8) (p : Nat) (v : Word) (s : State) : stored (stampWrite t p v s) = stored s := by
  simp [stampWrite]

end Sys2Proof.Machine

/-! ## What writes to registers leave alone: modes, clocks, angle and entries -/

namespace Sys2Proof.Machine

/-! ### The armature (R173-R189) -/

@[simp] theorem stored_storeCrc (s : State) : stored (storeCrc s) = stored s := by simp [storeCrc]

@[simp] theorem stored_wcCheck (s : State) : stored (wcCheck s).2 = stored s := by simp [wcCheck]

@[simp] theorem stored_armCheck (s : State) : stored (armCheck s) = stored s := by simp [armCheck]

@[simp] theorem stored_commitStop (ok tmo : Bool) (s : State) : stored (commitStop ok tmo s) = stored s := by simp [commitStop]

@[simp] theorem stored_commitTake (s : State) : stored (commitTake s) = stored s := by simp [commitTake]

@[simp] theorem stored_armCommit (m : Master) (s : State) : stored (armCommit m s) = stored s := by
  unfold armCommit
  dsimp only
  split_ifs <;> simp only [stored_commitStop, stored_wcCheck, stored_with_flash, stored_setRegBit, stored_setCommit, stored_commitTake,
    stored_storeCrc, stored_spadPut]

@[simp] theorem stored_armcmdWrite (m : Master) (v : Word) (s : State) : stored (armcmdWrite m v s) = stored s := by simp [armcmdWrite]

/-! ### Fences and modes (R195-R231) -/

@[simp] theorem stored_returnUnit (i : Nat) (s : State) : stored (returnUnit i s) = stored s := by simp [returnUnit]

@[simp] theorem stored_putFence (i : Nat) (b : Bool) (s : State) : stored (putFence i b s) = stored s := by simp [putFence]

@[simp] theorem stored_liftBit (i : Nat) (s : State) : stored (liftBit i s) = stored s := by simp [liftBit]

@[simp] theorem stored_liftWrite (m : Master) (lo : Nat) (v : Word) (s : State) : stored (liftWrite m lo v s) = stored s := by
  simp [liftWrite, stored_foldl]

@[simp] theorem stored_setRefuse (c : Nat) (s : State) : stored (setRefuse c s) = stored s := by simp [setRefuse]

@[simp] theorem stored_leaveSetup (w : Bool) (r : ModeReq) (s : State) : stored (leaveSetup w r s) = stored s := by
  unfold leaveSetup
  split <;> simp

@[simp] theorem stored_setPh (k : Fin 8) (n : Fin 4) (i : Nat) (v : Word) (s : State) : stored (setPh k n i v s) = stored s := by
  simp [setPh]

@[simp] theorem stored_clearPh (s : State) : stored (clearPh s) = stored s :=
  (stored_setReg32 _ _ _).trans (stored_foldl (fun s _ => stored_foldl (fun s _ => stored_setPh _ _ _ _ s) _ s) _ s)

@[simp] theorem stored_startHoming (s : State) : stored (startHoming s) = stored s := by simp [startHoming]

@[simp] theorem stored_firstHoming (s : State) : stored (firstHoming s) = stored s := by simp [firstHoming]

@[simp] theorem stored_modeSignal (code : Nat) (s : State) : stored (modeSignal code s) = stored s := by simp [modeSignal]

@[simp] theorem stored_evalCut (s : State) : stored (evalCut s) = stored s := by simp [evalCut]

@[simp] theorem stored_setEnt (n : Nat) (e : Ent) (s : State) : stored (setEnt n e s) = stored s := by simp [setEnt]

@[simp] theorem stored_targetOff (tgt : Nat) (pk : Byte) (s : State) : stored (targetOff tgt pk s) = stored s := by simp [targetOff]

@[simp] theorem stored_knockAbort (n : Fin 2) (s : State) : stored (knockAbort n s) = stored s := by
  unfold knockAbort
  split <;> simp

@[simp] theorem stored_endHolds (n : Nat) (s : State) : stored (endHolds n s) = stored s := by simp [endHolds, stored_foldl]

@[simp] theorem stored_cancelEnt (n : Nat) (s : State) : stored (cancelEnt n s) = stored s := by simp [cancelEnt]

@[simp] theorem stored_cancelWhere (p : Nat → Ent → Bool) (s : State) : stored (cancelWhere p s) = stored s := by
  simp [cancelWhere, stored_foldl]

@[simp] theorem stored_kernFree (s : State) : stored (kernFree s) = stored s := by simp [kernFree, stored_foldl]

@[simp] theorem stored_enterSetup (s : State) : stored (enterSetup s) = stored s := by
  unfold enterSetup
  extract_lets t v w
  have hv : stored v = stored s := by
    rw [stored_clearPh, stored_kernFree, stored_cancelWhere]
  have hw : stored w = stored s := (stored_setModes _ v).trans hv
  exact (stored_modeSignal 0 _).trans ((stored_evalCut _).trans ((stored_with_plinth w _).trans hw))

@[simp] theorem stored_putEntry (i : Nat) (w0 w1 w2 w3 : Nat) (s : State) : stored (putEntry i w0 w1 w2 w3 s) = stored s := by
  simp [putEntry]

@[simp] theorem stored_placeFixed (what n i : Nat) (s : State) : stored (placeFixed what n i s) = stored s := by simp [placeFixed]

@[simp] theorem stored_armEnt (n : Nat) (s : State) : stored (armEnt n s) = stored s := by simp [armEnt]

@[simp] theorem stored_allocGo (l : List (Nat × Nat × Nat)) (failed : List Nat) (s : State) : stored (allocGo l failed s) = stored s := by
  induction l generalizing failed s with
  | nil => rfl
  | cons x l ih =>
    obtain ⟨k, n, what⟩ := x
    unfold allocGo
    split
    · exact ih _ _
    · split <;> simp [ih]

@[simp] theorem stored_kernAlloc (s : State) : stored (kernAlloc s) = stored s := by simp [kernAlloc]

@[simp] theorem stored_kernArmModes (s : State) : stored (kernArmModes s) = stored s := by simp [kernArmModes]

@[simp] theorem stored_enterLimp (src cause : Nat) (s : State) : stored (enterLimp src cause s) = stored s := by
  unfold enterLimp
  extract_lets was r t u v
  have hu : stored u = stored s := (stored_setReg _ _ _).trans (stored_clearPh _)
  exact (stored_modeSignal 2 _).trans ((stored_evalCut _).trans
    (stored_cases ((stored_kernAlloc _).trans ((stored_firstHoming _).trans hu)) hu))

@[simp] theorem stored_enterRun (s : State) : stored (enterRun s) = stored s := by simp [enterRun]

@[simp] theorem stored_modeRequest (w : Bool) (r : ModeReq) (s : State) : stored (modeRequest w r s) = stored s := by
  unfold modeRequest
  repeat' split
  all_goals simp

@[simp] theorem stored_requestBy (m : Master) (r : ModeReq) (s : State) : stored (requestBy m r s) = stored s := by simp [requestBy]

@[simp] theorem stored_modecmdWrite (m : Master) (v : Word) (s : State) : stored (modecmdWrite m v s) = stored s := by simp [modecmdWrite]

/-! ### Sleep, supply and the windows (R108-R126) -/

@[simp] theorem stored_setPstat (i : Nat) (b : Bool) (s : State) : stored (setPstat i b s) = stored s := by simp [setPstat]

@[simp] theorem stored_sleepRequest (m : Master) (s : State) : stored (sleepRequest m s) = stored s := by simp [sleepRequest]

@[simp] theorem stored_sleepWithdraw (m : Master) (s : State) : stored (sleepWithdraw m s) = stored s := by simp [sleepWithdraw]

@[simp] theorem stored_srefWrite (m : Master) (v : Word) (s : State) : stored (srefWrite m v s) = stored s := by simp [srefWrite]

@[simp] theorem stored_ehoursWrite (m : Master) (a : Nat) (v : Word) (s : State) : stored (ehoursWrite m a v s) = stored s := by
  simp [ehoursWrite]

@[simp] theorem stored_plinthOp (m : Master) (a : Nat) (v : Word) (s : State) : stored (plinthOp m a v s) = stored s := by simp [plinthOp]

@[simp] theorem stored_monOp (m : Master) (a : Nat) (v : Word) (s : State) : stored (monOp m a v s) = stored s := by simp [monOp]

/-! ### The Angle Tracker (R570-R619) -/

@[simp] theorem stored_cycleChanged (old : Nat) (s : State) : stored (cycleChanged old s) = stored s := by simp [cycleChanged]

@[simp] theorem stored_angCfgWritten (s : State) : stored (angCfgWritten s) = stored s := by simp [angCfgWritten]

@[simp] theorem stored_phcmdWrite (m : Master) (v : Word) (s : State) : stored (phcmdWrite m v s) = stored s := by simp [phcmdWrite]

@[simp] theorem stored_angWrite (m : Master) (a : Nat) (v : Word) (s : State) : stored (angWrite m a v s) = stored s := by simp [angWrite]

/-! ### Entries (R620-R660) -/

@[simp] theorem stored_evtResult (m : Master) (res idx : Nat) (s : State) : stored (evtResult m res idx s) = stored s := by
  unfold evtResult
  split <;> simp

@[simp] theorem stored_evtAlloc (m : Master) (s : State) : stored (evtAlloc m s) = stored s := by
  unfold evtAlloc
  split <;> simp only [stored_evtResult, stored_signal, stored_setEnt, stored_setEntWord]

@[simp] theorem stored_evtArm (m : Master) (n : Nat) (s : State) : stored (evtArm m n s) = stored s := by simp [evtArm]

@[simp] theorem stored_evtCancel (m : Master) (n : Nat) (s : State) : stored (evtCancel m n s) = stored s := by simp [evtCancel]

@[simp] theorem stored_evtRelease (m : Master) (n : Nat) (s : State) : stored (evtRelease m n s) = stored s := by simp [evtRelease]

@[simp] theorem stored_evtQuery (m : Master) (n : Nat) (s : State) : stored (evtQuery m n s) = stored s := by
  unfold evtQuery
  exact stored_cases (stored_evtResult ..) (stored_evtResult ..)

@[simp] theorem stored_evtCommand (m : Master) (v : Word) (s : State) : stored (evtCommand m v s) = stored s := by
  unfold evtCommand
  repeat' split
  all_goals simp

@[simp] theorem stored_kpartWrite (m : Master) (v : Word) (s : State) : stored (kpartWrite m v s) = stored s := by
  unfold kpartWrite
  dsimp only
  split_ifs <;> simp only [stored_with_evt, stored_regWriteBits]

@[simp] theorem stored_evtWrite (m : Master) (a : Nat) (v : Word) (s : State) : stored (evtWrite m a v s) = stored s := by simp [evtWrite]

@[simp] theorem stored_entryWrite (m : Master) (n i : Nat) (v : Word) (s : State) : stored (entryWrite m n i v s) = stored s := by
  simp [entryWrite]

end Sys2Proof.Machine

/-! ## What writes to registers leave alone: memory reads, the controllers and the lines -/

namespace Sys2Proof.Machine

/-! ### Reads (R485-R502) -/

@[simp] theorem stored_parityError (r : Reader) (a : Nat) (s : State) : stored (parityError r a s) = stored s := by
  unfold parityError
  dsimp only
  rw [stored_raise, stored_hwCount, stored_hwSet, stored_setReg32]

@[simp] theorem stored_spadRead (r : Reader) (a w : Nat) (s : State) : stored (spadRead r a w s).2 = stored s := by
  induction w generalizing a s with
  | zero => rfl
  | succ w ih =>
    unfold spadRead
    split
    · exact stored_parityError r a s
    · have hrest := ih (a + 1) s
      dsimp only
      split <;> rename_i heq <;> rwa [heq] at hrest

@[simp] theorem stored_recordViol (m : Master) (a : Nat) (wr : Bool) (why : Why) (s : State) : stored (recordViol m a wr why s) = stored s := by
  unfold recordViol
  split
  · rfl
  · rw [stored_signal, stored_hwSet, stored_setReg32]

@[simp] theorem stored_claimRead (t : Fin 8) (s : State) : stored (claimRead t s).2 = stored s := by
  unfold claimRead
  split <;> simp

@[simp] theorem stored_claimAccess (m : Master) (t : Fin 8) (side : Bool) (s : State) : stored (claimAccess m t side s).2 = stored s := by
  unfold claimAccess
  repeat' split
  all_goals simp

@[simp] theorem stored_kfifoPop (n : Fin 2) (s : State) : stored (kfifoPop n s).2 = stored s := by simp [kfifoPop]

@[simp] theorem stored_rxdRead (side : Bool) (s : State) : stored (rxdRead side s).2 = stored s := by
  unfold rxdRead
  repeat' split
  all_goals simp

@[simp] theorem stored_vtrxRead (m : Master) (s : State) : stored (vtrxRead m s).2 = stored s := by
  unfold vtrxRead
  split <;> simp

@[simp] theorem stored_rcRead (a : Nat) (s : State) : stored (rcRead a s).2 = stored s := by simp [rcRead]

@[simp] theorem stored_regReadSide (m : Master) (a : Nat) (s : State) : stored (regReadSide m a s).2 = stored s := by
  unfold regReadSide
  dsimp only
  repeat' split
  all_goals simp

@[simp] theorem stored_regRead (m : Master) (side : Bool) (a : Nat) (s : State) : stored (regRead m side a s).2 = stored s := by
  unfold regRead
  split <;> simp

@[simp] theorem stored_readRegs (m : Master) (side : Bool) (a w : Nat) (s : State) : stored (readRegs m side a w s).2 = stored s := by
  induction w generalizing a s with
  | zero => rfl
  | succ w ih =>
    refine (ih (a + 1) _).trans ?_
    split
    · exact stored_regRead m side a s
    · rfl

@[simp] theorem stored_readUnchecked (m : Master) (side : Bool) (a w : Nat) (s : State) :
    stored (readUnchecked m side a w s).2 = stored s := by
  unfold readUnchecked
  split
  · have hread := stored_spadRead (readerOf m) a w s
    split <;> rename_i heq <;> rwa [heq] at hread
  · exact stored_readRegs m side a w s

@[simp] theorem stored_memRead (m : Master) (side : Bool) (a w : Nat) (s : State) : stored (memRead m side a w s).2 = stored s := by
  unfold memRead
  split <;> simp

@[simp] theorem stored_startWord (t : Fin 8) (a : Nat) (s : State) : stored (startWord t a s).2 = stored s := by
  unfold startWord
  split <;> simp

@[simp] theorem stored_startWords (t : Fin 8) (a n : Nat) (s : State) : stored (startWords t a n s).2 = stored s := by
  induction n generalizing a s with
  | zero => rfl
  | succ n ih =>
    have hword := stored_startWord t (a % 0x100000) s
    unfold startWords
    split
    · rename_i ws u heq
      rw [heq] at hword
      have hrest := ih (a + 1) u
      split <;> rename_i heq' <;> rw [heq'] at hrest <;> exact hrest.trans hword
    · rename_i heq
      rwa [heq] at hword

/-! ### The microstore, the interrupt controller, the Courier and the Tile Unit -/

@[simp] theorem stored_mcRefused (s : State) : stored (mcRefused s) = stored s := by simp [mcRefused]

@[simp] theorem stored_mcNext (s : State) : stored (mcNext s) = stored s := by simp [mcNext]

@[simp] theorem stored_wcsPut (a : Nat) (v : Sys2Proof.Micro) (s : State) : stored (wcsPut a v s) = stored s := by simp [wcsPut]

@[simp] theorem stored_mcStore (s : State) : stored (mcStore s) = stored s := by simp [mcStore]

@[simp] theorem stored_mcLoad (s : State) : stored (mcLoad s) = stored s := by
  unfold mcLoad
  exact (stored_mcNext _).trans (stored_foldl (fun _ _ => stored_setReg ..) _ s)

@[simp] theorem stored_mccmdWrite (m : Master) (v : Word) (s : State) : stored (mccmdWrite m v s) = stored s := by simp [mccmdWrite]

@[simp] theorem stored_mcWrite (m : Master) (a : Nat) (v : Word) (s : State) : stored (mcWrite m a v s) = stored s := by simp [mcWrite]

@[simp] theorem stored_wcmtWrite (m : Master) (v : Word) (s : State) : stored (wcmtWrite m v s) = stored s := by
  unfold wcmtWrite
  split <;> rfl

theorem stored_eachSource {f : Fin 96 → State → State} (hf : ∀ n s, stored (f n s) = stored s) (m : Master) (w : Fin 6) (v : Word) (s : State) :
    stored (eachSource m w v f s) = stored s := by
  unfold eachSource
  exact stored_foldl (fun s b => stored_cases (hf _ s) rfl) _ s

@[simp] theorem stored_endHold (g : Fin 12) (s : State) : stored (endHold g s) = stored s := by simp [endHold, stored_foldl]

@[simp] theorem stored_pendSet (n : Fin 96) (s : State) : stored (pendSet n s) = stored s := by simp [pendSet]

@[simp] theorem stored_pendClr (n : Fin 96) (s : State) : stored (pendClr n s) = stored s := by simp [pendClr]

@[simp] theorem stored_maskSet (n : Fin 96) (s : State) : stored (maskSet n s) = stored s := by simp [maskSet]

@[simp] theorem stored_maskClr (n : Fin 96) (s : State) : stored (maskClr n s) = stored s := by simp [maskClr]

@[simp] theorem stored_courStart (m : Master) (c : Fin 8) (s : State) : stored (courStart m c s) = stored s := by simp [courStart]

@[simp] theorem stored_courOp (m : Master) (a : Nat) (v : Word) (s : State) : stored (courOp m a v s) = stored s := by
  simp [courOp, stored_foldl]

@[simp] theorem stored_setTsr (n : Fin 8) (r : Nat) (s : State) : stored (setTsr n r s) = stored s := by simp [setTsr]

@[simp] theorem stored_tileFree (n : Fin 8) (s : State) : stored (tileFree n s) = stored s := by simp [tileFree]

@[simp] theorem stored_tileWrite (m : Master) (a : Nat) (v : Word) (s : State) : stored (tileWrite m a v s) = stored s := by
  simp [tileWrite, stored_foldl]

/-! ### The converters, the outputs, the Kernel and POST -/

@[simp] theorem stored_swseqWrite (m : Master) (k : Fin 2) (mask : BitVec 24) (s : State) : stored (swseqWrite m k mask s) = stored s := by
  simp [swseqWrite]

@[simp] theorem stored_adcWrite (m : Master) (a : Nat) (v : Word) (s : State) : stored (adcWrite m a v s) = stored s := by simp [adcWrite]

@[simp] theorem stored_swcmdWrite (m : Master) (v : Word) (pk : Byte) (s : State) : stored (swcmdWrite m v pk s) = stored s := by
  simp [swcmdWrite]

@[simp] theorem stored_clearDiagBit (i : Fin 16) (b : Nat) (s : State) : stored (clearDiagBit i b s) = stored s := by simp [clearDiagBit]

@[simp] theorem stored_diagWrite (i : Fin 16) (v : Word) (s : State) : stored (diagWrite i v s) = stored s := by
  simp [diagWrite, stored_foldl]

@[simp] theorem stored_stepcmdWrite (m : Master) (v : Word) (s : State) : stored (stepcmdWrite m v s) = stored s := by simp [stepcmdWrite]

@[simp] theorem stored_outWrite (m : Master) (a : Nat) (v : Word) (s : State) : stored (outWrite m a v s) = stored s := by
  unfold outWrite
  dsimp only
  split_ifs <;> simp only [stored_regWriteBits, stored_swcmdWrite, stored_with_out, stored_diagWrite, stored_stepcmdWrite]

@[simp] theorem stored_kernHandover (s : State) : stored (kernHandover s) = stored s := by simp [kernHandover]

@[simp] theorem stored_mreqWrite (m : Master) (v : Word) (s : State) : stored (mreqWrite m v s) = stored s := by
  unfold mreqWrite
  dsimp only
  split_ifs <;> simp only [stored_kernHandover, stored_setKern, stored_setReg]

@[simp] theorem stored_setPhPend (k : Fin 8) (n : Fin 4) (b : Bool) (s : State) : stored (setPhPend k n b s) = stored s := by
  simp [setPhPend]

@[simp] theorem stored_phFill (m : Master) (k : Fin 8) (n : Fin 4) (seq : Nat) (s : State) : stored (phFill m k n seq s) = stored s := by
  simp [phFill]

@[simp] theorem stored_phWrite (m : Master) (a : Nat) (v : Word) (s : State) : stored (phWrite m a v s) = stored s := by simp [phWrite]

@[simp] theorem stored_kernWrite (m : Master) (a : Nat) (v : Word) (s : State) : stored (kernWrite m a v s) = stored s := by
  simp [kernWrite]

@[simp] theorem stored_postFire (n : Fin 4) (s : State) : stored (postFire n s) = stored s := by simp [postFire]

@[simp] theorem stored_postWrite (m : Master) (a : Nat) (v : Word) (s : State) : stored (postWrite m a v s) = stored s := by
  unfold postWrite
  split
  · exact (stored_regWriteBits a v _).trans (stored_foldl (fun s n => stored_postFire n s) _ s)
  · rfl

/-! ### Waili, the Loop and the K-line -/

@[simp] theorem stored_streamLine (code : Byte) (chars : List Byte) (s : State) : stored (streamLine code chars s) = stored s := by
  simp [streamLine]

@[simp] theorem stored_wchars (l : List Byte) (s : State) : stored (wchars l s) = stored s := by simp [wchars]

@[simp] theorem stored_wline (sfx : Bool) (l : List Byte) (s : State) : stored (wline sfx l s) = stored s := by simp [wline]

@[simp] theorem stored_respond (c : WCtx) (l : List Byte) (s : State) : stored (respond c l s) = stored s := by
  unfold respond
  split
  · simp
  · split <;> simp

@[simp] theorem stored_usrFinal (c : WCtx) (code : Nat) (s : State) : stored (usrFinal c code s) = stored s := by simp [usrFinal]

@[simp] theorem stored_usrRemote (c : WCtx) (n : Nat) (s : State) : stored (usrRemote c n s) = stored s := by
  induction n generalizing s with
  | zero => rfl
  | succ n ih =>
    unfold usrRemote
    split
    · refine (ih _).trans (stored_cases ?_ ?_) <;> simp
    · split
      · refine (stored_usrFinal ..).trans (stored_cases rfl ?_)
        simp
      · rfl

@[simp] theorem stored_usrBegin (c : WCtx) (s : State) : stored (usrBegin c s) = stored s := by simp [usrBegin]

@[simp] theorem stored_usrLineEnd (c : WCtx) (s : State) : stored (usrLineEnd c s) = stored s := by simp [usrLineEnd]

@[simp] theorem stored_usrMove (c : WCtx) (s : State) : stored (usrMove c s) = stored s := by
  unfold usrMove
  repeat' split
  all_goals simp

@[simp] theorem stored_usrPump (s : State) : stored (usrPump s) = stored s := by
  unfold usrPump
  split <;> simp

@[simp] theorem stored_utxWrite (m : Master) (c : Byte) (s : State) : stored (utxWrite m c s) = stored s := by
  unfold utxWrite
  split <;> simp

@[simp] theorem stored_uendWrite (m : Master) (v : Word) (s : State) : stored (uendWrite m v s) = stored s := by
  unfold uendWrite
  split <;> simp

@[simp] theorem stored_divWrite (v : Word) (s : State) : stored (divWrite v s) = stored s := by simp [divWrite]

@[simp] theorem stored_wailiWrite (m : Master) (a : Nat) (v : Word) (s : State) : stored (wailiWrite m a v s) = stored s := by
  simp [wailiWrite]

@[simp] theorem stored_loopEnumerate (m : Master) (s : State) : stored (loopEnumerate m s) = stored s := by simp [loopEnumerate]

@[simp] theorem stored_rstreqWrite (m : Master) (v : Word) (s : State) : stored (rstreqWrite m v s) = stored s := by simp [rstreqWrite]

@[simp] theorem stored_partnerRaise (d : Nat) (s : State) : stored (partnerRaise d s) = stored s := by simp [partnerRaise]

@[simp] theorem stored_pinCheck (s : State) : stored (pinCheck s) = stored s := by simp [pinCheck]

@[simp] theorem stored_loopWrite (m : Master) (a : Nat) (v : Word) (s : State) : stored (loopWrite m a v s) = stored s := by
  simp [loopWrite]

@[simp] theorem stored_txdWrite (m : Master) (b : Byte) (s : State) : stored (txdWrite m b s) = stored s := by simp [txdWrite]

@[simp] theorem stored_klineResult (r : Nat) (s : State) : stored (klineResult r s) = stored s := by simp [klineResult]

@[simp] theorem stored_klineStart (m : Master) (fiveBaud : Bool) (s : State) : stored (klineStart m fiveBaud s) = stored s := by
  simp [klineStart]

@[simp] theorem stored_klineCancel (m : Master) (s : State) : stored (klineCancel m s) = stored s := by simp [klineCancel]

@[simp] theorem stored_klineWrite (m : Master) (a : Nat) (v : Word) (s : State) : stored (klineWrite m a v s) = stored s := by
  simp [klineWrite]

/-! ### The CAN controllers -/

theorem stored_eachObj {f : Fin 32 → State → State} (hf : ∀ j s, stored (f j s) = stored s) (p : Pair) (s : State) :
    stored (eachObj p f s) = stored s := stored_foldl (fun s j => stored_cases (hf j s) rfl) _ s

theorem stored_canChange {k : Fin 2} {f : State → State} (hf : ∀ s, stored (f s) = stored s) (s : State) :
    stored (canChange k f s) = stored s := stored_cases (hf s) ((stored_signal _ _).trans (hf s))

@[simp] theorem stored_canStart (k : Fin 2) (mode : Nat) (s : State) : stored (canStart k mode s) = stored s :=
  stored_canChange (fun s => stored_cases (by rw [stored_setCan, stored_setRegF]) (stored_hwSet ..)) s

@[simp] theorem stored_setAbt (k : Fin 2) (j : Fin 32) (s : State) : stored (setAbt k j s) = stored s := by simp [setAbt]

@[simp] theorem stored_canOff (k : Fin 2) (s : State) : stored (canOff k s) = stored s :=
  stored_canChange (fun s => by rw [stored_setCan, stored_setRegF, stored_setReg32, stored_eachObj fun j s => stored_setAbt k j s]) s

@[simp] theorem stored_mctlWrite (m : Master) (k : Fin 2) (v : Word) (s : State) : stored (mctlWrite m k v s) = stored s := by
  unfold mctlWrite
  dsimp only
  split_ifs <;> simp only [stored_canStart, stored_canOff, stored_setRegF, stored_with_plinth, stored_setRegBit]

@[simp] theorem stored_canPick (k : Fin 2) (s : State) : stored (canPick k s) = stored s := by simp [canPick]

@[simp] theorem stored_requestTx (k : Fin 2) (j : Fin 32) (s : State) : stored (requestTx k j s) = stored s := by
  unfold requestTx
  dsimp only
  split_ifs <;> simp

@[simp] theorem stored_txreqWrite (m : Master) (k : Fin 2) (v : Pair) (s : State) : stored (txreqWrite m k v s) = stored s := by
  unfold txreqWrite
  split
  · exact (stored_canPick ..).trans (stored_eachObj (fun j s => stored_requestTx k j s) v s)
  · rfl

@[simp] theorem stored_clearTxreq (k : Fin 2) (j : Fin 32) (s : State) : stored (clearTxreq k j s) = stored s := stored_setReg32 ..

@[simp] theorem stored_cancelTx (k : Fin 2) (j : Fin 32) (s : State) : stored (cancelTx k j s) = stored s := by simp [cancelTx]

@[simp] theorem stored_txcanWrite (m : Master) (k : Fin 2) (v : Pair) (s : State) : stored (txcanWrite m k v s) = stored s := by
  unfold txcanWrite
  exact stored_cases (stored_eachObj (fun j s => stored_cancelTx k j s) v s) rfl

@[simp] theorem stored_canWrite (m : Master) (k : Fin 2) (a : Nat) (v : Word) (s : State) : stored (canWrite m k a v s) = stored s := by
  unfold canWrite
  refine stored_cases (stored_mctlWrite ..) (stored_cases (stored_cases (stored_regWriteBits ..) rfl) (stored_cases (stored_txreqWrite ..)
    (stored_cases (stored_txcanWrite ..) (stored_cases rfl ?_))))
  split <;> simp

/-! ### Faults, the watchdog, the dump and the flash -/

@[simp] theorem stored_setLv (c : Fin 16) (h : Nat) (s : State) : stored (setLv c h s) = stored s := by simp [setLv]

@[simp] theorem stored_clearClass (c : Fin 16) (s : State) : stored (clearClass c s) = stored s := by simp [clearClass]

@[simp] theorem stored_fswWrite (m : Master) (v : Word) (s : State) : stored (fswWrite m v s) = stored s := by simp [fswWrite, stored_foldl]

@[simp] theorem stored_ackClass (c : Nat) (s : State) : stored (ackClass c s) = stored s := by simp [ackClass]

@[simp] theorem stored_ackWrite (m : Master) (v : Word) (s : State) : stored (ackWrite m v s) = stored s := by simp [ackWrite, stored_foldl]

@[simp] theorem stored_hclrWrite (m : Master) (s : State) : stored (hclrWrite m s) = stored s := by simp [hclrWrite]

@[simp] theorem stored_wdArm (s : State) : stored (wdArm s) = stored s := by simp [wdArm]

@[simp] theorem stored_wdService (m : Master) (s : State) : stored (wdService m s) = stored s := by
  unfold wdService
  dsimp only
  split
  · rfl
  · split
    · split <;> simp
    · exact (stored_with_chisel ..).trans (stored_setFcol ..)
    · rfl

@[simp] theorem stored_spadPuts (a : Nat) (vs : List Word) (s : State) : stored (spadPuts a vs s) = stored s := by
  induction vs generalizing a s with
  | nil => rfl
  | cons v vs ih => exact (ih _ _).trans (stored_spadPut a v s)

@[simp] theorem stored_spadWriteBy (m a : Nat) (vs : List Word) (s : State) : stored (spadWriteBy m a vs s) = stored s := by
  unfold spadWriteBy
  exact (stored_spadPuts a vs _).trans (stored_cases (stored_setRegBit ..) rfl)

@[simp] theorem stored_spadWrite (m : Master) (a : Nat) (vs : List Word) (s : State) : stored (spadWrite m a vs s).2 = stored s := by
  unfold spadWrite
  dsimp only
  split
  · exact stored_hwCount ..
  · exact stored_spadWriteBy ..

@[simp] theorem stored_dumpPut (i : Nat) (ws : List Word) (s : State) : stored (dumpPut i ws s) = stored s := by simp [dumpPut]

@[simp] theorem stored_dumpStart (m : Master) (s : State) : stored (dumpStart m s) = stored s := by simp [dumpStart]

@[simp] theorem stored_setRem (c : Fin 8) (s : State) : stored (setRem c s) = stored s := by simp [setRem]

@[simp] theorem stored_writeStat (c : Fin 8) (code : Nat) (s : State) : stored (writeStat c code s) = stored s := by
  unfold writeStat
  dsimp only
  split
  · simp
  · have hput := stored_spadWrite (.courier c) ((reg s (Reg.cour_CUR c)).toNat * 8 + 1)
      [wd (code + (chan s c).collided.toNat * 0x800)] s
    split <;> rename_i heq <;> rw [heq] at hput
    · exact hput
    · exact (stored_spadWriteBy ..).trans hput

@[simp] theorem stored_flashUndefined (a n : Nat) (s : State) : stored (flashUndefined a n s) = stored s := by
  induction n generalizing a s with
  | zero => rfl
  | succ n ih => exact ih (a + 1) _

@[simp] theorem stored_flashHalf (k : FlashBusy) (a : Nat) (s : State) : stored (flashHalf k a s) = stored s := by
  unfold flashHalf
  split <;> simp

@[simp] theorem stored_cutFlash (k : FlashBusy) (a : Nat) (s : State) : stored (cutFlash k a s) = stored s := (stored_with_flash ..).trans (stored_flashHalf ..)

@[simp] theorem stored_flashLeave (o : FlashOwner) (s : State) : stored (flashLeave o s) = stored s := by simp [flashLeave]

@[simp] theorem stored_flashRelease (s : State) : stored (flashRelease s) = stored s := by
  unfold flashRelease
  dsimp only
  split
  · exact stored_cases ((stored_commitTake _).trans (stored_with_flash ..)) (stored_with_flash ..)
  · exact stored_with_flash ..

@[simp] theorem stored_chanIdle (c : Fin 8) (s : State) : stored (chanIdle c s) = stored s := by simp [chanIdle]

@[simp] theorem stored_dropWork (k : Fin 2) (s : State) : stored (dropWork k s) = stored s := by simp [dropWork, stored_foldl]

@[simp] theorem stored_adcAbort (k : Fin 2) (s : State) : stored (adcAbort k s) = stored s := by simp [adcAbort]

@[simp] theorem stored_loopAbort (s : State) : stored (loopAbort s) = stored s := by simp [loopAbort]

/-! ### The debug block and the pins -/

@[simp] theorem stored_vttxWrite (m : Master) (c : Byte) (s : State) : stored (vttxWrite m c s) = stored s := by
  unfold vttxWrite
  split <;> simp

@[simp] theorem stored_stampRegWrite (m : Master) (p : Nat) (v : Word) (s : State) : stored (stampRegWrite m p v s) = stored s := by
  unfold stampRegWrite
  split <;> simp

@[simp] theorem stored_dbgWrite (m : Master) (a : Nat) (v : Word) (s : State) : stored (dbgWrite m a v s) = stored s := by simp [dbgWrite]

@[simp] theorem stored_pcfgWrite (m : Master) (a : Nat) (v : Word) (s : State) : stored (pcfgWrite m a v s) = stored s := by
  simp [pcfgWrite]

@[simp] theorem stored_gpioOp (m : Master) (a : Nat) (v : Word) (s : State) : stored (gpioOp m a v s) = stored s := by simp [gpioOp]

end Sys2Proof.Machine

/-! ## What writes to registers leave of a running thread (R234-R259, R967-R971) -/

namespace Sys2Proof.Machine

/-- A thread that executes instructions. -/
abbrev Executing (h : Thread) : Prop := h.st = .ready ∧ h.begun = true

/-- Of a running thread its latch, its timer and the requests for it may change. -/
def ThreadKept (h k : Thread) : Prop :=
  ∃ latch tmr tmrLeft stopReq haltReq abortDue inTile, k = { h with
    latch := latch, tmr := tmr, tmrLeft := tmrLeft, stopReq := stopReq, haltReq := haltReq, abortDue := abortDue, inTile := inTile }

theorem ThreadKept.refl (h : Thread) : ThreadKept h h := ⟨_, _, _, _, _, _, _, rfl⟩

theorem ThreadKept.trans {h k l : Thread} (hk : ThreadKept h k) (hl : ThreadKept k l) : ThreadKept h l := by
  obtain ⟨_, _, _, _, _, _, _, rfl⟩ := hk
  obtain ⟨_, _, _, _, _, _, _, rfl⟩ := hl
  exact ⟨_, _, _, _, _, _, _, rfl⟩

theorem ThreadKept.running {h k : Thread} (hk : ThreadKept h k) (hr : Executing h) : Executing k := by
  obtain ⟨_, _, _, _, _, _, _, rfl⟩ := hk
  exact hr

/-- The store buffer and the comparators are the same, and so is what a running thread computes with. -/
structure RunKept (s u : State) : Prop where
  sbuf : u.mem.sbuf = s.mem.sbuf
  cmp : ∀ a : Fin 128, xreg u (0x100 + a.val) = xreg s (0x100 + a.val)
  th : ∀ t, Executing (thread s t) → ThreadKept (thread s t) (thread u t)

theorem RunKept.of_stored {s u : State} (h : stored u = stored s) : RunKept s u := by
  obtain ⟨hsbuf, hth, hcmp⟩ : u.mem.sbuf = s.mem.sbuf ∧ u.thr.th = s.thr.th ∧
      (fun a : Fin 128 => xreg u (0x100 + a.val)) = fun a : Fin 128 => xreg s (0x100 + a.val) := by
    simpa [stored] using h
  exact ⟨hsbuf, congrFun hcmp, fun t _ => by rw [thread, thread, hth]; exact .refl _⟩

theorem RunKept.refl (s : State) : RunKept s s := .of_stored rfl

theorem RunKept.trans {s t u : State} (h : RunKept s t) (h' : RunKept t u) : RunKept s u :=
  ⟨h'.sbuf.trans h.sbuf, fun a => (h'.cmp a).trans (h.cmp a),
    fun x hx => (h.th x hx).trans (h'.th x ((h.th x hx).running hx))⟩

theorem RunKept.ite {c : Prop} [Decidable c] {s u v : State} (hu : RunKept s u) (hv : RunKept s v) :
    RunKept s (if c then u else v) := by
  split
  · exact hu
  · exact hv

theorem runKept_foldl {α : Type} {f : State → α → State} (hf : ∀ s x, RunKept s (f s x)) (l : List α) (s : State) :
    RunKept s (l.foldl f s) := by
  induction l generalizing s with
  | nil => exact .refl s
  | cons x l ih => exact (hf s x).trans (ih _)

theorem runKept_setThread {t : Fin 8} {f : Thread → Thread} {s : State}
    (hf : Executing (thread s t) → ThreadKept (thread s t) (f (thread s t))) : RunKept s (setThread t f s) where
  sbuf := rfl
  cmp _ := rfl
  th x hx := by
    by_cases h : x = t
    · subst h
      rw [thread_setThread_same]
      exact hf hx
    · rw [thread_setThread_other f s h]
      exact .refl _

/-- The other records of the threads' block. -/
theorem runKept_of_th {s u : State} (hmem : u.mem = s.mem) (hx : u.xregs = s.xregs) (hth : u.thr.th = s.thr.th) : RunKept s u :=
  .of_stored (Prod.ext (congrArg Mem.sbuf hmem) (Prod.ext hth (funext fun a => congrArg (cget xReset · (0x100 + a.val)) hx)))

/-! ### Events, aborts reached and seals -/

theorem runKept_setEvent (t : Fin 8) (b : Nat) (s : State) : RunKept s (setEvent t b s) :=
  .ite (.refl s) (runKept_setThread fun _ => ⟨_, _, _, _, _, _, _, rfl⟩)

theorem runKept_writeResultReg (r kind res idx : Nat) (s : State) : RunKept s (writeResultReg r kind res idx s) :=
  .of_stored (stored_setReg ..)

theorem runKept_abortDone (kind idx : Nat) (s : State) : RunKept s (abortDone kind idx s) := by
  unfold abortDone
  refine RunKept.trans (.of_stored (stored_with_fcol s _)) (runKept_foldl (fun s a => runKept_foldl (fun s r => ?_) _ s) _ _)
  exact (runKept_writeResultReg r kind 3 idx s).trans (.ite (runKept_setEvent _ _ _) (.refl _))

theorem runKept_releaseSeal (n : Fin 32) (t : Fin 8) (s : State) : RunKept s (releaseSeal n t s) := by
  unfold releaseSeal
  split
  · dsimp only
    refine RunKept.trans ?_ (runKept_setEvent _ 12 _)
    exact runKept_of_th rfl rfl rfl
  · exact runKept_of_th rfl rfl rfl

@[simp] theorem stored_completeHeld (t : Fin 8) (s : State) : stored (completeHeld t s) = stored s := by
  unfold completeHeld
  split <;> rfl

/-! ### Stops, halts and starts -/

theorem runKept_stopThread {t : Fin 8} {s : State} (h : ¬ Executing (thread s t)) : RunKept s (stopThread t s) := by
  unfold stopThread
  extract_lets a _ b c d _ e
  have ha : RunKept s a := runKept_setThread fun hr => absurd hr h
  have hb : RunKept a b := runKept_of_th rfl rfl rfl
  have hc : RunKept b c := runKept_foldl (fun s n => .ite (runKept_releaseSeal n t s) (.refl s)) _ b
  have hd : RunKept c d := .of_stored ((stored_completeHeld ..).trans (stored_setReg ..))
  have he : RunKept d e := .of_stored (stored_with_tile d _)
  exact ((((ha.trans hb).trans hc).trans hd).trans he).trans (runKept_abortDone 1 t e)

theorem runKept_requestStop (t : Fin 8) (s : State) : RunKept s (requestStop t s) := by
  unfold requestStop
  refine .ite (.refl s) ?_
  dsimp only
  split
  · rename_i hst
    exact runKept_setThread fun hr => by rw [hr.1] at hst; cases hst
  · rename_i hst
    split
    · exact runKept_setThread fun _ => ⟨_, _, _, _, _, _, _, rfl⟩
    · rename_i hb
      exact runKept_stopThread fun hr => hb hr.2
  · rename_i hst
    exact runKept_stopThread fun hr => by rw [hr.1] at hst; cases hst
  · rename_i hst
    exact runKept_stopThread fun hr => by rw [hr.1] at hst; cases hst

theorem runKept_requestHalt (c : HaltCause) (t : Fin 8) (s : State) : RunKept s (requestHalt c t s) :=
  .ite (.refl s) (runKept_setThread fun _ => ⟨_, _, _, _, _, _, _, rfl⟩)

theorem runKept_crossHalt (t : Fin 8) (c : HaltCause) (s : State) : RunKept s (crossHalt t c s) :=
  .ite (runKept_foldl (fun s u => .ite (.refl s) (runKept_requestHalt _ u s)) _ s) (.refl s)

theorem runKept_beginThread {t : Fin 8} {s : State} (h : ¬ Executing (thread s t)) (d0 : Word) (blk : List Word) :
    RunKept s (beginThread t d0 blk s) := by
  have hset (f : Thread → Thread) : RunKept s (setThread t f s) := runKept_setThread fun hr => absurd hr h
  unfold beginThread
  exact .ite (((hset _).trans (.of_stored (stored_traceHalt ..))).trans (runKept_crossHalt _ _ _)) (hset _)

theorem thread_of_stored {s u : State} (h : stored u = stored s) (t : Fin 8) : thread u t = thread s t :=
  congrArg (fun c : List SbEntry × Vector Thread 8 × (Fin 128 → Word) => c.2.1[t]) h

theorem runKept_startRun {t : Fin 8} {s : State} (h : (thread s t).st = .stopped) (arg : Word) : RunKept s (startRun t arg s) := by
  have hno : ¬ Executing (thread s t) := fun hr => by rw [hr.1] at h; cases h
  have hset (f : Thread → Thread) : RunKept s (setThread t f s) := runKept_setThread fun hr => absurd hr hno
  unfold startRun
  refine .ite (hset _) ?_
  have hwords (a n : Nat) := stored_startWords t a n (setThread t (fun h => { h with starting := none }) s)
  have hth : (thread (setThread t (fun h => { h with starting := none }) s) t).st = .stopped := by
    rw [thread_setThread_same]
    exact h
  have hfirst := hset (fun h => { h with starting := none })
  dsimp only
  generalize setThread t (fun h => { h with starting := none }) s = a at hwords hth hfirst
  have hread := hwords (fld (reg32 a (Reg.thr_SBASE t)) 0 20) 29
  split <;> rename_i heq <;> rw [heq] at hread
  · refine (hfirst.trans (.of_stored hread)).trans (runKept_beginThread (fun hr => ?_) _ _)
    have hst := hr.1
    rw [thread_of_stored hread, hth] at hst
    cases hst
  · exact (hfirst.trans (.of_stored hread)).trans (.of_stored (stored_note ..))

theorem runKept_startThread (t : Fin 8) (s : State) : RunKept s (startThread t s) := by
  unfold startThread
  dsimp only
  split_ifs with h
  · exact .refl s
  · simp only [Bool.or_eq_true, bne_iff_ne, ne_eq, not_or, not_not] at h
    exact runKept_startRun h.1.1 _

theorem runKept_ctlWrite (m : Master) (v : Word) (s : State) : RunKept s (ctlWrite m v s) :=
  .ite (runKept_foldl (fun s t => .ite (runKept_startThread t s) (.ite (runKept_requestStop t s) (.refl s))) _ s) (.refl s)

/-! ### Timers -/

theorem runKept_setTimer (t : Fin 8) (v : Word) (s : State) : RunKept s (setTimer t v s) :=
  runKept_setThread fun _ => by
    split
    · exact ⟨_, _, _, _, _, _, _, rfl⟩
    · exact ⟨_, _, _, _, _, _, _, rfl⟩

theorem runKept_thrWrite (m : Master) (a : Nat) (v : Word) (s : State) : RunKept s (thrWrite m a v s) := by
  unfold thrWrite
  dsimp only
  split_ifs
  · exact runKept_of_th rfl rfl rfl
  · exact .refl s
  · exact .of_stored (stored_wcmtWrite ..)
  · exact .ite (runKept_setTimer _ v s) (.refl s)
  · exact .of_stored (stored_regWriteBits ..)
  · exact .refl s

/-! ### The completion of an interrupt -/

@[simp] theorem stored_complWrite (t : Fin 8) (v : Word) (s : State) : stored (complWrite t v s) = stored s := by
  unfold complWrite
  refine stored_cases rfl (stored_cases (stored_completeHeld ..) ?_)
  rw [stored_raise, stored_hwSet, stored_setReg32]

@[simp] theorem stored_intcWrite (m : Master) (a : Nat) (v : Word) (s : State) : stored (intcWrite m a v s) = stored s := by
  have hset (w : Fin 6) := stored_eachSource stored_pendSet m w v s
  have hclr (w : Fin 6) := stored_eachSource stored_pendClr m w v s
  have hmask (w : Fin 6) := stored_eachSource stored_maskSet m w v s
  have hunmask (w : Fin 6) := stored_eachSource stored_maskClr m w v s
  simp [intcWrite, hset, hclr, hmask, hunmask]

/-! ### Aborts -/

theorem runKept_tileLeave (t : Fin 8) (s : State) : RunKept s (tileLeave t s) :=
  RunKept.trans (runKept_setThread fun _ => ⟨_, _, _, _, _, _, _, rfl⟩) (.of_stored (stored_with_tile _ _))

theorem runKept_tileAbort (s : State) : RunKept s (tileAbort s) := by
  unfold tileAbort
  refine RunKept.trans (runKept_foldl (fun s q => runKept_tileLeave q.t s) s.tile.wait s) ?_
  dsimp only
  split
  · split
    · exact .refl _
    · exact runKept_setThread fun _ => ⟨_, _, _, _, _, _, _, rfl⟩
  · exact .refl _

theorem runKept_chanAbort (c : Fin 8) (s : State) : RunKept s (chanAbort c s) := by
  have hstat : stored (if (chan s c).fetch then s else writeStat c 0x4000 (setRem c s)) = stored s :=
    stored_cases rfl ((stored_writeStat ..).trans (stored_setRem ..))
  unfold chanAbort
  refine .ite (.refl s) ?_
  dsimp only
  generalize (if (chan s c).fetch then s else writeStat c 0x4000 (setRem c s)) = t at hstat
  refine RunKept.trans (.of_stored ?_) (runKept_abortDone 2 c.val _)
  refine (stored_chanIdle c _).trans ?_
  split
  · exact stored_cases hstat ((stored_cutFlash ..).trans hstat)
  · exact hstat

theorem runKept_abortBegin (kind idx : Nat) (s : State) : RunKept s (abortBegin kind idx s) := by
  unfold abortBegin
  split
  · have hleave : RunKept s (if (thread s (thrIdx idx)).inTile then tileLeave (thrIdx idx) s else s) :=
      .ite (runKept_tileLeave (thrIdx idx) s) (.refl s)
    exact hleave.trans (runKept_setThread fun _ => ⟨_, _, _, _, _, _, _, rfl⟩)
  · exact runKept_chanAbort _ s
  · exact runKept_tileAbort s
  · exact .of_stored (stored_adcAbort ..)
  · exact .of_stored (stored_loopAbort ..)
  · exact .of_stored (stored_canOff ..)
  · exact .refl s

theorem runKept_abortDecide (r kind idx : Nat) (s : State) : RunKept s (abortDecide r kind idx s) := by
  unfold abortDecide
  split
  · exact RunKept.trans (.of_stored (stored_setFcol ..)) (runKept_writeResultReg ..)
  · split
    · exact (runKept_writeResultReg r kind 2 idx s).trans (.ite (runKept_setEvent ..) (.refl _))
    · exact ((runKept_abortBegin kind idx s).trans (runKept_writeResultReg r kind 1 idx _)).trans (.of_stored (stored_setFcol ..))

theorem runKept_abortRequest (r kind idx : Nat) (s : State) : RunKept s (abortRequest r kind idx s) := by
  unfold abortRequest
  split_ifs
  · exact .refl s
  · exact runKept_writeResultReg ..
  · exact RunKept.trans (runKept_writeResultReg ..) (.of_stored (stored_setFcol ..))
  · exact runKept_abortDecide ..

theorem runKept_abcmdWrite (m : Master) (v : Word) (s : State) : RunKept s (abcmdWrite m v s) := by
  unfold abcmdWrite
  split
  · exact runKept_abortRequest ..
  · exact .refl s

theorem runKept_fcolWrite (m : Master) (a : Nat) (v : Word) (s : State) : RunKept s (fcolWrite m a v s) :=
  .ite (.of_stored (stored_fswWrite ..)) (.ite (.of_stored (stored_ackWrite ..)) (.ite (.ite (.of_stored (stored_hclrWrite ..)) (.refl s))
    (.ite (.ite (.of_stored (stored_wdService ..)) (.refl s)) (.ite (.ite (.of_stored (stored_dumpStart ..)) (.refl s))
      (.ite (runKept_abcmdWrite m v s) (.ite (.of_stored (stored_regWriteBits ..)) (.refl s)))))))

/-! ### All registers, and drains of the store buffer -/

@[simp] theorem stored_sysWrite (m : Master) (a : Nat) (v : Word) (s : State) : stored (sysWrite m a v s) = stored s := by
  simp [sysWrite]

theorem runKept_regWrite (m : Master) (a : Nat) (v : Word) (s : State) : RunKept s (regWrite m a v s) := by
  unfold regWrite
  split
  · exact .of_stored (stored_sysWrite ..)
  · exact .of_stored (stored_plinthOp ..)
  · exact .of_stored (stored_monOp ..)
  · exact .ite (runKept_ctlWrite m v s) (.ite (.of_stored (stored_mcWrite ..)) (runKept_thrWrite m a v s))
  · exact .of_stored (stored_intcWrite ..)
  · exact .ite (.of_stored (stored_regWriteBits ..)) (.refl s)
  · exact .of_stored (stored_courOp ..)
  · exact .of_stored (stored_tileWrite ..)
  · exact .of_stored (stored_angWrite ..)
  · exact .of_stored (stored_evtWrite ..)
  · exact .of_stored (stored_adcWrite ..)
  · exact .of_stored (stored_outWrite ..)
  · exact .of_stored (stored_kernWrite ..)
  · exact .of_stored (stored_wailiWrite ..)
  · exact .of_stored (stored_loopWrite ..)
  · exact .of_stored (stored_canWrite ..)
  · exact .of_stored (stored_canWrite ..)
  · exact .of_stored (stored_klineWrite ..)
  · exact runKept_fcolWrite m a v s
  · exact .of_stored (stored_dbgWrite ..)
  · exact .of_stored (stored_gpioOp ..)
  · exact .of_stored (stored_postWrite ..)
  · exact .of_stored (stored_regWriteBits ..)

theorem runKept_writeRegs (m : Master) (a : Nat) (vs : List Word) (s : State) : RunKept s (writeRegs m a vs s) := by
  induction vs generalizing a s with
  | nil => exact .refl s
  | cons v vs ih =>
    refine RunKept.trans ?_ (ih (a + 1) _)
    exact .ite (runKept_regWrite m a v s) (.ite (.of_stored (stored_entryWrite ..)) (.refl s))

theorem runKept_writeUnchecked (m : Master) (a : Nat) (vs : List Word) (s : State) : RunKept s (writeUnchecked m a vs s).2 := by
  unfold writeUnchecked
  split
  · have hput := stored_spadWrite m a vs s
    split <;> rename_i heq <;> rw [heq] at hput <;> exact .of_stored hput
  · exact runKept_writeRegs m a vs s

/-- A drain takes the oldest entry. -/
theorem sbDrain_kept (s : State) : (sbDrain s).mem.sbuf = s.mem.sbuf.tail ∧ RunKept { s with mem := { s.mem with sbuf := s.mem.sbuf.tail } } (sbDrain s) := by
  unfold sbDrain
  split
  · rename_i h
    exact ⟨by rw [h]; rfl, .of_stored (by rw [h]; exact Prod.ext h rfl)⟩
  · rename_i e rest h
    have hkept := runKept_writeUnchecked (.thread e.thread) e.addr (sbData e) { s with mem := { s.mem with sbuf := rest } }
    rw [h]
    exact ⟨hkept.sbuf, hkept⟩

/-- As many drains as there are entries empty the buffer. -/
theorem sbDrains_kept (n : Nat) (s : State) (hn : s.mem.sbuf.length = n) :
    (sbDrains n s).mem.sbuf = [] ∧ RunKept { s with mem := { s.mem with sbuf := [] } } (sbDrains n s) := by
  induction n generalizing s with
  | zero =>
    have hnil := List.eq_nil_of_length_eq_zero hn
    exact ⟨hnil, .of_stored (Prod.ext hnil rfl)⟩
  | succ n ih =>
    obtain ⟨hsbuf, hkept⟩ := sbDrain_kept s
    obtain ⟨hend, hrest⟩ := ih (sbDrain s) (by rw [hsbuf, List.length_tail, hn]; rfl)
    have hstep : RunKept { s with mem := { s.mem with sbuf := [] } } { sbDrain s with mem := { (sbDrain s).mem with sbuf := [] } } :=
      ⟨rfl, hkept.cmp, hkept.th⟩
    exact ⟨hend, hstep.trans hrest⟩

end Sys2Proof.Machine

/-! ## An instruction that executes: how it begins, is served and meets the comparators (R353-R356, R366, R1024-R1028) -/

namespace Sys2Proof.Machine

/-! ### One thread's record, set twice -/

theorem setThread_setThread (t : Fin 8) (f g : Thread → Thread) (s : State) : setThread t g (setThread t f s) = setThread t (fun h => g (f h)) s := by
  unfold setThread
  congr 2
  simp

theorem setThread_congr {t : Fin 8} {f g : Thread → Thread} {s : State} (h : f (thread s t) = g (thread s t)) :
    setThread t f s = setThread t g s := by
  unfold setThread
  rw [show f s.thr.th[t] = g s.thr.th[t] from h]

/-! ### Comparators that do not look at the thread (R1024-R1028) -/

/-- No comparator looks at thread `t`. -/
def Unwatched (s : State) (t : Fin 8) : Prop := ∀ c < 8, cmpFor s t c = false

theorem unwatched_of_quiet {r : State} {t : Fin 8} (h : dataQuiet r t = true) : Unwatched r t ∧ (thread r t).breakDue = none := by
  simp only [dataQuiet, Bool.and_eq_true, Option.isNone_iff_eq_none, List.all_eq_true, Bool.not_eq_true'] at h
  exact ⟨fun c hc => h.2 ⟨c, hc⟩ (List.mem_finRange _), h.1⟩

theorem cmpFor_congr {s u : State} {t : Fin 8} (hx : ∀ a : Fin 128, xreg u (0x100 + a.val) = xreg s (0x100 + a.val))
    (hctx : (thread u t).ctxid = (thread s t).ctxid) {c : Nat} (hc : c < 8) : cmpFor u t c = cmpFor s t c := by
  have hl : cmpReg u c 0 = cmpReg s c 0 := hx ⟨16 * c, by omega⟩
  have hsel : cmpReg u c 1 = cmpReg s c 1 := hx ⟨16 * c + 1, by omega⟩
  rw [cmpFor, cmpFor, hl, hsel, hctx]

theorem Unwatched.congr {s u : State} {t : Fin 8} (h : Unwatched s t) (hx : ∀ a : Fin 128, xreg u (0x100 + a.val) = xreg s (0x100 + a.val))
    (hctx : (thread u t).ctxid = (thread s t).ctxid) : Unwatched u t := fun c hc => (cmpFor_congr hx hctx hc).trans (h c hc)

theorem matchSet_nil {s : State} {t : Fin 8} {hit : Nat → Option Nat} (h : ∀ c < 8, hit c = none) : matchSet s t hit = [] := by
  have hfold : ∀ (l : List Nat), (∀ c ∈ l, c < 8) → l.foldl (fun ms c =>
      match hit c with
      | none => ms
      | some a =>
        let before := ms.any (fun m => m.1 + 1 == c)
        let ok := c == 0 || (match cmpCond s c with
          | 1 => (thread s t).seqArm.getLsbD c
          | 2 => before
          | _ => true)
        if ok then ms ++ [(c, a)] else ms) ([] : List (Nat × Nat)) = [] := by
    intro l
    induction l with
    | nil => exact fun _ => rfl
    | cons c l ih =>
      intro hl
      rw [List.foldl_cons, h c (hl c List.mem_cons_self)]
      exact ih fun d hd => hl d (List.mem_cons_of_mem c hd)
  exact hfold (List.range 8) fun c hc => List.mem_range.mp hc

theorem execHit_none {s : State} {t : Fin 8} (h : Unwatched s t) (pc : Nat) {c : Nat} (hc : c < 8) : execHit s t pc c = none := by
  rw [execHit, h c hc]
  rfl

theorem dataHit_none {s : State} {t : Fin 8} (h : Unwatched s t) (acc : List Seen) {c : Nat} (hc : c < 8) : dataHit s t acc c = none := by
  unfold dataHit
  exact if_pos (by rw [h c hc]; rfl)

theorem execCompare_unwatched {s : State} {t : Fin 8} (h : Unwatched s t) : execCompare t s = (none, s) := by
  unfold execCompare
  dsimp only
  split
  · rfl
  · rw [matchSet_nil fun c hc => execHit_none h _ hc]
    rfl

theorem dataCompare_unwatched {s : State} {t : Fin 8} (h : Unwatched s t) (pc : Nat) (acc : List Seen) : dataCompare t pc acc s = s := by
  unfold dataCompare
  rw [matchSet_nil (s := s) (hit := fun c => (execHit s t pc c).orElse fun _ => dataHit s t acc c) fun c hc => by
    rw [execHit_none h _ hc, dataHit_none h acc hc]; rfl]
  rfl

/-! ### The instruction begins -/

/-- What the beginning of an instruction leaves of its thread. -/
def begins (h : Thread) : Thread := { h with begun := true, unmatched := false }

theorem beginInstr_unwatched {r : State} {t : Fin 8} (h : Unwatched r t) : beginInstr t r = (none, setThread t begins r) := by
  have hu : Unwatched (setThread t (fun h => { h with begun := true }) r) t :=
    h.congr (fun _ => rfl) (by rw [thread_setThread_same])
  unfold beginInstr
  rw [execCompare_unwatched hu]
  exact congrArg (Prod.mk none) (setThread_setThread t (fun h => { h with begun := true }) (fun h => { h with unmatched := false }) r)

/-! ### The microwords are served (R241, R366) -/

theorem applyWheel_eq (s : State) : ∃ regs thr, applyWheel s = { s with regs := regs, thr := thr } ∧ thr.th = s.thr.th := by
  have hfold : ∀ (l : List (Fin 4)) (s : State), ∃ regs,
      l.foldl (fun s w => setReg (Reg.thr_WHEEL0 + w.val) s.thr.shadow[w] s) s = { s with regs := regs } := by
    intro l
    induction l with
    | nil => exact fun s => ⟨s.regs, rfl⟩
    | cons w l ih =>
      intro s
      obtain ⟨regs, h⟩ := ih (setReg (Reg.thr_WHEEL0 + w.val) s.thr.shadow[w] s)
      exact ⟨regs, h⟩
  obtain ⟨regs, h⟩ := hfold (List.finRange 4) s
  unfold applyWheel
  rw [h]
  exact ⟨regs, _, rfl, rfl⟩

/-- Time passes and the wheel turns: memory, the comparators and every thread stay. -/
theorem serve_kept (t : Fin 8) (c : Nat) (s : State) : (serve t c s).mem = s.mem ∧ (serve t c s).xregs = s.xregs ∧
    (serve t c s).thr.th = s.thr.th := by
  unfold serve
  extract_lets need stale w0 w a _ b
  obtain ⟨ticks, out, regs, hw, intc, raises, ha⟩ := elapse_eq (w.ticks * clkTicks s) s
  have hb : b.mem = s.mem ∧ b.xregs = s.xregs ∧ b.thr.th = s.thr.th := by
    have hmem : a.mem = s.mem := (congrArg State.mem ha :)
    have hx : a.xregs = s.xregs := (congrArg State.xregs ha :)
    have hthr : a.thr = s.thr := (congrArg State.thr ha :)
    have hth : b.thr.th = a.thr.th := rfl
    exact ⟨hmem, hx, hth.trans (congrArg Thr.th hthr)⟩
  split
  · obtain ⟨_, _, h, hth⟩ := applyWheel_eq b
    rw [h]
    exact ⟨hb.1, hb.2.1, hth.trans hb.2.2⟩
  · exact hb

/-- The state in which an instruction's body acts. -/
theorem issued_kept {r : State} {t : Fin 8} (h : Unwatched r t) (pre : List Prefix) (op : Op) :
    (issued r t pre op).mem = r.mem ∧ (issued r t pre op).xregs = r.xregs ∧ thread (issued r t pre op) t = begins (thread r t) := by
  have hbegin : (beginInstr t r).2 = setThread t begins r := by rw [beginInstr_unwatched h]
  obtain ⟨hmem, hx, hth⟩ := serve_kept t (costOf pre op) (setThread t begins r)
  unfold issued
  rw [hbegin]
  refine ⟨hmem, hx, ?_⟩
  rw [thread, hth]
  exact thread_setThread_same t begins r

/-! ### The instruction reaches its body -/

theorem executes_facts {r : State} {t : Fin 8} {pre : List Prefix} {op : Op} (h : executes r t pre op = true) :
    canIssue r t = true ∧ (decodedLen r t pre op).isSome = true ∧ placementFail (thread r t) (nextPc r t pre op) op = none ∧
      guardPasses (thread r t).psw pre = true ∧ sealHeld r t pre = true := by
  simp only [executes, comesToGuard, Bool.and_eq_true, Option.isNone_iff_eq_none] at h
  obtain ⟨⟨⟨⟨⟨hissue, -⟩, hlen⟩, hplace⟩, hguard⟩, hseal⟩ := h
  exact ⟨hissue, hlen, hplace, hguard, hseal⟩

/-- An instruction that executes while no comparator looks comes to its body with its microwords served. -/
theorem runInstr_executes {r : State} {t : Fin 8} {pre : List Prefix} {op : Op} (h : executes r t pre op = true) (hq : Unwatched r t) :
    ∃ len, runInstr t pre op r = boundary t (thread r t).stepping (applyRes t pre op (nextPc r t pre op)
      (bodyOf t pre len (nextPc r t pre op) op (issued r t pre op)) (issued r t pre op)) := by
  obtain ⟨hissue, hlen, hplace, hguard, hseal⟩ := executes_facts h
  have hth : thread (setThread t begins r) t = begins (thread r t) := thread_setThread_same t begins r
  have hdec : ∃ d, decodeInstr (directDisc (thread r t)) (dispatchWord r) (thread r t).pc.toNat (encodeInstr pre op) = .inr d := by
    unfold decodedLen at hlen
    split at hlen
    · cases hlen
    · exact ⟨_, by assumption⟩
  obtain ⟨d, hd⟩ := hdec
  have hnext : nextPc r t pre op = (thread r t).pc + BitVec.ofNat 17 d.len := by
    rw [nextPc, decodedLen, hd]
    rfl
  refine ⟨d.len, ?_⟩
  rw [runInstr, if_pos hissue]
  congr 1
  have hd' : decodeInstr (directDisc (thread (setThread t begins r) t)) (dispatchWord (setThread t begins r))
      (thread (setThread t begins r) t).pc.toNat (encodeInstr pre op) = .inr d := by
    rw [hth]
    exact hd
  have hplace' : placementFail (thread (setThread t begins r) t) ((thread (setThread t begins r) t).pc + BitVec.ofNat 17 d.len) op = none := by
    rw [hth]
    rw [hnext] at hplace
    exact hplace
  have hissued : issued r t pre op = serve t (costOf pre op) (setThread t begins r) := by
    rw [issued, beginInstr_unwatched hq]
  unfold issue
  rw [beginInstr_unwatched hq]
  dsimp only
  rw [hd']
  dsimp only
  rw [hplace']
  dsimp only
  unfold runDecoded
  dsimp only
  have hguard' : guardPasses (thread (setThread t begins r) t).psw pre = true := by
    rw [hth]
    exact hguard
  rw [hguard', if_neg (by decide), show sealHeld (setThread t begins r) t pre = true from hseal, if_neg (by decide), ← hissued, hth, hnext]
  rfl

end Sys2Proof.Machine

/-! ## The end of an instruction that ends plainly, and the boundary behind it (R299-R319, R325, R1016) -/

namespace Sys2Proof.Machine

/-! ### Flags and levels -/

theorem getLsbD_putFld_below (w : Word) {lo : Nat} (len v : Nat) (h : 5 ≤ lo) (i : Fin 5) :
    (putFld w lo len v).getLsbD i = w.getLsbD i := by
  rw [getLsbD_putFld w lo len v i (by omega), if_neg (by omega)]

/-- A step of the shadow touches only the discipline and the pending change. -/
theorem shadowStep_eq (h : Thread) : ∃ psw shadow, shadowStep h = { h with psw := psw, shadow := shadow } ∧
    (∀ i : Fin 5, psw.getLsbD i = h.psw.getLsbD i) ∧ fld psw 8 2 = fld h.psw 8 2 := by
  unfold shadowStep
  split
  · exact ⟨_, _, rfl, fun _ => rfl, rfl⟩
  · rename_i sh _
    split
    · refine ⟨putBit (putBit h.psw pMCP false) pDISC sh.disc, none, rfl, fun i => ?_, ?_⟩
      · exact (getLsbD_putFld_below _ _ _ (by decide) i).trans (getLsbD_putFld_below _ _ _ (by decide) i)
      · exact (fld_putBit_other _ 7 _ 8 2 (by decide) (by decide)).trans (fld_putBit_other _ 6 _ 8 2 (by decide) (by decide))
    · exact ⟨_, _, rfl, fun _ => rfl, rfl⟩

/-- A loop end touches only the levels and the PC. -/
theorem loopEnd_eq (n : Nat) (next : BitVec 17) (h : Thread) : ∃ psw lc pc, loopEnd n next h = { h with psw := psw, lc := lc, pc := pc } ∧
    ∀ i : Fin 5, psw.getLsbD i = h.psw.getLsbD i := by
  induction n generalizing h with
  | zero => exact ⟨_, _, _, rfl, fun _ => rfl⟩
  | succ n ih =>
    unfold loopEnd
    split
    · dsimp only
      split
      · split
        · exact ⟨_, _, _, rfl, fun _ => rfl⟩
        · obtain ⟨psw, lc, pc, heq, hflags⟩ := ih _
          refine ⟨psw, lc, pc, heq, fun i => (hflags i).trans ?_⟩
          exact getLsbD_putFld_below _ _ _ (by decide) i
      · exact ⟨_, _, _, rfl, fun _ => rfl⟩
    · exact ⟨_, _, _, rfl, fun _ => rfl⟩

theorem pc_loopEnd_outside {next : BitVec 17} {h : Thread} (n : Nat) (hend : atLoopEnd h next = false) : (loopEnd (n + 1) next h).pc = next := by
  unfold loopEnd
  unfold atLoopEnd at hend
  split
  · rename_i hd
    rw [dif_pos hd, beq_eq_false_iff_ne] at hend
    rw [if_neg hend]
  · rfl

theorem atLoopEnd_congr {h k : Thread} (hle : k.le = h.le) (hdep : fld k.psw 8 2 = fld h.psw 8 2) (next : BitVec 17) :
    atLoopEnd k next = atLoopEnd h next := by
  simp only [atLoopEnd, ldep, hdep, hle]
  rfl

/-! ### The thread at the end of an instruction -/

/-- What an instruction that ends plainly makes of its thread `h`: loads land, and the PC goes on. -/
structure Ended (next : BitVec 17) (h k : Thread) : Prop where
  regs : k.r = applyLoads h.load h.r
  specials : SpecialsKept h k
  flags : ∀ i : Fin 5, k.psw.getLsbD i = h.psw.getLsbD i
  lr : h.slot = none → k.lr = h.lr
  saved : k.epc = h.epc ∧ k.epsw = h.epsw ∧ k.ecause = h.ecause ∧ k.eaddr = h.eaddr ∧ k.estat = h.estat
  runs : k.st = h.st ∧ k.breakDue = h.breakDue
  pc : h.slot = none → atLoopEnd h next = false → k.pc = next

/-- Loads land and the shadow steps. -/
theorem settleThread_eq (s : State) (acc : List Seen) (h : Thread) : ∃ psw shadow span,
    settleThread { s := s, acc := acc } h = { h with r := applyLoads h.load h.r, load := [], psw := psw, shadow := shadow, span := span } ∧
      (∀ i : Fin 5, psw.getLsbD i = h.psw.getLsbD i) ∧ fld psw 8 2 = fld h.psw 8 2 := by
  obtain ⟨psw, shadow, heq, hflags, hdep⟩ := shadowStep_eq { h with r := applyLoads h.load h.r, load := [] }
  refine ⟨psw, shadow, (settleThread { s := s, acc := acc } h).span, ?_, hflags, hdep⟩
  unfold settleThread
  dsimp only
  rw [if_neg (by decide), heq]

theorem complete_plain {s : State} {t : Fin 8} (next : BitVec 17) (acc : List Seen) (hq : Unwatched s t)
    (hslot : slotPlain (thread s t) = true) :
    ∃ k, Ended next (thread s t) k ∧ complete t next { s := s, acc := acc } = setThread t (fun _ => k) s := by
  obtain ⟨psw, shadow, span, heq, hflags, hdep⟩ := settleThread_eq s acc (thread s t)
  have hout := atLoopEnd_congr (h := thread s t) (k := { thread s t with
    r := applyLoads (thread s t).load (thread s t).r, load := [], psw := psw, shadow := shadow, span := span }) rfl hdep
  have hset : setThread t (settleThread { s := s, acc := acc }) s = setThread t (fun h => { h with
      r := applyLoads h.load h.r, load := [], psw := psw, shadow := shadow, span := span }) s := setThread_congr heq
  unfold complete
  have hcmp : (if acc.isEmpty then s else dataCompare t (thread s t).pc.toNat acc s) = s := by
    rw [dataCompare_unwatched hq, ite_self]
  dsimp only
  rw [hcmp, hset, thread_setThread_same]
  cases hs : (thread s t).slot with
  | none =>
    obtain ⟨psw', lc, pc, hloop, hflags'⟩ := loopEnd_eq 3 next { thread s t with
      r := applyLoads (thread s t).load (thread s t).r, load := [], psw := psw, shadow := shadow, span := span }
    have hpc := pc_loopEnd_outside (next := next) (h := { thread s t with
      r := applyLoads (thread s t).load (thread s t).r, load := [], psw := psw, shadow := shadow, span := span }) 2
    rw [hloop] at hpc
    refine ⟨_, ?_, (setThread_setThread t _ _ s).trans (setThread_congr hloop)⟩
    exact ⟨rfl, ⟨rfl, rfl, rfl, rfl, rfl, rfl, rfl⟩, fun i => (hflags' i).trans (hflags i), fun _ => rfl, ⟨rfl, rfl, rfl, rfl, rfl⟩,
      ⟨rfl, rfl⟩, fun _ hend => hpc ((hout next).trans hend)⟩
  | some sl =>
    have hopen {k : Thread} (hk : (thread s t).slot = none) : k.lr = (thread s t).lr := by rw [hs] at hk; cases hk
    obtain ⟨pc, cont⟩ := sl
    rw [slotPlain, hs] at hslot
    cases cont with
    | jump target =>
      dsimp only [runCont]
      rw [setThread_setThread, setThread_setThread]
      refine ⟨_, ?_, setThread_congr rfl⟩
      exact ⟨rfl, ⟨rfl, rfl, rfl, rfl, rfl, rfl, rfl⟩, hflags, hopen, ⟨rfl, rfl, rfl, rfl, rfl⟩, ⟨rfl, rfl⟩, fun hk _ => by rw [hs] at hk; cases hk⟩
    | bsr target =>
      dsimp only [runCont]
      rw [setThread_setThread, setThread_setThread]
      refine ⟨_, ?_, setThread_congr rfl⟩
      exact ⟨rfl, ⟨rfl, rfl, rfl, rfl, rfl, rfl, rfl⟩, hflags, hopen, ⟨rfl, rfl, rfl, rfl, rfl⟩, ⟨rfl, rfl⟩, fun hk _ => by rw [hs] at hk; cases hk⟩
    | callm m target => cases hslot
    | retm => cases hslot

/-! ### The trace writes itself alone (R1033-R1035) -/

/-- The trace and the debug words may change. -/
def TraceOnly (s u : State) : Prop := ∃ trace xregs, u = { s with trace := trace, xregs := xregs }

theorem TraceOnly.refl (s : State) : TraceOnly s s := ⟨_, _, rfl⟩

theorem TraceOnly.trans {s t u : State} (h : TraceOnly s t) (h' : TraceOnly t u) : TraceOnly s u := by
  obtain ⟨_, _, rfl⟩ := h
  obtain ⟨_, _, rfl⟩ := h'
  exact ⟨_, _, rfl⟩

theorem TraceOnly.ite {c : Prop} [Decidable c] {s u v : State} (hu : TraceOnly s u) (hv : TraceOnly s v) :
    TraceOnly s (if c then u else v) := by
  split
  · exact hu
  · exact hv

theorem traceOnly_put (hdr : Nat) (body : List Byte) (s : State) : TraceOnly s (tracePut hdr body false s) :=
  .ite ⟨_, _, rfl⟩ ⟨_, _, rfl⟩

theorem traceOnly_with (f : Trace → Trace) (s : State) : TraceOnly s { s with trace := f s.trace } := ⟨_, _, rfl⟩

theorem traceOnly_time (s : State) : TraceOnly s (traceTime s) := (traceOnly_put _ _ s).trans ⟨_, _, rfl⟩

theorem traceOnly_sync (s : State) : TraceOnly s (traceSync s) :=
  ((traceOnly_put _ _ s).trans (traceOnly_with (fun t => { t with since := 0 }) _)).trans (traceOnly_time _)

theorem traceOnly_emit (hdr : Nat) (body : List Byte) (s : State) : TraceOnly s (traceEmit hdr body false s) := by
  have hdrain : TraceOnly s (traceDrain s) := .ite ⟨_, _, rfl⟩ (.refl s)
  have hlost (s : State) : TraceOnly s (if s.trace.lost ≠ 0 ∧ s.trace.fifo.length + 3 ≤ 64 then
      tracePut 0x90 [BitVec.ofNat 8 s.trace.lost] false { s with trace := { s.trace with lost := 0 } } else s) :=
    .ite ((traceOnly_with (fun t => { t with lost := 0 }) s).trans (traceOnly_put _ _ _)) (.refl s)
  have hsync (s : State) : TraceOnly s (if 256 ≤ s.trace.since then traceSync s else s) := .ite (traceOnly_sync s) (.refl s)
  have htime (s : State) : TraceOnly s (if s.trace.hi = some ((postmark s).toNat / 65536) then s else traceTime s) :=
    .ite (.refl s) (traceOnly_time s)
  exact (((hdrain.trans (hlost _)).trans (hsync _)).trans (htime _)).trans (traceOnly_put _ _ _)

theorem traceOnly_halt (t cause pc : Nat) (s : State) : TraceOnly s (traceHalt t cause pc s) :=
  .ite (traceOnly_emit _ _ s) (.refl s)

/-! ### A halt at the boundary (R1016, R1020) -/

theorem OnlyThread.refl (t : Fin 8) (s : State) : OnlyThread t s s :=
  ⟨fun _ _ => rfl, rfl, rfl, rfl, rfl, rfl, rfl, rfl, fun _ _ => rfl⟩

theorem OnlyThread.trans {t : Fin 8} {r s u : State} (h : OnlyThread t r s) (h' : OnlyThread t s u) : OnlyThread t r u := by
  obtain ⟨hth, hmem, hflash, hintc, hfcol, htile, howner, hwant, hregs⟩ := h
  obtain ⟨hth', hmem', hflash', hintc', hfcol', htile', howner', hwant', hregs'⟩ := h'
  exact ⟨fun v hv => (hth' v hv).trans (hth v hv), hmem'.trans hmem, hflash'.trans hflash, hintc'.trans hintc, hfcol'.trans hfcol,
    htile'.trans htile, howner'.trans howner, hwant'.trans hwant, fun a ha => (hregs' a ha).trans (hregs a ha)⟩

theorem TraceOnly.onlyThread {s u : State} (h : TraceOnly s u) (t : Fin 8) : OnlyThread t s u ∧ thread u t = thread s t := by
  obtain ⟨_, _, rfl⟩ := h
  exact ⟨.refl t s, rfl⟩

theorem onlyThread_setThread (t : Fin 8) (f : Thread → Thread) (s : State) : OnlyThread t s (setThread t f s) :=
  ⟨fun _ hv => by rw [thread_setThread_other f s hv], rfl, rfl, rfl, rfl, rfl, rfl, rfl, fun _ _ => rfl⟩

theorem onlyThread_requestHalt {t u : Fin 8} (hu : u ≠ t) (c : HaltCause) (s : State) :
    OnlyThread t s (requestHalt c u s) ∧ thread (requestHalt c u s) t = thread s t := by
  unfold requestHalt
  dsimp only
  split
  · exact ⟨.refl t s, rfl⟩
  · refine ⟨⟨fun v _ => ?_, rfl, rfl, rfl, rfl, rfl, rfl, rfl, fun _ _ => rfl⟩, thread_setThread_other _ s hu.symm⟩
    by_cases hv : v = u
    · subst hv
      rw [thread_setThread_same]
    · rw [thread_setThread_other _ s hv]

theorem onlyThread_crossHalt (t : Fin 8) (c : HaltCause) (s : State) :
    OnlyThread t s (crossHalt t c s) ∧ thread (crossHalt t c s) t = thread s t := by
  unfold crossHalt
  split
  · rename_i hreq
    clear hreq
    generalize List.finRange 8 = l
    induction l generalizing s with
    | nil => exact ⟨.refl t s, rfl⟩
    | cons u l ih =>
      have hu : OnlyThread t s (if u = t then s else requestHalt { cause := causeXhalt } u s) ∧
          thread (if u = t then s else requestHalt { cause := causeXhalt } u s) t = thread s t := by
        split
        · exact ⟨.refl t s, rfl⟩
        · exact onlyThread_requestHalt ‹_› _ s
      obtain ⟨hrest, hth⟩ := ih (if u = t then s else requestHalt { cause := causeXhalt } u s)
      exact ⟨hu.1.trans hrest, hth.trans hu.2⟩
  · exact ⟨.refl t s, rfl⟩

/-- A halt changes of its thread what a halt records. -/
def HaltKept (h k : Thread) : Prop :=
  ∃ st kept haltedBy haltReq stepping tmr tmrLeft, k = { h with
    st := st, kept := kept, haltedBy := haltedBy, haltReq := haltReq, stepping := stepping, tmr := tmr, tmrLeft := tmrLeft }

theorem haltThread_kept {t : Fin 8} {s : State} (htile : (thread s t).inTile = false) (c : HaltCause) :
    OnlyThread t s (haltThread t c s) ∧ HaltKept (thread s t) (thread (haltThread t c s) t) := by
  unfold haltThread
  dsimp only
  rw [if_neg (by rw [htile]; decide)]
  generalize hm : setThread t (fun h => { h with
      st := .halted, kept := h.st, haltedBy := c, haltReq := none, stepping := false
      tmr := none, tmrLeft := h.tmr.map (fun d => d - s.now) }) s = m
  obtain ⟨hset, hth⟩ : OnlyThread t s m ∧ HaltKept (thread s t) (thread m t) := by
    rw [← hm, thread_setThread_same]
    exact ⟨onlyThread_setThread t _ s, ⟨_, _, _, _, _, _, _, rfl⟩⟩
  obtain ⟨htrace, hth'⟩ := (traceOnly_halt t c.cause (thread s t).pc.toNat m).onlyThread t
  obtain ⟨hcross, hth''⟩ := onlyThread_crossHalt t c (traceHalt t c.cause (thread s t).pc.toNat m)
  exact ⟨(hset.trans htrace).trans hcross, by rw [hth'', hth']; exact hth⟩

/-- At the boundary of a thread with no BREAK due nothing but a halt for its step follows. -/
theorem boundary_kept {t : Fin 8} {s : State} (hst : (thread s t).st = .ready) (hbreak : (thread s t).breakDue = none) (stepping : Bool) :
    OnlyThread t s (boundary t stepping s) ∧ HaltKept (thread s t) (thread (boundary t stepping s) t) := by
  have htake : takeBreak t s = s := by
    unfold takeBreak
    dsimp only
    rw [hbreak]
  unfold boundary
  rw [htake]
  unfold endStep
  dsimp only
  split
  · rename_i h
    refine haltThread_kept ?_ _
    simp only [between, hst, Bool.and_eq_true, Bool.or_eq_true, Bool.not_eq_true'] at h
    obtain ⟨-, ⟨⟨⟨⟨-, -⟩, htile⟩, -⟩, -⟩ | hwait⟩ := h
    · exact htile
    · cases hwait
  · exact ⟨.refl t s, ⟨_, _, _, _, _, _, _, rfl⟩⟩

end Sys2Proof.Machine

/-! ## Stores enter the buffer (R356, R369, R503-R506) -/

namespace Sys2Proof.Machine

/-! ### A computed address has the width asked for -/

theorem w_aligned {a b : Access} {wr : Bool} (h : aligned a wr = .inr b) : b.w = a.w := by
  unfold aligned at h
  split at h
  · cases h
  · cases h
    rfl

theorem w_guardedEa {h : Thread} {far : Option Byte} {n : Fin 8} {off : Int} {w : Nat} {wr : Bool} {a : Access}
    (ha : guardedEa h far n off w wr = .inr a) : a.w = w := by
  unfold guardedEa at ha
  dsimp only at ha
  split at ha
  · cases ha
  · split at ha
    · cases ha
    · cases ha
      rfl

theorem w_regEa {h : Thread} {far : Option Byte} {n : Fin 8} {off : Int} {w : Nat} {wr : Bool} {a : Access}
    (ha : regEa h far n off w wr = .inr a) : a.w = w := by
  unfold regEa at ha
  split at ha
  · exact w_aligned ha
  · exact w_guardedEa ha

theorem w_shortEa {h : Thread} {far : Option Byte} {x : BitVec 12} {w : Nat} {wr : Bool} {a : Access}
    (ha : shortEa h far x w wr = .inr a) : a.w = w := by
  unfold shortEa at ha
  split at ha
  · exact w_aligned ha
  · exact w_guardedEa ha

theorem w_eaAccess {h : Thread} {far : Option Byte} {long : Bool} {e : Ea} {w : Nat} {wr : Bool} {a : Access}
    (ha : eaAccess h far long e w wr = .inr a) : a.w = w := by
  cases e with
  | short x => exact w_shortEa ha
  | ind n => exact w_regEa ha
  | postInc n => exact w_regEa ha
  | preDec n => exact w_regEa ha
  | disp n d => exact w_regEa ha

/-! ### The store buffer -/

/-- Draining everything empties the buffer and keeps what running threads compute with. -/
theorem drainAll_kept (s : State) : (drainAll s).mem.sbuf = [] ∧ RunKept { s with mem := { s.mem with sbuf := [] } } (drainAll s) := by
  obtain ⟨hnil, hkept⟩ := sbDrains_kept s.mem.sbuf.length s rfl
  unfold drainAll
  obtain ⟨ticks, out, regs, hw, intc, raises, ha⟩ := elapse_eq (s.mem.sbuf.length * clkTicks s) (sbDrains s.mem.sbuf.length s)
  rw [ha]
  exact ⟨hnil, hkept.trans (runKept_of_th rfl rfl rfl)⟩

/-- The entry of a store. -/
def entryOf (t : Fin 8) (a : Access) (v : Pair) : SbEntry := { addr := a.ea, pair := a.w == 2, data := v, thread := t }

/-- A store that is made enters the buffer, which SEALED empties. -/
theorem store1_done {t : Fin 8} {sl : Bool} {a : Access} {v : Pair} {i : State} {p : Pair × State}
    (h : memDone (store1 t sl a v i) = some p) : store1 t sl a v i = .ok p.1 p.2 ∧
      RunKept { i with mem := { i.mem with sbuf := p.2.mem.sbuf } } p.2 ∧
      (sl = false → p.2.mem.spad = i.mem.spad ∧ p.2.mem.sbuf = i.mem.sbuf ++ [entryOf t a v]) ∧ (sl = true → p.2.mem.sbuf = []) := by
  unfold store1 at h ⊢
  split at h
  · cases h
  · split at h
    · cases h
    · rename_i hfull
      rw [if_neg hfull]
      obtain rfl := Option.some.inj h
      refine ⟨rfl, ?_⟩
      dsimp only
      cases sl with
      | false => exact ⟨.of_stored rfl, fun _ => ⟨rfl, rfl⟩, fun h => by cases h⟩
      | true =>
        obtain ⟨hnil, hkept⟩ := drainAll_kept (sbPush t a.ea a.w v i)
        rw [if_pos rfl, hnil]
        exact ⟨hkept, fun h => by (cases h), fun _ => rfl⟩

/-! ### A thread that has begun, and what a step of it does -/

/-- The thread that has begun its instruction, with what stores may change of it. -/
def BegunKept (h k : Thread) : Prop :=
  ∃ latch tmr tmrLeft stopReq haltReq abortDue inTile begun unmatched, k = { h with
    latch := latch, tmr := tmr, tmrLeft := tmrLeft, stopReq := stopReq, haltReq := haltReq, abortDue := abortDue, inTile := inTile
    begun := begun, unmatched := unmatched }

theorem ThreadKept.begun {h k : Thread} (hk : ThreadKept (begins h) k) : BegunKept h k := by
  obtain ⟨_, _, _, _, _, _, _, rfl⟩ := hk
  exact ⟨_, _, _, _, _, _, _, _, _, rfl⟩

/-- A step `f` of a store changes registers and flags only, and does not look at what stores change. -/
structure StoreStep (f : Thread → Thread) : Prop where
  regs : ∀ h, ∃ r load psw, f h = { h with r := r, load := load, psw := psw }
  same : ∀ h k, BegunKept h k → BegunKept (f h) (f k)

theorem storeStep_putR (x : Fin 16) (g : Word → Word) : StoreStep (fun h => putR x (g (getR h x)) h) where
  regs _ := ⟨_, _, _, rfl⟩
  same _ _ hk := by
    obtain ⟨_, _, _, _, _, _, _, _, _, rfl⟩ := hk
    exact ⟨_, _, _, _, _, _, _, _, _, rfl⟩

theorem storeStep_eaStep (ea : Ea) (w : Nat) : StoreStep (eaStep ea w []) := by
  have hid : StoreStep (fun h => h) := ⟨fun _ => ⟨_, _, _, rfl⟩, fun _ _ => id⟩
  cases ea with
  | postInc n => exact storeStep_putR (aReg n) (· + wd w)
  | preDec n => exact storeStep_putR (aReg n) (· - wd w)
  | short x => exact hid
  | ind n => exact hid
  | disp n d => exact hid

theorem psw_eaStep (ea : Ea) (w : Nat) (h : Thread) : (eaStep ea w [] h).psw = h.psw := by
  cases ea <;> rfl

/-- A step that sets S when a value was clamped. -/
theorem StoreStep.withSat {f : Thread → Thread} (hf : StoreStep f) (sat : Bool) :
    StoreStep (fun h => setPsw (withSat h.psw sat) (f h)) where
  regs h := by
    obtain ⟨r, load, psw, heq⟩ := hf.regs h
    exact ⟨r, load, _, by rw [heq]; rfl⟩
  same h k hk := by
    obtain ⟨_, _, _, _, _, _, _, _, _, heq⟩ := hf.same h k hk
    rw [heq]
    obtain ⟨_, _, _, _, _, _, _, _, _, rfl⟩ := hk
    exact ⟨_, _, _, _, _, _, _, _, _, rfl⟩

/-! ### Any store -/

/-- What holds once a store with entry `e` and step `f` is made, `r` being the state before it. -/
def StoreMade (pre : List Prefix) (e : SbEntry) (f : Thread → Thread) (r m : State) (h k : Thread) : Prop :=
  SpecialsKept h k ∧
  (∀ i : Fin 5, k.psw.getLsbD i = ((f h).psw.getLsbD i && !(i.val == 0 && (sealedOf pre).isSome))) ∧
  (∀ x : Fin 16, getR k x = landed (f h) x) ∧
  ((sealedOf pre).isNone → m.mem.spad = r.mem.spad ∧ m.mem.sbuf = r.mem.sbuf ++ [e]) ∧
  ((sealedOf pre).isSome → m.mem.sbuf = [])

/-- After SEALED flag C is 0 (R356). -/
def sealedFlags (pre : List Prefix) (psw : Word) : Word := if (sealedOf pre).isSome then withC psw false else psw

theorem getLsbD_sealedFlags (pre : List Prefix) (psw : Word) (i : Fin 5) :
    (sealedFlags pre psw).getLsbD i = (psw.getLsbD i && !(i.val == 0 && (sealedOf pre).isSome)) := by
  unfold sealedFlags
  cases (sealedOf pre).isSome with
  | false => simp
  | true =>
    rw [if_pos rfl, withC, getLsbD_putBit _ _ _ _ (by omega)]
    by_cases hi : i.val = 0 <;> simp [hi]

theorem sealedDone_eq (t : Fin 8) (pre : List Prefix) (f : Thread → Thread) (acc : List Seen) (m : State) :
    sealedDone t pre { s := setThread t f m, acc := acc } =
      { s := setThread t (fun h => setPsw (sealedFlags pre (f h).psw) (f h)) m, acc := acc } := by
  unfold sealedDone sealedFlags setC
  cases (sealedOf pre).isSome with
  | false => rfl
  | true =>
    dsimp only
    rw [if_pos rfl, setThread_setThread]
    rfl

/-- The thread `k` after step `f` of a store and SEALED's flag, against the thread `h` before the instruction. -/
structure Stepped (pre : List Prefix) (f : Thread → Thread) (h k : Thread) : Prop where
  regs : k.r = (f h).r ∧ k.load = (f h).load
  flags : k.psw = sealedFlags pre (f h).psw
  specials : SpecialsKept h k
  saved : k.lr = h.lr ∧ k.epc = h.epc ∧ k.epsw = h.epsw ∧ k.ecause = h.ecause ∧ k.eaddr = h.eaddr ∧ k.estat = h.estat
  place : k.slot = h.slot ∧ k.pc = h.pc
  runs : k.st = h.st ∧ k.breakDue = h.breakDue

theorem stepped {f : Thread → Thread} (hf : StoreStep f) (pre : List Prefix) {h k : Thread} (hk : ThreadKept (begins h) k) :
    Stepped pre f h (setPsw (sealedFlags pre (f k).psw) (f k)) := by
  obtain ⟨_, _, _, _, _, _, _, _, _, hsame⟩ := hf.same h k hk.begun
  obtain ⟨r, load, w, heq⟩ := hf.regs h
  rw [hsame, heq]
  exact ⟨by rw [heq]; exact ⟨rfl, rfl⟩, by rw [heq]; rfl, ⟨rfl, rfl, rfl, rfl, rfl, rfl, rfl⟩, ⟨rfl, rfl, rfl, rfl, rfl, rfl⟩,
    ⟨rfl, rfl⟩, ⟨rfl, rfl⟩⟩

theorem levels_sealedFlags (pre : List Prefix) (psw : Word) : fld (sealedFlags pre psw) 8 2 = fld psw 8 2 := by
  unfold sealedFlags
  split
  · exact fld_putBit_other _ 0 _ 8 2 (by decide) (by decide)
  · rfl

/-- The instruction ends in the state `n` that its store and its step leave. -/
theorem stepped_ends {r n : State} {t : Fin 8} {pre : List Prefix} {op : Op} {f : Thread → Thread}
    (hstep : Stepped pre f (thread r t) (thread n t)) (hdep : fld (f (thread r t)).psw 8 2 = fld (thread r t).psw 8 2)
    (hslot : slotPlain (thread r t) = true) (hready : (thread r t).st = .ready) (hbreak : (thread r t).breakDue = none)
    (hq : Unwatched n t) (acc : List Seen) {u : State} {stepping : Bool}
    (hu : u = boundary t stepping (complete t (nextPc r t pre op) { s := n, acc := acc })) :
    OnlyThread t n u ∧ SpecialsKept (thread r t) (thread u t) ∧
      (∀ i : Fin 5, (thread u t).psw.getLsbD i = (sealedFlags pre (f (thread r t)).psw).getLsbD i) ∧
      (∀ x : Fin 16, getR (thread u t) x = landed (f (thread r t)) x) ∧ SavedKept (thread r t) (thread u t) ∧
      PcIs r t pre op (thread u t) (nextPc r t pre op) := by
  obtain ⟨⟨hr, hload⟩, hflags, ⟨hac, hsg, hbk, hvbase, hctx, hls, hle⟩, ⟨hlr, hepc, hepsw, hecause, headdr, hestat⟩, ⟨hslot', hpc⟩,
    hst, hbreak'⟩ := hstep
  have hplain : slotPlain (thread n t) = true := by
    rw [slotPlain, hslot']
    exact hslot
  obtain ⟨k, hk, hcomplete⟩ := complete_plain (nextPc r t pre op) acc hq hplain
  obtain ⟨hkr, ⟨hkac, hksg, hkbk, hkvbase, hkctx, hkls, hkle⟩, hkflags, hklr, ⟨hkepc, hkepsw, hkecause, hkeaddr, hkestat⟩,
    ⟨hkst, hkbreak⟩, hkpc⟩ := hk
  rw [hcomplete] at hu
  have hth : thread (setThread t (fun _ => k) n) t = k := thread_setThread_same t _ n
  obtain ⟨honly, hhalt⟩ := boundary_kept (t := t) (s := setThread t (fun _ => k) n) (by rw [hth, hkst, hst, hready])
    (by rw [hth, hkbreak, hbreak', hbreak]) stepping
  rw [← hu, hth] at hhalt
  rw [← hu] at honly
  obtain ⟨_, _, _, _, _, _, _, hut⟩ := hhalt
  have hloop : atLoopEnd (thread n t) (nextPc r t pre op) = atLoopEnd (thread r t) (nextPc r t pre op) :=
    atLoopEnd_congr hle (by rw [hflags, levels_sealedFlags, hdep]) _
  rw [hut]
  dsimp only [SpecialsKept, SavedKept, PcIs, getR, landed]
  refine ⟨(onlyThread_setThread t _ n).trans honly,
    ⟨hkac.trans hac, hksg.trans hsg, hkbk.trans hbk, hkvbase.trans hvbase, hkctx.trans hctx, hkls.trans hls, hkle.trans hle⟩,
    fun i => (hkflags i).trans (by rw [hflags]), fun x => ?_,
    ⟨fun h => (hklr (hslot'.trans h)).trans hlr,
      fun _ => ⟨hkepc.trans hepc, hkepsw.trans hepsw, hkecause.trans hecause, hkeaddr.trans headdr, hkestat.trans hestat⟩⟩,
    fun h hend _ => hkpc (hslot'.trans h) (hloop.trans hend)⟩
  rw [hkr, hr, hload]

/-- An instruction whose body is a store: when it executes with a checked address and no comparator looks, it is made. -/
theorem store_runs {r : State} {t : Fin 8} {pre : List Prefix} {op : Op} {acc : Exc ⊕ Access} {v : Pair} {f : Thread → Thread}
    (hf : StoreStep f) (hbody : ∀ len i, thread i t = begins (thread r t) →
      bodyOf t pre len (nextPc r t pre op) op i = storeThen t pre acc v i f)
    (hdep : fld (f (thread r t)).psw 8 2 = fld (thread r t).psw 8 2)
    (hexec : executes r t pre op = true) (hslot : slotPlain (thread r t) = true) (hquiet : dataQuiet r t = true)
    {a : Access} (ha : acc = .inr a) {p : Pair × State}
    (hp : memDone (store1 t (sealedOf pre).isSome a v (issued r t pre op)) = some p) :
    StoreMade pre (entryOf t a v) f r p.2 (thread r t) (thread (runInstr t pre op r) t) ∧ OnlyThread t p.2 (runInstr t pre op r) ∧
      SavedKept (thread r t) (thread (runInstr t pre op r) t) ∧
      PcIs r t pre op (thread (runInstr t pre op r) t) (nextPc r t pre op) := by
  obtain ⟨hq, hbreak⟩ := unwatched_of_quiet hquiet
  obtain ⟨himem, hix, hith⟩ := issued_kept hq pre op
  obtain ⟨hstore, hkept, hplain, hsealed⟩ := store1_done hp
  obtain ⟨len, hrun⟩ := runInstr_executes hexec hq
  rw [hbody len _ hith, ha, storeThen, hstore] at hrun
  dsimp only [applyRes] at hrun
  rw [sealedDone_eq] at hrun
  obtain ⟨_, m⟩ := p
  dsimp only at hstore hkept hplain hsealed hrun ⊢
  generalize issued r t pre op = i at *
  have hst : (thread r t).st = .ready := by
    have hbetween := hexec
    simp only [executes, comesToGuard, canIssue, between, Bool.and_eq_true, beq_iff_eq] at hbetween
    obtain ⟨⟨⟨⟨⟨⟨⟨⟨⟨⟨⟨⟨⟨hst, -⟩, -⟩, -⟩, -⟩, -⟩, -⟩, -⟩, -⟩, -⟩, -⟩, -⟩, -⟩, -⟩ := hbetween
    exact hst
  have hthread : ThreadKept (begins (thread r t)) (thread m t) := by
    have h := hkept.th t (by
      show Executing (thread i t)
      rw [hith]
      exact ⟨hst, rfl⟩)
    rw [← hith]
    exact h
  have hstep := stepped hf pre hthread
  generalize hm : setThread t (fun h => setPsw (sealedFlags pre (f h).psw) (f h)) m = n at hrun
  have hn : thread n t = setPsw (sealedFlags pre (f (thread m t)).psw) (f (thread m t)) := by
    rw [← hm, thread_setThread_same]
  have hmn : OnlyThread t m n := hm ▸ onlyThread_setThread t _ m
  have hxn (a : Fin 128) : xreg n (0x100 + a.val) = xreg r (0x100 + a.val) := by
    rw [← hm]
    exact (hkept.cmp a).trans (congrArg (cget xReset · (0x100 + a.val)) hix)
  rw [← hn] at hstep
  have hqn : Unwatched n t := hq.congr hxn (by
    obtain ⟨-, -, -, -, hctx, -⟩ := hstep.specials
    exact hctx)
  obtain ⟨honly, hspecials, hflags, hregs, hsaved, hpc⟩ := stepped_ends hstep hdep hslot hst hbreak hqn _ hrun
  refine ⟨⟨hspecials, fun i => (hflags i).trans (getLsbD_sealedFlags ..), hregs, fun hno => ?_, hsealed⟩, hmn.trans honly, hsaved, hpc⟩
  obtain ⟨hspad, hsbuf⟩ := hplain (by rw [← Option.not_isNone, hno]; rfl)
  rw [himem] at hspad hsbuf
  exact ⟨hspad, hsbuf⟩

end Sys2Proof.Machine

/-! ## ST, STP, PUSH, ACST and ACST.R to memory (R369, R370, R375) -/

namespace Sys2Proof.Machine

section
variable {r i : State} {t : Fin 8}

/-- What the body computes of a thread that has begun it computes of the thread before. -/
theorem stBody_begun (hi : thread i t = begins (thread r t)) (pre : List Prefix) (pair : Bool) (rs : Fin 16) (ea : Ea) :
    stBody t pre pair rs ea i = storeThen t pre (eaAccess (thread r t) (farOf pre) (hasLong pre) ea (wordCount pair) true)
      (regVal (thread r t) pair rs) i (eaStep ea (wordCount pair) []) := by
  unfold stBody
  dsimp only
  rw [hi]
  cases ea <;> rfl

theorem pushBody_begun (hi : thread i t = begins (thread r t)) (pre : List Prefix) (rs : Fin 16) :
    pushBody t pre rs i = storeThen t pre
      (regEa (thread r t) none 7 (aOff (thread r t) 7 - wordCount (hasPair pre)) (wordCount (hasPair pre)) true)
      (regVal (thread r t) (hasPair pre) rs) i (fun h => putR 15 (getR h 15 - wd (wordCount (hasPair pre))) h) := by
  unfold pushBody
  dsimp only
  rw [hi]
  rfl

theorem acstMBody_begun (hi : thread i t = begins (thread r t)) (pre : List Prefix) (round : Bool) (ea : Ea) :
    acstMBody t pre round ea i = storeThen t pre
      (eaAccess (thread r t) (farOf pre) (hasLong pre) ea (wordCount (hasPair pre)) true)
      (accStore round (hasSat pre) (hasPair pre) (getAcc (thread r t) (accNo pre))).1 i
      (fun h => setPsw (withSat h.psw (accStore round (hasSat pre) (hasPair pre) (getAcc (thread r t) (accNo pre))).2)
        (eaStep ea (wordCount (hasPair pre)) [] h)) := by
  unfold acstMBody
  dsimp only
  rw [hi]
  cases ea <;> rfl

end

theorem getLsbD_withSat (psw : Word) (sat : Bool) {i : Nat} (hi : i < 16) :
    (withSat psw sat).getLsbD i = (psw.getLsbD i || (i == 4 && sat)) := by
  unfold withSat
  cases sat with
  | false => simp
  | true =>
    rw [if_pos rfl, getLsbD_putBit _ _ _ _ hi]
    by_cases h : i = 4 <;> simp [h]

theorem levels_withSat (psw : Word) (sat : Bool) : fld (withSat psw sat) 8 2 = fld psw 8 2 := by
  unfold withSat
  split
  · exact fld_putBit_other _ 4 _ 8 2 (by decide) (by decide)
  · rfl

/-- A store of registers by a computed address. -/
theorem regStore_runs {r : State} {t : Fin 8} {pre : List Prefix} {op : Op} {ea : Ea} {w : Nat} {v : Thread → Pair}
    (hbody : ∀ len i, thread i t = begins (thread r t) → bodyOf t pre len (nextPc r t pre op) op i =
      storeThen t pre (eaAccess (thread r t) (farOf pre) (hasLong pre) ea w true) (v (thread r t)) i (eaStep ea w [])) :
    RunsAccess t pre op (fun h => eaAccess h (farOf pre) (hasLong pre) ea w true)
      (fun h a m => store1 t (sealedOf pre).isSome a (v h) m) (fun a _ m h k => SpecialsKept h k ∧ FlagsKept pre h k ∧
      (∀ x : Fin 16, getR k x = landed (eaStep ea w [] h) x) ∧
      ((sealedOf pre).isNone → m.mem.spad = r.mem.spad ∧ m.mem.sbuf = r.mem.sbuf ++ [{ addr := a.ea, pair := w == 2, data := v h, thread := t }]) ∧
      ((sealedOf pre).isSome → m.mem.sbuf = [])) r (runInstr t pre op r) := by
  intro hexec hslot hquiet a ha p hp
  have ha := Sum.getRight?_eq_some_iff.mp ha
  have hw := w_eaAccess ha
  obtain ⟨⟨hspecials, hflags, hregs, hplain, hsealed⟩, hrest⟩ := store_runs (storeStep_eaStep ea w) hbody
    (by rw [psw_eaStep]) hexec hslot hquiet ha hp
  rw [psw_eaStep] at hflags
  rw [entryOf, hw] at hplain
  exact ⟨⟨hspecials, hflags, hregs, hplain, hsealed⟩, hrest⟩

/-- A push. -/
theorem push_runs (pre : List Prefix) (rs : Fin 16) (r : State) (t : Fin 8) :
    RunsAccess t pre (.push rs) (fun h => regEa h none 7 (aOff h 7 - (wordCount (hasPair pre))) (wordCount (hasPair pre)) true)
      (fun h a m => store1 t (sealedOf pre).isSome a (regVal h (hasPair pre) rs) m) (fun a _ m h k => SpecialsKept h k ∧ FlagsKept pre h k ∧
      (∀ x : Fin 16, getR k x = landed (putR 15 (getR h 15 - wd (wordCount (hasPair pre))) h) x) ∧
      ((sealedOf pre).isNone → m.mem.spad = r.mem.spad ∧ m.mem.sbuf = r.mem.sbuf ++
        [{ addr := a.ea, pair := (wordCount (hasPair pre)) == 2, data := (regVal h (hasPair pre) rs), thread := t }]) ∧
      ((sealedOf pre).isSome → m.mem.sbuf = [])) r (runInstr t pre (.push rs) r) := by
  intro hexec hslot hquiet a ha p hp
  have ha := Sum.getRight?_eq_some_iff.mp ha
  have hw := w_regEa ha
  obtain ⟨⟨hspecials, hflags, hregs, hplain, hsealed⟩, hrest⟩ := store_runs (op := .push rs) (storeStep_putR 15 (· - wd (wordCount (hasPair pre))))
    (fun _ _ hi => pushBody_begun hi pre rs) rfl hexec hslot hquiet ha hp
  rw [entryOf, hw] at hplain
  exact ⟨⟨hspecials, hflags, hregs, hplain, hsealed⟩, hrest⟩

/-- A store of an accumulator: S is set when it was clamped. -/
theorem acst_runs (pre : List Prefix) (round : Bool) (ea : Ea) (r : State) (t : Fin 8) :
    RunsAccess t pre (.acstM round ea) (fun h => eaAccess h (farOf pre) (hasLong pre) ea (wordCount (hasPair pre)) true)
      (fun h a m => store1 t (sealedOf pre).isSome a (accStore round (hasSat pre) (hasPair pre) h.ac[accNo pre]).1 m)
      (fun a _ m h k => SpecialsKept h k ∧
      (∀ i : Fin 4, k.psw.getLsbD i = (h.psw.getLsbD i && !(i.val == 0 && (sealedOf pre).isSome))) ∧
      k.psw.getLsbD pS = (h.psw.getLsbD pS || (accStore round (hasSat pre) (hasPair pre) h.ac[accNo pre]).2) ∧
      (∀ x : Fin 16, getR k x = landed (eaStep ea (wordCount (hasPair pre)) [] h) x) ∧
      ((sealedOf pre).isNone → m.mem.spad = r.mem.spad ∧ m.mem.sbuf = r.mem.sbuf ++ [{ addr := a.ea, pair := (wordCount (hasPair pre)) == 2, data := (accStore round (hasSat pre) (hasPair pre) h.ac[accNo pre]).1, thread := t }]) ∧
      ((sealedOf pre).isSome → m.mem.sbuf = [])) r (runInstr t pre (.acstM round ea) r) := by
  intro hexec hslot hquiet a ha p hp
  have ha := Sum.getRight?_eq_some_iff.mp ha
  have hw := w_eaAccess ha
  obtain ⟨⟨hspecials, hflags, hregs, hplain, hsealed⟩, hrest⟩ :=
    store_runs (op := .acstM round ea) ((storeStep_eaStep ea (wordCount (hasPair pre))).withSat _) (fun _ _ hi => acstMBody_begun hi pre round ea)
      (levels_withSat _ _) hexec hslot hquiet ha hp
  rw [entryOf, hw] at hplain
  refine ⟨⟨hspecials, fun i => ?_, ?_, hregs, hplain, hsealed⟩, hrest⟩
  · refine (hflags ⟨i, by omega⟩).trans ?_
    dsimp only [setPsw]
    rw [getLsbD_withSat _ _ (by omega), beq_eq_false_iff_ne.mpr (show i.val ≠ 4 by omega), Bool.false_and, Bool.or_false]
  · refine (hflags 4).trans ?_
    dsimp only [setPsw]
    rw [getLsbD_withSat _ _ (by decide)]
    exact Bool.and_true _

/-- Settles O31: an executing store comes to its body with its thread begun, its entry joins the buffer or SEALED drains it,
and drains write registers that a running thread does not compute with. -/
theorem storesEnterTheBuffer : Obligations.StoresEnterTheBuffer := by
  unfold Obligations.StoresEnterTheBuffer
  intro s t pre rs ea hup
  have hmem : (ready 0 s).mem = s.mem := by
    obtain ⟨_, _, _, _, _, _, _, h⟩ := ready_eq 0 s
    rw [h]
  rw [← hmem]
  exact ⟨ActsAfter.of rfl hup (regStore_runs (v := fun h => (getR h rs).setWidth 32) fun _ _ hi => stBody_begun hi pre false rs ea),
    ActsAfter.of rfl hup (regStore_runs (v := fun h => getPair h rs) fun _ _ hi => stBody_begun hi pre true rs ea),
    ActsAfter.of rfl hup (push_runs pre rs _ t), ActsAfter.of rfl hup (acst_runs pre false ea _ t),
    ActsAfter.of rfl hup (acst_runs pre true ea _ t)⟩

end Sys2Proof.Machine
